-- ==== Sys2Proof/Word.lean ====
section
/-! DEFINITION. The plain data types of the model: bytes, bit fields of a register word, and sparse maps.
A register of the object dictionary is a number below 2^(8 * size) (R433, R434). -/

namespace Sys2Proof

/-- One byte. -/
abbrev Byte := BitVec 8


/-- A sparse map from numbers to `α`, in one canonical form: keys strictly rising, no entry equal to the
default that an unlisted key reads as. -/
abbrev SMap (α : Type) := List (Nat × α)

end Sys2Proof
end

