-- ==== Sys2Proof/Syntax.lean ====
section
/-! DEFINITION. The commands of the block: one constructor for each row of spec/opcode_table.json, with the
row's operands. A tile instruction carries the fields of its own field map; an event that the outside or an
analogue part decides (a light level, an eye opening, a sensor reading, the end of a memory copy) carries what
was decided. -/

namespace Sys2Proof

/-- Where a tile instruction issues, and its predicate (R202): physical tile, predicate flag, pred_neg. -/
structure Iss where
  tile : Nat
  pred : Nat
  neg  : Bool
deriving DecidableEq, Repr

/-- Fields of MAC and CMAC (R214). -/
structure MacOps where
  dest : Nat
  k4 : Bool
  xSigned : Bool
  wSigned : Bool
  zx : Nat
  src : Nat
  ptr : Nat
  postInc : Bool
  slice : Nat
deriving DecidableEq, Repr

/-- Fields of SBOPN (R221). -/
structure SbopnOps where
  buf : Nat
  src : Nat
  countM : Nat
  h : Nat
  target : Nat
  layer : Nat
  position : Nat
  phaseReg : Nat
deriving DecidableEq, Repr

/-- Fields of RQ (R223). -/
structure RqOps where
  file : Nat
  nM : Nat
  ptr : Nat
  dbuf : Nat
  dslot : Nat
  inUnit : Bool
  inSlot : Nat
  mK : Nat
  eK : Int
  fmt : Nat
  zp : Nat
  lutEn : Bool
  lut : Nat
deriving DecidableEq, Repr

/-- An operand of AADD or AMAX (R226). -/
structure AlnOp where
  row : Bool
  file : Nat
  ptr : Nat
  buf : Nat
  slot : Nat
  fmt : Nat
  zp : Nat
deriving DecidableEq, Repr

/-- Fields of MARK (R251). -/
structure MarkOps where
  src : Nat
  ptr : Nat
  offset : Nat
  sreg : Nat
  fmt : Nat
  score : Nat
  zp : Nat
deriving DecidableEq, Repr

/-- What the ECC of a memory finds in the word read: nothing, a corrected bit, or an uncorrectable word (R272, R288). -/
inductive Ecc where
  | clean | corrected | bad
deriving DecidableEq, Repr

/-- Crossing class and sending island of a token (R185, R197). -/
structure Crossing where
  cls : Nat
  sender : Nat
deriving DecidableEq, Repr

/-- Lane `n` of engine `e` (a quay below 20, a link engine from 20). -/
structure LaneAt where
  e : Nat
  n : Nat
deriving DecidableEq, Repr

/-- What the slicer of a receiver gives the DFE (R48): the sample before the subtraction less target(d[n]), in thirds of tap_lsb,
and the bits of d[n-1], d[n-2], … -/
structure Sliced where
  diff : Int
  syms : List Nat
deriving DecidableEq, Repr

/-- The paths on which an access reaches the dictionary (R440). -/
inductive Path where
  | hot | slot (n : Nat) | can
deriving DecidableEq, Repr

/-- What a module, berth or jetty summary, or a harbour combine, carries (R380); `tail` is data block 1. -/
structure Summ where
  frame : Nat
  accept : Nat
  raw : Nat
  void : Bool
  faulted : Bool
  module : Nat
  excluded : Nat
  included : Nat
  tail : Nat
deriving DecidableEq, Repr

/-- One Ethernet frame met by a PTP port, as far as R414 and R415 look at it. -/
structure PtpFrame where
  bytes : Nat
  fcsOk : Bool
  vlanTags : Nat
  etherType : Nat
  udpPort : Option Nat  -- UDP destination port of an IP packet
  checksum : Nat        -- UDP checksum
  msgType : Nat         -- messageType of a PTP message
  toOwn : Bool          -- addressed to one of the engine's own port identities
  correction : Int      -- correctionField, 2^-16 ns
  ingress : Nat         -- instants at the two cages on the main clock, 2^-32 ns
  egress : Nat
  rest : List Nat       -- the other bytes
deriving DecidableEq, Repr

/-- What the messages of a Sync and Delay_Req exchange carry (R416): the master's times of the Sync's sending and of the Delay_Req's
receipt, the instant of the Sync at the cage on the main clock, all in 2^-32 ns, and the correctionFields of Sync and Follow_Up together
and of Delay_Resp, in 2^-16 ns. -/
structure Exch where
  t1 : Nat
  t2 : Nat
  t4 : Nat
  corrSync : Int
  corrResp : Int
deriving DecidableEq, Repr

/-- The commands. -/
inductive Instr where
  -- Xanveno, array and post units (07)
  | xld (t : Iss) (src ptr : Nat) (postInc : Bool) (slice offset : Nat)
  | wld (t : Iss) (ptr laneBase chunksM : Nat) (zpSram : Bool) (zwImm : Nat)
  | wswp (t : Iss)
  | mac (t : Iss) (o : MacOps)
  | cmac (t : Iss) (o : MacOps) (phaseReg position : Nat)
  | bias (t : Iss) (file nM ptr : Nat)
  | scan (t : Iss) (file nM sdst : Nat)
  | sbtrk (t : Iss) (buf ptr : Nat) (trackExp : Int) (kM frac : Nat)
  | sbopn (t : Iss) (o : SbopnOps)
  | rq (t : Iss) (o : RqOps)
  | ltld (t : Iss) (table ptr : Nat)
  | lut (t : Iss) (src dst nM table inFmt outFmt : Nat)
  | aadd (t : Iss) (dest nM : Nat) (x y : AlnOp)
  | amax (t : Iss) (dest nM : Nat) (x y : AlnOp)
  | gath (t : Iss) (src idx dst nM nsrcM fmt zp : Nat)
  -- Xanveno, control, scalar and movement (08)
  | pad (t : Iss) (nM : Nat)
  | fwait (t : Iss) (off : Nat)
  | loop (t : Iss) (countM lenM : Nat)
  | halt (t : Iss)
  | fsel (t : Iss) (lag : Nat) (wrS : Bool) (sdst pdst : Nat)
  | mark (t : Iss) (o : MarkOps)
  | mchk (t : Iss) (cm : Nat) (clear : Bool)
  | add (t : Iss) (sd sa sb : Nat)
  | sub (t : Iss) (sd sa sb : Nat)
  | andR (t : Iss) (sd sa sb : Nat)
  | orR (t : Iss) (sd sa sb : Nat)
  | xorR (t : Iss) (sd sa sb : Nat)
  | shl (t : Iss) (sd sa sb : Nat)
  | shr (t : Iss) (sd sa sb : Nat)
  | sra (t : Iss) (sd sa sb : Nat)
  | addi (t : Iss) (sd sa imm : Nat)
  | movi (t : Iss) (sd imm : Nat)
  | cmp (t : Iss) (pd cond sa sb : Nat)
  | cmpi (t : Iss) (pd cond sa imm : Nat)
  | pfop (t : Iss) (pd pa pb op : Nat)
  | pset (t : Iss) (pd imm : Nat)
  | padd (t : Iss) (pd pa : Nat) (useReg : Bool) (sb imm : Nat)
  | pmov (t : Iss) (toP : Bool) (sreg preg : Nat)
  | sld (t : Iss) (sreg ptr offset : Nat)
  | sst (t : Iss) (sreg ptr offset : Nat)
  | rsnd (t : Iss) (dir ptr lenM : Nat) (postInc : Bool)
  | rrcv (t : Iss) (dir ptr lenM : Nat) (postInc : Bool)
  | srcv (t : Iss) (dir ptr lenM : Nat) (postInc tagEn : Bool) (sdst pdst : Nat)
  | tsnd (t : Iss) (ptr : Nat) (postInc : Bool)
  | trcv (t : Iss) (ptr : Nat) (postInc : Bool)
  | tdi (t : Iss) (ptr : Nat) (postInc : Bool)
  | slld (t : Iss) (buf ptr phaseReg position : Nat)
  | slst (t : Iss) (buf ptr : Nat)
  | slsnd (t : Iss) (buf port : Nat)
  | slrcv (t : Iss) (buf port phaseReg position : Nat)
  -- network, memory and tenders (06, 09)
  | tideSlot
  | crossingComplete (isl : Nat) (x : Crossing) (due margin : Nat)
  | eavesSlot (port : Nat)
  | eavesInboundWord (port : Nat)
  | descriptorIntake (die source desc : Nat)
  | tenderWord (t : Nat) (ecc : Ecc)
  | tenderCopyDone (t : Nat)
  | tenderDataWord (p : Nat)
  | completionDelivery (die : Nat)
  -- lanes (02)
  | signalDetectChange (e ch : Nat) (up : Bool)
  | dataBlock (e n payload : Nat)
  | damagedBlock (lane : LaneAt) (payload : Nat)
  | invalidControlBlock (lane : LaneAt) (payload : Nat)
  | idleBlock (e n : Nat)
  | frameOpen (q n frame flags : Nat)
  | frameClose (q n crc : Nat)
  | laneMarker (e n ident : Nat)
  | trainingBlock (e n payload : Nat)
  | markerMissed (e n : Nat)
  | skewOverrun (q g : Nat)
  | blockLockSet (e ch : Nat)
  | blockLockLoss (e ch : Nat) (cdr : Bool)
  | relockDone (e ch : Nat) (ok : Bool)
  | blockLockSearchStep (e ch : Nat) (locked : Bool)
  | dfeUpdate (e ch ui : Nat) (x : Sliced)
  | fomMeasure (e ch : Nat) (u l : List (List Nat))
  | ctleTrack (e ch fomNew : Nat)
  | startBringup (e ch : Nat)
  | bringupStepDone (gk : Nat) (foms : List (List Nat))
  | bringupStateOverrun (gk : Nat)
  | bringupTimeout (gk : Nat)
  | powerStateWrite (e ch v : Nat)
  | powerStateReached (e ch : Nat)
  | slipWrite (e ch v : Nat)
  | laneMapWrite (e : Nat) (tx : Bool) (n ch : Nat)
  -- landing and calibration (03, 05, 09)
  | scheduleBind
  | slotRelease (q : Nat)
  | replayCourseRead (q : Nat)
  | courseHeaderWrite (q frame : Nat)
  | calWindowClose (layer kind : Nat)
  | calibrationEvent
  | layerTotalsRefresh
  -- decision path (10)
  | markArrival (p : Nat)
  | ridgeEvaluate
  | pinRelease
  | acceptPulseEnd (o : Nat)
  | menuCheck (uncorrectable : Bool)
  | doubtRegister (k : Nat)
  | releaseHoldEnd
  | holdoffRelease
  -- capture (11)
  | hostCapture (frame pre post mask dest : Nat)
  | requestStart
  | fragmentCopyDone (seq k : Nat) (ok : Bool)
  | fragmentRereadDone (seq k : Nat)
  | fragmentTimeout (seq k : Nat)
  | recordPublish (link : Bool)
  | hostRingNotify
  | linkEgressRecord
  | windowSlotBind
  | verdictMark (p : Nat)
  | verdictDeadline (z : Nat)
  | windowCopyDone (seq : Nat)
  | captureAbort (seq : Nat) (all : Bool)
  | rearm
  | hostConsumerWrite (v : Nat)
  -- berths and harbours (13)
  | berthCalibrationEnd
  | calibrationReport (k dMax dMin : Nat) (unstable moored patient : Bool)
  | berthReportFramesEnd
  | summaryMessage (k : Nat) (m : Summ)
  | berthCombineClose
  | berthWordSend (port : Nat)
  | berthWord (k word sent : Nat)
  | berthWordDelivery (k : Nat)
  | relayMessage (m : Summ) (kind : Nat)
  | uplinkSummary (m : Summ) (kind src : Nat)
  | jettyCombineClose
  | harbourCombineClose
  | harbourCombine (m : Summ)
  | harbourCalibrationEnd
  -- time (14)
  | mainIncrementWrite (v : Nat)
  | mainTime (v : Nat)
  | timeAdjust (v : Int)
  | fallbackCommit
  | fallbackRefit
  | clockFault (island cause : Nat)
  | ptpFrameForward (port : Nat) (f : PtpFrame)
  | ptpAnnounce (d port master : Nat) (best : Bool) (utc : Int)
  | delayReqSend (d : Nat)
  | ptpExchange (d : Nat) (x : Exch) (sNs ident : Nat) (logSync : Int)
  | domainTimeout (d : Nat)
  | holdoverExpiry
  | serveSync (port : Nat)
  | serveAnnounce (port : Nat)
  | serveDelayResp (port reqId : Nat)
  | txStamp (port msgType ident stamp : Nat)
  | trigEdge (i : Nat) (rising : Bool) (bin : Nat)
  | timelineRelease
  | timelineConsumerWrite (v : Nat)
  -- jobs (12, 15, 18)
  | load
  | unload
  | arm
  | disarm
  | start
  | pause
  | pauseTakesEffect
  | resume
  | resumeTakesEffect
  | save
  | savePark
  | saveCopyDone (cause : Nat)
  | restore
  | restart
  | berthRestartFrame
  -- dictionary, CAN FD and host link (15)
  | usdoDownload (idx sub len value : Nat)
  | usdoUpload (idx sub : Nat)
  | nmtStart
  | nmtStop
  | nmtPreOperational
  | nmtResetCommunication
  | nmtResetNode
  | classicalFrame
  | heartbeat
  | emcyTransmit
  | slotAccess (slot idx sub : Nat) (write notify : Bool) (len value : Nat)
  | hotRegisterWrite (off value : Nat)
  | featureLatch (driver : Nat)
  | bar2Write (off : Nat) (bytes : List Byte)
  | storeParameters (key : Nat) (ok : Bool)
  | restoreDefaultParameters (key : Nat)
  | registerWrite (path : Path) (idx sub len value : Nat)
  -- reset and start-up (16, 17)
  | powerOnReset
  | resetN
  | resetNRelease
  | watchdogExpiry
  | softwareReset (key : Nat)
  | perstAssert
  | blockReset (kind num : Nat)
  | blockResetRelease
  | trimAttemptDone (ok : Bool)
  | startupStepDone (ok : Bool) (a hbmMask ddrMask : Nat)
  | pllRetry (ok : Bool)
  | bootGo (bytes : Nat) (image : List Byte)
  | ddrReady
  | supplyDoubt (rail reading : Nat)
  | supplyDoubtClear
  | telemetrySample (temps : List (Nat × Int)) (rails : List (Nat × Nat × Nat)) (power : Nat)
  -- patrol, spares and background (09, 18)
  | sramPatrol (p row corrected uncorrected : Nat)
  | tablePatrol (kind unit idx : Nat) (corrected uncorrectable : Bool)
  | memoryPatrol (kind unit addr corrected : Nat) (uncorrectable : Bool)
  | spareSelfTest (p : Nat) (ok : Bool)
  | laserWearSample (bank src wear : Nat) (weak : Bool)
  | laserSwapDone (bank : Nat) (ok : Bool)
  -- recorder and security (19)
  | recorderOperation
  | summaryInterval
  | recorderSlot (path : Path) (slot : Nat)
  | firmwareBegin
  | firmwareData (value : Nat)
  | firmwareGo (target : Nat)
  | firmwareWriteDone
  | messageBegin
  | messageData (value : Nat)
  | keyInstall
  | keyRevoke
  | imageFloor
  | firmwareFloor
  | debugOpen
  | debugClose
  | attestationGo
  | attestationReady
  -- rows added at the end of the table
  | mainClockTick
  | powerOnResetRelease
  | perstRelease
  | ptpLinkChange (port : Nat) (up : Bool)
  | unitOutOfService (kind num : Nat)
  | islandGeneratorLocked (island : Nat)
  | restoreDone (cause : Nat)
  | hotRefusalRead
deriving DecidableEq, Repr

end Sys2Proof
end

