-- ==== Sys2Proof/Config.lean ====
section
/-! DEFINITION. What the spec leaves to an implementation or leaves open: every constant here has no body, so
nothing can be proved about its value (log entries 7, 8, 9, 10, 19, 34, 36, 44, 55 and 66). -/

namespace Sys2Proof.Config

/-- The free value number `n`: a value the spec does not state (log entry 8). -/
opaque freeNat : Nat → Nat

/-- What a DDR4 byte reads as after power-on and before the zeroing of R488 (log entry 7). -/
opaque ddrPowerOnByte : Nat → Byte

/-- Whether `signature` is a valid SLH-DSA signature of `message` under `key` (R363, R573, R576; log entry 9). -/
opaque signatureValid (key : Nat) (message signature : List Byte) : Bool

/-- The engine's signature of `message` under its identity key (R578; log entry 9). -/
opaque identitySignature : List Byte → List Byte

/-- The 256 bits the DRBG gives at its `n`-th draw (R575; log entry 10). -/
opaque drbg : Nat → Nat

/-- The identity public key in OTP (R570; log entry 10). -/
opaque identityKey : Nat

/-- Manufacture time in PTP seconds, as the certificate states it (R570; log entry 10). -/
opaque made : Nat

/-- Identifier of the maker's device CA key (R570; log entry 10). -/
opaque issuer : Nat

/-- The device CA key's signature of a digest (R570; log entry 9). -/
opaque caSignature : List Byte → List Byte

/-- The maker's keys in OTP: the engine maker's and the firmware maker's (R363, R572, R573; log entry 10). -/
opaque makerKey : Nat → Nat

/-- Which capacity the DIMMs of the DDR4 population have: 0 16 GiB, 1 32 GiB, 2 64 GiB, modulo 3 (R282; log entry 19). -/
opaque dimmSize : Nat

/-- Whether an error at a die-space address leads to a repair between jobs: 1 a row, 2 an interface lane, else none, modulo 3
(R281; log entry 66). -/
opaque stackRepair (unit addr : Nat) : Nat

/-- What the gain stage (part 0) and the clock recovery (part 1) of the receiver with the equaliser entry of a key hold in a
clk (R76; log entry 36). -/
opaque receiverCode (part key clk : Nat) : Nat

/-- The router to which a background word moves from router `p` in the reserved slot of a clk: 0 N, 1 E, 2 S, 3 W, modulo 4 (R180; log
entry 44). -/
opaque backgroundHop (p clk : Nat) : Nat

/-- The group_id in the training blocks of lane `n` of quay `q`, where it is in no group, as key 32 q + n (R86; log entry 34). -/
opaque loneGroupId : Nat → Nat

/-- The phase of the lane markers that link lane `l` sends, in blocks (R85, R378; log entry 55). -/
opaque markerPhase (l : Nat) : Nat

/-- The frame number in the calibration report of the module of a number (R380, R381; log entry 55). -/
opaque reportFrame (number : Nat) : Nat

/-- The serial number (R445; log entry 10). -/
opaque serial : Nat

end Sys2Proof.Config
end

