-- ==== Sys2Proof/Machine/Entries.lean ====
section
/-! DEFINITION. The object dictionary (R433): the fields of every register word, and the table of entries. Each
entry gives its index range, sub-index range, size in bytes, persistence class (R435) and fields; the comment
names the chapter and rule of spec/ that gives it. A computed entry keeps no value of its own: see Machine/Link.lean. -/

namespace Sys2Proof.Machine

/-- Access codes of a field (R16). -/
inductive Acc where
  | ro | rw | rwe | w1c | sc | wo
deriving DecidableEq, Repr

/-- Persistence classes of an entry (R435); `time` is the time block, which only a power-on reset returns (R475). -/
inductive Cls where
  | volatile | job | stored | always | time
deriving DecidableEq, Repr

/-- A field of a register word: lowest bit, width, access, default, least and greatest legal value. -/
structure Fld where
  lo   : Nat
  w    : Nat
  acc  : Acc
  dflt : Nat := 0
  min  : Nat := 0
  max  : Nat := 2 ^ w - 1
deriving DecidableEq, Repr

/-- The value of field `f` in word `v`. -/
def Fld.of (f : Fld) (v : Nat) : Nat := v / 2 ^ f.lo % 2 ^ f.w

/-- Word `v` with field `f` holding `x` modulo its width. -/
def Fld.put (f : Fld) (v x : Nat) : Nat :=
  v % 2 ^ f.lo + 2 ^ f.lo * (x % 2 ^ f.w) + 2 ^ (f.lo + f.w) * (v / 2 ^ (f.lo + f.w))

/-- One row of the dictionary's table. -/
structure Entry where
  base  : Nat
  count : Nat
  sub0  : Nat
  sub1  : Nat
  bytes : Nat
  cls   : Cls
  flds  : List Fld
deriving DecidableEq, Repr

/-! Word `lctl` (R72 of 02_optical_lanes.md). -/
def lctl_power_state : Fld := { lo := 0, w := 2, acc := .rw, dflt := 2, max := 2 }
def lctl_fixed_rate : Fld := { lo := 2, w := 1, acc := .rwe }
def lctl_fixed_rate_code : Fld := { lo := 3, w := 2, acc := .rwe }
def lctl_rate_ceiling : Fld := { lo := 5, w := 2, acc := .rwe, dflt := 3 }
def lctl_slip : Fld := { lo := 7, w := 7, acc := .rw, max := 65 }
def lctl_auto_relock : Fld := { lo := 14, w := 1, acc := .rw, dflt := 1 }
def lctl_ctle_track : Fld := { lo := 15, w := 1, acc := .rw }
def lctl_dfe_freeze : Fld := { lo := 16, w := 1, acc := .rw }
def lctl_rx_invert : Fld := { lo := 17, w := 1, acc := .rwe }
def lctl_start_bringup : Fld := { lo := 18, w := 1, acc := .sc }
def lctl : List Fld := [lctl_power_state, lctl_fixed_rate, lctl_fixed_rate_code, lctl_rate_ceiling, lctl_slip, lctl_auto_relock, lctl_ctle_track, lctl_dfe_freeze, lctl_rx_invert, lctl_start_bringup]

/-! Word `rch` (R77 of 02_optical_lanes.md). -/
def rch_rc_enable : Fld := { lo := 0, w := 1, acc := .rw }
def rch_rc_use_spare : Fld := { lo := 1, w := 1, acc := .rwe }
def rch_rc_invert : Fld := { lo := 2, w := 1, acc := .rwe }
def rch : List Fld := [rch_rc_enable, rch_rc_use_spare, rch_rc_invert]

/-! Word `lstat` (R73 of 02_optical_lanes.md). -/
def lstat_power_state_now : Fld := { lo := 0, w := 2, acc := .ro, dflt := 2 }
def lstat_rate_now : Fld := { lo := 2, w := 2, acc := .ro }
def lstat_signal_detect : Fld := { lo := 4, w := 1, acc := .ro }
def lstat_cdr_lock : Fld := { lo := 5, w := 1, acc := .ro }
def lstat_block_lock : Fld := { lo := 6, w := 1, acc := .ro }
def lstat_trained : Fld := { lo := 7, w := 1, acc := .ro }
def lstat_slip_now : Fld := { lo := 8, w := 7, acc := .ro }
def lstat_fom : Fld := { lo := 16, w := 8, acc := .ro }
def lstat_bringup_state : Fld := { lo := 24, w := 4, acc := .ro }
def lstat_lock_lost_seen : Fld := { lo := 28, w := 1, acc := .w1c }
def lstat_fom_warn_seen : Fld := { lo := 29, w := 1, acc := .w1c }
def lstat_train_seen : Fld := { lo := 30, w := 1, acc := .w1c }
def lstat : List Fld := [lstat_power_state_now, lstat_rate_now, lstat_signal_detect, lstat_cdr_lock, lstat_block_lock, lstat_trained, lstat_slip_now, lstat_fom, lstat_bringup_state, lstat_lock_lost_seen, lstat_fom_warn_seen, lstat_train_seen]

/-! Word `lcnt` (R75 of 02_optical_lanes.md). -/
def lcnt_sh_errors : Fld := { lo := 0, w := 32, acc := .ro }
def lcnt_lock_losses : Fld := { lo := 32, w := 16, acc := .ro }
def lcnt : List Fld := [lcnt_sh_errors, lcnt_lock_losses]

/-! Word `leq` (R76 of 02_optical_lanes.md). -/
def leq_ctle_code : Fld := { lo := 0, w := 4, acc := .ro }
def leq_agc_gain : Fld := { lo := 8, w := 8, acc := .ro }
def leq_dfe_tap : Fld := { lo := 16, w := 96, acc := .ro }
def leq_cdr_phase : Fld := { lo := 112, w := 8, acc := .ro }
def leq : List Fld := [leq_ctle_code, leq_agc_gain, leq_dfe_tap, leq_cdr_phase]

/-! Word `txc` (R78 of 02_optical_lanes.md). -/
def txc_tx_enable : Fld := { lo := 0, w := 1, acc := .rw }
def txc_tx_invert : Fld := { lo := 1, w := 1, acc := .rwe }
def txc_ffe_pre : Fld := { lo := 2, w := 4, acc := .rwe, dflt := 4 }
def txc_ffe_main : Fld := { lo := 6, w := 6, acc := .rwe, dflt := 52, min := 32 }
def txc_ffe_post : Fld := { lo := 12, w := 5, acc := .rwe, dflt := 7 }
def txc : List Fld := [txc_tx_enable, txc_tx_invert, txc_ffe_pre, txc_ffe_main, txc_ffe_post]

/-! Word `llc` (R71 of 02_optical_lanes.md). -/
def llc_ctl_errors : Fld := { lo := 0, w := 16, acc := .ro }
def llc_marker_errors : Fld := { lo := 16, w := 16, acc := .ro }
def llc_id_errors : Fld := { lo := 32, w := 16, acc := .ro }
def llc_stray_blocks : Fld := { lo := 48, w := 16, acc := .ro }
def llc : List Fld := [llc_ctl_errors, llc_marker_errors, llc_id_errors, llc_stray_blocks]

/-! Word `lglb` (R79 of 02_optical_lanes.md). -/
def lglb_fom_lock_min : Fld := { lo := 0, w := 8, acc := .rw, dflt := 64 }
def lglb_fom_warn : Fld := { lo := 8, w := 8, acc := .rw, dflt := 96 }
def lglb_fom_fine : Fld := { lo := 16, w := 8, acc := .rw, dflt := 128 }
def lglb_mu_shift_fine : Fld := { lo := 24, w := 4, acc := .rw, dflt := 14, min := 6 }
def lglb_mu_shift_coarse : Fld := { lo := 28, w := 4, acc := .rw, dflt := 10, min := 6 }
def lglb_bringup_timeout : Fld := { lo := 32, w := 8, acc := .rw, dflt := 20, min := 8 }
def lglb_max_step_downs : Fld := { lo := 40, w := 2, acc := .rw, dflt := 3 }
def lglb : List Fld := [lglb_fom_lock_min, lglb_fom_warn, lglb_fom_fine, lglb_mu_shift_fine, lglb_mu_shift_coarse, lglb_bringup_timeout, lglb_max_step_downs]

/-! Word `quay` (R112 of 03_landing.md). -/
def quay_land_enable : Fld := { lo := 0, w := 1, acc := .rwe }
def quay_code_k4 : Fld := { lo := 1, w := 1, acc := .rwe }
def quay_code_signed : Fld := { lo := 2, w := 1, acc := .rwe }
def quay_zero_point : Fld := { lo := 3, w := 8, acc := .rwe }
def quay : List Fld := [quay_land_enable, quay_code_k4, quay_code_signed, quay_zero_point]

/-! Word `grp` (R113 of 03_landing.md). -/
def grp_first_lane : Fld := { lo := 0, w := 5, acc := .rwe }
def grp_lane_count : Fld := { lo := 5, w := 6, acc := .rwe, max := 32 }
def grp_blocks_per_frame : Fld := { lo := 11, w := 12, acc := .rwe, dflt := 1, min := 1 }
def grp_drop_flags : Fld := { lo := 23, w := 8, acc := .rwe, dflt := 1 }
def grp : List Fld := [grp_first_lane, grp_lane_count, grp_blocks_per_frame, grp_drop_flags]

/-! Word `conv` (R114 of 03_landing.md). -/
def conv_sample_width : Fld := { lo := 0, w := 2, acc := .rwe, dflt := 1 }
def conv_sample_signed : Fld := { lo := 2, w := 1, acc := .rwe }
def conv_in_shift : Fld := { lo := 3, w := 4, acc := .rwe }
def conv_in_offset : Fld := { lo := 8, w := 16, acc := .rwe }
def conv : List Fld := [conv_sample_width, conv_sample_signed, conv_in_shift, conv_in_offset]

/-! Word `gstat` (R115 of 03_landing.md). -/
def gstat_align_state : Fld := { lo := 0, w := 3, acc := .ro }
def gstat_align_lost_seen : Fld := { lo := 3, w := 1, acc := .w1c }
def gstat_skew_now : Fld := { lo := 8, w := 8, acc := .ro }
def gstat_skew_max : Fld := { lo := 16, w := 8, acc := .ro }
def gstat : List Fld := [gstat_align_state, gstat_align_lost_seen, gstat_skew_now, gstat_skew_max]

/-! Word `slip` (R117 of 03_landing.md). -/
def slip_entry_edge : Fld := { lo := 0, w := 1, acc := .rwe }
def slip_entry_index : Fld := { lo := 1, w := 4, acc := .rwe }
def slip_entry_offset : Fld := { lo := 5, w := 16, acc := .rwe }
def slip : List Fld := [slip_entry_edge, slip_entry_index, slip_entry_offset]

/-! Word `lndg` (R118 of 03_landing.md). -/
def lndg_entry_margin : Fld := { lo := 0, w := 6, acc := .rwe, dflt := 4 }
def lndg_replay_enable : Fld := { lo := 6, w := 1, acc := .rwe }
def lndg_replay_loop : Fld := { lo := 7, w := 1, acc := .rwe }
def lndg_replay_done : Fld := { lo := 8, w := 1, acc := .ro }
def lndg_replay_skipped : Fld := { lo := 16, w := 16, acc := .ro }
def lndg : List Fld := [lndg_entry_margin, lndg_replay_enable, lndg_replay_loop, lndg_replay_done, lndg_replay_skipped]

/-! Word `ast` (R143 of 04_tile_arithmetic.md). -/
def ast_acc_clip_seen : Fld := { lo := 0, w := 1, acc := .w1c }
def ast_requant_sat_seen : Fld := { lo := 1, w := 1, acc := .w1c }
def ast_virtual_row : Fld := { lo := 8, w := 8, acc := .ro, dflt := 255 }
def ast_virtual_column : Fld := { lo := 16, w := 8, acc := .ro, dflt := 255 }
def ast : List Fld := [ast_acc_clip_seen, ast_requant_sat_seen, ast_virtual_row, ast_virtual_column]

/-! Word `cwin` (R168 of 05_quantization_and_scales.md). -/
def cwin_threshold : Fld := { lo := 0, w := 32, acc := .rw }
def cwin_window : Fld := { lo := 32, w := 32, acc := .rwe, dflt := 1000000 }
def cwin : List Fld := [cwin_threshold, cwin_window]

/-! Word `cstat` (R169 of 05_quantization_and_scales.md). -/
def cstat_saturation_seen : Fld := { lo := 0, w := 1, acc := .w1c }
def cstat_underuse_seen : Fld := { lo := 1, w := 1, acc := .w1c }
def cstat_floor_seen : Fld := { lo := 2, w := 1, acc := .w1c }
def cstat_saturation_events : Fld := { lo := 8, w := 16, acc := .ro }
def cstat_underuse_events : Fld := { lo := 24, w := 16, acc := .ro }
def cstat_floor_events : Fld := { lo := 40, w := 16, acc := .ro }
def cstat : List Fld := [cstat_saturation_seen, cstat_underuse_seen, cstat_floor_seen, cstat_saturation_events, cstat_underuse_events, cstat_floor_events]

/-! Word `cglb` (R170 of 05_quantization_and_scales.md). -/
def cglb_cal_events_enable : Fld := { lo := 0, w := 1, acc := .rw, dflt := 1 }
def cglb_cal_emcy_enable : Fld := { lo := 1, w := 1, acc := .rw, dflt := 1 }
def cglb : List Fld := [cglb_cal_events_enable, cglb_cal_emcy_enable]

/-! Word `sched` (R198 of 06_tide_network.md). -/
def sched_period_m1 : Fld := { lo := 0, w := 16, acc := .ro }
def sched_frames_per_period : Fld := { lo := 16, w := 13, acc := .ro }
def sched : List Fld := [sched_period_m1, sched_frames_per_period]

/-! Word `mctl` (R199 of 06_tide_network.md). -/
def mctl_margin_warn : Fld := { lo := 0, w := 8, acc := .rw, dflt := 8 }
def mctl_retire_on_warn : Fld := { lo := 8, w := 1, acc := .rw, dflt := 1 }
def mctl_retire_on_slip : Fld := { lo := 9, w := 1, acc := .rw, dflt := 1 }
def mctl : List Fld := [mctl_margin_warn, mctl_retire_on_warn, mctl_retire_on_slip]

/-! Word `row` (R200 of 06_tide_network.md). -/
def row_retired_column : Fld := { lo := 0, w := 4, acc := .rwe, dflt := 15 }
def row_spare_column : Fld := { lo := 4, w := 4, acc := .ro, dflt := 12 }
def row_retire_pending : Fld := { lo := 8, w := 1, acc := .ro }
def row_pending_column : Fld := { lo := 9, w := 4, acc := .ro, dflt := 15 }
def row : List Fld := [row_retired_column, row_spare_column, row_retire_pending, row_pending_column]

/-! Word `tstat` (R201 of 06_tide_network.md). -/
def tstat_margin_warn_seen : Fld := { lo := 0, w := 1, acc := .w1c }
def tstat_slip_seen : Fld := { lo := 1, w := 1, acc := .w1c }
def tstat_collision_seen : Fld := { lo := 2, w := 1, acc := .w1c }
def tstat_min_margin : Fld := { lo := 8, w := 8, acc := .ro, dflt := 255 }
def tstat_min_class : Fld := { lo := 16, w := 3, acc := .ro }
def tstat_margin_warns : Fld := { lo := 24, w := 16, acc := .ro }
def tstat_unread_words : Fld := { lo := 40, w := 16, acc := .ro }
def tstat : List Fld := [tstat_margin_warn_seen, tstat_slip_seen, tstat_collision_seen, tstat_min_margin, tstat_min_class, tstat_margin_warns, tstat_unread_words]

/-! Word `tmem` (R286 of 09_memory_and_tenders.md). -/
def tmem_sram_corrected : Fld := { lo := 0, w := 16, acc := .ro }
def tmem_spare_rows_used : Fld := { lo := 16, w := 10, acc := .ro }
def tmem_repair_pending : Fld := { lo := 26, w := 1, acc := .ro }
def tmem_alloc_fault_seen : Fld := { lo := 27, w := 1, acc := .w1c }
def tmem_tender_fault_seen : Fld := { lo := 28, w := 1, acc := .w1c }
def tmem_scrub_passes : Fld := { lo := 32, w := 16, acc := .ro }
def tmem : List Fld := [tmem_sram_corrected, tmem_spare_rows_used, tmem_repair_pending, tmem_alloc_fault_seen, tmem_tender_fault_seen, tmem_scrub_passes]

/-! Word `reg` (R258 of 09_memory_and_tenders.md). -/
def reg_base : Fld := { lo := 0, w := 19, acc := .ro }
def reg_size : Fld := { lo := 19, w := 19, acc := .ro }
def reg_tag : Fld := { lo := 38, w := 8, acc := .ro }
def reg_ir : Fld := { lo := 46, w := 1, acc := .ro }
def reg_iw : Fld := { lo := 47, w := 1, acc := .ro }
def reg_tw : Fld := { lo := 48, w := 1, acc := .ro }
def reg_lock_en : Fld := { lo := 49, w := 1, acc := .ro }
def reg_lock_first : Fld := { lo := 50, w := 16, acc := .ro }
def reg_lock_last : Fld := { lo := 66, w := 16, acc := .ro }
def reg : List Fld := [reg_base, reg_size, reg_tag, reg_ir, reg_iw, reg_tw, reg_lock_en, reg_lock_first, reg_lock_last]

/-! Word `munit` (R288 of 09_memory_and_tenders.md). -/
def munit_corrected : Fld := { lo := 0, w := 32, acc := .ro }
def munit_spare_used : Fld := { lo := 32, w := 8, acc := .ro }
def munit_lanes_repaired : Fld := { lo := 40, w := 2, acc := .ro }
def munit_in_service : Fld := { lo := 42, w := 1, acc := .ro }
def munit_uncorrected_seen : Fld := { lo := 43, w := 1, acc := .w1c }
def munit : List Fld := [munit_corrected, munit_spare_used, munit_lanes_repaired, munit_in_service, munit_uncorrected_seen]

/-! Word `tend` (R287 of 09_memory_and_tenders.md). -/
def tend_outstanding : Fld := { lo := 0, w := 12, acc := .ro }
def tend_last_fault : Fld := { lo := 12, w := 4, acc := .ro }
def tend_completed : Fld := { lo := 16, w := 32, acc := .ro }
def tend_refusals : Fld := { lo := 48, w := 16, acc := .ro }
def tend : List Fld := [tend_outstanding, tend_last_fault, tend_completed, tend_refusals]

/-! Word `dec` (R315 of 10_decision_path.md). -/
def dec_latency_l : Fld := { lo := 0, w := 10, acc := .rwe, dflt := 1000 }
def dec_latency_min : Fld := { lo := 16, w := 10, acc := .ro }
def dec_ridge_close : Fld := { lo := 32, w := 10, acc := .ro }
def dec : List Fld := [dec_latency_l, dec_latency_min, dec_ridge_close]

/-! Word `pin` (R316 of 10_decision_path.md). -/
def pin_d_nom : Fld := { lo := 0, w := 10, acc := .ro }
def pin_d_min : Fld := { lo := 10, w := 10, acc := .ro, dflt := 1023 }
def pin_unmet_seen : Fld := { lo := 20, w := 1, acc := .w1c }
def pin_pulse_merges : Fld := { lo := 32, w := 32, acc := .ro }
def pin : List Fld := [pin_d_nom, pin_d_min, pin_unmet_seen, pin_pulse_merges]

/-! Word `outc` (R317 of 10_decision_path.md). -/
def outc_accept_width : Fld := { lo := 0, w := 6, acc := .rwe, dflt := 4, min := 1 }
def outc_accept_msg_enable : Fld := { lo := 6, w := 1, acc := .rwe }
def outc_holdoff_force : Fld := { lo := 7, w := 1, acc := .rw }
def outc_holdoff_release : Fld := { lo := 8, w := 16, acc := .rw, dflt := 1250 }
def outc_release_frames : Fld := { lo := 24, w := 8, acc := .rw, dflt := 16 }
def outc : List Fld := [outc_accept_width, outc_accept_msg_enable, outc_holdoff_force, outc_holdoff_release, outc_release_frames]

/-! Word `flsh` (R318 of 10_decision_path.md). -/
def flsh_doubt : Fld := { lo := 0, w := 9, acc := .ro, dflt := 1 }
def flsh_forcing : Fld := { lo := 9, w := 1, acc := .ro, dflt := 1 }
def flsh_doubt_seen : Fld := { lo := 16, w := 1, acc := .w1c }
def flsh_holdoff_cause : Fld := { lo := 17, w := 4, acc := .ro, dflt := 1 }
def flsh_holdoff_now : Fld := { lo := 21, w := 1, acc := .ro, dflt := 1 }
def flsh : List Fld := [flsh_doubt, flsh_forcing, flsh_doubt_seen, flsh_holdoff_cause, flsh_holdoff_now]

/-! Word `mko` (R319 of 10_decision_path.md). -/
def mko_mark_seed : Fld := { lo := 0, w := 8, acc := .rwe }
def mko_mark_enable : Fld := { lo := 8, w := 1, acc := .rwe }
def mko : List Fld := [mko_mark_seed, mko_mark_enable]

/-! Word `capc` (R349 of 11_capture_and_readout.md). -/
def capc_ring_mode : Fld := { lo := 0, w := 1, acc := .rwe }
def capc_rearm : Fld := { lo := 1, w := 1, acc := .sc }
def capc_single_post_count : Fld := { lo := 8, w := 8, acc := .rwe, dflt := 16 }
def capc_queue_high : Fld := { lo := 16, w := 8, acc := .rw, dflt := 192 }
def capc_queue_low : Fld := { lo := 24, w := 8, acc := .rw, dflt := 128 }
def capc : List Fld := [capc_ring_mode, capc_rearm, capc_single_post_count, capc_queue_high, capc_queue_low]

/-! Word `caps` (R350 of 11_capture_and_readout.md). -/
def caps_frozen : Fld := { lo := 0, w := 1, acc := .ro }
def caps_queue_used : Fld := { lo := 1, w := 9, acc := .ro }
def caps_hold_capture : Fld := { lo := 10, w := 1, acc := .ro }
def caps_freeze_frame : Fld := { lo := 16, w := 48, acc := .ro }
def caps : List Fld := [caps_frozen, caps_queue_used, caps_hold_capture, caps_freeze_frame]

/-! Word `hcap` (R352 of 11_capture_and_readout.md). -/
def hcap_frame_number : Fld := { lo := 0, w := 48, acc := .rw }
def hcap_pre_count : Fld := { lo := 48, w := 8, acc := .rw }
def hcap_post_count : Fld := { lo := 56, w := 8, acc := .rw }
def hcap_quay_mask : Fld := { lo := 64, w := 20, acc := .rw }
def hcap_destination : Fld := { lo := 84, w := 1, acc := .rw }
def hcap_go : Fld := { lo := 85, w := 1, acc := .sc }
def hcap : List Fld := [hcap_frame_number, hcap_pre_count, hcap_post_count, hcap_quay_mask, hcap_destination, hcap_go]

/-! Word `abt` (R353 of 11_capture_and_readout.md). -/
def abt_record_seq : Fld := { lo := 0, w := 32, acc := .rw }
def abt_all : Fld := { lo := 32, w := 1, acc := .rw }
def abt_go : Fld := { lo := 33, w := 1, acc := .sc }
def abt : List Fld := [abt_record_seq, abt_all, abt_go]

/-! Word `abs` (R353 of 11_capture_and_readout.md). -/
def abs_record_seq : Fld := { lo := 0, w := 32, acc := .ro }
def abs_reply : Fld := { lo := 32, w := 2, acc := .ro }
def abs : List Fld := [abs_record_seq, abs_reply]

/-! Word `wslot` (R354 of 11_capture_and_readout.md). -/
def wslot_slot_length : Fld := { lo := 0, w := 16, acc := .ro }
def wslot_window_offset : Fld := { lo := 16, w := 16, acc := .ro }
def wslot_window_lead : Fld := { lo := 32, w := 16, acc := .ro }
def wslot_verdict_offset : Fld := { lo := 48, w := 16, acc := .ro }
def wslot_card_row_tile : Fld := { lo := 64, w := 8, acc := .ro }
def wslot_card_row : Fld := { lo := 72, w := 19, acc := .ro }
def wslot_card_cm : Fld := { lo := 91, w := 5, acc := .ro }
def wslot : List Fld := [wslot_slot_length, wslot_window_offset, wslot_window_lead, wslot_verdict_offset, wslot_card_row_tile, wslot_card_row, wslot_card_cm]

/-! Word `wbuf` (R348 of 11_capture_and_readout.md). -/
def wbuf_window_buffers : Fld := { lo := 0, w := 16, acc := .rwe }
def wbuf_window_buffer_bytes : Fld := { lo := 16, w := 48, acc := .rwe }
def wbuf : List Fld := [wbuf_window_buffers, wbuf_window_buffer_bytes]

/-! Word `ccap` (R351 of 11_capture_and_readout.md). -/
def ccap_capture_enable : Fld := { lo := 0, w := 1, acc := .rwe }
def ccap_to_window : Fld := { lo := 1, w := 1, acc := .rwe }
def ccap_destination : Fld := { lo := 2, w := 1, acc := .rwe }
def ccap_pre_count : Fld := { lo := 8, w := 8, acc := .rwe, dflt := 4 }
def ccap_post_count : Fld := { lo := 16, w := 8, acc := .rwe, dflt := 4 }
def ccap_quay_mask : Fld := { lo := 24, w := 20, acc := .rwe }
def ccap : List Fld := [ccap_capture_enable, ccap_to_window, ccap_destination, ccap_pre_count, ccap_post_count, ccap_quay_mask]

/-! Word `avg` (R355 of 11_capture_and_readout.md). -/
def avg_avg_enable : Fld := { lo := 0, w := 1, acc := .rwe }
def avg_avg_log2 : Fld := { lo := 1, w := 4, acc := .rwe, max := 8 }
def avg_avg_width : Fld := { lo := 5, w := 2, acc := .rwe, max := 2 }
def avg_avg_destination : Fld := { lo := 7, w := 1, acc := .rwe }
def avg : List Fld := [avg_avg_enable, avg_avg_log2, avg_avg_width, avg_avg_destination]

/-! Word `thr` (R312 of 10_decision_path.md). -/
def thr_threshold : Fld := { lo := 0, w := 16, acc := .rwe }
def thr : List Fld := [thr_threshold]

/-! Word `cmp` (R313 of 10_decision_path.md). -/
def cmp_score_index : Fld := { lo := 0, w := 10, acc := .rwe }
def cmp_op : Fld := { lo := 10, w := 3, acc := .rwe, max := 5 }
def cmp_cmp_enable : Fld := { lo := 13, w := 1, acc := .rwe }
def cmp : List Fld := [cmp_score_index, cmp_op, cmp_cmp_enable]

/-! Word `seed` (R314 of 10_decision_path.md). -/
def seed_seed_enable : Fld := { lo := 0, w := 1, acc := .rwe }
def seed_combine : Fld := { lo := 1, w := 2, acc := .rwe }
def seed_class_mask : Fld := { lo := 8, w := 8, acc := .rwe }
def seed_prescale : Fld := { lo := 16, w := 24, acc := .rwe, dflt := 1, min := 1 }
def seed : List Fld := [seed_seed_enable, seed_combine, seed_class_mask, seed_prescale]

/-! Word `lds` (R374 of 12_compiler_contract.md). -/
def lds_load_cause : Fld := { lo := 0, w := 4, acc := .ro }
def lds_load_step : Fld := { lo := 4, w := 4, acc := .ro }
def lds_load_done : Fld := { lo := 8, w := 1, acc := .ro }
def lds_section : Fld := { lo := 16, w := 16, acc := .ro }
def lds_detail : Fld := { lo := 32, w := 32, acc := .ro }
def lds : List Fld := [lds_load_cause, lds_load_step, lds_load_done, lds_section, lds_detail]

/-! Word `bctl` (R404 of 13_berths_and_harbours.md). -/
def bctl_berth : Fld := { lo := 0, w := 8, acc := .rwe }
def bctl_position : Fld := { lo := 8, w := 5, acc := .rwe }
def bctl_berth_size : Fld := { lo := 13, w := 6, acc := .rwe, dflt := 1, min := 1, max := 32 }
def bctl_moored : Fld := { lo := 19, w := 1, acc := .rwe }
def bctl_berth_capture : Fld := { lo := 20, w := 1, acc := .rwe }
def bctl_berth_deadline : Fld := { lo := 21, w := 10, acc := .rwe }
def bctl_cal_frames : Fld := { lo := 32, w := 16, acc := .rwe, dflt := 4096, min := 64 }
def bctl : List Fld := [bctl_berth, bctl_position, bctl_berth_size, bctl_moored, bctl_berth_capture, bctl_berth_deadline, bctl_cal_frames]

/-! Word `bsts` (R405 of 13_berths_and_harbours.md). -/
def bsts_w_cal : Fld := { lo := 0, w := 10, acc := .ro }
def bsts_w_lo : Fld := { lo := 10, w := 10, acc := .ro }
def bsts_d_b : Fld := { lo := 20, w := 10, acc := .ro }
def bsts_cal_state : Fld := { lo := 30, w := 2, acc := .ro }
def bsts_included : Fld := { lo := 32, w := 32, acc := .ro }
def bsts : List Fld := [bsts_w_cal, bsts_w_lo, bsts_d_b, bsts_cal_state, bsts_included]

/-! Word `bun` (R406 of 13_berths_and_harbours.md). -/
def bun_role : Fld := { lo := 0, w := 2, acc := .rwe }
def bun_carry_accept : Fld := { lo := 2, w := 1, acc := .rwe }
def bun_rejoin_failed : Fld := { lo := 3, w := 1, acc := .w1c }
def bun_d_min : Fld := { lo := 16, w := 10, acc := .ro, dflt := 1023 }
def bun_d_max : Fld := { lo := 26, w := 10, acc := .ro }
def bun_unstable : Fld := { lo := 36, w := 1, acc := .ro }
def bun : List Fld := [bun_role, bun_carry_accept, bun_rejoin_failed, bun_d_min, bun_d_max, bun_unstable]

/-! Word `hctl` (R407 of 13_berths_and_harbours.md). -/
def hctl_harbour_enable : Fld := { lo := 0, w := 1, acc := .rwe }
def hctl_patient : Fld := { lo := 1, w := 1, acc := .rwe }
def hctl_harbour_capture : Fld := { lo := 2, w := 1, acc := .rwe }
def hctl_harbour_berths : Fld := { lo := 8, w := 9, acc := .rwe }
def hctl_harbour_guard : Fld := { lo := 32, w := 32, acc := .rwe, dflt := 1000 }
def hctl : List Fld := [hctl_harbour_enable, hctl_patient, hctl_harbour_capture, hctl_harbour_berths, hctl_harbour_guard]

/-! Word `hdl` (R403 of 13_berths_and_harbours.md). -/
def hdl_jetty_deadline : Fld := { lo := 0, w := 32, acc := .rwe, dflt := 10000 }
def hdl_harbour_deadline : Fld := { lo := 32, w := 32, acc := .rwe, dflt := 20000 }
def hdl : List Fld := [hdl_jetty_deadline, hdl_harbour_deadline]

/-! Word `skb` (R403 of 13_berths_and_harbours.md). -/
def skb_s_jetty : Fld := { lo := 0, w := 32, acc := .ro }
def skb_s_harbour : Fld := { lo := 32, w := 32, acc := .ro }
def skb : List Fld := [skb_s_jetty, skb_s_harbour]

/-! Word `peer` (R403 of 13_berths_and_harbours.md). -/
def peer_bundle : Fld := { lo := 0, w := 5, acc := .rwe }
def peer_enable : Fld := { lo := 7, w := 1, acc := .rwe }
def peer : List Fld := [peer_bundle, peer_enable]

/-! Word `tctl` (R429 of 14_time.md). -/
def tctl_servo_enable : Fld := { lo := 0, w := 1, acc := .rw, dflt := 1 }
def tctl_lock_required : Fld := { lo := 1, w := 1, acc := .rw }
def tctl_preferred_domain : Fld := { lo := 2, w := 1, acc := .rw }
def tctl_revert : Fld := { lo := 3, w := 1, acc := .rw, dflt := 1 }
def tctl_fb_auto : Fld := { lo := 4, w := 1, acc := .rw, dflt := 1 }
def tctl_tc_enable : Fld := { lo := 5, w := 1, acc := .rw, dflt := 1 }
def tctl_slew_max : Fld := { lo := 8, w := 8, acc := .rw, dflt := 50, min := 1 }
def tctl_lock_window : Fld := { lo := 16, w := 16, acc := .rw, dflt := 1000 }
def tctl_holdover_ms : Fld := { lo := 32, w := 16, acc := .rw, dflt := 100 }
def tctl_step_threshold : Fld := { lo := 48, w := 16, acc := .rw, dflt := 1 }
def tctl : List Fld := [tctl_servo_enable, tctl_lock_required, tctl_preferred_domain, tctl_revert, tctl_fb_auto, tctl_tc_enable, tctl_slew_max, tctl_lock_window, tctl_holdover_ms, tctl_step_threshold]

/-! Word `tsts` (R430 of 14_time.md). -/
def tsts_main_valid : Fld := { lo := 0, w := 1, acc := .ro }
def tsts_time_lock : Fld := { lo := 1, w := 1, acc := .ro }
def tsts_active_valid : Fld := { lo := 2, w := 1, acc := .ro }
def tsts_active_domain : Fld := { lo := 3, w := 1, acc := .ro }
def tsts_holdover : Fld := { lo := 4, w := 1, acc := .ro }
def tsts_on_fallback : Fld := { lo := 5, w := 1, acc := .ro }
def tsts_lock_lost_seen : Fld := { lo := 6, w := 1, acc := .w1c }
def tsts_switch_seen : Fld := { lo := 7, w := 1, acc := .w1c }
def tsts_txq_overflow : Fld := { lo := 8, w := 1, acc := .w1c }
def tsts_switches : Fld := { lo := 16, w := 16, acc := .ro }
def tsts_steps : Fld := { lo := 32, w := 16, acc := .ro }
def tsts : List Fld := [tsts_main_valid, tsts_time_lock, tsts_active_valid, tsts_active_domain, tsts_holdover, tsts_on_fallback, tsts_lock_lost_seen, tsts_switch_seen, tsts_txq_overflow, tsts_switches, tsts_steps]

/-! Word `txq` (R428 of 14_time.md). -/
def txq_unread : Fld := { lo := 0, w := 7, acc := .ro }
def txq_txq_overflows : Fld := { lo := 16, w := 16, acc := .ro }
def txq : List Fld := [txq_unread, txq_txq_overflows]

/-! Word `dom` (R431 of 14_time.md). -/
def dom_domain_number : Fld := { lo := 0, w := 7, acc := .rw }
def dom_domain_enable : Fld := { lo := 7, w := 1, acc := .rw }
def dom_kp_shift : Fld := { lo := 8, w := 4, acc := .rw, dflt := 2 }
def dom_ki_shift : Fld := { lo := 12, w := 4, acc := .rw, dflt := 4 }
def dom_settle_syncs : Fld := { lo := 16, w := 8, acc := .rw, dflt := 16, min := 1 }
def dom : List Fld := [dom_domain_number, dom_domain_enable, dom_kp_shift, dom_ki_shift, dom_settle_syncs]

/-! Word `doms` (R431 of 14_time.md). -/
def doms_healthy : Fld := { lo := 0, w := 1, acc := .ro }
def doms_master_seen : Fld := { lo := 1, w := 1, acc := .ro }
def doms_upstream_port : Fld := { lo := 2, w := 1, acc := .ro }
def doms_log_sync_interval : Fld := { lo := 8, w := 8, acc := .ro }
def doms_master_changes : Fld := { lo := 16, w := 16, acc := .ro }
def doms_exchanges : Fld := { lo := 32, w := 32, acc := .ro }
def doms : List Fld := [doms_healthy, doms_master_seen, doms_upstream_port, doms_log_sync_interval, doms_master_changes, doms_exchanges]

/-! Word `port` (R432 of 14_time.md). -/
def port_port_enable : Fld := { lo := 0, w := 1, acc := .rw, dflt := 1 }
def port_serve_enable : Fld := { lo := 1, w := 1, acc := .rw }
def port_serve_domain : Fld := { lo := 2, w := 7, acc := .rw }
def port_serve_log_sync : Fld := { lo := 9, w := 4, acc := .rw, dflt := 13 }
def port_rx_asym : Fld := { lo := 16, w := 16, acc := .rw }
def port_tx_asym : Fld := { lo := 32, w := 16, acc := .rw }
def port : List Fld := [port_port_enable, port_serve_enable, port_serve_domain, port_serve_log_sync, port_rx_asym, port_tx_asym]

/-! Word `pst` (R428 of 14_time.md). -/
def pst_link_up : Fld := { lo := 0, w := 1, acc := .ro }
def pst_rx_errors : Fld := { lo := 16, w := 16, acc := .ro }
def pst_dropped : Fld := { lo := 32, w := 16, acc := .ro }
def pst : List Fld := [pst_link_up, pst_rx_errors, pst_dropped]

/-! Word `trig` (R432 of 14_time.md). -/
def trig_edge : Fld := { lo := 0, w := 2, acc := .rw }
def trig_to_timeline : Fld := { lo := 2, w := 1, acc := .rw }
def trig_in_delay : Fld := { lo := 8, w := 16, acc := .rw }
def trig : List Fld := [trig_edge, trig_to_timeline, trig_in_delay]

/-! Word `tlc` (R428 of 14_time.md). -/
def tlc_accept_mask : Fld := { lo := 0, w := 8, acc := .rw }
def tlc_time_events : Fld := { lo := 8, w := 1, acc := .rw }
def tlc_merge_hold : Fld := { lo := 16, w := 16, acc := .rw, dflt := 20 }
def tlc : List Fld := [tlc_accept_mask, tlc_time_events, tlc_merge_hold]

/-! Word `tlk` (R428 of 14_time.md). -/
def tlk_drops : Fld := { lo := 0, w := 32, acc := .ro }
def tlk_out_of_order : Fld := { lo := 32, w := 32, acc := .ro }
def tlk : List Fld := [tlk_drops, tlk_out_of_order]

/-! Word `jst` (R470 of 15_control_and_jobs.md). -/
def jst_job_state : Fld := { lo := 0, w := 3, acc := .ro }
def jst_started : Fld := { lo := 3, w := 1, acc := .ro }
def jst_pause_pending : Fld := { lo := 4, w := 1, acc := .ro }
def jst_parked : Fld := { lo := 5, w := 1, acc := .ro }
def jst_restored : Fld := { lo := 6, w := 1, acc := .ro }
def jst_last_command : Fld := { lo := 8, w := 8, acc := .ro }
def jst_commands : Fld := { lo := 16, w := 16, acc := .ro }
def jst : List Fld := [jst_job_state, jst_started, jst_pause_pending, jst_parked, jst_restored, jst_last_command, jst_commands]

/-! Word `svs` (R471 of 15_control_and_jobs.md). -/
def svs_save_state : Fld := { lo := 0, w := 2, acc := .ro }
def svs_restore_op : Fld := { lo := 2, w := 1, acc := .ro }
def svs_cause : Fld := { lo := 3, w := 4, acc := .ro }
def svs_save_bytes : Fld := { lo := 16, w := 48, acc := .ro }
def svs : List Fld := [svs_save_state, svs_restore_op, svs_cause, svs_save_bytes]

/-! Word `feat` (R453 of 15_control_and_jobs.md). -/
def feat_dict_mirror : Fld := { lo := 0, w := 1, acc := .ro, dflt := 1 }
def feat_host_ring : Fld := { lo := 1, w := 1, acc := .ro, dflt := 1 }
def feat_timeline : Fld := { lo := 2, w := 1, acc := .ro, dflt := 1 }
def feat_emcy_log : Fld := { lo := 3, w := 1, acc := .ro, dflt := 1 }
def feat_bar2_library : Fld := { lo := 4, w := 1, acc := .ro, dflt := 1 }
def feat_save_resume : Fld := { lo := 5, w := 1, acc := .ro, dflt := 1 }
def feat_berth : Fld := { lo := 6, w := 1, acc := .ro, dflt := 1 }
def feat_harbour : Fld := { lo := 7, w := 1, acc := .ro, dflt := 1 }
def feat_window_net : Fld := { lo := 8, w := 1, acc := .ro, dflt := 1 }
def feat_averaging : Fld := { lo := 9, w := 1, acc := .ro, dflt := 1 }
def feat_single_shot : Fld := { lo := 10, w := 1, acc := .ro, dflt := 1 }
def feat_ptp_serve : Fld := { lo := 11, w := 1, acc := .ro, dflt := 1 }
def feat_step_b0 : Fld := { lo := 40, w := 1, acc := .ro }
def feat : List Fld := [feat_dict_mirror, feat_host_ring, feat_timeline, feat_emcy_log, feat_bar2_library, feat_save_resume, feat_berth, feat_harbour, feat_window_net, feat_averaging, feat_single_shot, feat_ptp_serve, feat_step_b0]

/-! Word `hlc` (R472 of 15_control_and_jobs.md). -/
def hlc_aperture_target : Fld := { lo := 0, w := 1, acc := .rw }
def hlc_bar2_offset : Fld := { lo := 8, w := 8, acc := .rw }
def hlc_notify_bytes : Fld := { lo := 16, w := 24, acc := .rw, dflt := 65536 }
def hlc_notify_us : Fld := { lo := 40, w := 16, acc := .rw, dflt := 100 }
def hlc : List Fld := [hlc_aperture_target, hlc_bar2_offset, hlc_notify_bytes, hlc_notify_us]

/-! Word `hls` (R472 of 15_control_and_jobs.md). -/
def hls_link_speed : Fld := { lo := 0, w := 3, acc := .ro }
def hls_link_width : Fld := { lo := 3, w := 4, acc := .ro }
def hls_bar2_discards : Fld := { lo := 16, w := 32, acc := .ro }
def hls_log_drops : Fld := { lo := 48, w := 16, acc := .ro }
def hls : List Fld := [hls_link_speed, hls_link_width, hls_bar2_discards, hls_log_drops]

/-! Word `can` (R473 of 15_control_and_jobs.md). -/
def can_node_id_cfg : Fld := { lo := 0, w := 7, acc := .rw, dflt := 1, min := 1 }
def can_rate_source : Fld := { lo := 7, w := 1, acc := .rw }
def can_data_rate_cfg : Fld := { lo := 8, w := 2, acc := .rw, dflt := 2 }
def can : List Fld := [can_node_id_cfg, can_rate_source, can_data_rate_cfg]

/-! Word `cans` (R469 of 15_control_and_jobs.md). -/
def cans_node_id : Fld := { lo := 0, w := 7, acc := .ro }
def cans_rate : Fld := { lo := 8, w := 2, acc := .ro }
def cans_nmt_state : Fld := { lo := 10, w := 2, acc := .ro }
def cans_classical_frames : Fld := { lo := 16, w := 16, acc := .ro }
def cans_emcy_lost : Fld := { lo := 32, w := 16, acc := .ro }
def cans : List Fld := [cans_node_id, cans_rate, cans_nmt_state, cans_classical_frames, cans_emcy_lost]

/-! Word `fst` (R553 of 18_faults_spares_background.md). -/
def fst_fault_seen : Fld := { lo := 0, w := 1, acc := .w1c }
def fst_last_family : Fld := { lo := 8, w := 8, acc := .ro }
def fst_report_count : Fld := { lo := 16, w := 8, acc := .ro }
def fst_after_faults : Fld := { lo := 24, w := 8, acc := .ro }
def fst_job_faults : Fld := { lo := 32, w := 32, acc := .ro }
def fst : List Fld := [fst_fault_seen, fst_last_family, fst_report_count, fst_after_faults, fst_job_faults]

/-! Word `rctl` (R554 of 18_faults_spares_background.md). -/
def rctl_restart_from_save : Fld := { lo := 0, w := 1, acc := .rw }
def rctl_restart_limit : Fld := { lo := 8, w := 8, acc := .rw, dflt := 3 }
def rctl_restart_window_s : Fld := { lo := 16, w := 16, acc := .rw, dflt := 10 }
def rctl : List Fld := [rctl_restart_from_save, rctl_restart_limit, rctl_restart_window_s]

/-! Word `rsts` (R555 of 18_faults_spares_background.md). -/
def rsts_restart_state : Fld := { lo := 0, w := 3, acc := .ro }
def rsts_library_touched : Fld := { lo := 3, w := 1, acc := .ro }
def rsts_refusal : Fld := { lo := 4, w := 4, acc := .ro }
def rsts_restarts : Fld := { lo := 16, w := 16, acc := .ro }
def rsts_last_restart_us : Fld := { lo := 32, w := 32, acc := .ro }
def rsts : List Fld := [rsts_restart_state, rsts_library_touched, rsts_refusal, rsts_restarts, rsts_last_restart_us]

/-! Word `spr` (R556 of 18_faults_spares_background.md). -/
def spr_spare_ok : Fld := { lo := 0, w := 1, acc := .ro, dflt := 1 }
def spr_retired_ok : Fld := { lo := 1, w := 1, acc := .ro }
def spr_tests_passed : Fld := { lo := 8, w := 8, acc := .ro }
def spr_tests_failed : Fld := { lo := 16, w := 8, acc := .ro }
def spr : List Fld := [spr_spare_ok, spr_retired_ok, spr_tests_passed, spr_tests_failed]

/-! Word `las` (R557 of 18_faults_spares_background.md). -/
def las_spare_state : Fld := { lo := 0, w := 2, acc := .ro }
def las_replaced : Fld := { lo := 2, w := 2, acc := .ro }
def las_swap_due : Fld := { lo := 4, w := 1, acc := .ro }
def las_exhausted : Fld := { lo := 5, w := 1, acc := .w1c }
def las_wear_0 : Fld := { lo := 8, w := 12, acc := .ro, dflt := 1000 }
def las_wear_1 : Fld := { lo := 20, w := 12, acc := .ro, dflt := 1000 }
def las_wear_2 : Fld := { lo := 32, w := 12, acc := .ro, dflt := 1000 }
def las : List Fld := [las_spare_state, las_replaced, las_swap_due, las_exhausted, las_wear_0, las_wear_1, las_wear_2]

/-! Word `lwc` (R558 of 18_faults_spares_background.md). -/
def lwc_swap_ratio : Fld := { lo := 0, w := 16, acc := .rw, dflt := 1500 }
def lwc_swap_enable : Fld := { lo := 16, w := 1, acc := .rw, dflt := 1 }
def lwc : List Fld := [lwc_swap_ratio, lwc_swap_enable]

/-! Word `bgs` (R559 of 18_faults_spares_background.md). -/
def bgs_table_corrected : Fld := { lo := 0, w := 16, acc := .ro }
def bgs_table_passes : Fld := { lo := 16, w := 16, acc := .ro }
def bgs_telemetry_late : Fld := { lo := 32, w := 16, acc := .ro }
def bgs_recorder_backlog : Fld := { lo := 48, w := 16, acc := .ro }
def bgs : List Fld := [bgs_table_corrected, bgs_table_passes, bgs_telemetry_late, bgs_recorder_backlog]

/-! Word `radv` (R581 of 19_recorder_and_security.md). -/
def radv_image_left : Fld := { lo := 0, w := 8, acc := .ro, dflt := 64 }
def radv_firmware_left : Fld := { lo := 8, w := 8, acc := .ro, dflt := 64 }
def radv : List Fld := [radv_image_left, radv_firmware_left]

/-! Word `fws` (R581 of 19_recorder_and_security.md). -/
def fws_a_ok : Fld := { lo := 0, w := 1, acc := .ro }
def fws_b_ok : Fld := { lo := 1, w := 1, acc := .ro }
def fws_running : Fld := { lo := 2, w := 1, acc := .ro }
def fws_a_ver : Fld := { lo := 16, w := 16, acc := .ro }
def fws_b_ver : Fld := { lo := 32, w := 16, acc := .ro }
def fws : List Fld := [fws_a_ok, fws_b_ok, fws_running, fws_a_ver, fws_b_ver]

/-! Word `fwu` (R582 of 19_recorder_and_security.md). -/
def fwu_begin : Fld := { lo := 0, w := 1, acc := .sc }
def fwu_target : Fld := { lo := 1, w := 1, acc := .rw }
def fwu_go : Fld := { lo := 2, w := 1, acc := .sc }
def fwu_update_state : Fld := { lo := 3, w := 2, acc := .ro }
def fwu_verify_failed : Fld := { lo := 5, w := 1, acc := .ro }
def fwu_staged_bytes : Fld := { lo := 32, w := 24, acc := .ro }
def fwu : List Fld := [fwu_begin, fwu_target, fwu_go, fwu_update_state, fwu_verify_failed, fwu_staged_bytes]

/-! Word `msg` (R583 of 19_recorder_and_security.md). -/
def msg_begin : Fld := { lo := 0, w := 1, acc := .sc }
def msg_go : Fld := { lo := 1, w := 1, acc := .sc }
def msg_msg_state : Fld := { lo := 2, w := 2, acc := .ro }
def msg_cause : Fld := { lo := 4, w := 4, acc := .ro }
def msg : List Fld := [msg_begin, msg_go, msg_msg_state, msg_cause]

/-! Word `att` (R581 of 19_recorder_and_security.md). -/
def att_go : Fld := { lo := 0, w := 1, acc := .sc }
def att_state : Fld := { lo := 1, w := 2, acc := .ro }
def att : List Fld := [att_go, att_state]

/-! Word `dbg` (R584 of 19_recorder_and_security.md). -/
def dbg_debug_scope : Fld := { lo := 0, w := 2, acc := .ro }
def dbg_close : Fld := { lo := 2, w := 1, acc := .sc }
def dbg_opens : Fld := { lo := 8, w := 8, acc := .ro }
def dbg : List Fld := [dbg_debug_scope, dbg_close, dbg_opens]

/-! Word `rcs` (R495 of 16_reset_and_startup.md). -/
def rcs_por_seen : Fld := { lo := 0, w := 1, acc := .w1c, dflt := 1 }
def rcs_reset_n_seen : Fld := { lo := 1, w := 1, acc := .w1c }
def rcs_watchdog_seen : Fld := { lo := 2, w := 1, acc := .w1c }
def rcs_field_net_seen : Fld := { lo := 3, w := 1, acc := .w1c }
def rcs_software_seen : Fld := { lo := 4, w := 1, acc := .w1c }
def rcs_perst_seen : Fld := { lo := 5, w := 1, acc := .w1c }
def rcs_block_seen : Fld := { lo := 6, w := 1, acc := .w1c }
def rcs_last_full_cause : Fld := { lo := 8, w := 3, acc := .ro, dflt := 1 }
def rcs_full_resets : Fld := { lo := 16, w := 16, acc := .ro }
def rcs : List Fld := [rcs_por_seen, rcs_reset_n_seen, rcs_watchdog_seen, rcs_field_net_seen, rcs_software_seen, rcs_perst_seen, rcs_block_seen, rcs_last_full_cause, rcs_full_resets]

/-! Word `blk` (R496 of 16_reset_and_startup.md). -/
def blk_block_kind : Fld := { lo := 0, w := 3, acc := .rw }
def blk_block_number : Fld := { lo := 3, w := 7, acc := .rw }
def blk_go : Fld := { lo := 10, w := 1, acc := .sc }
def blk_busy : Fld := { lo := 11, w := 1, acc := .ro }
def blk : List Fld := [blk_block_kind, blk_block_number, blk_go, blk_busy]

/-! Word `strp` (R497 of 16_reset_and_startup.md). -/
def strp_strap_code : Fld := { lo := 0, w := 10, acc := .ro }
def strp_strap_bin : Fld := { lo := 10, w := 4, acc := .ro }
def strp_boot_source : Fld := { lo := 14, w := 2, acc := .ro }
def strp_field_bits : Fld := { lo := 16, w := 2, acc := .ro }
def strp : List Fld := [strp_strap_code, strp_strap_bin, strp_boot_source, strp_field_bits]

/-! Word `sst` (R498 of 16_reset_and_startup.md). -/
def sst_recovery : Fld := { lo := 0, w := 1, acc := .ro }
def sst_boot_used : Fld := { lo := 1, w := 2, acc := .ro }
def sst_boot_fallback : Fld := { lo := 3, w := 1, acc := .ro }
def sst_trim_failures : Fld := { lo := 4, w := 2, acc := .ro }
def sst_store_empty : Fld := { lo := 6, w := 1, acc := .ro }
def sst_pll_failed : Fld := { lo := 7, w := 1, acc := .ro }
def sst_hbm_in_service : Fld := { lo := 8, w := 10, acc := .ro }
def sst_ddr_in_service : Fld := { lo := 18, w := 12, acc := .ro }
def sst_ddr_population_ok : Fld := { lo := 30, w := 1, acc := .ro }
def sst_ddr_ready : Fld := { lo := 31, w := 1, acc := .ro }
def sst_ready_ms : Fld := { lo := 48, w := 16, acc := .ro }
def sst : List Fld := [sst_recovery, sst_boot_used, sst_boot_fallback, sst_trim_failures, sst_store_empty, sst_pll_failed, sst_hbm_in_service, sst_ddr_in_service, sst_ddr_population_ok, sst_ddr_ready, sst_ready_ms]

/-! Word `wd` (R499 of 16_reset_and_startup.md). -/
def wd_wd_ms : Fld := { lo := 0, w := 16, acc := .rw, dflt := 1000, min := 100 }
def wd_wd_enable : Fld := { lo := 16, w := 1, acc := .rw, dflt := 1 }
def wd : List Fld := [wd_wd_ms, wd_wd_enable]

/-! Word `tel` (R530 of 17_package_pins_power.md). -/
def tel_thermal_doubt : Fld := { lo := 0, w := 1, acc := .ro }
def tel_supply_doubt : Fld := { lo := 1, w := 1, acc := .ro }
def tel_thermal_trip : Fld := { lo := 2, w := 1, acc := .ro }
def tel_sensor_fault : Fld := { lo := 3, w := 1, acc := .ro }
def tel_warn_seen : Fld := { lo := 4, w := 1, acc := .w1c }
def tel_power_over_seen : Fld := { lo := 5, w := 1, acc := .w1c }
def tel_hottest_sensor : Fld := { lo := 16, w := 16, acc := .ro }
def tel : List Fld := [tel_thermal_doubt, tel_supply_doubt, tel_thermal_trip, tel_sensor_fault, tel_warn_seen, tel_power_over_seen, tel_hottest_sensor]

/-! Word `mpw` (R529 of 17_package_pins_power.md). -/
def mpw_power : Fld := { lo := 0, w := 32, acc := .ro }
def mpw_peak : Fld := { lo := 32, w := 32, acc := .ro }
def mpw : List Fld := [mpw_power, mpw_peak]

/-! Word `lim` (R531 of 17_package_pins_power.md). -/
def lim_warn : Fld := { lo := 0, w := 16, acc := .rw }
def lim_doubt : Fld := { lo := 16, w := 16, acc := .rw }
def lim_trip : Fld := { lo := 32, w := 16, acc := .ro }
def lim : List Fld := [lim_warn, lim_doubt, lim_trip]

/-! Word `rail` (R529 of 17_package_pins_power.md). -/
def rail_uV : Fld := { lo := 0, w := 32, acc := .ro }
def rail_mA : Fld := { lo := 32, w := 32, acc := .ro }
def rail : List Fld := [rail_uV, rail_mA]

/-- Entries of the dictionary, part 0. -/
def entries0 : List Entry := [
  { base := 0x1000, count := 1, sub0 := 0x00, sub1 := 0x00, bytes := 4, cls := .volatile, flds := [{ lo := 0, w := 32, acc := .ro }] }, -- Device Type (R445)
  { base := 0x1001, count := 1, sub0 := 0x00, sub1 := 0x00, bytes := 1, cls := .volatile, flds := [{ lo := 0, w := 8, acc := .ro }] }, -- Error Register (computed) (R468)
  { base := 0x1010, count := 1, sub0 := 0x01, sub1 := 0x01, bytes := 4, cls := .volatile, flds := [{ lo := 0, w := 32, acc := .rw, dflt := 1 }] }, -- Store Parameters (R436)
  { base := 0x1011, count := 1, sub0 := 0x01, sub1 := 0x01, bytes := 4, cls := .volatile, flds := [{ lo := 0, w := 32, acc := .rw, dflt := 1 }] }, -- Restore Default Parameters (R436)
  { base := 0x1015, count := 1, sub0 := 0x00, sub1 := 0x00, bytes := 2, cls := .stored, flds := [{ lo := 0, w := 16, acc := .rw, dflt := 10 }] }, -- EMCY Inhibit Time (R445)
  { base := 0x1017, count := 1, sub0 := 0x00, sub1 := 0x00, bytes := 2, cls := .stored, flds := [{ lo := 0, w := 16, acc := .rw, dflt := 1000 }] }, -- Producer Heartbeat Time (R445)
  { base := 0x1018, count := 1, sub0 := 0x01, sub1 := 0x01, bytes := 4, cls := .volatile, flds := [{ lo := 0, w := 32, acc := .ro, dflt := 3792 }] }, -- Vendor ID (R445)
  { base := 0x1018, count := 1, sub0 := 0x02, sub1 := 0x04, bytes := 4, cls := .volatile, flds := [{ lo := 0, w := 32, acc := .ro }] }, -- Product Code, Revision, Serial (id) (R445)
  { base := 0x2100, count := 20, sub0 := 0x01, sub1 := 0x22, bytes := 4, cls := .volatile, flds := lctl }, -- Quay q Lane Control (R72)
  { base := 0x2100, count := 20, sub0 := 0x23, sub1 := 0x23, bytes := 4, cls := .volatile, flds := rch }, -- Quay q Return Channel (R77)
  { base := 0x2120, count := 20, sub0 := 0x01, sub1 := 0x22, bytes := 4, cls := .volatile, flds := lstat }, -- Quay q Lane Status (R73)
  { base := 0x2140, count := 20, sub0 := 0x01, sub1 := 0x22, bytes := 8, cls := .volatile, flds := lcnt }, -- Quay q Lane Counters (R75)
  { base := 0x2160, count := 20, sub0 := 0x01, sub1 := 0x22, bytes := 16, cls := .volatile, flds := leq }, -- Quay q Lane Equaliser (R76)
  { base := 0x2180, count := 20, sub0 := 0x01, sub1 := 0x20, bytes := 1, cls := .volatile, flds := [{ lo := 0, w := 8, acc := .rwe, max := 33 }] }, -- Quay q Lane Map (default lane number) (R71)
  { base := 0x21A0, count := 4, sub0 := 0x01, sub1 := 0x22, bytes := 4, cls := .volatile, flds := lctl }, -- Link e RX Control (R72)
  { base := 0x21A4, count := 4, sub0 := 0x01, sub1 := 0x22, bytes := 4, cls := .volatile, flds := lstat }, -- Link e RX Status (R73)
  { base := 0x21A8, count := 4, sub0 := 0x01, sub1 := 0x22, bytes := 8, cls := .volatile, flds := lcnt }, -- Link e RX Counters (R75)
  { base := 0x21AC, count := 4, sub0 := 0x01, sub1 := 0x22, bytes := 16, cls := .volatile, flds := leq }, -- Link e RX Equaliser (R76)
  { base := 0x21B0, count := 4, sub0 := 0x01, sub1 := 0x22, bytes := 4, cls := .volatile, flds := txc }, -- Link e TX Control (R78)
  { base := 0x21B4, count := 4, sub0 := 0x01, sub1 := 0x40, bytes := 1, cls := .volatile, flds := [{ lo := 0, w := 8, acc := .rwe, max := 33 }] }, -- Link e Lane Map (default lane number) (R71)
  { base := 0x21B8, count := 4, sub0 := 0x01, sub1 := 0x20, bytes := 8, cls := .job, flds := llc }, -- Link e RX Landing Counters (R71)
  { base := 0x21F0, count := 1, sub0 := 0x01, sub1 := 0x01, bytes := 8, cls := .volatile, flds := lglb }, -- Lane Global Control (R79)
  { base := 0x2200, count := 20, sub0 := 0x01, sub1 := 0x01, bytes := 4, cls := .volatile, flds := quay }, -- Quay q Landing Control (R112)
  { base := 0x2200, count := 20, sub0 := 0x02, sub1 := 0x05, bytes := 4, cls := .volatile, flds := grp } -- Quay q Group Configuration (R113)
]

/-- Entries of the dictionary, part 1. -/
def entries1 : List Entry := [
  { base := 0x2200, count := 20, sub0 := 0x06, sub1 := 0x09, bytes := 4, cls := .volatile, flds := conv }, -- Quay q Group Conversion (R114)
  { base := 0x2220, count := 20, sub0 := 0x01, sub1 := 0x04, bytes := 4, cls := .volatile, flds := gstat }, -- Quay q Group Status (R115)
  { base := 0x2240, count := 20, sub0 := 0x01, sub1 := 0x0B, bytes := 8, cls := .job, flds := [{ lo := 0, w := 48, acc := .ro }] }, -- Quay q Gutter (R96)
  { base := 0x2240, count := 20, sub0 := 0x11, sub1 := 0x14, bytes := 4, cls := .job, flds := [{ lo := 0, w := 32, acc := .ro }] }, -- Quay q Conversion Clips (R99)
  { base := 0x2260, count := 20, sub0 := 0x01, sub1 := 0x20, bytes := 2, cls := .volatile, flds := [{ lo := 0, w := 12, acc := .rwe }] }, -- Quay q Expected Identity (default 32q + lane) (R111)
  { base := 0x2280, count := 20, sub0 := 0x01, sub1 := 0x20, bytes := 8, cls := .job, flds := llc }, -- Quay q Lane Landing Counters (R116)
  { base := 0x22C0, count := 20, sub0 := 0x01, sub1 := 0x01, bytes := 4, cls := .volatile, flds := slip }, -- Slipway q Configuration (R117)
  { base := 0x22F0, count := 1, sub0 := 0x01, sub1 := 0x01, bytes := 4, cls := .volatile, flds := lndg }, -- Landing Global Control (R118)
  { base := 0x2300, count := 104, sub0 := 0x01, sub1 := 0x01, bytes := 8, cls := .job, flds := [{ lo := 0, w := 48, acc := .ro }] }, -- Tile p Accumulator Clips (R142)
  { base := 0x2300, count := 104, sub0 := 0x02, sub1 := 0x02, bytes := 8, cls := .job, flds := [{ lo := 0, w := 48, acc := .ro }] }, -- Tile p Requantise Saturations (R142)
  { base := 0x2300, count := 104, sub0 := 0x03, sub1 := 0x03, bytes := 4, cls := .volatile, flds := ast }, -- Tile p Arithmetic Status (R143)
  { base := 0x2400, count := 256, sub0 := 0x01, sub1 := 0x03, bytes := 8, cls := .volatile, flds := cwin }, -- Layer L windows (R168)
  { base := 0x2400, count := 256, sub0 := 0x04, sub1 := 0x06, bytes := 8, cls := .job, flds := [{ lo := 0, w := 48, acc := .ro }] }, -- Layer L totals (R167)
  { base := 0x2400, count := 256, sub0 := 0x07, sub1 := 0x07, bytes := 8, cls := .volatile, flds := cstat }, -- Layer L Calibration Status (R169)
  { base := 0x2500, count := 1, sub0 := 0x01, sub1 := 0x01, bytes := 4, cls := .volatile, flds := cglb }, -- Calibration Global Control (R170)
  { base := 0x2600, count := 1, sub0 := 0x01, sub1 := 0x01, bytes := 4, cls := .volatile, flds := sched }, -- Grid Schedule (R198)
  { base := 0x2600, count := 1, sub0 := 0x02, sub1 := 0x02, bytes := 4, cls := .volatile, flds := mctl }, -- Margin Control (R199)
  { base := 0x2608, count := 8, sub0 := 0x01, sub1 := 0x01, bytes := 4, cls := .stored, flds := row }, -- Row r Map (R200)
  { base := 0x2610, count := 104, sub0 := 0x01, sub1 := 0x01, bytes := 8, cls := .volatile, flds := tstat }, -- Tile p Timing Status (R201)
  { base := 0x2610, count := 104, sub0 := 0x10, sub1 := 0x17, bytes := 64, cls := .job, flds := [{ lo := 0, w := 512, acc := .ro }] }, -- Tile p Margin Histogram (R196)
  { base := 0x26A0, count := 2, sub0 := 0x01, sub1 := 0x01, bytes := 8, cls := .volatile, flds := tstat }, -- Hub h Timing Status (R201)
  { base := 0x26A0, count := 2, sub0 := 0x10, sub1 := 0x17, bytes := 64, cls := .job, flds := [{ lo := 0, w := 512, acc := .ro }] }, -- Hub h Margin Histogram (R196)
  { base := 0x2700, count := 104, sub0 := 0x01, sub1 := 0x01, bytes := 8, cls := .always, flds := tmem }, -- Tile p Memory Status (R286)
  { base := 0x2700, count := 104, sub0 := 0x10, sub1 := 0x4F, bytes := 16, cls := .volatile, flds := reg } -- Tile p Region (R258)
]

/-- Entries of the dictionary, part 2. -/
def entries2 : List Entry := [
  { base := 0x2770, count := 2, sub0 := 0x01, sub1 := 0x06, bytes := 8, cls := .volatile, flds := [{ lo := 0, w := 64, acc := .rwe }] }, -- Hub h HBM Map (R285)
  { base := 0x2780, count := 20, sub0 := 0x01, sub1 := 0x01, bytes := 8, cls := .volatile, flds := [{ lo := 0, w := 64, acc := .rwe }] }, -- Quay q Segment Base (R285)
  { base := 0x2780, count := 20, sub0 := 0x02, sub1 := 0x02, bytes := 4, cls := .volatile, flds := [{ lo := 0, w := 32, acc := .rwe }] }, -- Quay q Course Count (R285)
  { base := 0x2780, count := 20, sub0 := 0x03, sub1 := 0x03, bytes := 4, cls := .volatile, flds := [{ lo := 0, w := 32, acc := .ro }] }, -- Quay q Course Size (computed) (R285)
  { base := 0x2780, count := 20, sub0 := 0x04, sub1 := 0x04, bytes := 8, cls := .volatile, flds := [{ lo := 0, w := 64, acc := .rwe }] }, -- Quay q Replay Base (R285)
  { base := 0x2780, count := 20, sub0 := 0x05, sub1 := 0x05, bytes := 4, cls := .volatile, flds := [{ lo := 0, w := 32, acc := .rwe }] }, -- Quay q Replay Count (R285)
  { base := 0x2780, count := 20, sub0 := 0x06, sub1 := 0x06, bytes := 8, cls := .volatile, flds := [{ lo := 0, w := 64, acc := .ro }] }, -- Quay q Ring Depth (computed) (R285)
  { base := 0x27A0, count := 10, sub0 := 0x01, sub1 := 0x01, bytes := 8, cls := .always, flds := munit }, -- HBM Stack s Status (R288)
  { base := 0x27B0, count := 12, sub0 := 0x01, sub1 := 0x01, bytes := 8, cls := .always, flds := munit }, -- DDR4 Channel c Status (R288)
  { base := 0x27C0, count := 16, sub0 := 0x01, sub1 := 0x01, bytes := 8, cls := .volatile, flds := tend }, -- Tender t Status (R287)
  { base := 0x27E0, count := 1, sub0 := 0x01, sub1 := 0x08, bytes := 8, cls := .stored, flds := [{ lo := 0, w := 64, acc := .rwe }] }, -- DDR4 Map (R285)
  { base := 0x2800, count := 1, sub0 := 0x01, sub1 := 0x01, bytes := 8, cls := .volatile, flds := dec }, -- Decision Control (R315)
  { base := 0x2800, count := 1, sub0 := 0x02, sub1 := 0x02, bytes := 8, cls := .volatile, flds := pin }, -- Pin Status (R316)
  { base := 0x2800, count := 1, sub0 := 0x03, sub1 := 0x03, bytes := 8, cls := .volatile, flds := outc }, -- Output Control (R317)
  { base := 0x2800, count := 1, sub0 := 0x04, sub1 := 0x04, bytes := 4, cls := .volatile, flds := flsh }, -- Flashing Status (R318)
  { base := 0x2800, count := 1, sub0 := 0x05, sub1 := 0x07, bytes := 8, cls := .job, flds := [{ lo := 0, w := 48, acc := .ro }] }, -- Frames Evaluated, Void Frames, Unmarked Compares (R311)
  { base := 0x2810, count := 8, sub0 := 0x01, sub1 := 0x02, bytes := 8, cls := .job, flds := [{ lo := 0, w := 48, acc := .ro }] }, -- Class c Accepts, Flashed (R311)
  { base := 0x2820, count := 1, sub0 := 0x01, sub1 := 0x04, bytes := 2, cls := .volatile, flds := mko }, -- Mark Output i (R319)
  { base := 0x2900, count := 1, sub0 := 0x01, sub1 := 0x01, bytes := 4, cls := .volatile, flds := capc }, -- Capture Control (R349)
  { base := 0x2900, count := 1, sub0 := 0x02, sub1 := 0x02, bytes := 8, cls := .volatile, flds := caps }, -- Capture Status (R350)
  { base := 0x2900, count := 1, sub0 := 0x03, sub1 := 0x03, bytes := 16, cls := .volatile, flds := hcap }, -- Host Capture (R352)
  { base := 0x2900, count := 1, sub0 := 0x04, sub1 := 0x04, bytes := 8, cls := .volatile, flds := abt }, -- Capture Abort (R353)
  { base := 0x2900, count := 1, sub0 := 0x05, sub1 := 0x05, bytes := 8, cls := .volatile, flds := abs }, -- Abort Status (R353)
  { base := 0x2900, count := 1, sub0 := 0x06, sub1 := 0x06, bytes := 16, cls := .volatile, flds := wslot } -- Window Slots (R354)
]

/-- Entries of the dictionary, part 3. -/
def entries3 : List Entry := [
  { base := 0x2900, count := 1, sub0 := 0x07, sub1 := 0x07, bytes := 8, cls := .volatile, flds := wbuf }, -- Window Buffers (R348)
  { base := 0x2908, count := 1, sub0 := 0x01, sub1 := 0x0A, bytes := 8, cls := .job, flds := [{ lo := 0, w := 48, acc := .ro }] }, -- Capture Counters (R348)
  { base := 0x2910, count := 8, sub0 := 0x01, sub1 := 0x01, bytes := 8, cls := .volatile, flds := ccap }, -- Class c Capture (R351)
  { base := 0x2940, count := 1, sub0 := 0x01, sub1 := 0x01, bytes := 8, cls := .volatile, flds := [{ lo := 0, w := 64, acc := .rwe }] }, -- Host Ring Size (R348)
  { base := 0x2940, count := 1, sub0 := 0x02, sub1 := 0x02, bytes := 8, cls := .volatile, flds := [{ lo := 0, w := 64, acc := .ro }] }, -- Host Producer (R348)
  { base := 0x2940, count := 1, sub0 := 0x03, sub1 := 0x03, bytes := 8, cls := .volatile, flds := [{ lo := 0, w := 64, acc := .rw }] }, -- Host Consumer (R348)
  { base := 0x2960, count := 20, sub0 := 0x01, sub1 := 0x01, bytes := 4, cls := .volatile, flds := [{ lo := 0, w := 32, acc := .rwe }] }, -- Quay q Spill Count (R348)
  { base := 0x2980, count := 20, sub0 := 0x01, sub1 := 0x01, bytes := 4, cls := .volatile, flds := avg }, -- Quay q Averaging (R355)
  { base := 0x2980, count := 20, sub0 := 0x02, sub1 := 0x02, bytes := 8, cls := .job, flds := [{ lo := 0, w := 48, acc := .ro }] }, -- Quay q Average Clips (R348)
  { base := 0x2A00, count := 256, sub0 := 0x01, sub1 := 0x04, bytes := 2, cls := .volatile, flds := thr }, -- Seed Threshold (R312)
  { base := 0x2A00, count := 256, sub0 := 0x05, sub1 := 0x08, bytes := 4, cls := .volatile, flds := cmp }, -- Seed Comparison (R313)
  { base := 0x2A00, count := 256, sub0 := 0x09, sub1 := 0x09, bytes := 8, cls := .volatile, flds := seed }, -- Seed Control (R314)
  { base := 0x2A00, count := 256, sub0 := 0x0A, sub1 := 0x0B, bytes := 8, cls := .job, flds := [{ lo := 0, w := 48, acc := .ro }] }, -- Seed Fired, Accepted (R293)
  { base := 0x2A00, count := 256, sub0 := 0x0C, sub1 := 0x0C, bytes := 4, cls := .volatile, flds := [{ lo := 0, w := 24, acc := .ro }] }, -- Seed Prescale Count (R293)
  { base := 0x2B00, count := 1, sub0 := 0x01, sub1 := 0x02, bytes := 4, cls := .volatile, flds := [{ lo := 0, w := 32, acc := .rwe }] }, -- Menu Identity, Expected Menu CRC (R311)
  { base := 0x2B00, count := 1, sub0 := 0x03, sub1 := 0x03, bytes := 4, cls := .volatile, flds := [{ lo := 0, w := 32, acc := .ro }] }, -- Menu CRC (R294)
  { base := 0x2C00, count := 1, sub0 := 0x01, sub1 := 0x05, bytes := 8, cls := .volatile, flds := [{ lo := 0, w := 64, acc := .ro }] }, -- Image Identity, Image Digest 0-3 (R373)
  { base := 0x2C00, count := 1, sub0 := 0x06, sub1 := 0x06, bytes := 8, cls := .volatile, flds := lds }, -- Load Status (R374)
  { base := 0x2C00, count := 1, sub0 := 0x07, sub1 := 0x07, bytes := 2, cls := .volatile, flds := [{ lo := 0, w := 16, acc := .ro }] }, -- Grid Tenders (R373)
  { base := 0x2C00, count := 1, sub0 := 0x08, sub1 := 0x08, bytes := 64, cls := .volatile, flds := [{ lo := 0, w := 512, acc := .ro, dflt := 6277005954415376645782142026518470126223994976539405975552 }] }, -- Load Fault Report (R373)
  { base := 0x2C10, count := 2, sub0 := 0x01, sub1 := 0x01, bytes := 8, cls := .volatile, flds := [{ lo := 0, w := 64, acc := .rwe }] }, -- Job Area Base (R373)
  { base := 0x2C10, count := 2, sub0 := 0x02, sub1 := 0x02, bytes := 8, cls := .volatile, flds := [{ lo := 0, w := 64, acc := .ro }] }, -- Job Area Size (R373)
  { base := 0x2C20, count := 1, sub0 := 0x01, sub1 := 0x01, bytes := 8, cls := .volatile, flds := [{ lo := 0, w := 64, acc := .rwe }] }, -- Image Library Address (R373)
  { base := 0x2D00, count := 1, sub0 := 0x01, sub1 := 0x01, bytes := 8, cls := .stored, flds := bctl } -- Berth Control (R404)
]

/-- Entries of the dictionary, part 4. -/
def entries4 : List Entry := [
  { base := 0x2D00, count := 1, sub0 := 0x02, sub1 := 0x02, bytes := 8, cls := .volatile, flds := bsts }, -- Berth Status (R405)
  { base := 0x2D00, count := 1, sub0 := 0x03, sub1 := 0x03, bytes := 8, cls := .volatile, flds := [{ lo := 0, w := 48, acc := .ro }] }, -- Berth Choices (R403)
  { base := 0x2D00, count := 1, sub0 := 0x04, sub1 := 0x04, bytes := 8, cls := .volatile, flds := [{ lo := 0, w := 48, acc := .rwe }] }, -- Berth Start Frame (R403)
  { base := 0x2D10, count := 32, sub0 := 0x01, sub1 := 0x01, bytes := 8, cls := .volatile, flds := bun }, -- Bundle k (R406)
  { base := 0x2D40, count := 1, sub0 := 0x01, sub1 := 0x01, bytes := 8, cls := .volatile, flds := hctl }, -- Harbour Control (R407)
  { base := 0x2D40, count := 1, sub0 := 0x02, sub1 := 0x02, bytes := 8, cls := .volatile, flds := hdl }, -- Harbour Deadlines (R403)
  { base := 0x2D40, count := 1, sub0 := 0x03, sub1 := 0x03, bytes := 8, cls := .volatile, flds := skb }, -- Harbour Skew Bounds (R403)
  { base := 0x2D40, count := 1, sub0 := 0x04, sub1 := 0x04, bytes := 8, cls := .volatile, flds := [{ lo := 0, w := 48, acc := .ro }] }, -- Harbour Choices (R403)
  { base := 0x2D48, count := 8, sub0 := 0x01, sub1 := 0x01, bytes := 8, cls := .volatile, flds := [{ lo := 0, w := 48, acc := .ro }] }, -- Class c Harbour Accepts (R403)
  { base := 0x2D50, count := 40, sub0 := 0x01, sub1 := 0x01, bytes := 1, cls := .volatile, flds := peer }, -- Eaves p Berth Peer (R403)
  { base := 0x2E00, count := 1, sub0 := 0x01, sub1 := 0x01, bytes := 8, cls := .time, flds := tctl }, -- Time Control (R429)
  { base := 0x2E00, count := 1, sub0 := 0x02, sub1 := 0x02, bytes := 8, cls := .time, flds := tsts }, -- Time Status (R430)
  { base := 0x2E00, count := 1, sub0 := 0x03, sub1 := 0x03, bytes := 8, cls := .time, flds := [{ lo := 0, w := 36, acc := .rw, dflt := 13743895347 }] }, -- Main Increment (R428)
  { base := 0x2E00, count := 1, sub0 := 0x04, sub1 := 0x04, bytes := 16, cls := .time, flds := [{ lo := 0, w := 128, acc := .rw }] }, -- Main Time (computed) (R428)
  { base := 0x2E00, count := 1, sub0 := 0x05, sub1 := 0x05, bytes := 4, cls := .time, flds := [{ lo := 0, w := 32, acc := .wo }] }, -- Time Adjust (R428)
  { base := 0x2E00, count := 1, sub0 := 0x06, sub1 := 0x06, bytes := 4, cls := .time, flds := txq }, -- TX Stamp Queue (R428)
  { base := 0x2E01, count := 1, sub0 := 0x01, sub1 := 0x01, bytes := 16, cls := .time, flds := [{ lo := 0, w := 128, acc := .rw }] }, -- Fall-back Base (R428)
  { base := 0x2E01, count := 1, sub0 := 0x02, sub1 := 0x02, bytes := 8, cls := .time, flds := [{ lo := 0, w := 64, acc := .rw }] }, -- Fall-back Tick (R428)
  { base := 0x2E01, count := 1, sub0 := 0x03, sub1 := 0x03, bytes := 4, cls := .time, flds := [{ lo := 0, w := 32, acc := .rw }] }, -- Fall-back Rate (R428)
  { base := 0x2E01, count := 1, sub0 := 0x04, sub1 := 0x04, bytes := 1, cls := .time, flds := [{ lo := 0, w := 1, acc := .sc }] }, -- Fall-back Commit (R428)
  { base := 0x2E01, count := 1, sub0 := 0x05, sub1 := 0x05, bytes := 8, cls := .time, flds := [{ lo := 0, w := 64, acc := .ro }] }, -- Fall-back Ticks (computed) (R428)
  { base := 0x2E10, count := 2, sub0 := 0x01, sub1 := 0x01, bytes := 4, cls := .time, flds := dom }, -- Domain d Configuration (R431)
  { base := 0x2E10, count := 2, sub0 := 0x02, sub1 := 0x02, bytes := 8, cls := .time, flds := doms }, -- Domain d Status (R431)
  { base := 0x2E10, count := 2, sub0 := 0x03, sub1 := 0x03, bytes := 8, cls := .time, flds := [{ lo := 0, w := 64, acc := .ro }] } -- Domain d Offset (R428)
]

/-- Entries of the dictionary, part 5. -/
def entries5 : List Entry := [
  { base := 0x2E10, count := 2, sub0 := 0x04, sub1 := 0x04, bytes := 4, cls := .time, flds := [{ lo := 0, w := 32, acc := .ro }] }, -- Domain d Rate (R428)
  { base := 0x2E10, count := 2, sub0 := 0x05, sub1 := 0x05, bytes := 8, cls := .time, flds := [{ lo := 0, w := 64, acc := .ro }] }, -- Domain d Grandmaster (R428)
  { base := 0x2E10, count := 2, sub0 := 0x06, sub1 := 0x06, bytes := 2, cls := .time, flds := [{ lo := 0, w := 16, acc := .ro }] }, -- Domain d UTC Offset (R428)
  { base := 0x2E18, count := 2, sub0 := 0x01, sub1 := 0x01, bytes := 8, cls := .time, flds := port }, -- Port q Control (R432)
  { base := 0x2E18, count := 2, sub0 := 0x02, sub1 := 0x02, bytes := 8, cls := .time, flds := pst }, -- Port q Status (R428)
  { base := 0x2E28, count := 16, sub0 := 0x01, sub1 := 0x01, bytes := 4, cls := .time, flds := trig }, -- Trigger i Control (R432)
  { base := 0x2E28, count := 16, sub0 := 0x02, sub1 := 0x02, bytes := 8, cls := .time, flds := [{ lo := 0, w := 48, acc := .ro }] }, -- Trigger i Edges (R428)
  { base := 0x2E28, count := 16, sub0 := 0x03, sub1 := 0x03, bytes := 4, cls := .time, flds := [{ lo := 0, w := 32, acc := .ro }] }, -- Trigger i Lost (R428)
  { base := 0x2E28, count := 16, sub0 := 0x04, sub1 := 0x04, bytes := 16, cls := .time, flds := [{ lo := 0, w := 128, acc := .ro }] }, -- Trigger i Last Stamp (R428)
  { base := 0x2E40, count := 1, sub0 := 0x01, sub1 := 0x01, bytes := 4, cls := .time, flds := tlc }, -- Timeline Control (R428)
  { base := 0x2E40, count := 1, sub0 := 0x02, sub1 := 0x02, bytes := 4, cls := .time, flds := [{ lo := 0, w := 32, acc := .ro }] }, -- Timeline Producer (R428)
  { base := 0x2E40, count := 1, sub0 := 0x03, sub1 := 0x03, bytes := 4, cls := .time, flds := [{ lo := 0, w := 32, acc := .rw }] }, -- Timeline Consumer (R428)
  { base := 0x2E40, count := 1, sub0 := 0x04, sub1 := 0x04, bytes := 32, cls := .time, flds := [{ lo := 0, w := 256, acc := .ro }] }, -- Timeline Entry (computed) (R428)
  { base := 0x2E40, count := 1, sub0 := 0x05, sub1 := 0x05, bytes := 8, cls := .time, flds := tlk }, -- Timeline Counters (R428)
  { base := 0x2F00, count := 1, sub0 := 0x01, sub1 := 0x01, bytes := 1, cls := .volatile, flds := [{ lo := 0, w := 8, acc := .wo }] }, -- Job Command (R469)
  { base := 0x2F00, count := 1, sub0 := 0x02, sub1 := 0x02, bytes := 8, cls := .volatile, flds := jst }, -- Job Status (R470)
  { base := 0x2F00, count := 1, sub0 := 0x03, sub1 := 0x03, bytes := 8, cls := .volatile, flds := [{ lo := 0, w := 64, acc := .rw }] }, -- Save Offset (R469)
  { base := 0x2F00, count := 1, sub0 := 0x04, sub1 := 0x04, bytes := 8, cls := .volatile, flds := svs }, -- Save Status (R471)
  { base := 0x2F00, count := 1, sub0 := 0x05, sub1 := 0x05, bytes := 2, cls := .job, flds := [{ lo := 0, w := 16, acc := .rwe, dflt := 1 }] }, -- Drain Periods (R469)
  { base := 0x2F00, count := 1, sub0 := 0x06, sub1 := 0x07, bytes := 8, cls := .job, flds := [{ lo := 0, w := 48, acc := .ro }] }, -- Pause Frame, Resume Frame (R469)
  { base := 0x2F10, count := 1, sub0 := 0x01, sub1 := 0x01, bytes := 8, cls := .volatile, flds := feat }, -- Device Features (R453)
  { base := 0x2F10, count := 1, sub0 := 0x02, sub1 := 0x03, bytes := 8, cls := .volatile, flds := [{ lo := 0, w := 64, acc := .ro }] }, -- Driver, Agreed Features (R452)
  { base := 0x2F20, count := 1, sub0 := 0x01, sub1 := 0x01, bytes := 8, cls := .volatile, flds := hlc }, -- Host Link Control (R472)
  { base := 0x2F20, count := 1, sub0 := 0x02, sub1 := 0x02, bytes := 8, cls := .volatile, flds := hls } -- Host Link Status (R472)
]

/-- Entries of the dictionary, part 6. -/
def entries6 : List Entry := [
  { base := 0x2F20, count := 1, sub0 := 0x03, sub1 := 0x03, bytes := 4, cls := .volatile, flds := [{ lo := 0, w := 32, acc := .ro }] }, -- EMCY Log Producer (R469)
  { base := 0x2F20, count := 1, sub0 := 0x04, sub1 := 0x04, bytes := 4, cls := .volatile, flds := [{ lo := 0, w := 32, acc := .rw }] }, -- EMCY Log Consumer (R469)
  { base := 0x2F30, count := 1, sub0 := 0x01, sub1 := 0x01, bytes := 4, cls := .stored, flds := can }, -- Field Network Configuration (R473)
  { base := 0x2F30, count := 1, sub0 := 0x02, sub1 := 0x02, bytes := 8, cls := .volatile, flds := cans }, -- Field Network Status (R469)
  { base := 0x3000, count := 1, sub0 := 0x01, sub1 := 0x01, bytes := 8, cls := .volatile, flds := fst }, -- Fault Status (R553)
  { base := 0x3000, count := 1, sub0 := 0x02, sub1 := 0x02, bytes := 8, cls := .volatile, flds := rctl }, -- Restart Control (R554)
  { base := 0x3000, count := 1, sub0 := 0x03, sub1 := 0x03, bytes := 8, cls := .volatile, flds := rsts }, -- Restart Status (R555)
  { base := 0x3000, count := 1, sub0 := 0x10, sub1 := 0x1F, bytes := 64, cls := .volatile, flds := [{ lo := 0, w := 512, acc := .ro, dflt := 6277005954415376645782142026518470126223994976539405975552 }] }, -- Fault Report 0-15 (R552)
  { base := 0x3010, count := 8, sub0 := 0x01, sub1 := 0x01, bytes := 4, cls := .volatile, flds := spr }, -- Row r Spare Status (R556)
  { base := 0x3030, count := 48, sub0 := 0x01, sub1 := 0x01, bytes := 8, cls := .always, flds := las }, -- Laser Bank i (R557)
  { base := 0x3070, count := 1, sub0 := 0x01, sub1 := 0x01, bytes := 4, cls := .volatile, flds := lwc }, -- Laser Wear Control (R558)
  { base := 0x3080, count := 1, sub0 := 0x01, sub1 := 0x01, bytes := 8, cls := .volatile, flds := bgs }, -- Background Status (R559)
  { base := 0x3100, count := 1, sub0 := 0x01, sub1 := 0x01, bytes := 64, cls := .volatile, flds := [{ lo := 0, w := 512, acc := .ro }] }, -- Recorder Header (computed) (R581)
  { base := 0x3100, count := 1, sub0 := 0x02, sub1 := 0x02, bytes := 2, cls := .volatile, flds := [{ lo := 0, w := 16, acc := .rw }] }, -- Recorder Slot (R581)
  { base := 0x3100, count := 1, sub0 := 0x03, sub1 := 0x03, bytes := 256, cls := .volatile, flds := [{ lo := 0, w := 2048, acc := .ro }] }, -- Recorder Record (computed) (R581)
  { base := 0x3100, count := 1, sub0 := 0x04, sub1 := 0x04, bytes := 4, cls := .stored, flds := [{ lo := 0, w := 32, acc := .rw, dflt := 86400 }] }, -- Recorder Control (R581)
  { base := 0x3100, count := 1, sub0 := 0x05, sub1 := 0x05, bytes := 2, cls := .volatile, flds := [{ lo := 0, w := 16, acc := .rw }] }, -- Recorder Chunk Offset (R581)
  { base := 0x3100, count := 1, sub0 := 0x06, sub1 := 0x06, bytes := 64, cls := .volatile, flds := [{ lo := 0, w := 512, acc := .ro }] }, -- Recorder Chunk (computed) (R581)
  { base := 0x3110, count := 1, sub0 := 0x01, sub1 := 0x01, bytes := 32, cls := .volatile, flds := [{ lo := 0, w := 256, acc := .ro }] }, -- Identity Key (id) (R581)
  { base := 0x3110, count := 1, sub0 := 0x02, sub1 := 0x02, bytes := 2, cls := .volatile, flds := [{ lo := 0, w := 16, acc := .rw }] }, -- Certificate Offset (R581)
  { base := 0x3110, count := 1, sub0 := 0x03, sub1 := 0x03, bytes := 64, cls := .volatile, flds := [{ lo := 0, w := 512, acc := .ro }] }, -- Certificate Chunk (computed) (R581)
  { base := 0x3120, count := 4, sub0 := 0x01, sub1 := 0x01, bytes := 1, cls := .volatile, flds := [{ lo := 0, w := 8, acc := .ro }] }, -- Owner Slot k State (R581)
  { base := 0x3120, count := 4, sub0 := 0x02, sub1 := 0x02, bytes := 32, cls := .volatile, flds := [{ lo := 0, w := 256, acc := .ro }] }, -- Owner Slot k Key (R581)
  { base := 0x3130, count := 1, sub0 := 0x01, sub1 := 0x01, bytes := 8, cls := .volatile, flds := [{ lo := 0, w := 64, acc := .ro }] } -- Rollback Floors (R581)
]

/-- Entries of the dictionary, part 7. -/
def entries7 : List Entry := [
  { base := 0x3130, count := 1, sub0 := 0x02, sub1 := 0x02, bytes := 2, cls := .volatile, flds := radv }, -- Rollback Advances (R581)
  { base := 0x3140, count := 1, sub0 := 0x01, sub1 := 0x01, bytes := 8, cls := .volatile, flds := fws }, -- Firmware Slots (R581)
  { base := 0x3140, count := 1, sub0 := 0x02, sub1 := 0x02, bytes := 8, cls := .volatile, flds := fwu }, -- Firmware Update (R582)
  { base := 0x3140, count := 1, sub0 := 0x03, sub1 := 0x03, bytes := 64, cls := .volatile, flds := [{ lo := 0, w := 512, acc := .wo }] }, -- Firmware Data (R581)
  { base := 0x3150, count := 1, sub0 := 0x01, sub1 := 0x01, bytes := 32, cls := .volatile, flds := [{ lo := 0, w := 256, acc := .ro }] }, -- Security Nonce (R581)
  { base := 0x3150, count := 1, sub0 := 0x02, sub1 := 0x02, bytes := 64, cls := .volatile, flds := [{ lo := 0, w := 512, acc := .wo }] }, -- Message Data (R581)
  { base := 0x3150, count := 1, sub0 := 0x03, sub1 := 0x03, bytes := 4, cls := .volatile, flds := msg }, -- Message Control (R583)
  { base := 0x3160, count := 1, sub0 := 0x01, sub1 := 0x01, bytes := 32, cls := .volatile, flds := [{ lo := 0, w := 256, acc := .rw }] }, -- Attestation Nonce (R581)
  { base := 0x3160, count := 1, sub0 := 0x02, sub1 := 0x02, bytes := 1, cls := .volatile, flds := att }, -- Attestation Control (R581)
  { base := 0x3160, count := 1, sub0 := 0x03, sub1 := 0x03, bytes := 2, cls := .volatile, flds := [{ lo := 0, w := 16, acc := .rw }] }, -- Report Offset (R581)
  { base := 0x3160, count := 1, sub0 := 0x04, sub1 := 0x04, bytes := 64, cls := .volatile, flds := [{ lo := 0, w := 512, acc := .ro }] }, -- Report Chunk (computed) (R581)
  { base := 0x3170, count := 1, sub0 := 0x01, sub1 := 0x01, bytes := 2, cls := .volatile, flds := dbg }, -- Debug Control (R584)
  { base := 0x3200, count := 1, sub0 := 0x01, sub1 := 0x01, bytes := 4, cls := .volatile, flds := rcs }, -- Reset Cause (R495)
  { base := 0x3200, count := 1, sub0 := 0x02, sub1 := 0x02, bytes := 4, cls := .volatile, flds := [{ lo := 0, w := 32, acc := .wo }] }, -- Reset Command (R494)
  { base := 0x3200, count := 1, sub0 := 0x03, sub1 := 0x03, bytes := 4, cls := .volatile, flds := blk }, -- Block Reset (R496)
  { base := 0x3200, count := 1, sub0 := 0x04, sub1 := 0x04, bytes := 4, cls := .volatile, flds := strp }, -- Strap (R497)
  { base := 0x3200, count := 1, sub0 := 0x05, sub1 := 0x05, bytes := 8, cls := .volatile, flds := sst }, -- Start Status (R498)
  { base := 0x3200, count := 1, sub0 := 0x06, sub1 := 0x06, bytes := 4, cls := .stored, flds := wd }, -- Watchdog (R499)
  { base := 0x3300, count := 1, sub0 := 0x01, sub1 := 0x01, bytes := 8, cls := .volatile, flds := tel }, -- Telemetry Status (R530)
  { base := 0x3300, count := 1, sub0 := 0x02, sub1 := 0x02, bytes := 8, cls := .job, flds := mpw }, -- Module Power (R529)
  { base := 0x3302, count := 6, sub0 := 0x01, sub1 := 0x01, bytes := 8, cls := .volatile, flds := lim }, -- Class k Limits (R531)
  { base := 0x3309, count := 6, sub0 := 0x01, sub1 := 0x40, bytes := 4, cls := .volatile, flds := [{ lo := 0, w := 32, acc := .ro }] }, -- Class k Readings (R529)
  { base := 0x3310, count := 5, sub0 := 0x01, sub1 := 0x01, bytes := 8, cls := .volatile, flds := rail } -- Rail v Reading (R529)
]

/-- Every entry of the dictionary. -/
def entries : List Entry :=
  entries0 ++ entries1 ++ entries2 ++ entries3 ++ entries4 ++ entries5 ++ entries6 ++ entries7

end Sys2Proof.Machine
end

