-- ==== Sys2Proof/Machine/Maps.lean ====
section
/-! DEFINITION. Sparse maps and byte memory in their one canonical form: keys strictly rising, no entry equal to
the value an unlisted key reads as. A write keeps the form, so equal contents are equal data. -/

namespace Sys2Proof.Machine

variable {α : Type}

/-- The value at key `k`; `d` where the key is not listed. -/
def mget (d : α) : SMap α → Nat → α
  | [], _ => d
  | (i, v) :: m, k => if k = i then v else if k < i then d else mget d m k

/-- The entry listed at key `k`. -/
def mfind : SMap α → Nat → Option α
  | [], _ => none
  | (i, v) :: m, k => if k = i then some v else if k < i then none else mfind m k

/-- `m` with key `k` removed; in a list that is not in canonical form what stands behind it with a key up to `k` goes
too, so that the laws of reading and writing hold of every list. -/
def mdel : SMap α → Nat → SMap α
  | [], _ => []
  | (i, v) :: m, k =>
    if k = i then m.dropWhile (fun e => decide (e.1 ≤ k)) else if k < i then (i, v) :: m else (i, v) :: mdel m k

/-- `m` with key `k` listed at `v`. -/
def mput : SMap α → Nat → α → SMap α
  | [], k, v => [(k, v)]
  | (i, w) :: m, k, v =>
    if k = i then (k, v) :: m else if k < i then (k, v) :: (i, w) :: m else (i, w) :: mput m k v

/-- `m` with `v` at key `k`, in canonical form over the default `d`. -/
def mset [DecidableEq α] (d : α) (m : SMap α) (k : Nat) (v : α) : SMap α :=
  if v = d then mdel m k else mput m k v

/-- Every listed key is above `lo`, keys rise strictly, and no entry is the default. -/
def mwfFrom [DecidableEq α] (d : α) : Nat → SMap α → Bool
  | _, [] => true
  | lo, (i, v) :: m => decide (lo ≤ i) && decide (v ≠ d) && mwfFrom d (i + 1) m

/-- The canonical form. -/
def mwf [DecidableEq α] (d : α) (m : SMap α) : Bool := mwfFrom d 0 m

/-- The values `f i` written at the keys `k`, `k + 1`, … for each value of the list. -/
def msetList [DecidableEq α] (d : α) (m : SMap α) (k : Nat) : List α → SMap α
  | [] => m
  | v :: vs => msetList d (mset d m k v) (k + 1) vs

/-- `f` of every listed value, in canonical form over the default `d` (`f d` must be `d`). -/
def mmap [DecidableEq α] (d : α) (f : α → α) (m : SMap α) : SMap α :=
  (m.map (fun e => (e.1, f e.2))).filter (fun e => decide (e.2 ≠ d))

/-- The entries with a key below `k`. -/
def mbelow (m : SMap α) (k : Nat) : SMap α := m.filter (fun e => decide (e.1 < k))

/-- `n` values from key `k` on. -/
def mrange (d : α) (m : SMap α) (k n : Nat) : List α := (List.range n).map (fun i => mget d m (k + i))

/-- The little-endian number of a list of bytes. -/
def leNat : List Nat → Nat
  | [] => 0
  | b :: bs => b % 256 + 256 * leNat bs

/-- The `n` little-endian bytes of `v`. -/
def leBytes : Nat → Nat → List Nat
  | 0, _ => []
  | n + 1, v => v % 256 :: leBytes n (v / 256)

end Sys2Proof.Machine
end

