-- ==== Sys2Proof/Machine/State.lean ====
section
/-! DEFINITION. The state of the block: plain data holding everything the spec gives it. The object dictionary is
one sparse map (an entry that is not listed holds its default, Machine/Entries.lean); what the dictionary does not
show (tiles, registers of the networks, queues, records in flight) has its own structure here. Every structure
names the chapter of spec/ it follows. A sparse map that lists nothing holds its default everywhere. -/

namespace Sys2Proof.Machine

/-- Grades (R1). -/
inductive Grade where
  | fqt7640 | fqt7620
deriving DecidableEq, Repr

/-- Steppings (R5). -/
inductive Stepping where
  | a0 | b0
deriving DecidableEq, Repr

/-! ### Tiles (04, 05, 07, 08) -/

/-- One lane of a weight bank: 32 code bytes and its zero point (R123, R124). -/
structure WLane where
  codes : List Nat
  zw : Nat
deriving DecidableEq, Repr

/-- A row entry of a scale block (R159). -/
structure SEnt where
  mant : Nat
  off : Nat
  zero : Bool
deriving DecidableEq, Repr

/-- A scale buffer with its block context and tracking context (R160, R205). `bexp` is none while the block exponent
is unset (R222). `opened` says that SBOPN opened the block it holds; `obase` to `ofrac` are the tracking context that
SBOPN read then (R222, R224). -/
structure SBuf where
  bexp : Option Int := some 0
  tag : Nat := 0
  count : Nat := 0
  clamped : Bool := false
  ents : SMap SEnt := []
  written : SMap Bool := []
  src : Nat := 0
  target : Nat := 1
  head : Nat := 0
  layer : Nat := 0
  tbase : Nat := 0
  texp : Int := 0
  tk : Nat := 1
  frac : Nat := 0
  est : SMap Nat := []
  opened : Bool := false
  obase : Nat := 0
  oexp : Int := 0
  ok : Nat := 1
  ofrac : Nat := 0
deriving DecidableEq, Repr

/-- An accumulator file (R126, R130, R162). -/
structure AFile where
  vals : SMap Int := []
  exp : Int := 0
  tag : Nat := 0
deriving DecidableEq, Repr

/-- A resource of R207 and R231: the first clk in which it is free, and the program address of its holder. -/
structure Res where
  free : Nat := 0
  holder : Nat := 0
deriving DecidableEq, Repr

/-- What an RQ captures in its issue clk (R224). -/
structure RqCap where
  file : Nat
  n : Nat
  dst : Nat
  dbuf : Nat
  dslot : Nat
  fmul : Nat
  fexp : Int
  aexp : Int
  src : Nat
  target : Nat
  head : Nat
  layer : Nat
  bexp : Option Int
  est : Nat
  texp : Int
  tk : Nat
  frac : Nat
  taddr : Nat
  track : Bool
  fmt : Nat
  zp : Nat
  lutEn : Bool
  lut : Nat
deriving DecidableEq, Repr

/-- An operand of an aligned operation as captured in its issue clk (R227). -/
structure AlnCap where
  row : Bool
  file : Nat
  addr : Nat
  fmt : Nat
  zp : Nat
  m : Nat
  e : Int
  zero : Bool
deriving DecidableEq, Repr

/-- What a tile does in a later clk of an instruction already issued: the reads (`rd…`) and the writes of
R208, R215, R218, R222, R236, R238, R239 and R243. -/
inductive Act where
  | mac (file : Nat) (clear : Bool) (d : SMap Int) (tag : Nat)
  | acc (file lo : Nat) (vals : List Int) (clips : Nat)
  | accMeta (file : Nat) (exp : Int) (tag : Nat)
  | sram (addr : Nat) (bytes : List Nat)
  | codes (addr : Nat) (bytes : List Nat) (sats layer : Nat)
  | sreg (r v : Nat)
  | preg (r v : Nat)
  | pflag (r : Nat) (v : Bool)
  | latch (bytes : List Nat)
  | bank (b lane : Nat) (lanes : List WLane)
  | swap
  | table (t : Nat) (bytes : List Nat)
  | sbTrack (b base : Nat) (texp : Int) (k frac : Nat)
  | sbCtx (b src target head layer : Nat)
  | sbOpen (b tag count : Nat) (bexp : Option Int) (clamped : Bool) (est : SMap Nat)
  | sbEnt (b slot : Nat) (e : SEnt) (set : Option (Int × Bool))
  | sbLoad (b tag count : Nat) (bexp : Int) (clamped : Bool) (ents : List SEnt)
  | fctx (n : Nat) (void : Bool)
  | cmark (c : Nat) (v : Bool)
  | layer (kind n : Nat)
  | rafter (south : Bool) (word : Nat)
  | tide (word side : Nat)
  | rdFill (b lane base n j : Nat) (zpSram : Bool) (zw : Nat) (codes : List (List Nat))
  | rdBias (file n base j : Nat)
  | rdScan (file n sdst j acc : Nat)
  | rdRqScan (c : RqCap) (j acc : Nat)
  | rdRqCode (c : RqCap) (mA : Nat) (eA : Int) (zero : Bool) (delay j acc : Nat)
  | rdOpen (b tag count : Nat)
  | rdLut (src dst n t inFmt outFmt j : Nat)
  | rdAln (max : Bool) (dest n : Nat) (x y : AlnCap) (tag j : Nat)
  | rdGath (src idx dst n nsrc fmt zp j : Nat) (row : List Nat)
  | rdTide2 (b : Nat) (first : List Nat)
  | fail (cause byte : Nat)
deriving DecidableEq, Repr

/-- An act due in a clk; `addr` is the program address of its instruction and `unit` its unit (0 array, 1 post,
2 mover, 3 scalar, 4 control, 5 tender port). -/
structure Pend where
  due : Nat
  addr : Nat
  unit : Nat
  act : Act
deriving DecidableEq, Repr

/-- A tile: the state of R205 and R230, the sequencer of R245 to R253, and its resources. `noWrite` is the clk in which an
overlap leaves its writes without effect (R209). -/
structure Tile where
  s : SMap Nat := []
  p : SMap Nat := []
  pf : SMap Bool := []
  cm : SMap Bool := []
  w0 : SMap WLane := []
  w1 : SMap WLane := []
  active : Nat := 0
  x : List Nat := List.replicate 32 0
  a : SMap AFile := []
  luts : SMap Nat := []
  sb0 : SBuf := {}
  sb1 : SBuf := {}
  fnum : Nat := 0
  fvoid : Bool := true
  loops : List (Nat × Nat × Nat) := []
  pc : Nat := 0
  next : Nat := 0
  period : Nat := 0
  halted : Bool := false
  mac : Res := {}
  fill : Res := {}
  pipe : Res := {}
  port : Res := {}
  alu : Res := {}
  fillBank : Nat := 0
  fillDone : Nat := 0
  pend : List Pend := []
  noWrite : Option Nat := none
deriving DecidableEq, Repr

/-! ### Network, eaves ports and tenders (06, 09) -/

/-- A token on a link (R173, R263): a word, its tide sideband, the frame tag of a first slipway beat (R102). For a
tender_data word `tag` is the intake sequence of its descriptor, which its fault reports name (R275); for a word that
waits to be sent as a berth word it is the count in which the word joined its queue (R381). -/
structure Token where
  word : Nat
  side : Nat := 0
  tag : Option Nat := none
deriving DecidableEq, Repr

/-- A token on its way to register `reg`, scheduled for clk `due`; `cross` is the crossing class (none inside an
island), `sender` the sending island, `done` whether the crossing is complete (R185). -/
structure Flight where
  reg : Nat
  due : Nat
  tok : Token
  cross : Option Nat
  sender : Nat
  done : Bool
deriving DecidableEq, Repr

/-- Registers, links and queues of the grid. Register keys: 16 p + port with ports 0 N, 1 E, 2 S, 3 W, 4 local input,
5 tide receive, 6 west rafter input, 7 north rafter input, 8 tender port; eaves port k has 16 (104 + k). `bg` holds
the background words in the routers' background registers (R180), by physical tile, and under 104 and up those of the
hub dies' islands; `captured` the empty tokens in holding rings (R185): register, class and scheduled clk. -/
structure Net where
  regs : SMap (Option Token) := []
  read : List Nat := []
  flights : List Flight := []
  tide : SMap Nat := []
  eaves : SMap Nat := []
  prog : SMap Nat := []
  plen : SMap Nat := []
  coded : List Nat := []
  outq : SMap (List Token) := []
  inq : SMap (List Token) := []
  lastSlot : Option Nat := none
  bg : SMap (List Nat) := []
  captured : List (Nat × Nat × Nat) := []
  retired : List Nat := []
deriving DecidableEq, Repr

/-- An accepted descriptor: intake sequence, word, source (0 eaves, 1 capture, 2 harbourmaster), the clk in which it
entered and its place in R268's order there (the eaves port, 40 capture, 41 the harbourmaster). `frag` names the
request and fragment of a copy that the capture logic issued (R327). -/
structure DescRec where
  seq : Nat
  word : Nat
  source : Nat
  clk : Nat := 0
  rank : Nat := 41
  frag : Option (Nat × Nat) := none
  card : Option Nat := none
deriving DecidableEq, Repr

/-- A tender: accepted descriptors in order, the element and word it stands at, and the clk of its latest word (R267,
R272). -/
structure Tender where
  queue : List DescRec := []
  i : Nat := 0
  w : Nat := 0
  seq : Nat := 0
  last : Option Nat := none
deriving DecidableEq, Repr

/-- Tenders, intakes and completion trees (R268, R274). `complAt` is, per die, one more than the clk of the latest
completion delivered; `badWords` holds per tile the SRAM words of 8 bytes known to be uncorrectable (R261),
`patrolled` one more than the clk of the latest patrol of a tile's SRAM or of a table, `stackErrs` the stacks and
die-space addresses of errors since the latest repair (R281), `ddrPop` the populated DDR4 channels (R282), `badMem` the
64-byte words of HBM and DDR4 known to be uncorrectable, `badTabs` the table entries, by patrol number and index (R535),
`tabPos` the next entry of each table's patrol (R550). -/
structure Tend where
  t : SMap Tender := []
  compl : SMap (List (Nat × Nat × Nat)) := []
  complAt : SMap Nat := []
  badWords : SMap (List Nat) := []
  patrolled : SMap Nat := []
  stackErrs : List (Nat × Nat) := []
  ddrPop : Nat := 0
  patrolRow : SMap Nat := []
  lastRows : SMap (List Nat) := []
  thisRows : SMap (List Nat) := []
  repairs : SMap (List Nat) := []
  spareGroups : SMap (List Nat) := []
  badMem : List Nat := []
  badTabs : List (Nat × Nat) := []
  tabPos : SMap Nat := []
deriving DecidableEq, Repr

/-! ### Lanes and landing (02, 03) -/

/-- A receive channel beyond its dictionary words: its last locked slip and, while a block-lock search runs, the
positions it has tried (R64); the clk in which the lock count restarted (R63); a relock under way, and whether one
failed (R66); the power state requested (R67); the direction of the CTLE's last step (R52); whether a figure of merit
has been measured since it woke (R51); the capability received and whether a countdown has been seen (R55, R57). -/
structure Chan where
  lastSlip : Nat := 0
  search : Option Nat := none
  since : Option Nat := none
  conv : Bool := false
  relock : Bool := false
  dead : Bool := false
  request : Option Nat := none
  ctleUp : Bool := true
  fomSeen : Bool := false
  cap : Option Nat := none
  cdown : Bool := false
deriving DecidableEq, Repr

/-- A bring-up in progress (R55 to R61): engine, lanes, state code, chosen rate, step-downs made, fixed rate; of a
link bundle whether "done" was sent and received (R69). -/
structure Bring where
  engine : Nat
  lanes : List Nat
  state : Nat
  rate : Nat
  downs : Nat
  fixed : Bool
  sent : Bool := false
  heard : Bool := false
deriving DecidableEq, Repr

/-- A lane's parser (R88). `prev` is the frame number of its latest frame-open, `total` the blocks delivered on it,
`mark` the blocks since its latest lane marker, `missed` the counts of R93 since then, `hasMark` whether one came,
`marked` whether its identity is confirmed (R91). `hdr` holds the latest 64 sync headers since lock, bit 0 the latest,
1 invalid (R62), `hist` the descrambler's 58 bits, bit k - 1 the scrambled bit received k bits earlier (R46). -/
structure Parser where
  inside : Bool := false
  count : Nat := 0
  crc : Nat := 0xFFFFFF
  damaged : Bool := false
  data : List Nat := []
  frame : Nat := 0
  flags : Nat := 0
  prev : Option Nat := none
  total : Nat := 0
  mark : Nat := 0
  missed : Nat := 0
  hasMark : Bool := false
  marked : Bool := false
  hdr : Nat := 0
  hist : Nat := 0
deriving DecidableEq, Repr

/-- A lane frame that ended: its fault as a reason code of R96 (0 none), flags, data blocks, and the global time of its
frame-close as R279 stores it, when one came. -/
structure LaneFrame where
  lane : Nat
  fault : Nat
  flags : Nat
  data : List Nat
  stamp : Option Nat
deriving DecidableEq, Repr

/-- A group frame being deskewed: the lanes whose frame-open came, each with its block count then, and the lane
frames that ended. -/
structure GroupFrame where
  frame : Nat
  opened : List (Nat × Nat) := []
  ended : List LaneFrame := []
  skew : Nat := 0
deriving DecidableEq, Repr

/-- A group frame all of whose lanes ended: `ready` is its ready clk (R103), `reason` its gutter reason (0 none),
`counted` whether the gutter has counted it, `data` the stored blocks of each lane that came whole. -/
structure ReadyFrame where
  frame : Nat
  ready : Nat
  reason : Nat
  counted : Bool
  flags : Nat
  data : List (Nat × List Nat)
deriving DecidableEq, Repr

/-- A lane group beyond its status word: frames being deskewed, complete but not ready, and waiting for release; good
frames in a row (R91), incomplete frames in a row (R93), the latest complete frame, the frames that went to the gutter
before their slot, each with its reason, the latest frame that has landed (R384), and the latest frame whose slot a
schedule that has ended counted (R96). -/
structure Group where
  open_ : List GroupFrame := []
  ready : List ReadyFrame := []
  wait : List ReadyFrame := []
  good : Nat := 0
  incomplete : Nat := 0
  last : Option Nat := none
  gone : List (Nat × Nat) := []
  landed : Option Nat := none
  past : Option Nat := none
deriving DecidableEq, Repr

/-- A course of a quay whose header is not final (R280): its memory address, the clk in which the last of its group
frames is ready, and per group reason, flags and valid lanes. -/
structure Course where
  frame : Nat
  addr : Nat := 0
  close : Nat := 0
  groups : SMap (Nat × Nat × Nat) := []
  stamp : Option Nat := none
  replayed : Bool := false
deriving DecidableEq, Repr

/-- Replay position of a quay (R109, R110): next course, pass, number of the course consumed last, reads completed so
far over all passes, the reads not yet consumed with their clk, and the courses consumed before their read. -/
structure Replay where
  pos : Nat := 0
  pass : Nat := 0
  last : Option Nat := none
  reads : Nat := 0
  read : List (Nat × Nat) := []
  late : List (Nat × Nat) := []
deriving DecidableEq, Repr

/-- Samples of frame index `n` that entered the grid from quay `q`, until it is known whether the frame is void on any
slipway (R104, R333). -/
structure AvgWait where
  n : Nat
  q : Nat
  samples : List Int
deriving DecidableEq, Repr

/-- Landing. Keys: channels 64 e + ch (e < 20 quays, 20 + link engine), lanes 32 e + n, groups 4 q + g. `written`
holds the courses whose header is written, with their addresses (R280); `bringWait` the units, as 32 e + first lane,
whose bring-up waits for another of their engine (R54). -/
structure Land where
  chans : SMap Chan := []
  bring : SMap (Option Bring) := []
  bringWait : List Nat := []
  armed : SMap (Option Nat) := []
  parsers : SMap Parser := []
  groups : SMap Group := []
  courses : SMap (List Course) := []
  written : SMap (List (Nat × Nat)) := []
  replay : SMap Replay := []
  lambda : Nat := 0
  released : SMap Nat := []
  sums : SMap Int := []
  avgN : SMap Nat := []
  avgWait : List AvgWait := []
deriving DecidableEq, Repr

/-! ### Decision path (10) -/

/-- A mark on its way to the ridge or the capture logic (R251, R341); `crossed` says that its delivery is in the ridge
island's holding ring (R185, R197). -/
structure MarkRec where
  arrive : Nat
  tile : Nat
  addr : Nat
  frame : Nat
  score : Nat
  value : Int
  window : Bool
  crossed : Bool := false
deriving DecidableEq, Repr

/-- A decision record on its way to the latency pin, where `out` is the clk in which it enters it, or in the pin and
the flashing, where `out` is the clk in which it leaves the flashing's output register (R295, R298). `marks` holds the
MARK_N outputs it pulses (R306). -/
structure PinRec where
  n : Int
  frame : Nat
  out : Nat
  d : Int
  accept : Nat
  raw : Nat
  void : Bool
  marks : Nat
deriving DecidableEq, Repr

/-- Ridge, pin, flashing and pins. `leaving` is the record that leaves the flashing in this clk (R302). `pulses` holds
the clk a low pulse begins and ends of each output, ACCEPT_N 0 to 7 then MARK_N 8 to 11; `edges` clk, class and frame
of the accept edges to come. -/
structure Dec where
  marks : List MarkRec := []
  scores : SMap (Option Int) := []
  nextEval : Nat := 0
  decided : List PinRec := []
  pin : List PinRec := []
  leaving : Option PinRec := none
  dNom : Int := 0
  voids : SMap (Option Bool) := []
  tags : SMap (Option (Nat × Int × Nat)) := []
  holdEnd : Option Nat := none
  forceEnd : Nat := 0
  pulses : SMap (Option (Nat × Nat)) := []
  edges : List (Nat × Nat × Nat) := []
  faultHigh : Bool := true
  driven : Bool := false
  holdClear : Option Nat := none
deriving DecidableEq, Repr

/-! ### Capture (11) -/

/-- A capture request from formation to its terminal status (R320 to R347). Stage: 0 waiting, 1 started, 2 every
fragment whole in its window buffer, 3 bound to a slot and not kept, 4 on its way to its destination ring, 5 dropped
by its verdict, 6 aborted with started copies. `bits`, `resolved`, `issued`, `retry` and `again` are sets of
fragments: whole, resolved, issued, retried, to be issued again; `busy` holds the copies under way with their tenders,
`reread` the header rereads with whether the copy committed and the clk in which it ended. `id` tells requests of
different jobs apart (the model's own). -/
structure Req where
  id : Nat := 0
  seq : Nat
  origin : Nat
  frame : Nat
  accept : Nat
  raw : Nat
  pre : Nat
  post : Nat
  mask : Nat
  link : Bool
  window : Bool
  doubt : Bool
  stage : Nat := 0
  retried : Bool := false
  short : Bool := false
  bits : Nat := 0
  resolved : Nat := 0
  issued : Nat := 0
  retry : Nat := 0
  again : Nat := 0
  busy : List (Nat × Nat) := []
  reread : List (Nat × Bool × Nat) := []
  offset : Option Nat := none
  buffer : Option Nat := none
  slot : Nat := 0
  result : Nat := 0
  score : Int := 0
  avgLog2 : Nat := 0
  data : List Nat := []
  status : Nat := 0
  stamp : Nat := 0
deriving DecidableEq, Repr

/-- A reservation of an egress ring (R344, R345): offset, bytes, record (none for a pad), the header, fragment bitmap
and bitmap bytes of a record that is terminal, and whether it may be published; `id` is its request's. -/
structure Resv where
  off : Nat
  len : Nat
  seq : Option Nat
  id : Nat := 0
  term : Option (Nat × Nat × Nat) := none
  done : Bool := false
deriving DecidableEq, Repr

/-- One egress ring of the staging partition (R344, R345): reservations in order, and what is published and not sent. -/
structure Ring where
  size : Nat := 0
  base : Nat := 0
  next : Nat := 0
  producer : Nat := 0
  consumer : Nat := 0
  resv : List Resv := []
  unsent : List Resv := []
deriving DecidableEq, Repr

/-- Capture: the requests that hold queue entries, aborted requests whose started copies have not ended, and the aborts
(record_seq, all, through the abort word) that register in this clk (R346, R347, R353). -/
structure Cap where
  reqs : List Req := []
  aborted : List Req := []
  aborts : List (Nat × Bool × Bool) := []
  nextId : Nat := 0
  nextSeq : Nat := 0
  frozenSeen : Bool := false
  host : Ring := {}
  link : Ring := {}
  slots : SMap (Option Nat) := []
  nextSlot : Nat := 0
  verdicts : List Nat := []
  notified : Nat := 0
  firstUnnotified : Option Nat := none
  rotTender : SMap Nat := []
  cards : List Nat := []
  rotBundle : Nat := 0
deriving DecidableEq, Repr

/-! ### Jobs, image, berth, time (12 to 15) -/

/-- A calibration event that waits to be raised (R166). -/
structure CalEvent where
  layer : Nat
  kind : Nat
  window : Nat
  frame : Nat
  count : Nat
  threshold : Nat
deriving DecidableEq, Repr

/-- The job: the schedule's binding, pause and save machinery, restart bookkeeping (R103, R456 to R462, R541). -/
structure Job where
  bound : Bool := false
  n0 : Nat := 0
  s0 : Nat := 0
  pauseAt : Option Nat := none
  resumeAt : Option Nat := none
  heldFrom : Option Int := none
  heldTo : Option Int := none
  saving : Nat := 0
  parkedTiles : Bool := false
  resumeParked : Bool := false
  pauseOnStart : Bool := false
  faultClk : Nat := 0
  wasStarted : Bool := false
  restarting : Bool := false
  wasPaused : Bool := false
  restarts : List Nat := []
  lastReport : Option Nat := none
  period : Nat := 0
  fper : Nat := 0
  areaWritten : Nat := 0
  partition : List Nat := []
  slips : List Nat := []
  layerTot : SMap Nat := []
  layerWin : SMap Nat := []
  winNext : SMap Nat := []
  calQ : List CalEvent := []
deriving DecidableEq, Repr

/-- A received summary (R380, R389): position or berth, and its content. -/
structure SummRec where
  src : Nat
  clk : Nat
  m : Summ
deriving DecidableEq, Repr

/-- A calibration report (R381). -/
structure CalRep where
  dMax : Int
  dMin : Int
  unstable : Bool
  moored : Bool
  patient : Bool
deriving DecidableEq, Repr

/-- A peer of an unmoored berth that has restarted: the first frame of its new summaries, the largest d they showed,
whether its report let it rejoin, whether this module reported, and whether the rejoin failed (R392). -/
structure Rejoin where
  start : Option Nat := none
  dMax : Int := 0
  ok : Bool := false
  told : Bool := false
  failed : Bool := false
deriving DecidableEq, Repr

/-- Berth and harbour (R385 to R400, R544). Keys are bundles for `got` (calibration summaries received), `dHi` and `dLo`
(the largest and least d, also beyond their fields), `wordNext` (first clk of the next word) and `wordIn` (delivery clk
and word); positions for the others, `nextOf` the frame after a peer's latest summary since its bundle was last aligned;
contributors for `jettyLast` and `harbourLast`, the frame after their latest. `peers` are the summaries of frames not closed, `result` the berth
results not yet readable, `jetty` and `harbour` what the combines wait for. -/
structure Berth where
  peers : List SummRec := []
  got : SMap Nat := []
  dHi : SMap Int := []
  dLo : SMap Int := []
  nextOf : SMap (Option Nat) := []
  reports : SMap (Option CalRep) := []
  out : SMap (Option Rejoin) := []
  nextClose : Nat := 0
  result : List SummRec := []
  firstFaulted : SMap (Option Nat) := []
  wordNext : SMap Nat := []
  wordIn : SMap (List (Nat × Nat)) := []
  jetty : List SummRec := []
  harbour : List SummRec := []
  jettyLast : SMap Nat := []
  harbourLast : SMap Nat := []
  jettyMarked : List Nat := []
  harbourMarked : List Nat := []
  jettyNext : Nat := 0
  harbourNext : Nat := 0
  jettySkew : Nat := 0
  harbourSkew : Nat := 0
  skewDone : Bool := false
  restartFrame : Option Nat := none
deriving DecidableEq, Repr

/-- A timeline entry (R427): stamp as a count of 2^-32 ns, source, kind, detail. -/
structure TlEnt where
  stamp : Nat
  source : Nat
  kind : Nat
  detail : Nat
  ooo : Bool := false
deriving DecidableEq, Repr

/-- A tracked domain beyond its words (R416, R418 to R420): the identity last selected as its master and the exchanges
completed under it, whether its last Sync and Announce are in time and the clk of that Sync, whether an exchange came
before and what `incSum` and `fbTicks` were then, and port, sequence number and, once read, transmit stamp of the
Delay_Req whose exchange is under way. -/
structure Domain where
  master : Option Nat := none
  same : Nat := 0
  syncOk : Bool := false
  annOk : Bool := false
  syncAt : Nat := 0
  started : Bool := false
  incSum : Nat := 0
  ticks : Nat := 0
  asked : Option (Nat × Nat) := none
  sent : Option Nat := none
deriving DecidableEq, Repr

/-- A run of ticks over which global time is one line (R411): from clk `since` on, with the main clock `main` and the
fall-back count `ticks` after the tick of clk `tick`, the increment, and the fall-back's base, tick and rate while it
stands in. -/
structure Line where
  since : Nat
  tick : Nat
  ticks : Nat
  main : Nat
  inc : Nat
  fb : Option (Nat × Nat × Int)
deriving DecidableEq, Repr

/-- The time block (R409 to R427). `main` counts 2^-32 ns after the tick of clk `tickClk`; `since` is the clk from
which global time runs on its present line and `past` the lines before, latest first; `incSum` is what the ticks have
added; the `…Next` fields take effect at the next tick; `fb…` is the fall-back clock with its tick count, `fbLive`
whether it stands in since a tick; `unlocked` holds the islands whose generator lost lock; `syncs` port and sequence
number of the Syncs whose stamps are to come and `reqs` those of the Delay_Reqs; `portsOn` whether a job has been armed
since power-on, until when the port transmitters are idle (R489); `txq` the transmit stamps not read; `held` and `ring` the timeline. -/
structure Time where
  main : Nat := 0
  tickClk : Nat := 0
  since : Nat := 0
  past : List Line := []
  incSum : Nat := 0
  fbLive : Bool := false
  incNext : Option Nat := none
  setNext : Option Nat := none
  adjNext : Option Int := none
  fbTicks : Nat := 0
  fbBase : Nat := 0
  fbTick : Nat := 0
  fbRate : Int := 0
  fbCommit : Bool := false
  fbPrev : Option (Nat × Nat) := none
  unlocked : List Nat := []
  dom0 : Domain := {}
  dom1 : Domain := {}
  lockTime : Option Nat := none
  syncs : List (Nat × Nat) := []
  reqs : List (Nat × Nat) := []
  portsOn : Bool := false
  txq : List Nat := []
  held : List TlEnt := []
  ring : SMap TlEnt := []
  lastRel : Option (Nat × Nat) := none
  trigLast : SMap (Option Nat) := []
  trigLost : SMap Nat := []
  serveSeq : SMap Nat := []
  tlRaised : Option Nat := none
  tlDue : Bool := false
deriving DecidableEq, Repr

/-! ### Dictionary paths, reset, recorder, security (15 to 19) -/

/-- A copy of the persistence store (R485): its sequence number, the stored words and the CRC-32C over them. -/
structure StoreCopy where
  seq : Nat
  data : SMap Nat
  crc : Nat
deriving DecidableEq, Repr

/-- Dictionary paths and the persistence store. Slots have their command, status and data words; `vectors` are the
MSI-X vectors raised and `msix` the table; `canNext` is the first clk in which the next EMCY message may leave on CAN
FD; `copy0` and `copy1` are the copies of the persistence store (none: marked empty or never written), `unsaved` the
class-A entries that changed during a job (R435); `canStb` the level of CAN_STB, high until the controller first runs
(R515). -/
structure Ctl where
  slotCmd : SMap Nat := []
  slotStat : SMap Nat := []
  slotData : SMap Nat := []
  latched : Bool := false
  hotRefusal : Nat := 0
  emcyLog : SMap Nat := []
  canQ : List Nat := []
  lostUnsent : Nat := 0
  canNext : Nat := 0
  vectors : List Nat := []
  msix : SMap Nat := []
  copy0 : Option StoreCopy := none
  copy1 : Option StoreCopy := none
  storeMark : Bool := false
  unsaved : List Nat := []
  canStb : Bool := true
deriving DecidableEq, Repr

/-- Reset and start-up (16). `step` is 0 while a power-on reset holds, 1 to 7 the step of R483 under way, 8 once the
sequence has ended; `pinHeld` while a taken RESET_N is low, `perst` while PERST_N is low, `fails` and `seqFails` the
trim loads that failed in a row and in this sequence, `since` the clk the sequence began, `last` the clk and cause of
the full resets of the latest oscillator cycle that had one, `wdRan` and `canRan` whether the watchdog and CAN FD ran when
the first of them registered, `power` whether the running sequence is a power-on's, `trim` 1 once the trim store on hub
die 0 holds the trim and 2 once it is distributed, `waitHost`, `bootBytes` and `bootRejected` host-only boot, `release` the
clk in which the output drivers release the pins, `soft` that in which a software full reset registers, `block` kind,
number and clk of a block reset under way, `ddrZero` whether DDR4 has been zeroed since power-on, `switches` what the
optical switch of a laser bank selects: 1 and the source whose place the spare has taken, 0 for no spare. -/
structure Rst where
  step : Nat := 0
  available : Bool := false
  pinHeld : Bool := false
  perst : Bool := false
  safeHold : Bool := false
  fails : Nat := 0
  seqFails : Nat := 0
  since : Nat := 0
  last : List (Nat × Nat) := []
  wdRan : Bool := false
  canRan : Bool := false
  power : Bool := true
  trim : Nat := 0
  waitHost : Bool := false
  bootBytes : Nat := 0
  bootRejected : Bool := false
  release : Option Nat := none
  soft : Option Nat := none
  block : Option (Nat × Nat × Nat) := none
  ddrZero : Bool := false
  switches : SMap Nat := []
deriving DecidableEq, Repr

/-- A fault as raised, before it becomes a report (R532, R537). -/
structure FaultRec where
  family : Nat
  cause : Nat
  loc : Nat := 0
  island : Nat := 0xFFF
  paddr : Nat := 0x7FFF
  frame : Nat := 0
  vrow : Nat := 0xFF
  vcol : Nat := 0xFF
  detail : Nat := 0
deriving DecidableEq, Repr

/-- A recorder record (R561), without its crc. -/
structure RecRec where
  seq : Nat := 0
  type : Nat
  repeats : Nat := 0
  timeValid : Bool := false
  fallback : Bool := false
  boot : Nat := 0
  source : Nat := 0
  key : Nat
  first : Nat := 0
  last : Nat := 0
  payload : Nat := 0
deriving DecidableEq, Repr

/-- A copy of the recorder header (R564, R566); the slots themselves say how many of them are valid. -/
structure RecHead where
  rebuilt : Bool := false
  nextSeq : Nat := 0
  lastSlot : Option Nat := none
  drops : Nat := 0
  merges : Nat := 0
  replacements : Nat := 0
  crcFails : Nat := 0
  boots : Nat := 0
  headSeq : Nat := 0
deriving DecidableEq, Repr

/-- The recorder (R560 to R569): valid slots, the bytes of slots that fail their crc and are not zero, the header fields in
force and the two copies of the header block (none: one that fails its crc), backlog, snapshot buffers and chunk
offsets of CAN FD and BAR0, and the open summary interval: its number, the global time it began (none: none is open),
least and greatest reading of each sensor, of each rail (with its largest current), the largest module power, and the
fom counts of each lane. -/
structure Recorder where
  slots : SMap (Option RecRec) := []
  torn : SMap Nat := []
  nextSeq : Nat := 0
  lastSlot : Option Nat := none
  drops : Nat := 0
  merges : Nat := 0
  replacements : Nat := 0
  crcFails : Nat := 0
  boots : Nat := 0
  headSeq : Nat := 0
  rebuilt : Bool := false
  head0 : Option RecHead := some {}
  head1 : Option RecHead := some {}
  backlog : List RecRec := []
  snapCan : Nat := 0
  snapBar : Nat := 0
  offCan : Nat := 0
  offBar : Nat := 0
  interval : Nat := 0
  openAt : Option Nat := none
  sens : SMap (Option (Int × Int)) := []
  rails : SMap (Option (Nat × Nat × Nat)) := []
  power : Nat := 0
  fom : SMap Nat := []
deriving DecidableEq, Repr

/-- Security (R570 to R580): draws of the DRBG, bytes staged and bytes of the message, the flash slot being written, the
running firmware's security_version and digest, the attestation report and the one in production. -/
structure Sec where
  draws : Nat := 0
  staged : Nat := 0
  msgLen : Nat := 0
  writing : Option Nat := none
  fwVersion : Nat := 0
  fwDigest : Nat := 0
  report : List Nat := []
  making : List Nat := []
deriving DecidableEq, Repr

/-- Telemetry, thermal hold and background tests (17, 18): latest readings, sensors that have sent their warning, laser
sources that are due, self-tests a tile passed in a row, the clk of the latest sample. -/
structure Tele where
  sensors : SMap (Option Int) := []
  warned : List Nat := []
  hold : Bool := false
  due : List (Nat × Nat) := []
  streak : SMap Nat := []
  lastSample : Option Nat := none
deriving DecidableEq, Repr

/-- Fault log bookkeeping (R533, R534, R540). -/
structure Flt where
  clk : Nat := 0
  active : Bool := false
  recs : List FaultRec := []
deriving DecidableEq, Repr

/-- What leaves the block (log entry 12), newest first. -/
inductive Output where
  | pulse (o clk : Nat)
  | pulseEnd (o clk : Nat)
  | pinFault (high : Bool) (clk : Nat)
  | holdoff (high : Bool) (clk : Nat)
  | vector (v : Nat)
  | emcy (cob bits : Nat)
  | heartbeat (cob state : Nat)
  | bootUp (cob : Nat)
  | reply (cob code value typ : Nat)
  | hotRead (value : Nat)
  | link (bundle : Nat) (lanes : List Nat) (leave : Nat) (wait : Bool) (blocks : List Nat)
  | marker (lane ident : Nat)
  | training (engine lane block : Nat)
  | countdown (engine lane rate : Nat)
  | ptp (port kind ident : Nat) (v : Int)
  | frame (port : Nat) (f : PtpFrame)
deriving DecidableEq, Repr

/-- Why a step stops. No command of the table does (log entry 2). -/
inductive Fault where
  /-- Raised by no command: one that names a unit the grade does not have changes nothing. Safe: it is never met. -/
  | absentUnit
deriving DecidableEq, Repr

/-- Why a command has no meaning here. -/
inductive Refusal where
  /-- Raised by an arm of exec that is not written yet; none is left. Safe: nothing is claimed of it. -/
  | notModelled (mnemonic : String)
deriving DecidableEq, Repr

/-- The state of the block. -/
structure State where
  pending : List Instr
  clk : Nat
  free : Nat
  grade : Grade
  stepping : Stepping
  dict : SMap Nat
  mem : List Host.Cell
  tiles : SMap Tile
  net : Net
  tend : Tend
  land : Land
  dec : Dec
  cap : Cap
  job : Job
  berth : Berth
  time : Time
  ctl : Ctl
  rst : Rst
  recd : Recorder
  sec : Sec
  tele : Tele
  flt : Flt
  out : List Output
deriving DecidableEq, Repr

/-- The block as power-on reset registers (R474, R475): the start-up sequence stands at step 1, the job state is
EMPTY, every lane is asleep, every entry holds its default, no output is driven. The grade and stepping are a
DESIGN CHOICE (log entry 4); log entry 3 says which commands bring the dictionary up. -/
def State.reset : State :=
  { pending := [], clk := 0, free := 0, grade := .fqt7640, stepping := .b0, dict := [], mem := [], tiles := [],
    net := {}, tend := {}, land := {}, dec := {}, cap := {}, job := {}, berth := {}, time := {}, ctl := {},
    rst := {}, recd := {}, sec := {}, tele := {}, flt := {}, out := [] }

end Sys2Proof.Machine
end

