-- ==== Sys2Proof/Machine/Base.lean ====
section
/-! DEFINITION. The named operations every meaning uses: dictionary entries and fields, byte memory and its
regions, grade tables, global time, free values and outputs. -/

namespace Sys2Proof.Machine

/-! ### Object dictionary (R433 to R435) -/

/-- The key of entry index:subindex. -/
def key (i sub : Nat) : Nat := 256 * i + sub

/-- The entry descriptor of index `i`, subindex `sub`, if the dictionary has it. -/
def findEntry (i sub : Nat) : List Entry → Option Entry
  | [] => none
  | e :: es =>
    if e.base ≤ i ∧ i < e.base + e.count ∧ e.sub0 ≤ sub ∧ sub ≤ e.sub1 then some e else findEntry i sub es

/-- The word whose fields hold their defaults. -/
def wordDflt : List Fld → Nat
  | [] => 0
  | f :: fs => 2 ^ f.lo * f.dflt + wordDflt fs

/-- Columns of the spare tile of a row: 12 on the FQT-7640, 8 on the FQT-7620 (R191). -/
def spareCol : Grade → Nat
  | .fqt7640 => 12
  | .fqt7620 => 8

/-- Thermal class defaults of R527 in 0.1 °C: warn, doubt, trip of class `k`, 1 to 6. -/
def limDflt (k : Nat) : Nat :=
  let lim := fun (w d t : Nat) => w + 2 ^ 16 * d + 2 ^ 32 * t
  match k with
  | 1 => lim 900 1000 1100
  | 2 => lim 900 1000 1100
  | 3 => lim 850 950 1050
  | 4 => lim 800 850 950
  | 5 => lim 750 800 850
  | 6 => lim 350 400 450
  | _ => 0

/-- The default of entry `i`:`sub` on this part: its fields' defaults, except the defaults that depend on the
index, the grade or the stepping (R4, R5, R71, R111, R431, R453, R527). -/
def dflt (g : Grade) (st : Stepping) (k : Nat) : Nat :=
  let i := k / 256
  let sub := k % 256
  if 0x2180 ≤ i ∧ i < 0x2194 then sub - 1
  else if 0x21B4 ≤ i ∧ i < 0x21B8 then (sub - 1) % 32
  else if 0x2260 ≤ i ∧ i < 0x2274 then 32 * (i - 0x2260) + (sub - 1)
  else if 0x2608 ≤ i ∧ i < 0x2610 then
    row_retired_column.put (row_spare_column.put (row_pending_column.put 0 15) (spareCol g)) 15
  else if i = 0x2E11 ∧ sub = 1 then dom_domain_number.put (wordDflt dom) 1
  else if 0x3302 ≤ i ∧ i < 0x3308 then limDflt (i - 0x3301)
  else if i = 0x1018 ∧ sub = 2 then (match g with | .fqt7640 => 0x7640 | .fqt7620 => 0x7620)
  else if i = 0x1018 ∧ sub = 3 then (match st with | .a0 => 0x00A00000 | .b0 => 0x00B00000)
  else if i = 0x1018 ∧ sub = 4 then Config.serial % 2 ^ 32
  else if i = 0x2F10 ∧ sub = 1 then
    feat_step_b0.put (wordDflt feat) (match st with | .a0 => 0 | .b0 => 1)
  else match findEntry i sub entries with
    | some e => wordDflt e.flds
    | none => 0

/-- The stored value of entry `k`. -/
def State.ent (s : State) (k : Nat) : Nat :=
  match mfind s.dict k with
  | some v => v
  | none => dflt s.grade s.stepping k

/-- `s` with entry `k` holding `v`. An entry that holds its default is not listed. -/
def State.setEnt (s : State) (k v : Nat) : State :=
  { s with dict := mset (dflt s.grade s.stepping k) s.dict k v }

/-- Field `f` of entry `k`. -/
def State.fld (s : State) (k : Nat) (f : Fld) : Nat := f.of (s.ent k)

/-- Field `f` of entry `k` as a flag. -/
def State.flag (s : State) (k : Nat) (f : Fld) : Bool := s.fld k f == 1

/-- `s` with field `f` of entry `k` holding `v` modulo its width. -/
def State.setFld (s : State) (k : Nat) (f : Fld) (v : Nat) : State := s.setEnt k (f.put (s.ent k) v)

/-- `s` with flag `f` of entry `k`. -/
def State.setFlag (s : State) (k : Nat) (f : Fld) (b : Bool) : State := s.setFld k f (if b then 1 else 0)

/-- `s` with field `f` of entry `k` advanced by `n`, saturating at its width (the counters of every chapter). -/
def State.bumpBy (s : State) (k : Nat) (f : Fld) (n : Nat) : State :=
  s.setFld k f (min (s.fld k f + n) (2 ^ f.w - 1))

/-- One count. -/
def State.bump (s : State) (k : Nat) (f : Fld) : State := s.bumpBy k f 1

/-- The field of a whole 48-bit counter entry. -/
def cnt48 : Fld := { lo := 0, w := 48, acc := .ro }

/-- The field of a whole 32-bit counter entry. -/
def cnt32 : Fld := { lo := 0, w := 32, acc := .ro }

/-- The signed value of `w` bits. -/
def signed (w x : Nat) : Int := if x % 2 ^ w < 2 ^ (w - 1) then Int.ofNat (x % 2 ^ w) else Int.ofNat (x % 2 ^ w) - 2 ^ w

/-- The `w`-bit word of a signed value. -/
def unsignedOf (w : Nat) (x : Int) : Nat := (x % (2 : Int) ^ w).toNat

/-- Bits `lo` to `lo + w - 1` of `v`. -/
def bits (v lo w : Nat) : Nat := v / 2 ^ lo % 2 ^ w

/-- Bit `i` of `v`. -/
def bit (v i : Nat) : Bool := v / 2 ^ i % 2 == 1

/-! ### Free values and outputs -/

/-- A fresh free value below `2^w`, and the state with the counter advanced (log entry 8). -/
def State.fresh (s : State) (w : Nat) : Nat × State :=
  (Config.freeNat s.free % 2 ^ w, { s with free := s.free + 1 })

/-- An output (log entry 12). -/
def State.emit (s : State) (o : Output) : State := { s with out := o :: s.out }

/-! ### Grade tables (R1 to R3, R356) -/

/-- Quay `q` exists: all twenty on the FQT-7640, 0 to 4 and 10 to 14 on the FQT-7620 (R2). -/
def quayOk (g : Grade) (q : Nat) : Bool :=
  match g with
  | .fqt7640 => decide (q < 20)
  | .fqt7620 => decide (q < 5) || (decide (10 ≤ q) && decide (q < 15))

/-- Virtual columns of the grade: 12 or 8. -/
def vcols : Grade → Nat
  | .fqt7640 => 12
  | .fqt7620 => 8

/-- Physical tile `p` = 13 row + column exists (R3). -/
def tileOk (g : Grade) (p : Nat) : Bool := decide (p < 104) && decide (p % 13 ≤ spareCol g)

/-- Eaves port `k` exists (R264). -/
def eavesOk (g : Grade) (k : Nat) : Bool :=
  match g with
  | .fqt7640 => decide (k < 40)
  | .fqt7620 => decide (k < 16) || (decide (20 ≤ k) && decide (k < 36))

/-- Hub die of quay `q` (R27). -/
def quayDie (q : Nat) : Nat := if q < 10 then 0 else 1

/-- Hub die of eaves port `k` (R264). -/
def eavesDie (k : Nat) : Nat := if k < 20 then 0 else 1

/-! ### Byte memory

One list of cells holds every byte store; a region base separates them (tile SRAM, HBM die spaces, DDR4 module
space, firmware slots and staging, message buffer, boot image). Unlisted bytes read 0 (log entry 6). -/

/-- Base of tile `p`'s SRAM. -/
def sramBase (p : Nat) : Nat := p * 2 ^ 25

/-- Base of hub die `d`'s HBM die space. -/
def hbmBase (d : Nat) : Nat := 2 ^ 48 + d * 2 ^ 40

/-- Base of the DDR4 module space. -/
def ddrBase : Nat := 2 ^ 52

/-- Base of firmware slot `k` in the boot flash. -/
def fwSlotBase (k : Nat) : Nat := 2 ^ 56 + k * 2 ^ 24

/-- Base of the firmware staging buffer. -/
def fwStageBase : Nat := 2 ^ 57

/-- Base of the message buffer. -/
def msgBase : Nat := 2 ^ 58

/-- Base of the host boot image. -/
def bootBase : Nat := 2 ^ 59

/-- The byte at address `a`. -/
def readByte (m : List Host.Cell) (a : Nat) : Byte := mget 0 m a

/-- `m` with byte `a` written. -/
def writeByte (m : List Host.Cell) (a : Nat) (b : Byte) : List Host.Cell := mset 0 m a b

/-- The canonical form of the memory. -/
def Memory.wf (m : List Host.Cell) : Bool := mwf (0 : Byte) m

/-- `n` bytes from address `a`, as numbers. -/
def readBytes (m : List Host.Cell) (a n : Nat) : List Nat :=
  (List.range n).map (fun i => (readByte m (a + i)).toNat)

/-- `m` with the bytes of `bs` written from address `a`. -/
def writeBytes (m : List Host.Cell) (a : Nat) : List Nat → List Host.Cell
  | [] => m
  | b :: bs => writeBytes (writeByte m a (BitVec.ofNat 8 b)) (a + 1) bs

/-- The little-endian number of `n` bytes at `a`. -/
def readNat (m : List Host.Cell) (a n : Nat) : Nat := leNat (readBytes m a n)

/-- Memory write on the state. -/
def State.write (s : State) (a : Nat) (bs : List Nat) : State := { s with mem := writeBytes s.mem a bs }

/-- Some word of the `n` bytes of HBM or DDR4 at `a` is known to be uncorrectable (R535). -/
def State.memBad (s : State) (a n : Nat) : Bool :=
  s.tend.badMem.any (fun w => decide (a < 64 * w + 64) && decide (64 * w < a + n))

/-- The first such word of those bytes: its address. -/
def State.firstBad (s : State) (a n : Nat) : Option Nat :=
  (s.tend.badMem.find? (fun w => decide (a < 64 * w + 64) && decide (64 * w < a + n))).map (64 * ·)

/-- Stack and address inside it of a byte of a die space (R276). -/
def stackOf (die a : Nat) : Nat × Nat := (5 * die + a / 1024 % 5, a / 5120 * 1024 + a % 1024)

/-- The words that a write of `n` bytes at `a` replaces whole carry fresh check bits. -/
def State.freshMem (s : State) (a n : Nat) : State :=
  if s.tend.badMem.isEmpty then s
  else { s with tend := { s.tend with
    badMem := s.tend.badMem.filter (fun w => !(decide (a ≤ 64 * w) && decide (64 * w + 64 ≤ a + n))) } }

/-- Bytes written to HBM or DDR4 at `a`, with fresh check bits. -/
def State.rewrite (s : State) (a : Nat) (bs : List Nat) : State := (s.write a bs).freshMem a bs.length

/-- `n` bytes written as 0 from address `a`: the listed cells of the range removed. -/
def zeroRange (m : List Host.Cell) (a n : Nat) : List Host.Cell :=
  m.filter (fun c => decide (c.1 < a) || decide (a + n ≤ c.1))

/-- Whether DDR4 contents are defined: zeroed since power-on (R488, log entry 7). -/
def State.ddrDefined (s : State) : Bool := s.rst.ddrZero

/-- `n` bytes of DDR4 at module address `a`. What a byte holds at power-on is a free value; until the zeroing of R488 its
cell holds how far a write has taken it from there (log entry 7). -/
def State.ddrRead (s : State) (a n : Nat) : List Nat :=
  if s.ddrDefined then readBytes s.mem (ddrBase + a) n
  else (List.range n).map (fun i => (readByte s.mem (ddrBase + a + i) + Config.ddrPowerOnByte (a + i)).toNat)

/-- A DDR4 write at module address `a` (log entry 7). -/
def State.ddrWrite (s : State) (a : Nat) (bs : List Nat) : State :=
  if s.ddrDefined then s.rewrite (ddrBase + a) bs
  else s.rewrite (ddrBase + a) (bs.zipIdx.map (fun e => (BitVec.ofNat 8 e.1 - Config.ddrPowerOnByte (a + e.2)).toNat))

/-! ### Tiles -/

/-- Tile `p`. -/
def State.tile (s : State) (p : Nat) : Tile := mget {} s.tiles p

/-- `s` with tile `p` replaced. -/
def State.setTile (s : State) (p : Nat) (t : Tile) : State := { s with tiles := mset {} s.tiles p t }

/-! ### Job words (R469, R470) -/

/-- Job Status. -/
def kJob : Nat := key 0x2F00 2

/-- Job states (R454). -/
def EMPTY : Nat := 0
/-- LOADED. -/
def LOADED : Nat := 1
/-- ARMED. -/
def ARMED : Nat := 2
/-- RUNNING. -/
def RUNNING : Nat := 3
/-- PAUSED. -/
def PAUSED : Nat := 4
/-- FAULTED. -/
def FAULTED : Nat := 5

/-- The job state. -/
def State.jobState (s : State) : Nat := s.fld kJob jst_job_state

/-- The job is ARMED, RUNNING or PAUSED. -/
def State.active (s : State) : Bool :=
  s.jobState == ARMED || s.jobState == RUNNING || s.jobState == PAUSED

/-- The job state is EMPTY or LOADED, in which RWE fields may change (R16). -/
def State.idle (s : State) : Bool := s.jobState == EMPTY || s.jobState == LOADED

/-- The schedule runs: N0 and s0 are bound (R103). -/
def State.scheduled (s : State) : Bool := s.job.bound

/-- F of the loaded job; 1 with none, so that divisions stand. -/
def State.F (s : State) : Nat := max s.job.fper 1

/-- P of the loaded job. -/
def State.P (s : State) : Nat := max s.job.period 1

/-- Slot j of clk c (R176). -/
def State.slotAt (s : State) (c : Nat) : Nat := (c - s.job.s0) % s.P

/-- Whole periods since s0 at clk c. -/
def State.periodsAt (s : State) (c : Nat) : Nat := (c - s.job.s0) / s.P

/-- The virtual row and column of physical tile `p`, 0xFF when it holds none (R143). -/
def State.vrow (s : State) (p : Nat) : Nat := s.fld (key (0x2300 + p) 3) ast_virtual_row
/-- Its virtual column. -/
def State.vcol (s : State) (p : Nat) : Nat := s.fld (key (0x2300 + p) 3) ast_virtual_column

/-- The physical column of virtual column `v` of row `r` in the placement in force (R191, R366). -/
def State.pcol (s : State) (r v : Nat) : Nat := if s.net.retired.getD r 15 ≤ v then v + 1 else v

/-- The physical tile of virtual tile (r, v). -/
def State.ptile (s : State) (r v : Nat) : Nat := 13 * r + s.pcol r v

/-- Tile `p` holds a virtual tile of the loaded job. -/
def State.placed (s : State) (p : Nat) : Bool := s.vrow p != 0xFF

/-- The quays whose slipway the job uses (R95). -/
def State.slipQuays (s : State) : List Nat := s.job.slips

/-- Quay `q` has land_enable 1. -/
def State.landOn (s : State) (q : Nat) : Bool := s.flag (key (0x2200 + q) 1) quay_land_enable

/-- The used groups of quay `q`. -/
def State.usedGroups (s : State) (q : Nat) : List Nat :=
  (List.range 4).filter (fun g => s.fld (key (0x2200 + q) (2 + g)) grp_lane_count != 0)

/-- The groups of the job (R95), as 4 q + g. -/
def State.jobGroups (s : State) : List Nat :=
  (s.slipQuays.filter s.landOn).flatMap (fun q => (s.usedGroups q).map (fun g => 4 * q + g))

/-- Entry offset of slipway `q`. -/
def State.entryOffset (s : State) (q : Nat) : Nat := s.fld (key (0x22C0 + q) 1) slip_entry_offset

/-- E: the largest entry offset over the job's slipways (R248). -/
def State.E (s : State) : Nat := (s.slipQuays.map s.entryOffset).foldl max 0

/-- Module number: 32 berth + position (R375). -/
def State.moduleNumber (s : State) : Nat :=
  32 * s.fld (key 0x2D00 1) bctl_berth + s.fld (key 0x2D00 1) bctl_position

/-! ### Global time (R408, R411, R412) -/

/-- Units of 2^-32 ns in a second. -/
def secUnits : Nat := 1000000000 * 2 ^ 32

/-- T128 of a count of 2^-32 ns. -/
def t128 (t : Nat) : Nat := t / secUnits * 2 ^ 64 + t % secUnits

/-- The count of 2^-32 ns of a T128. -/
def ofT128 (v : Nat) : Nat := v / 2 ^ 64 * secUnits + v % 2 ^ 64

/-- T64 of a count of 2^-32 ns: the fraction and seconds above 32 bits dropped (R408). -/
def t64 (t : Nat) : Nat := t128 t / 2 ^ 32 % 2 ^ 64

/-- The increment in force. -/
def State.inc (s : State) : Nat := s.fld (key 0x2E00 3) { lo := 0, w := 36, acc := .rw }

/-- The fall-back clock's value at `ticks` for a base, a tick and a rate (R412). -/
def fallbackAt (f : Nat × Nat × Int) (ticks : Int) : Nat :=
  let dt5 : Int := (ticks - f.2.1) * 68719476736
  ((f.1 : Int) + (dt5 * 2 ^ 40 + dt5 * f.2.2) / (5 * 2 ^ 40)).toNat

/-- What the fall-back clock is fitted to. -/
def Time.fit (t : Time) : Nat × Nat × Int := (t.fbBase, t.fbTick, t.fbRate)

/-- The fall-back clock's value at `ticks` (R412). -/
def State.fallback (s : State) (ticks : Nat) : Nat := fallbackAt s.time.fit ticks

/-- Time Status. -/
def kTime : Nat := key 0x2E00 2

/-- M of clk `x`, a clk of a tick, along a line, in 2^-32 ns (R409, R413). -/
def Line.m (l : Line) (x : Nat) : Int :=
  let n : Int := ((x : Int) - l.tick) / 4
  match l.fb with
  | none => l.main + n * l.inc
  | some f => fallbackAt f (l.ticks + n)

/-- G of clk `c` along a line (R411): the fraction is rounded down to 2^-32 ns. -/
def Line.g (l : Line) (c : Nat) : Nat := (l.m (c - c % 4) + (c % 4 * l.inc / 4 : Nat)).toNat

/-- The line on which global time runs. -/
def State.line (s : State) : Line :=
  { since := s.time.since, tick := s.time.tickClk, ticks := s.time.fbTicks, main := s.time.main, inc := s.inc,
    fb := if s.time.fbLive then some s.time.fit else none }

/-- The increment that the next tick adds (R409). -/
def State.incNow (s : State) : Nat := match s.time.incNext with | some v => v % 2 ^ 36 | none => s.inc

/-- The main clock after the next tick (R409, R410): an accepted set, then an adjustment, which never takes it below 0. -/
def State.mainNow (s : State) : Nat :=
  (((s.time.setNext.getD (s.time.main + s.incNow) : Nat) : Int) + s.time.adjNext.getD 0).toNat

/-- What the fall-back clock is fitted to after the next tick (R412). -/
def State.fitNow (s : State) : Nat × Nat × Int :=
  if s.time.fbCommit then (ofT128 (s.ent (key 0x2E01 1)), s.ent (key 0x2E01 2), signed 32 (s.ent (key 0x2E01 3)))
  else s.time.fit

/-- The line that a tick of this clk brings. -/
def State.nextLine (s : State) : Line :=
  { since := s.clk, tick := s.clk, ticks := s.time.fbTicks + 1, main := s.mainNow, inc := s.incNow,
    fb := if s.flag kTime tsts_on_fallback then some s.fitNow else none }

/-- The line of clk `c`: of a tick that this clk still has to make, the present one, or an earlier one. -/
def State.lineOf (s : State) (c : Nat) : Line :=
  if s.clk ≤ c ∧ s.clk % 4 = 0 ∧ s.time.tickClk < s.clk then s.nextLine
  else if s.time.since ≤ c then s.line
  else (s.time.past.find? (fun l => decide (l.since ≤ c))).getD s.line

/-- M after the latest tick up to this clk, as Main Time reads it (R428). -/
def State.mainRead (s : State) : Nat := if s.clk % 4 = 0 ∧ s.time.tickClk < s.clk then s.mainNow else s.time.main

/-- M of the latest tick up to this clk, or the fall-back value that stands in for it. -/
def State.mainTimeNow (s : State) : Nat := ((s.lineOf s.clk).m (s.clk - s.clk % 4)).toNat

/-- G of clk `c` in 2^-32 ns (R411). -/
def State.globalTime (s : State) (c : Nat) : Nat := (s.lineOf c).g c

/-- G of the present clk. -/
def State.now (s : State) : Nat := s.globalTime s.clk

/-- A dictionary write that a row of the table brings takes effect: the dictionary is available and serves it (R484,
R487). -/
def State.dictOpen (s : State) : Bool := s.rst.available && !s.flag (key 0x3200 5) sst_recovery

/-! ### Frame numbers (R15) -/

/-- a is later than b. -/
def later (a b : Nat) : Bool :=
  let d := (a + 2 ^ 48 - b % 2 ^ 48) % 2 ^ 48
  decide (1 ≤ d) && decide (d < 2 ^ 47)

/-- Offset n of frame number `f` from N0, negative when N0 is later (R15): of two numbers 2^47 apart neither is later. -/
def frameIndex (n0 f : Nat) : Int :=
  let d : Nat := (f + 2 ^ 48 - n0 % 2 ^ 48) % 2 ^ 48
  if d ≤ 2 ^ 47 then Int.ofNat d else Int.ofNat d - 2 ^ 48

end Sys2Proof.Machine
end

