-- ==== Sys2Proof/Machine/Flags.lean ====
section
/-! DEFINITION. The exact arithmetic of the tile and of landing, with what each operation counts: rounding and
saturation (R20, R21, R141), formats (R120), dot products (R125), requantise (R135), lookup (R136), aligned
operations (R137), scale encoding and derivation (R148, R151 to R157). -/

namespace Sys2Proof.Machine

/-- round_ta of num / den: to nearest, ties away from zero (R21, R141). -/
def roundTa (num : Int) (den : Nat) : Int :=
  let q := Int.ofNat ((2 * num.natAbs + den) / (2 * den))
  if num < 0 then -q else q

/-- sat (R20). -/
def sat (x lo hi : Int) : Int := if x < lo then lo else if hi < x then hi else x

/-- `num * 2^e / den` as a pair of naturals. -/
def scalePow (num den : Nat) (e : Int) : Nat × Nat :=
  if 0 ≤ e then (num * 2 ^ e.toNat, den) else (num, den * 2 ^ (-e).toNat)

/-- A format is unsigned (R120). -/
def fmtUnsigned (f : Nat) : Bool := f == 0 || f == 2

/-- A format is 4 bits wide. -/
def fmtK4 (f : Nat) : Bool := f == 2 || f == 3

/-- Lowest and highest code of a format (R120). -/
def fmtRange : Nat → Int × Int
  | 0 => (0, 255)
  | 1 => (-128, 127)
  | 2 => (0, 15)
  | 3 => (-8, 7)
  | _ => (-32768, 32767)

/-- Stored bits of a format's code. -/
def fmtBits : Nat → Nat
  | 0 => 8
  | 1 => 8
  | 2 => 4
  | 3 => 4
  | _ => 16

/-- The code that stored bits `b` hold. -/
def codeOf (f b : Nat) : Int :=
  if fmtUnsigned f then Int.ofNat (b % 2 ^ fmtBits f) else signed (fmtBits f) b

/-- The zero point a format uses (R121). -/
def fmtZp (f zp : Nat) : Nat := if fmtUnsigned f then zp else 0

/-- The value of stored bits: code minus zero point (R120). -/
def valueOf (f zp b : Nat) : Int := codeOf f b - fmtZp f zp

/-- Accumulator limits (R126). -/
def accMin : Int := -(2 ^ 31)
/-- The upper limit. -/
def accMax : Int := 2 ^ 31 - 1

/-- A sum saturated to an accumulator, and 1 when it saturated (R126, R127). -/
def accSat (t : Int) : Int × Nat :=
  let v := sat t accMin accMax
  (v, if v = t then 0 else 1)

/-- The codes of 32 bytes in K8 or K4 (R123). -/
def expandCodes (k4 : Bool) (bs : List Nat) : List Nat :=
  if k4 then bs.flatMap (fun b => [b % 16, b / 16 % 16]) else bs.map (fun b => b % 256)

/-- The dot product of one unit (R125). -/
def dot (k4 xSigned wSigned : Bool) (zx : Nat) (x : List Nat) (w : WLane) : Int :=
  let fx := (if k4 then 2 else 0) + (if xSigned then 1 else 0)
  let fw := (if k4 then 2 else 0) + (if wSigned then 1 else 0)
  let zx := if k4 then zx % 16 else zx
  let zw := if k4 then w.zw % 16 else w.zw
  ((List.zipWith (fun a b => valueOf fx zx a * valueOf fw zw b)
    (expandCodes k4 x) (expandCodes k4 w.codes))).sum

/-- Requantise of one lane: the code and whether it counts (R135, R141). -/
def requantise (a : Int) (aexp : Int) (m : Nat) (e : Int) (zero : Bool) (fmt zp : Nat) : Int × Bool :=
  let z : Int := fmtZp fmt zp
  if zero then (z, false)
  else
    let d := aexp - e
    let num := a * 256 * 2 ^ d.toNat
    let den := (256 + m) * 2 ^ (-d).toNat
    let v := roundTa num den + z
    let r := fmtRange fmt
    (sat v r.1 r.2, decide (v < r.1) || decide (r.2 < v))

/-- Lookup of stored bits `c` in table entry list `t` (R136). -/
def lookup (t : Nat → Nat) (k4 : Bool) (c : Nat) : Nat := if k4 then t (c % 16) % 16 else t (c % 256) % 256

/-- floor(log2(num / den)). -/
def floorLog2 (num den : Nat) : Int :=
  let k : Int := Int.ofNat num.log2 - Int.ofNat den.log2
  if den * 2 ^ k.toNat ≤ num * 2 ^ (-k).toNat then k else k - 1

/-- enc of num / den (R148). -/
def enc (num den : Nat) : Nat × Int :=
  let e := floorLog2 num den
  let a := num * 2 ^ (-e).toNat
  let b := den * 2 ^ e.toNat
  let m := (roundTa (256 * (Int.ofNat a - Int.ofNat b)) b).toNat
  if m = 256 then (0, e + 1) else (m, e)

/-- The block exponent from `x` and headroom: clamped to -32 to 31, and whether it clamped (R153, R154). -/
def clampExp (x : Int) : Int × Bool :=
  let v := sat x (-32) 31
  (v, decide (v ≠ x))

/-- x_out of R151: the live form from the row maximum, the tracked form from the estimate. -/
def xOut (c : RqCap) (bigM : Nat) : Nat × Nat :=
  if c.src = 0 then scalePow (bigM * c.fmul) (65536 * c.target) (c.aexp + c.fexp)
  else scalePow c.est c.target c.texp

/-- What scale_row gives a row: its entry, its scale in accumulator units, the block exponent it sets, and whether
it takes the floor (R151 to R154). -/
structure RowScale where
  ent : SEnt
  mA : Nat
  eA : Int
  set : Option (Int × Bool)
  floor : Bool
deriving DecidableEq, Repr

/-- scale_row up to the requantise (R151). -/
def rowScale (c : RqCap) (bigM : Nat) : RowScale :=
  if bigM = 0 then { ent := { mant := 0, off := 0, zero := true }, mA := 0, eA := 0, set := none, floor := false }
  else
    let x := xOut c bigM
    let me : Nat × Int := if x.1 = 0 then (0, c.bexp.getD 0 - 8) else enc x.1 x.2
    let set : Option (Int × Bool) := match c.bexp with
      | some _ => none
      | none => some (clampExp (me.2 + c.head))
    let be : Int := match set with | some b => b.1 | none => c.bexp.getD 0
    let off := be - me.2
    let mo : Nat × Nat := if off < 0 then (255, 0) else if 7 < off then (0, 7) else (me.1, off.toNat)
    let q := scalePow (256 + mo.1) c.fmul (be - Int.ofNat mo.2 + 8 - c.fexp)
    let a := enc q.1 q.2
    { ent := { mant := mo.1, off := mo.2, zero := false }, mA := a.1, eA := a.2, set := set,
      floor := decide (7 < off) }

/-- The underuse check of R157. -/
def underuse (c : RqCap) (bigM mA : Nat) (eA : Int) : Bool :=
  let q := scalePow (bigM * 256) (256 + mA) (c.aexp - eA)
  let used := (2 * q.1 + q.2) / (2 * q.2)
  c.frac != 0 && decide (used * 256 < c.frac * c.target)

/-- tracker_update of R156: the new estimate. -/
def trackerUpdate (c : RqCap) (bigM : Nat) : Nat :=
  let q := scalePow (bigM * c.fmul) 65536 (c.aexp + c.fexp - c.texp)
  let obs := min ((2 * q.1 + q.2) / (2 * q.2)) (2 ^ 32 - 1)
  (Int.ofNat c.est + roundTa (Int.ofNat obs - Int.ofNat c.est) (2 ^ c.tk)).toNat

/-- The alignment exponent r of R137. -/
def alignExp (x y : AlnCap) : Int :=
  let cand := fun (o : AlnCap) => if o.m ≠ 0 then o.e - 8 else o.e
  if x.row && x.zero then (if y.row && y.zero then 0 else cand y)
  else if y.row && y.zero then cand x else min (cand x) (cand y)

/-- One operand's term of R137. -/
def alignTerm (o : AlnCap) (v : Int) (r : Int) : Int :=
  if o.row && o.zero then 0 else v * Int.ofNat (256 + o.m) * 2 ^ (o.e - r).toNat / 256

/-- 32-bit two's complement of scalar registers. -/
def s32 (x : Nat) : Int := signed 32 x

/-- The conditions of CMP and CMPI (R233). -/
def cond (c a b : Nat) : Bool :=
  match c with
  | 0 => a == b
  | 1 => a != b
  | 2 => decide (s32 a < s32 b)
  | 3 => decide (s32 b ≤ s32 a)
  | 4 => decide (a < b)
  | _ => decide (b ≤ a)

/-- The comparison operators of the menu on signed values (R313). -/
def menuOp (op : Nat) (x t : Int) : Bool :=
  match op with
  | 0 => decide (x > t)
  | 1 => decide (x ≥ t)
  | 2 => decide (x < t)
  | 3 => decide (x ≤ t)
  | 4 => decide (x = t)
  | _ => decide (x ≠ t)

end Sys2Proof.Machine
end

