-- ==== Sys2Proof/Machine/Digest.lean ====
section
/-! DEFINITION. Checks and digests the spec names: CRC-24 (R84), CRC-32C (R279) and SHA-256 (R363). -/

namespace Sys2Proof.Machine

/-- One bit into the CRC-24 of R84. -/
def crc24Bit (crc b : Nat) : Nat :=
  let fb := (crc / 2 ^ 23 + b) % 2
  let c := crc * 2 % 2 ^ 24
  if fb = 1 then c ^^^ 0x864CFB else c

/-- One byte into the CRC-24, highest bit first. -/
def crc24Byte (crc b : Nat) : Nat :=
  [7, 6, 5, 4, 3, 2, 1, 0].foldl (fun c j => crc24Bit c (b / 2 ^ j % 2)) crc

/-- One 64-bit data block into the CRC-24, byte 0 first (R84). -/
def crc24Block (crc v : Nat) : Nat := (leBytes 8 v).foldl crc24Byte crc

/-- One byte into the reflected CRC-32C. -/
def crc32cByte (crc b : Nat) : Nat :=
  (List.range 8).foldl (fun c _ => if c % 2 = 1 then c / 2 ^^^ 0x82F63B78 else c / 2) (crc ^^^ (b % 256))

/-- CRC-32C, the Castagnoli polynomial as in RFC 3720 (R279). -/
def crc32c (bs : List Nat) : Nat := (bs.foldl crc32cByte 0xFFFFFFFF) ^^^ 0xFFFFFFFF

/-- The largest number below 2^40 whose `k`-th power is at most `m`. -/
def floorRoot (k m : Nat) : Nat :=
  (List.range 40).foldl (fun x i => let y := x + 2 ^ (39 - i); if y ^ k ≤ m then y else x) 0

/-- The primes below 312, of which there are 64: a smaller composite has a divisor below 18. -/
def smallPrimes : List Nat :=
  (List.range 312).filter (fun n => decide (2 ≤ n) && (List.range 18).all (fun d => decide (d < 2) || decide (n ≤ d) || n % d != 0))

/-- The first 32 bits of the fraction of the `k`-th root of `p`, from which FIPS 180-4 takes its constants. -/
def rootBits (k p : Nat) : Nat := floorRoot k (p * 2 ^ (32 * k)) % 2 ^ 32

/-- The round constants of SHA-256 (FIPS 180-4): of the cube roots of the first 64 primes. -/
def shaK : List Nat := smallPrimes.map (rootBits 3)

/-- Its first hash value: of the square roots of the first 8. -/
def shaStart : List Nat := (smallPrimes.take 8).map (rootBits 2)

/-- The sum modulo 2^32 of some words. -/
def sum32 (l : List Nat) : Nat := l.sum % 2 ^ 32

/-- Right rotation of a 32-bit word. -/
def rotr (x n : Nat) : Nat := (x / 2 ^ n ||| x * 2 ^ (32 - n)) % 2 ^ 32

/-- The exclusive or of a word rotated by two amounts and a third form of it. -/
def mix (x a b c : Nat) : Nat := rotr x a ^^^ rotr x b ^^^ c

/-- The message schedule: sixteen words, newest first, extended `n` times. -/
def shaSchedule : Nat → List Nat → List Nat
  | 0, w => w
  | n + 1, w =>
    let at_ := fun (i : Nat) => w.getD (i - 1) 0
    shaSchedule n (sum32 [at_ 16, mix (at_ 15) 7 18 (at_ 15 / 8), at_ 7, mix (at_ 2) 17 19 (at_ 2 / 1024)] :: w)

/-- One round on the eight working variables. -/
def shaRound (h : List Nat) (kw : Nat × Nat) : List Nat :=
  let v := fun (i : Nat) => h.getD i 0
  let choice := (v 4 &&& v 5) + (0xFFFFFFFF - v 4 &&& v 6)
  let majority := (v 0 &&& v 1) ||| (v 2 &&& (v 0 ||| v 1))
  let up := v 7 + mix (v 4) 6 11 (rotr (v 4) 25) + choice + kw.1 + kw.2
  sum32 [up, mix (v 0) 2 13 (rotr (v 0) 22), majority] :: h.take 3 ++ sum32 [v 3, up] :: (h.drop 4).take 3

/-- The big-endian number of a list of bytes. -/
def beNat (bs : List Nat) : Nat := bs.foldl (fun v b => 256 * v + b % 256) 0

/-- One 64-byte block into the hash. -/
def shaBlock (h : List Nat) (blk : List Nat) : List Nat :=
  let w0 := (List.range 16).map (fun i => beNat ((blk.drop (4 * i)).take 4))
  let w := (shaSchedule 48 w0.reverse).reverse
  ((shaK.zip w).foldl shaRound h).zipWith (fun a b => sum32 [a, b]) h

/-- The blocks of a padded message. -/
def shaBlocks : Nat → List Nat → List Nat → List Nat
  | 0, _, h => h
  | n + 1, bs, h => shaBlocks n (bs.drop 64) (shaBlock h (bs.take 64))

/-- SHA-256 (FIPS 180-4) as its 32 bytes. -/
def sha256 (bs : List Nat) : List Nat :=
  let n := bs.length
  let pad := bs ++ 0x80 :: List.replicate ((119 - n % 64) % 64) 0 ++ (leBytes 8 (8 * n)).reverse
  (shaBlocks (pad.length / 64) pad shaStart).flatMap (fun w => (leBytes 4 w).reverse)

/-- SHA-256 as the number whose byte 0 is the digest's first byte. -/
def sha256Nat (bs : List Nat) : Nat := leNat (sha256 bs)

end Sys2Proof.Machine
end

