-- ==== Sys2Proof/Machine/Report.lean ====
section
/-! DEFINITION. What the engine tells: MSI-X vectors, EMCY messages and their log, recorder submissions, timeline
entries, and the flashing's doubt sources with HOLDOFF and FAULT (R301, R307, R308, R427, R451, R465 to R468,
R560). -/

namespace Sys2Proof.Machine

/-- Field Network Status. -/
def kCans : Nat := key 0x2F30 2

/-- COB-ID of a CANopen service of this node (R443): 0x080 EMCY, 0x580 the USDO server's answer, 0x700 heartbeat and
boot-up. -/
def State.cob (s : State) (base : Nat) : Nat := base + s.fld kCans cans_node_id

/-! ### Vectors (R451, R452) -/

/-- Agreed Features. -/
def State.agreed (s : State) : Nat := s.ent (key 0x2F10 3)

/-- The feature bit a vector needs, if any (R451, R453). -/
def vectorFeature : Nat → Option Nat
  | 2 => some 1
  | 3 => some 2
  | 4 => some 3
  | 5 => some 0
  | 6 => some 5
  | _ => none

/-- Raises MSI-X vector `v`, unless the features are not latched or the vector's feature is not agreed (R452). -/
def State.raise (s : State) (v : Nat) : State :=
  if s.ctl.latched && (match vectorFeature v with | some b => bit s.agreed b | none => true) then
    { s with ctl := { s.ctl with vectors := v :: s.ctl.vectors.filter (fun x => x != v) } }.emit (.vector v)
  else s

/-! ### EMCY (R465 to R468) -/

/-- Flashing Status. -/
def kFlsh : Nat := key 0x2800 4

/-- Message `b` is an emcy_lost (R465, R466). -/
def emcyLost (b : Nat) : Bool := bits b 24 8 == 8

/-- A count of lost messages is unsent: not told yet, or in a message that still waits (R467, R468). -/
def State.lossUnsent (s : State) : Bool := s.ctl.lostUnsent != 0 || s.ctl.canQ.any emcyLost

/-- 0x1001 (R468). -/
def State.errorRegister (s : State) : Nat :=
  let d := s.fld kFlsh flsh_doubt
  let v := (if bit d 6 then 4 else 0) + (if bit d 5 then 8 else 0) + (if s.lossUnsent then 16 else 0)
    + (if s.jobState == FAULTED then 128 else 0)
  if v = 0 then 0 else v + 1

/-- Source number of module, class and index (R425). -/
def State.source (s : State) (cls idx : Nat) : Nat := s.moduleNumber * 2 ^ 11 + cls * 2 ^ 7 + idx

/-- Error code of an EMCY class (R466). -/
def eec : Nat → Nat
  | 1 => 0xFF10
  | 2 => 0xFF20
  | 3 => 0xFF30
  | 4 => 0xFF40
  | 5 => 0xFF50
  | 6 => 0x4200
  | 7 => 0x3000
  | _ => 0x8110

/-- The 48 bytes of an EMCY message of class `cls` with detail `d` (R465). -/
def State.emcyBits (s : State) (cls d : Nat) : Nat :=
  eec cls + 2 ^ 16 * s.errorRegister + 2 ^ 24 * cls + 2 ^ 32 * s.source 3 0 + 2 ^ 64 * t64 s.now
    + 2 ^ 128 * (d % 2 ^ 256)

/-- EMCY Log Producer and Consumer. -/
def kEmcyP : Nat := key 0x2F20 3
/-- The consumer. -/
def kEmcyC : Nat := key 0x2F20 4

/-- An EMCY message enters the log and raises vector 4; with 256 entries unconsumed it is dropped from the log and
counted (R467). -/
def State.emcyLogWrite (s : State) (b : Nat) : State :=
  let p := s.ent kEmcyP
  if (p + 2 ^ 32 - s.ent kEmcyC) % 2 ^ 32 < 256 then
    ({ s with ctl := { s.ctl with emcyLog := mset 0 s.ctl.emcyLog (p % 256) b } }.setEnt kEmcyP ((p + 1) % 2 ^ 32)).raise 4
  else s.bump (key 0x2F20 2) hls_log_drops

/-- An EMCY message queues for CAN FD; with 32 waiting it is dropped there and counted (R467). -/
def State.emcyCan (s : State) (b : Nat) : State :=
  if s.ctl.canQ.length < 32 then { s with ctl := { s.ctl with canQ := s.ctl.canQ ++ [b] } }
  else { s with ctl := { s.ctl with lostUnsent := s.ctl.lostUnsent + 1 } }.bump (key 0x2F30 2) cans_emcy_lost

/-- Sends an EMCY message of class `cls`; a calibration message with cal_emcy_enable 0 stays off CAN FD (R170). -/
def State.emcy (s : State) (cls d : Nat) : State :=
  let b := s.emcyBits cls d
  let s := s.emcyLogWrite b
  if cls = 2 ∧ ¬ s.flag (key 0x2500 1) cglb_cal_emcy_enable then s else s.emcyCan b

/-! ### Event recorder submissions (R560 to R562) -/

/-- Severity of a record type (R562). -/
def severity : Nat → Nat
  | 1 => 6
  | 2 => 5
  | 3 => 4
  | 4 => 5
  | 5 => 4
  | 6 => 3
  | 7 => 3
  | 8 => 3
  | 9 => 2
  | 10 => 2
  | 11 => 2
  | 12 => 1
  | 13 => 1
  | 14 => 1
  | 17 => 7
  | _ => 0

/-- Background Status. -/
def kBgs : Nat := key 0x3080 1

/-- Submits a record of type `ty` with key detail `k` and payload `p` to the harbourmaster: it waits in the backlog,
or is dropped and counted while 1,024 wait (R560). -/
def State.record (s : State) (ty k p : Nat) : State :=
  if s.recd.backlog.length < 1024 then
    let r : RecRec := { type := ty, key := k, payload := p, timeValid := s.flag kTime tsts_main_valid,
                        fallback := s.flag kTime tsts_on_fallback, boot := s.recd.boots,
                        source := if ty = 8 then s.source 2 0 else s.source 3 0, first := t64 s.now, last := t64 s.now }
    let s := { s with recd := { s.recd with backlog := s.recd.backlog ++ [r] } }
    s.setFld kBgs bgs_recorder_backlog (max (s.fld kBgs bgs_recorder_backlog) s.recd.backlog.length)
  else { s with recd := { s.recd with drops := min (s.recd.drops + 1) (2 ^ 32 - 1) } }

/-! ### Timeline (R427) -/

/-- Timeline Control. -/
def kTlc : Nat := key 0x2E40 1

/-- Timeline Producer and Consumer. -/
def kTlP : Nat := key 0x2E40 2
/-- The consumer. -/
def kTlC : Nat := key 0x2E40 3

/-- Vector 3, at most once per notify_us; a later advance waits its turn (R451). -/
def State.raiseTimeline (s : State) : State :=
  let us := s.fld (key 0x2F20 1) hlc_notify_us
  let free := match s.time.tlRaised with | none => true | some c => decide (c + 1250 * us ≤ s.clk)
  if free then { s with time := { s.time with tlRaised := some s.clk, tlDue := false } }.raise 3
  else { s with time := { s.time with tlDue := true } }

/-- Whether the stamp and source of an entry come before those of another (R426). -/
def tlBefore (a b : Nat × Nat) : Bool := decide (a.1 < b.1) || (a.1 == b.1 && decide (a.2 < b.2))

/-- An entry is released (R427): into the ring, or dropped and counted while 4,096 are unconsumed. -/
def State.releaseEntry (s : State) (e : TlEnt) : State :=
  let s := if e.ooo then s.bump (key 0x2E40 5) tlk_out_of_order
    else { s with time := { s.time with lastRel := some (e.stamp, e.source) } }
  let p := s.ent kTlP
  if 4096 ≤ (p + 2 ^ 32 - s.ent kTlC) % 2 ^ 32 then s.bump (key 0x2E40 5) tlk_drops
  else
    let ring := mput s.time.ring (p % 4096) e
    ({ s with time := { s.time with ring := ring } }.setEnt kTlP ((p + 1) % 2 ^ 32)).raiseTimeline

/-- An event enters the timeline: held, or released at once when a later entry has been released (R427). -/
def State.timelineEnter (s : State) (stamp src kind detail : Nat) : State :=
  let e : TlEnt := { stamp := stamp, source := src, kind := kind, detail := detail }
  let late := match s.time.lastRel with | none => false | some r => tlBefore (stamp, src) r
  if late then s.releaseEntry { e with ooo := true }
  else { s with time := { s.time with held := s.time.held ++ [e] } }

/-- A time event of kind `kind` (R427): the timeline while time_events is 1, the recorder's time record, and an
EMCY message of class time for kinds 5, 6, 7 and 9 (R466). -/
def State.timeEvent (s : State) (kind detail : Nat) : State :=
  let s := if s.flag kTlc tlc_time_events then s.timelineEnter s.now (s.source 2 0) kind detail else s
  let s := s.record 8 kind detail
  if kind = 5 ∨ kind = 6 ∨ kind = 7 ∨ kind = 9 then s.emcy 5 kind else s

/-! ### Doubt, FAULT and HOLDOFF (R301, R302, R307, R308) -/

/-- The causes of HOLDOFF that hold (R308). -/
def State.holdCauses (s : State) : Nat :=
  (if s.jobState != RUNNING || s.flag kJob jst_pause_pending then 1 else 0)
    + (if s.flag kFlsh flsh_forcing then 2 else 0)
    + (if s.flag (key 0x2900 2) caps_hold_capture then 4 else 0)
    + (if s.flag (key 0x2800 3) outc_holdoff_force then 8 else 0)

/-- Records the causes of HOLDOFF: it rises with the first cause; the clk from which all are clear is kept. -/
def State.refreshHold (s : State) : State :=
  let c := s.holdCauses
  let s := s.setFld kFlsh flsh_holdoff_cause c
  if c = 0 then
    (match s.dec.holdClear with
     | some _ => s
     | none => { s with dec := { s.dec with holdClear := some s.clk } })
  else
    let s := { s with dec := { s.dec with holdClear := none } }
    if s.flag kFlsh flsh_holdoff_now then s
    else
      let s := s.setFlag kFlsh flsh_holdoff_now true
      if s.dec.driven then s.emit (.holdoff true (s.clk + 6)) else s

/-- The flashing begins to force: pulses under way are cut short and FAULT goes high by clk + 6 (R302, R307). -/
def State.forceOn (s : State) : State :=
  if s.flag kFlsh flsh_forcing then s
  else
    let cut := s.dec.pulses.filter (fun e => match e.2 with | some p => decide (s.clk + 6 < p.2) | none => false)
    let s := { s with dec := { s.dec with
      pulses := s.dec.pulses.filter (fun e => match e.2 with | some p => decide (p.2 ≤ s.clk + 6) | none => false)
      faultHigh := true } }
    let s := (cut.map Prod.fst).foldl (fun s o => s.emit (.pulseEnd o (s.clk + 6))) s
    let s := (s.setFlag kFlsh flsh_forcing true).setFlag kFlsh flsh_doubt_seen true
    if s.dec.driven then s.emit (.pinFault true (s.clk + 6)) else s

/-- The doubt bits without release_hold. -/
def State.doubtMain (s : State) : Nat := s.fld kFlsh flsh_doubt % 256

/-- Doubt source `k` (0 to 7) registers or clears. A source that registers ends any release_hold; when the last
clears, release_hold starts (R301). DESIGN CHOICE (log entry 79): its end is fixed then; a later write of release_frames
counts from the next one. -/
def State.setDoubt (s : State) (k : Nat) (on : Bool) : State :=
  let d := s.doubtMain
  let has := bit d k
  if on then
    let s := s.setFld kFlsh flsh_doubt (if has then d else d + 2 ^ k)
    let s := { s with dec := { s.dec with holdEnd := none } }
    s.forceOn.refreshHold
  else if has then
    let d' := d - 2 ^ k
    if d' = 0 then
      let s := s.setFld kFlsh flsh_doubt 256
      { s with dec := { s.dec with
          holdEnd := some (s.clk + s.fld (key 0x2800 3) outc_release_frames * s.F) } }.refreshHold
    else (s.setFld kFlsh flsh_doubt d').refreshHold
  else s.refreshHold

/-- Entries the engine keeps in its persistence store by itself (class A of R435). -/
def isAlways (k : Nat) : Bool :=
  match findEntry (k / 256) (k % 256) entries with
  | some e => e.cls == Cls.always
  | none => false

/-- The fields of entry `k` that the persistence store keeps: those whose default is saved, in an entry of class A; every
field of an entry of class S, except that a row map keeps its retired column alone (R200, R435, log entry 23). -/
def savedFlds (k : Nat) : List Fld :=
  let i := k / 256
  if 0x2608 ≤ i ∧ i < 0x2610 then [row_retired_column]
  else match findEntry i (k % 256) entries with
    | some e =>
      if e.cls = Cls.stored then e.flds
      else if e.cls = Cls.always then
        (if i < 0x2780 then [tmem_spare_rows_used] else if i < 0x3000 then [munit_spare_used, munit_lanes_repaired]
         else [las_spare_state, las_replaced])
      else []
    | none => []

/-- Word `v` of entry `k` with the fields `l` alone, the others at their defaults. -/
def State.onlyFlds (s : State) (l : List Fld) (k v : Nat) : Nat :=
  l.foldl (fun w f => f.put w (f.of v)) (dflt s.grade s.stepping k)

/-- The bytes a store copy's CRC covers: sequence number, length and the entries in order (R485, log entry 62). -/
def storeImage (seq : Nat) (m : SMap Nat) : List Nat :=
  leBytes 4 seq ++ leBytes 4 m.length ++ m.flatMap (fun e => leBytes 4 e.1 ++ leBytes 32 e.2)

/-- A copy with its CRC. -/
def sealCopy (seq : Nat) (m : SMap Nat) : StoreCopy :=
  { seq := seq % 2 ^ 32, data := m, crc := crc32c (storeImage (seq % 2 ^ 32) m) }

/-- A copy that checks (R436, R485). -/
def goodCopy (c : Option StoreCopy) : Option StoreCopy :=
  match c with
  | some c => if crc32c (storeImage c.seq c.data) = c.crc then some c else none
  | none => none

/-- The valid copy with the higher sequence number (R485). -/
def State.newest (s : State) : Option StoreCopy :=
  match goodCopy s.ctl.copy0, goodCopy s.ctl.copy1 with
  | some a, some b => some (if a.seq ≤ b.seq then b else a)
  | some a, none => some a
  | none, b => b

/-- Some copy checks. -/
def State.storeValid (s : State) : Bool := s.newest.isSome

/-- What the store holds. -/
def State.storeMap (s : State) : SMap Nat := (s.newest.map StoreCopy.data).getD []

/-- Copy 0 and then copy 1 are written, each with a sequence number one higher than the newest valid copy (R485). -/
def State.writeStore (s : State) (m : SMap Nat) : State :=
  let n := (s.newest.map StoreCopy.seq).getD 0
  { s with ctl := { s.ctl with copy0 := some (sealCopy (n + 1) m), copy1 := some (sealCopy (n + 2) m) } }

/-- The saved fields of entry `k` enter the store. -/
def State.store (s : State) (k : Nat) : State :=
  s.writeStore (mset (dflt s.grade s.stepping k) s.storeMap k (s.onlyFlds (savedFlds k) k (s.ent k)))

/-- Entry `k` persists at once (R200, R435); a class-A entry that changes while a job is ARMED, RUNNING or PAUSED
waits for the unload. -/
def State.persist (s : State) (k : Nat) : State :=
  if s.active ∧ isAlways k then { s with ctl := { s.ctl with unsaved := k :: s.ctl.unsaved.filter (fun x => x != k) } }
  else s.store k

/-- At unload the store takes what changed during the job (R435). -/
def State.storeUnsaved (s : State) : State :=
  s.ctl.unsaved.foldl (fun s k => s.store k) { s with ctl := { s.ctl with unsaved := [] } }

/-- The job state becomes `st`: vector 0 on a change, and the no_job doubt and HOLDOFF follow (R301, R308, R451); the
unloaded block stores what a job held back (R435). -/
def State.setJob (s : State) (st : Nat) : State :=
  let ch := s.jobState != st
  let s := if st = EMPTY then s.storeUnsaved else s
  let s := s.setFld kJob jst_job_state st
  let s := if ch then s.raise 0 else s
  s.setDoubt 0 (st == EMPTY || st == LOADED || st == FAULTED)

/-- Lane-group doubt (R95): some group of an armed job is not aligned. -/
def State.refreshLaneDoubt (s : State) : State :=
  let bad := s.active && s.jobGroups.any (fun k =>
    s.fld (key (0x2220 + k / 4) (1 + k % 4)) gstat_align_state != 4)
  if bad != bit s.doubtMain 2 then s.setDoubt 2 bad else s

/-- The time_lock doubt follows lock_required and time lock (R423). -/
def State.refreshTimeDoubt (s : State) : State :=
  let bad := s.flag (key 0x2E00 1) tctl_lock_required && !s.flag kTime tsts_time_lock
  if bad != bit s.doubtMain 3 then s.setDoubt 3 bad else s

end Sys2Proof.Machine
end

