-- ==== Sys2Proof/Machine/Records.lean ====
section
/-! DEFINITION. Courses and event records as stored: course sizes and addresses (R278, R325), egress rings (R344,
R345), record headers (R330), terminal statuses and the abort (R331, R346, R347). -/

namespace Sys2Proof.Machine

/-! ### Courses (R278, R279, R325) -/

/-- Lane count of group `g` of quay `q`. -/
def State.laneCount (s : State) (q g : Nat) : Nat := s.fld (key (0x2200 + q) (2 + g)) grp_lane_count

/-- Blocks per frame of group `g` of quay `q`. -/
def State.blocksPer (s : State) (q g : Nat) : Nat := s.fld (key (0x2200 + q) (2 + g)) grp_blocks_per_frame

/-- payload_q: bytes of a course's payload (R278). -/
def State.payloadBytes (s : State) (q : Nat) : Nat :=
  ((List.range 4).map (fun g => s.laneCount q g * s.blocksPer q g * 8)).sum

/-- course_size_q (R278). -/
def State.courseSize (s : State) (q : Nat) : Nat := (128 + s.payloadBytes q + 63) / 64 * 64

/-- HBM map of hub die `d`: ring_base, ring_size, replay_base, replay_size, window_base, window_size by `i`, 1 to 6. -/
def State.hbmMap (s : State) (d i : Nat) : Nat := s.ent (key (0x2770 + d) i)

/-- Capture Control and Status. -/
def kCapc : Nat := key 0x2900 1
/-- Capture Status. -/
def kCaps : Nat := key 0x2900 2

/-- A course of frame `n` goes to the spill band: single-shot, a freeze frame set, and a later frame (R325). -/
def State.spills (s : State) (n : Nat) : Bool :=
  s.flag kCapc capc_ring_mode && s.cap.frozenSeen && later n (s.fld kCaps caps_freeze_frame)

/-- Die-space address of the course of frame `n` of quay `q` (R278, R325). -/
def State.courseAddr (s : State) (q n : Nat) : Nat :=
  let b := s.hbmMap (quayDie q) 1 + s.ent (key (0x2780 + q) 1)
  let cnt := s.ent (key (0x2780 + q) 2)
  if s.spills n then b + cnt * s.courseSize q + n % max 1 (s.ent (key (0x2960 + q) 1)) * s.courseSize q
  else b + n % max 1 cnt * s.courseSize q

/-- Memory address of the course of frame `n` of quay `q`. -/
def State.coursePtr (s : State) (q n : Nat) : Nat := hbmBase (quayDie q) + s.courseAddr q n

/-- The course slot of quay `q` holds a valid header of frame `n` (R279, R328). -/
def State.headerOf (s : State) (q n : Nat) : Bool :=
  let h := readBytes s.mem (s.coursePtr q n) 128
  leNat (h.take 6) == n && leNat (h.drop 124) == crc32c (h.take 124)

/-! ### Requests and their bytes (R320, R329, R330) -/

/-- The quays of a mask, in increasing number. -/
def maskQuays (m : Nat) : List Nat := (List.range 20).filter (bit m)

/-- Fragments of a request. -/
def Req.count (r : Req) : Nat :=
  if r.origin = 2 then 1 else (r.pre + r.post + 1) * (maskQuays r.mask).length

/-- Frame and quay of fragment `k` (R329). -/
def Req.fragment (r : Req) (k : Nat) : Nat × Nat :=
  let qs := maskQuays r.mask
  ((r.frame + 2 ^ 48 + k / max 1 qs.length - r.pre) % 2 ^ 48, qs.getD (k % max 1 qs.length) 0)

/-- Bytes of an average record's fragment (R334). -/
def Req.avgBytes (r : Req) : Nat := (r.data.length + 63) / 64 * 64

/-- Bytes of the fragment bitmap (R330). -/
def Req.mapBytes (r : Req) : Nat := (r.count + 511) / 512 * 64

/-- Offset of fragment slot `k` from the record's start. -/
def State.fragOffset (s : State) (r : Req) (k : Nat) : Nat :=
  256 + r.mapBytes + ((List.range k).map (fun i => s.courseSize (r.fragment i).2)).sum

/-- record_bytes (R330). -/
def State.recordBytes (s : State) (r : Req) : Nat :=
  if r.origin = 2 then 256 + r.mapBytes + r.avgBytes else s.fragOffset r r.count

/-- Fragments whole, counted in the bitmap. -/
def popCount : Nat → Nat → Nat
  | 0, _ => 0
  | n + 1, v => v % 2 + popCount n (v / 2)

/-- The 256-byte header of a record as a number (R330). -/
def State.recordHeader (s : State) (r : Req) : Nat :=
  let v := r.seq + 2 ^ 32 * r.status + 2 ^ 34 * r.origin + (if r.short then 2 ^ 36 else 0)
    + (if r.doubt then 2 ^ 37 else 0) + (if r.retried then 2 ^ 38 else 0) + 2 ^ 39 * r.result
    + 2 ^ 48 * r.frame + 2 ^ 96 * r.accept + 2 ^ 104 * r.raw + 2 ^ 112 * r.pre + 2 ^ 120 * r.post
    + 2 ^ 128 * r.mask + 2 ^ 160 * unsignedOf 16 r.score + 2 ^ 176 * r.avgLog2 + 2 ^ 192 * s.recordBytes r
    + 2 ^ 256 * r.count + 2 ^ 288 * popCount r.count r.bits + 2 ^ 320 * t64 r.stamp + 2 ^ 384 * (r.slot % 2 ^ 32)
  v + 2 ^ 2016 * crc32c (leBytes 252 v)

/-- The header of a pad record of `n` bytes (R330). -/
def padHeader (n : Nat) : Nat :=
  let v := 2 ^ 34 * 3 + 2 ^ 192 * n
  v + 2 ^ 2016 * crc32c (leBytes 252 v)

/-! ### Egress rings (R344, R345, R463, R464) -/

/-- The ring a request goes to. -/
def State.ringOf (s : State) (link : Bool) : Ring := if link then s.cap.link else s.cap.host

/-- `s` with that ring replaced. -/
def State.setRing (s : State) (link : Bool) (g : Ring) : State :=
  if link then { s with cap := { s.cap with link := g } } else { s with cap := { s.cap with host := g } }

/-- Whether `n` bytes can be reserved now, leaving at least 64 bytes free (R344). -/
def Ring.fits (g : Ring) (n : Nat) : Bool :=
  let used := if g.size = 0 then 0 else (g.next + g.size - g.consumer) % g.size
  let tail := g.size - g.next
  if n ≤ tail then decide (used + n + 64 ≤ g.size)
  else decide (used + tail + n + 64 ≤ g.size)

/-- Offset, pad length (0 when none is written), and the ring after a reservation of `n` bytes (R344). -/
def Ring.reserve (g : Ring) (n seq id : Nat) : Nat × Nat × Ring :=
  let tail := g.size - g.next
  if n ≤ tail then
    (g.next, 0, { g with
      next := (g.next + n) % (max 1 g.size), resv := g.resv ++ [{ off := g.next, len := n, seq := some seq, id := id }] })
  else
    let pads : List Resv := if 256 ≤ tail then [{ off := g.next, len := tail, seq := none, done := true }] else []
    (0, if 256 ≤ tail then tail else 0, { g with
      next := n % (max 1 g.size), resv := g.resv ++ pads ++ [{ off := 0, len := n, seq := some seq, id := id }] })

/-- Publishes the finished reservations at the head of a ring, in order (R345): the ring and what was published. -/
def Ring.publish (g : Ring) : Ring × List Resv :=
  let go := g.resv.takeWhile (fun e => e.done)
  match go.getLast? with
  | none => (g, [])
  | some e => ({ g with resv := g.resv.drop go.length, producer := (e.off + e.len) % (max 1 g.size) }, go)

/-- Host Producer and Consumer. -/
def kHostP : Nat := key 0x2940 2
/-- The consumer. -/
def kHostC : Nat := key 0x2940 3

/-- Publishes what is finished on a ring: host_producer advances; on the link ring, records wait to be sent. -/
def State.publishRing (s : State) (link : Bool) : State :=
  let r := (s.ringOf link).publish
  if r.2.isEmpty then s
  else if link then
    s.setRing true { r.1 with unsent := r.1.unsent ++ r.2 }
  else
    let s := (s.setRing false r.1).setEnt kHostP r.1.producer
    let n := (r.2.map (fun e => e.len)).sum
    let first := match s.cap.firstUnnotified with | some c => some c | none => some s.clk
    { s with cap := { s.cap with notified := s.cap.notified + n, firstUnnotified := first } }

/-! ### The request queue (R322) -/

/-- The counter of 0x2908 with subindex `i` advances. -/
def State.capCount (s : State) (i : Nat) : State := s.bump (key 0x2908 i) cnt48

/-- queue_used and hold_capture follow the queue's length (R322). -/
def State.refreshQueue (s : State) : State :=
  let n := s.cap.reqs.length
  let s := s.setFld kCaps caps_queue_used n
  let s := if s.fld kCapc capc_queue_high ≤ n then s.setFlag kCaps caps_hold_capture true
    else if n ≤ s.fld kCapc capc_queue_low then s.setFlag kCaps caps_hold_capture false else s
  s.refreshHold

/-- Request `q` in place of the one with its record_seq. -/
def State.putReq (s : State) (r : Req) : State :=
  { s with cap := { s.cap with reqs := s.cap.reqs.map (fun x => if x.seq = r.seq then r else x) } }

/-- The request with record_seq `q`. -/
def State.findReq (s : State) (q : Nat) : Option Req := s.cap.reqs.find? (fun r => r.seq == q)

/-- `s` without request `q`. -/
def State.dropReq (s : State) (q : Nat) : State :=
  { s with cap := { s.cap with reqs := s.cap.reqs.filter (fun r => r.seq != q) } }.refreshQueue

/-- Time stamp of a request for frame `n`: global time of its arrival tag, 0 when no group of the job landed it (R330). -/
def State.frameStamp (s : State) (n : Nat) : Nat :=
  match mget none s.dec.tags n with
  | some t => t.2.2
  | none => 0

/-- A request is formed (R322, R325): refused and counted while 256 entries are occupied; else it takes the next
record_seq, and the first one after arming or rearm sets the freeze frame of a single-shot ring. A
pre-count frame before N0 makes its history short (R343), which a request without pre-count frames has not. -/
def State.formRequest (s : State) (r : Req) : State :=
  if 256 ≤ s.cap.reqs.length then s.capCount 2
  else
    let early := decide (r.origin ≠ 2) && decide (0 < r.pre) && s.job.bound &&
      decide (frameIndex s.job.n0 ((r.frame + 2 ^ 48 - r.pre) % 2 ^ 48) < 0)
    let r := { r with
      id := s.cap.nextId, seq := s.cap.nextSeq, doubt := s.flag kFlsh flsh_forcing, stamp := s.frameStamp r.frame, short := early }
    let first := s.flag kCapc capc_ring_mode && !s.cap.frozenSeen
    let s := s.capCount 1
    let s := { s with cap := { s.cap with
      reqs := s.cap.reqs ++ [r], nextId := s.cap.nextId + 1, nextSeq := (s.cap.nextSeq + 1) % 2 ^ 32, frozenSeen := s.cap.frozenSeen || first } }
    let s := if first then s.setFld kCaps caps_freeze_frame (r.frame + s.fld kCapc capc_single_post_count) else s
    s.refreshQueue

/-- DDR4 module address of a ring's offset (R344). -/
def State.ringPtr (s : State) (link : Bool) (off : Nat) : Nat := (s.ringOf link).base + off

/-- Tender Status of tender `t`. -/
def kTend (t : Nat) : Nat := key (0x27C0 + t) 1

/-- A copy of a request leaves its tender, at whose head it stands: outstanding falls, and `completed` counts when it
committed (R267, R287). -/
def State.leaveTender (s : State) (t : Nat) (ok : Bool) : State :=
  let x := mget ({} : Tender) s.tend.t t
  let s := { s with tend := { s.tend with t := mset {} s.tend.t t { x with queue := x.queue.drop 1 } } }
  let s := s.setFld (kTend t) tend_outstanding (s.fld (kTend t) tend_outstanding - 1)
  if ok then s.bump (kTend t) tend_completed else s

/-- Tender `t` is at the copy of fragment `k` of request `id`: descriptors start in intake order (R267). -/
def State.copyStarted (s : State) (id k t : Nat) : Bool :=
  match (mget ({} : Tender) s.tend.t t).queue with
  | [] => false
  | d :: _ => d.frag == some (id, k)

/-- Fragment `k` of request `id` is withdrawn from tender `t` before it starts (R347). -/
def State.withdrawFrag (s : State) (id k t : Nat) : State :=
  let x := mget ({} : Tender) s.tend.t t
  let s := { s with tend := { s.tend with
    t := mset {} s.tend.t t { x with queue := x.queue.filter (fun d => d.frag != some (id, k)) } } }
  s.setFld (kTend t) tend_outstanding (s.fld (kTend t) tend_outstanding - 1)

/-- The record of a terminal request in its ring: header and bitmap, fixed now, wait to be written and published
(R345). A frame that landed after the request was formed gives its time stamp now (R330). -/
def State.termReq (s : State) (r : Req) (st : Nat) : State :=
  let r := { r with status := st, stamp := if r.stamp = 0 then s.frameStamp r.frame else r.stamp }
  let h := s.recordHeader r
  let g := s.ringOf r.link
  let resv := g.resv.map (fun (e : Resv) =>
    if e.seq.isSome ∧ e.id = r.id then { e with term := some (h, r.bits, r.mapBytes) } else e)
  s.setRing r.link { g with resv := resv }

/-- A record reaches terminal status `st` (1 COMPLETE, 2 INCOMPLETE, 3 ABORTED): it counts, its queue entry frees, and
it is delivered (R322, R331, R345). -/
def State.finishReq (s : State) (r : Req) (st : Nat) : State :=
  ((s.termReq r st).capCount (2 + st)).dropReq r.seq

/-- The copies of a request that have started run on; the others are withdrawn (R347). -/
def State.withdrawCopies (s : State) (r : Req) : State × List (Nat × Nat) :=
  let go := r.busy.filter (fun e => s.copyStarted r.id e.1 e.2)
  ((r.busy.filter (fun e => !s.copyStarted r.id e.1 e.2)).foldl (fun (s : State) e => s.withdrawFrag r.id e.1 e.2) s, go)

/-- Aborts one request that is not terminal (R346, R347): it counts and frees its entry at once. With a reservation it
is delivered as ABORTED once every started copy has committed, until when it waits among the aborted. Without one
nothing is delivered. -/
def State.abortReq (s : State) (r : Req) : State :=
  let v := s.withdrawCopies r
  let s := (v.1.capCount 5).dropReq r.seq
  let r := { r with busy := v.2, reread := [], again := 0, stage := if r.stage = 4 ∧ !v.2.isEmpty then 4 else 6 }
  if v.2.isEmpty then (if r.offset.isSome then s.termReq r 3 else s)
  else { s with cap := { s.cap with aborted := s.cap.aborted ++ [r] } }

/-- An aborted request whose last started copy has committed: its record is delivered, if it holds a reservation. -/
def State.endAborted (s : State) (r : Req) : State :=
  let s := { s with cap := { s.cap with aborted := s.cap.aborted.filter (fun x => x.id != r.id) } }
  if r.offset.isSome then s.termReq r 3 else s

/-- An abort naming every request not terminal has its effect (R347). -/
def State.abortAll (s : State) : State := s.cap.reqs.foldl (fun s r => s.abortReq r) s

/-- The windows that their verdict dropped are freed and counted, where their schedule ends before the verdict clk
(R342). -/
def State.freeDropped (s : State) : State :=
  (s.cap.reqs.filter (fun r => r.stage == 5)).foldl (fun s r => (s.capCount 6).dropReq r.seq) s

/-- An abort registers in this clk: its effect follows as the clk ends, since a record that completes in the same clk
wins (R346). -/
def State.registerAbort (s : State) (seq : Nat) (all word : Bool) : State :=
  { s with cap := { s.cap with aborts := s.cap.aborts ++ [(seq, all, word)] } }

/-- The requests an abort names that it aborts (R346): not a window that its verdict dropped, nor one that was not
run, whose final fragment has resolved. -/
def State.abortable (s : State) (seq : Nat) (all : Bool) : List Req :=
  s.cap.reqs.filter (fun r => (all || r.seq == seq) && r.stage != 5 && !(r.stage == 4 && r.result == 3))

/-- Abort Status. -/
def kAbs : Nat := key 0x2900 5

/-- One abort has its effect (R346, R347); one through the abort word is answered, 1 ABORTED or 2 NOTHING_TO_ABORT
(R353). -/
def State.runAbort (s : State) (a : Nat × Bool × Bool) : State :=
  let l := s.abortable a.1 a.2.1
  let s := l.foldl (fun s r => s.abortReq r) s
  if a.2.2 then (s.setFld kAbs abs_record_seq a.1).setFld kAbs abs_reply (if l.isEmpty then 2 else 1) else s

/-- The aborts that registered in this clk have their effect, in order. -/
def State.runAborts (s : State) : State :=
  let l := s.cap.aborts
  l.foldl State.runAbort { s with cap := { s.cap with aborts := [] } }

/-- The request queue a loaded, restarted or resumed job starts with: empty (R347). -/
def State.emptyQueue (s : State) : State := s.freeDropped.runAborts.abortAll

end Sys2Proof.Machine
end

