-- ==== Sys2Proof/Machine/Ops.lean ====
section
/-! DEFINITION. Raising a fault of the job (R532 to R540) and the operations beside it: the location form, the
report, what stops, marking a tile for retirement. A block has no exception entry: a job fault is an effect on the
state, and the reports are told at the next tick, once every fault of the clk is known (R533, R534). -/

namespace Sys2Proof.Machine

/-- Location of kind `k` and number `n` (R537, R538). -/
def loc (k n : Nat) : Nat := 2 ^ 12 * k + n % 2 ^ 12

/-- Report of a fault: place and count within its clk, slot, periods and time stamp (R537). -/
def State.report (s : State) (f : FaultRec) (idx cnt : Nat) (virt : Bool) : Nat :=
  let c := s.clk
  f.family + 2 ^ 8 * f.cause + 2 ^ 16 * idx + 2 ^ 24 * min cnt 255 + 2 ^ 32 * f.loc + 2 ^ 48 * f.island
    + 2 ^ 64 * f.paddr + (if s.job.bound then 2 ^ 80 * s.slotAt c + 2 ^ 96 * min (s.periodsAt c) (2 ^ 32 - 1) else 0)
    + 2 ^ 128 * f.frame + 2 ^ 176 * (if virt then f.vrow else 0xFF) + 2 ^ 184 * (if virt then f.vcol else 0xFF)
    + 2 ^ 192 * t64 s.now + 2 ^ 256 * f.detail

/-- Order of reports: family, location, cause, program address (R540). -/
def FaultRec.before (a b : FaultRec) : Bool :=
  if a.family != b.family then decide (a.family < b.family)
  else if a.loc != b.loc then decide (a.loc < b.loc)
  else if a.cause != b.cause then decide (a.cause < b.cause)
  else decide (a.paddr < b.paddr)

/-- Inserts a fault among those of its clk, in the order of R540. -/
def insertFault (f : FaultRec) : List FaultRec → List FaultRec
  | [] => [f]
  | g :: gs => if f.before g then f :: g :: gs else g :: insertFault f gs

/-- Fault Status. -/
def kFst : Nat := key 0x3000 1

/-- Every fault report of the dictionary at its default (R552). -/
def State.blankReports (s : State) : State :=
  (List.range 16).foldl (fun s i => s.setEnt (key 0x3000 (0x10 + i)) (dflt s.grade s.stepping (key 0x3000 (0x10 + i)))) s

/-- The fault log holds the first 16 reports of the clk and nothing else (R540, R552). -/
def State.writeLog (s : State) : State :=
  let n := s.flt.recs.length
  let s := (s.flt.recs.take 16).zipIdx.foldl
    (fun s e => s.setEnt (key 0x3000 (0x10 + e.2)) (s.report e.1 e.2 n true)) s.blankReports
  let s := s.setFld kFst fst_report_count (min n 16)
  let s := s.setFld kFst fst_last_family (match s.flt.recs with | [] => 0 | f :: _ => f.family)
  s.setFlag kFst fst_fault_seen true

/-- The EMCY message and the recorder record of one report (R466, R562). -/
def State.tellFault (s : State) (rep : Nat) : State :=
  let s := s.emcy 1 (rep % 2 ^ 16 + 2 ^ 16 * bits rep 32 16)
  s.record 1 (rep % 2 ^ 16 + 2 ^ 16 * bits rep 32 16 + 2 ^ 32 * bits rep 64 16 + 2 ^ 48 * bits rep 80 16) rep

/-- Save Status. -/
def kSvs : Nat := key 0x2F00 4

/-- A save that is running ends failed with cause unloaded (R459). -/
def State.failSave (s : State) (cause : Nat) : State :=
  if s.fld kSvs svs_save_state = 1 then
    let s := (s.setFld kSvs svs_save_state 3).setFld kSvs svs_cause cause
    { s with job := { s.job with saving := 0 } }.raise 6
  else s

/-- Tenders withdraw every tile-issued descriptor that has not started (R533), and every window card, which has no
tile to go to (DESIGN CHOICE, log entry 49). -/
def State.withdrawTenders (s : State) : State :=
  (List.range 16).foldl (fun s k =>
    let t := mget ({} : Tender) s.tend.t k
    let forGrid := fun (d : DescRec) => d.source == 0 || d.card.isSome
    let keep := match t.queue with
      | [] => []
      | d :: ds => (if forGrid d ∧ t.i = 0 ∧ t.w = 0 then [] else [d]) ++ ds.filter (fun d => !forGrid d)
    let s := { s with tend := { s.tend with t := mset {} s.tend.t k { t with queue := keep } } }
    s.setFld (key (0x27C0 + k) 1) tend_outstanding
      (s.fld (key (0x27C0 + k) 1) tend_outstanding - (t.queue.length - keep.length))) s

/-- The grid stops: what tiles had in progress ends, and nothing is in flight in it (R533). -/
def State.stopGrid (s : State) : State :=
  let s := { s with tiles := mmap ({} : Tile) (fun t => { t with pend := [] }) s.tiles }
  let s := { s with
    net := { s.net with flights := [], regs := [], read := [], outq := [], inq := [] }
    dec := { s.dec with marks := [] } }
  s.withdrawTenders

/-- Restart Status. -/
def kRsts : Nat := key 0x3000 3

/-- A fault of the running job registers: FAULTED, doubt, abort, and the grid stops (R533). -/
def State.faultJob (s : State) (f : FaultRec) : State :=
  let j := s.job
  let s := { s with job := { j with
    wasStarted := s.flag kJob jst_started, wasPaused := s.jobState == PAUSED,
    faultClk := s.clk } }
  let s := s.registerAbort 0 true false
  let s := s.failSave 5
  let s := s.setFlag kJob jst_pause_pending false
  let s := s.setJob FAULTED
  let s := s.setDoubt 1 true
  let s := { s with flt := { clk := s.clk, active := true, recs := [f] } }
  let s := s.bump kFst fst_job_faults
  (s.setFld kRsts rsts_restart_state 1).writeLog

/-- Raises fault `f` in the present clk (R533, R534). -/
def State.fault (s : State) (f : FaultRec) : State :=
  if s.active then s.faultJob f
  else if s.jobState = FAULTED then
    if s.flt.active ∧ s.flt.clk = s.clk then
      { s with flt := { s.flt with recs := insertFault f s.flt.recs } }.writeLog
    else s.bump kFst fst_after_faults
  else (s.tellFault (s.report f 0 1 false)).setFlag kFst fst_fault_seen true

/-- A syndrome of an uncorrectable word: the spec states none, so it is free (log entry 27). -/
def State.syndrome (s : State) : Nat × State := s.fresh 8

/-- A memory fault with the address and syndrome of R539. -/
def State.memFault (s : State) (cause l addr vrow vcol : Nat) : State :=
  let y := s.syndrome
  y.2.fault { family := 9, cause := cause, loc := l, vrow := vrow, vcol := vcol, detail := addr + 2 ^ 64 * y.1 }

/-- An uncorrectable word that is only recorded (R535, R562). -/
def State.memRecord (s : State) (l addr : Nat) : State :=
  let y := s.syndrome
  y.2.record 5 l (addr + 2 ^ 64 * y.1)

/-- A job is loaded and has begun: ARMED, RUNNING, PAUSED or FAULTED; its fault conditions are faults, or count in
after_faults (R534). -/
def State.faultable (s : State) : Bool := s.active || s.jobState == FAULTED

/-- The layer totals of the dictionary take what the tiles counted (R167). -/
def State.refreshTotals (s : State) : State :=
  s.job.layerTot.foldl (fun s e => s.setEnt (key (0x2400 + e.1 / 4) (3 + e.1 % 4)) (min e.2 (2 ^ 48 - 1))) s

/-- After the fault clk: the grid stops, and its reports are told by vector 1, one EMCY message and one record each
(R533). -/
def State.tellFaults (s : State) : State :=
  if s.flt.active then
    let n := s.flt.recs.length
    let s := s.stopGrid.refreshTotals.raise 1
    let s := (List.range (min n 16)).foldl (fun s i => s.tellFault (s.ent (key 0x3000 (0x10 + i)))) s
    { s with flt := { s.flt with active := false } }
  else s

/-- A fault located at physical tile `p` with its virtual place (R537). -/
def State.tileFault (s : State) (fam cause p paddr detail : Nat) : State :=
  s.fault { family := fam, cause := cause, loc := loc 1 p, paddr := paddr, vrow := s.vrow p, vcol := s.vcol p,
            detail := detail }

/-- Number of a table in the lists of patrols: `kind` 0 program memory and 1 tide table of a tile, 2 table of an eaves
port. -/
def tabKey (kind unit : Nat) : Nat := 128 * (kind + 1) + unit

/-- Entry `i` of a table is known to be uncorrectable (R535). -/
def State.tabBad (s : State) (kind unit i : Nat) : Bool := s.tend.badTabs.contains (tabKey kind unit, i)

/-- Window Slots. -/
def kWslot : Nat := key 0x2900 6

/-- Row Spare Status. -/
def kSpr (r : Nat) : Nat := key (0x3010 + r) 1

/-- The retired column of row `r` changes: retired_ok speaks of the tile retired now, which has passed no self-test as
such (R546, R556). -/
def State.newRetired (s : State) (r : Nat) : State :=
  { s with tele := { s.tele with streak := s.tele.streak.filter (fun e => e.1 / 13 != r) } }.setFlag (kSpr r) spr_retired_ok false

/-- Marks physical tile `p` for retirement at the next load, unless its row has a retired or marked tile
(R188, R200). DESIGN CHOICE (log entry 78): of two tiles of a row that are warned, the first keeps the mark. -/
def State.markRetire (s : State) (p : Nat) : State :=
  let k := key (0x2608 + p / 13) 1
  if s.fld k row_retired_column = 15 ∧ ¬ s.flag k row_retire_pending then
    (s.setFlag k row_retire_pending true).setFld k row_pending_column (p % 13)
  else s

end Sys2Proof.Machine
end

