-- ==== Sys2Proof/Machine/Operands.lean ====
section
/-! DEFINITION. Operands of tile instructions: registers, SRAM with its allocation checks (R258, R260), port words
(R173, R214), code rows (R140), scale buffers (R160, R161), and the images of scale blocks (R158, R159, R240). -/

namespace Sys2Proof.Machine

/-! ### Registers (R205, R233) -/

/-- The 32 bits of s register `r`; s0 reads 0. -/
def Tile.sreg (t : Tile) (r : Nat) : Nat := if r = 0 then 0 else mget 0 t.s r % 2 ^ 32

/-- `t` with s register `r` written; a write to s0 is discarded. -/
def Tile.setS (t : Tile) (r v : Nat) : Tile := if r = 0 then t else { t with s := mset 0 t.s r (v % 2 ^ 32) }

/-- The 25 bits of p register `r`. -/
def Tile.preg (t : Tile) (r : Nat) : Nat := mget 0 t.p r % 2 ^ 25

/-- `t` with p register `r` written. -/
def Tile.setP (t : Tile) (r v : Nat) : Tile := { t with p := mset 0 t.p r (v % 2 ^ 25) }

/-- Predicate flag `r`; pf0 reads 1. -/
def Tile.flag (t : Tile) (r : Nat) : Bool := if r = 0 then true else mget false t.pf r

/-- `t` with predicate flag `r` written; a write to pf0 is discarded. -/
def Tile.setF (t : Tile) (r : Nat) (v : Bool) : Tile := if r = 0 then t else { t with pf := mset false t.pf r v }

/-- Accumulator file `f`. -/
def Tile.file (t : Tile) (f : Nat) : AFile := mget {} t.a f

/-- `t` with accumulator file `f` replaced. -/
def Tile.setFile (t : Tile) (f : Nat) (a : AFile) : Tile := { t with a := mset {} t.a f a }

/-- A weight lane with every code and its zero point 0. -/
def zeroLane : WLane := { codes := List.replicate 32 0, zw := 0 }

/-- Weight bank `b`. -/
def Tile.bankOf (t : Tile) (b : Nat) : SMap WLane := if b = 0 then t.w0 else t.w1

/-- `t` with weight bank `b` replaced. -/
def Tile.setBank (t : Tile) (b : Nat) (w : SMap WLane) : Tile :=
  if b = 0 then { t with w0 := w } else { t with w1 := w }

/-- Scale buffer SB[b]. -/
def Tile.sb (t : Tile) (b : Nat) : SBuf := if b = 0 then t.sb0 else t.sb1

/-- `t` with SB[b] replaced. -/
def Tile.setSb (t : Tile) (b : Nat) (x : SBuf) : Tile := if b = 0 then { t with sb0 := x } else { t with sb1 := x }

/-- Entry `i` of lookup table `k`. -/
def Tile.lut (t : Tile) (k i : Nat) : Nat := mget 0 t.luts (256 * k + i)

/-! ### Scale buffers (R160, R161) -/

/-- An entry of a block that has not been written. -/
def noEnt : SEnt := { mant := 0, off := 0, zero := false }

/-- Entry of slot `i`. -/
def SBuf.ent (b : SBuf) (i : Nat) : SEnt := mget noEnt b.ents i

/-- Slot `i` is written. -/
def SBuf.has (b : SBuf) (i : Nat) : Bool := mget false b.written i

/-- tag(buf, slot) of R161. -/
def SBuf.tagOf (b : SBuf) (i : Nat) : Nat := b.tag / 4096 * 4096 + (b.tag + i) % 4096

/-- The tag that a phase register and a position form (R215, R222, R243). -/
def Tile.tagFrom (t : Tile) (phase pos : Nat) : Nat := t.sreg phase % 16 * 4096 + pos % 4096

/-- Stored exponent of slot `i`. -/
def SBuf.expOf (b : SBuf) (i : Nat) : Int := b.bexp.getD 0 - Int.ofNat (b.ent i).off

/-- The 16-bit entry word (R159). -/
def SEnt.word (e : SEnt) : Nat := e.mant + 2 ^ 8 * e.off + (if e.zero then 2 ^ 11 else 0)

/-- The entry a 16-bit word holds; its spare bits are ignored. -/
def entOf (w : Nat) : SEnt := { mant := w % 256, off := bits w 8 3, zero := bit w 11 }

/-- The header word (R158); an unset block exponent is written 0 (R243). -/
def SBuf.header (b : SBuf) : Nat :=
  unsignedOf 6 (b.bexp.getD 0) + 2 ^ 8 * b.tag + 2 ^ 24 * b.count + (if b.clamped then 2 ^ 30 else 0)

/-- The 68-byte image of a block (R158). -/
def SBuf.image (b : SBuf) : List Nat :=
  leBytes 4 b.header ++ (List.range 32).flatMap (fun i =>
    leBytes 2 (if i < b.count then (b.ent i).word else 0))

/-- Some slot below row_count is unwritten. -/
def SBuf.unwritten (b : SBuf) : Option Nat := (List.range b.count).find? (fun i => !b.has i)

/-- The write that an image of 68 bytes makes to SB[b] (R243). -/
def sbLoadOf (b : Nat) (img : List Nat) : Act :=
  let h := leNat (img.take 4)
  .sbLoad b (bits h 8 16) (bits h 24 6) (signed 6 h) (bit h 30)
    ((List.range (bits h 24 6)).map (fun i => entOf (leNat ((img.drop (4 + 2 * i)).take 2))))

/-! ### SRAM (R256, R258, R260) -/

/-- Region entry `i` of tile `p`. -/
def State.region (s : State) (p i : Nat) : Nat := s.ent (key (0x2700 + p) (0x10 + i))

/-- The used region of tile `p` that holds SRAM row `row`. -/
def State.regionAt (s : State) (p row : Nat) : Option Nat :=
  ((List.range 64).map (s.region p)).find? (fun r =>
    reg_size.of r != 0 && decide (reg_base.of r ≤ row) && decide (row < reg_base.of r + reg_size.of r))

/-- The first failing byte of an access to bytes `a` to `a + n - 1`, with its allocation cause (R260). Each turn
passes one region; 65 turns pass every region. -/
def State.allocGo (s : State) (p : Nat) (wr : Bool) : Nat → Nat → Nat → Option (Nat × Nat)
  | 0, a, n => if n = 0 then none else some (1, a)
  | k + 1, a, n =>
    if n = 0 then none
    else if 0x1800000 ≤ a then some (1, a)
    else match s.regionAt p (a / 64) with
      | none => some (1, a)
      | some r =>
        if wr && reg_iw.of r = 0 then some (3, a)
        else if !wr && reg_ir.of r = 0 then some (2, a)
        else
          let last := (reg_base.of r + reg_size.of r) * 64
          s.allocGo p wr k last (a + n - last)

/-- The first uncorrectable word among those of the bytes `a` to `a + n - 1` (R261, R535): a failing access like one
of R260, with cause 8 and the word's first byte. -/
def State.badRead (s : State) (p a n : Nat) : Option (Nat × Nat) :=
  match (mget [] s.tend.badWords p).filter (fun w => decide (a < 8 * w + 8) && decide (8 * w < a + n)) with
  | [] => none
  | w :: ws => some (8, 8 * ws.foldl min w)

/-- The words that a write of the bytes `a` to `a + n - 1` of tile `p` replaces whole carry fresh check bits (R261). -/
def State.freshWords (s : State) (p a n : Nat) : State :=
  if (mget [] s.tend.badWords p).isEmpty then s
  else
    let left := (mget [] s.tend.badWords p).filter (fun w => !(decide (a ≤ 8 * w) && decide (8 * w + 8 ≤ a + n)))
    { s with tend := { s.tend with badWords := mset [] s.tend.badWords p left } }

/-- The allocation check of R210: accesses as (address, bytes, write), in order; the first that fails, or else the
first read that meets an uncorrectable word. -/
def State.alloc (s : State) (p : Nat) (acc : List (Nat × Nat × Bool)) : Option (Nat × Nat) :=
  match acc.findSome? (fun x => s.allocGo p x.2.2 65 x.1 x.2.1) with
  | some e => some e
  | none => acc.findSome? (fun x => if x.2.2 then none else s.badRead p x.1 x.2.1)

/-- When the bytes of an access are reached: `at_` clk after the issue its first, `per` bytes in a clk (0: all in that
one). -/
structure Reach where
  at_ : Nat
  per : Nat

/-- The clk after the issue in which an access that begins at byte `a` reaches byte `b`. -/
def Reach.clkOf (r : Reach) (a b : Nat) : Nat := r.at_ + if r.per = 0 then 0 else (b - a) / r.per

/-- The failures of accesses, each with its clk after the issue, its cause and its byte (R210, R260, R261). -/
def State.failures (s : State) (p : Nat) (acc : List ((Nat × Nat × Bool) × Reach)) : List (Nat × Nat × Nat) :=
  acc.flatMap (fun x =>
    let when_ := fun (e : Nat × Nat) => (x.2.clkOf x.1.1 e.2, e.1, e.2)
    ((s.allocGo p x.1.2.2 65 x.1.1 x.1.2.1).toList ++ (if x.1.2.2 then [] else (s.badRead p x.1.1 x.1.2.1).toList)).map when_)

/-- The first failure in time; of one clk, the one of the first access. -/
def firstFailure (l : List (Nat × Nat × Nat)) : Option (Nat × Nat × Nat) := l.find? (fun e => l.all (fun f => decide (e.1 ≤ f.1)))

/-- `n` bytes of tile `p`'s SRAM. -/
def State.sram (s : State) (p a n : Nat) : List Nat := readBytes s.mem (sramBase p + a) n

/-! ### Code rows (R140) -/

/-- Bytes that `n` codes of a format fill. -/
def rowBytes (fmt n : Nat) : Nat := n * fmtBits fmt / 8

/-- Stored bits of codes `lo` to `lo + n - 1` of a row at `a`. -/
def State.rowCodes (s : State) (p a fmt lo n : Nat) : List Nat :=
  if fmtK4 fmt then (s.sram p (a + lo / 2) (n / 2)).flatMap (fun b => [b % 16, b / 16])
  else if fmt = 4 then (List.range n).map (fun i => leNat (s.sram p (a + 2 * (lo + i)) 2))
  else s.sram p (a + lo) n

/-- Pairs of 4-bit codes as bytes. -/
def packPairs : List Nat → List Nat
  | a :: b :: r => (a % 16 + 16 * (b % 16)) :: packPairs r
  | [a] => [a % 16]
  | [] => []

/-- The bytes of codes given by their stored bits (R140). -/
def packCodes (fmt : Nat) (cs : List Nat) : List Nat :=
  if fmtK4 fmt then packPairs cs else if fmt = 4 then cs.flatMap (leBytes 2) else cs

/-! ### Port registers (R171 to R174) -/

/-- Register key of tile `p`'s port `k` (see Net). -/
def regKey (p k : Nat) : Nat := 16 * p + k

/-- The token in register `r` in this clk. -/
def State.reg (s : State) (r : Nat) : Option Token := mget none s.net.regs r

/-- Register `r` is read in this clk (R174). -/
def State.markRead (s : State) (r : Nat) : State := { s with net := { s.net with read := r :: s.net.read } }

/-- A 32-byte slice of a port word (R214). -/
def sliceOf (word k : Nat) : List Nat := leBytes 32 (word / 2 ^ (256 * k))

/-- Timing Status of tile `p`. -/
def kTstat (p : Nat) : Nat := key (0x2610 + p) 1

/-- empty_receive at tile `p`: a read of a register that holds an empty token (R181). `port` is the crossing class of
R197 for a rafter input; DESIGN CHOICE (log entry 72): 4 for the tide receive register, for which R539 gives no port
code. -/
def State.emptyReceive (s : State) (p paddr port : Nat) : State :=
  (s.setFlag (kTstat p) tstat_collision_seen true).tileFault 1 2 p paddr port

end Sys2Proof.Machine
end

