-- ==== Sys2Proof/WellFormed.lean ====
section
/-! DEFINITION. Well-formed commands: a tile instruction whose fields are in the ranges of its field map and break no
rule that calls the word invalid (R202 to R255: such a word is found at load and never issues), and any other command
whose operands name a unit of the larger grade. -/

namespace Sys2Proof

/-- Tile number, predicate flag. -/
def Iss.wf (t : Iss) : Bool := decide (t.tile < 104) && decide (t.pred < 8)

/-- A control word may not be predicated (R244). -/
def Iss.bare (t : Iss) : Bool := t.wf && t.pred == 0 && !t.neg

/-- Slice of a port source (R214): 0 to 1 of the tide word, 0 to 15 of a rafter word; reserved otherwise. -/
def sliceWf (src slice : Nat) : Bool :=
  decide (slice < (if src = 2 then 2 else if 3 ≤ src then 16 else 1))

/-- MAC and CMAC (R214): reserved fields of the chosen source are 0. -/
def MacOps.wf (o : MacOps) : Bool :=
  decide (o.dest < 4) && decide (o.zx < 256) && decide (o.src < 5) && sliceWf o.src o.slice &&
    (if o.src = 1 then decide (o.ptr < 16) else o.ptr == 0 && !o.postInc)

/-- An operand of AADD or AMAX (R226). -/
def AlnOp.wf (o : AlnOp) : Bool :=
  if o.row then
    decide (o.ptr < 16) && decide (o.buf < 2) && decide (o.slot < 32) && decide (o.fmt < 4) && decide (o.zp < 256) &&
      (decide (o.fmt ≠ 2) || decide (o.zp < 16)) && o.file == 0
  else decide (o.file < 4) && o.ptr == 0 && o.buf == 0 && o.slot == 0 && o.fmt == 0 && o.zp == 0

/-- A format is 4 bits wide in LUT (R225). -/
def sameWidth (a b : Nat) : Bool := decide (a < 4) && decide (b < 4) && (decide (a < 2) == decide (b < 2))

/-- A summary's fields (R380). -/
def Summ.wf (m : Summ) : Bool :=
  decide (m.frame < 2 ^ 48) && decide (m.accept < 256) && decide (m.raw < 256) && decide (m.module < 2 ^ 13) &&
    decide (m.excluded < 2 ^ 16) && decide (m.included < 2 ^ 16) && decide (m.tail < 2 ^ 64)

/-- Engine and channel, or engine and lane: twenty quays and four link engines, 32 each. -/
def laneWf (e n : Nat) : Bool := decide (e < 24) && decide (n < 32)

/-- Engine and channel: 34 channels each. -/
def chanWf (e c : Nat) : Bool := decide (e < 24) && decide (c < 34)

/-- A control block's payload of an unlisted type, or with a reserved bit set (R80 to R86, R379 to R381). The valid blocks that open and
close messages, words and records come with the commands of those. -/
def controlInvalid (e w : Nat) : Bool :=
  match w % 256 with
  | 0x1E => w / 2 ^ 8 != 0
  | 0x4B => decide (20 ≤ e)
  | 0x55 => decide (20 ≤ e) || w / 2 ^ 32 != 0
  | 0x66 => w / 2 ^ 20 != 0
  | 0x78 => w / 2 ^ 36 != 0
  | 0x2D => decide (e < 20) || w / 2 ^ 60 != 0
  | 0x33 => decide (e < 20) || w / 2 ^ 32 != 0
  | 0x87 => decide (e < 20) || w / 2 ^ 53 != 0
  | 0x99 => decide (e < 20) || w / 2 ^ 40 != 0
  | _ => true

/-- An access: index, subindex, and a value of the length given. -/
def accessWf (i u len v : Nat) : Bool := decide (i < 2 ^ 16) && decide (u < 256) && decide (v < 2 ^ (8 * len))

/-- A path: one of 64 slots. -/
def Path.wf : Path → Bool
  | .slot n => decide (n < 64)
  | _ => true

/-- Scalar operands. -/
def threeS (t : Iss) (a b c : Nat) : Bool := t.wf && decide (a < 32) && decide (b < 32) && decide (c < 32)

/-- The command is one the table's row admits. -/
def Instr.wf : Instr → Bool
  | .xld t src ptr inc slice offset =>
    t.wf && decide (1 ≤ src) && decide (src < 5) && sliceWf src slice &&
      (if src = 1 then decide (ptr < 16) && decide (offset < 2 ^ 16) else ptr == 0 && !inc && offset == 0)
  | .wld t ptr lb cm z zw =>
    t.wf && decide (ptr < 16) && decide (32 * (lb + cm + 1) ≤ 1024) && decide (zw < 256) && (!z || zw == 0)
  | .wswp t => t.wf
  | .mac t o => t.wf && o.wf
  | .cmac t o ph pos => t.wf && o.wf && decide (ph < 32) && decide (pos < 4096)
  | .bias t f n p => t.wf && decide (f < 4) && decide (n < 32) && decide (p < 16)
  | .scan t f n d => t.wf && decide (f < 4) && decide (n < 32) && decide (d < 32)
  | .sbtrk t b p e k f =>
    t.wf && decide (b < 2) && decide (p < 16) && decide (-64 ≤ e) && decide (e < 64) && decide (k < 8) &&
      decide (f < 256)
  | .sbopn t o =>
    t.wf && decide (o.buf < 2) && decide (o.src < 3) && decide (o.countM < 32) && decide (o.h < 8) &&
      decide (1 ≤ o.target) && decide (o.target < 2 ^ 15) && decide (o.layer < 256) && decide (o.position < 4096) &&
      decide (o.phaseReg < 32)
  | .rq t o =>
    t.wf && decide (o.file < 4) && decide (o.nM < 32) && decide (o.ptr < 16) && decide (o.dbuf < 2) &&
      decide (o.dslot < 32) && decide (o.inSlot < 32) && (!o.inUnit || o.inSlot == 0) && decide (o.mK < 256) &&
      decide (-64 ≤ o.eK) && decide (o.eK < 64) && decide (o.fmt < 5) && decide (o.zp < 256) &&
      (decide (o.fmt ≠ 2) || decide (o.zp < 16)) && decide (o.lut < 4) && (o.lutEn || o.lut == 0) &&
      !(o.lutEn && o.fmt == 4)
  | .ltld t k p => t.wf && decide (k < 4) && decide (p < 16)
  | .lut t s d n k i o =>
    t.wf && decide (s < 16) && decide (d < 16) && decide (n < 32) && decide (k < 4) && sameWidth i o
  | .aadd t d n x y => t.wf && decide (d < 4) && decide (n < 32) && x.wf && y.wf
  | .amax t d n x y => t.wf && decide (d < 4) && decide (n < 32) && x.wf && y.wf
  | .gath t s i d n ns f z =>
    t.wf && decide (s < 16) && decide (i < 16) && decide (d < 16) && decide (n < 32) && decide (ns < 32) &&
      decide (f < 4) && decide (z < 256) && (decide (f ≠ 2) || decide (z < 16))
  | .pad t n => t.bare && decide (n < 2 ^ 20)
  | .fwait t o => t.bare && decide (o < 2 ^ 11)
  | .loop t c l => t.bare && decide (c < 2 ^ 12) && decide (l < 2 ^ 14)
  | .halt t => t.bare
  | .fsel t lag w sd pd =>
    t.wf && decide (lag < 256) && decide (sd < 32) && (w || sd == 0) && decide (pd < 8)
  | .mark t o =>
    t.wf && decide (o.src < 2) && decide (o.fmt < 3) && decide (o.score < 1024) && decide (o.zp < 256) &&
      (if o.src = 0 then decide (o.ptr < 16) && decide (o.offset < 2 ^ 16) && o.sreg == 0
       else o.ptr == 0 && o.offset == 0 && decide (o.sreg < 32) && o.fmt == 2)
  | .mchk t c _ => t.wf && decide (c < 32)
  | .add t a b c => threeS t a b c
  | .sub t a b c => threeS t a b c
  | .andR t a b c => threeS t a b c
  | .orR t a b c => threeS t a b c
  | .xorR t a b c => threeS t a b c
  | .shl t a b c => threeS t a b c
  | .shr t a b c => threeS t a b c
  | .sra t a b c => threeS t a b c
  | .addi t a b i => threeS t a b 0 && decide (i < 2 ^ 32)
  | .movi t a i => threeS t a 0 0 && decide (i < 2 ^ 32)
  | .cmp t p c a b => threeS t a b 0 && decide (p < 8) && decide (c < 6)
  | .cmpi t p c a i => threeS t a 0 0 && decide (p < 8) && decide (c < 6) && decide (i < 2 ^ 32)
  | .pfop t a b c o => t.wf && decide (a < 8) && decide (b < 8) && decide (c < 8) && decide (o < 4)
  | .pset t p i => t.wf && decide (p < 16) && decide (i < 2 ^ 25)
  | .padd t d a u b i =>
    t.wf && decide (d < 16) && decide (a < 16) && decide (b < 32) && decide (i < 2 ^ 25) &&
      (if u then i == 0 else b == 0)
  | .pmov t _ r p => t.wf && decide (r < 32) && decide (p < 16)
  | .sld t r p o => t.wf && decide (r < 32) && decide (p < 16) && decide (o < 2 ^ 16)
  | .sst t r p o => t.wf && decide (r < 32) && decide (p < 16) && decide (o < 2 ^ 16)
  | .rsnd t d p l _ => t.wf && decide (d < 2) && decide (p < 16) && decide (l < 8)
  | .rrcv t d p l _ => t.wf && decide (d < 2) && decide (p < 16) && decide (l < 8)
  | .srcv t d p l _ te sd pd =>
    t.wf && decide (d < 2) && decide (p < 16) && decide (l < 8) && decide (sd < 32) && decide (pd < 8) &&
      (te || (sd == 0 && pd == 0))
  | .tsnd t p _ => t.wf && decide (p < 16)
  | .trcv t p _ => t.wf && decide (p < 16)
  | .tdi t p _ => t.wf && decide (p < 16)
  | .slld t b p ph pos => t.wf && decide (b < 2) && decide (p < 16) && decide (ph < 32) && decide (pos < 4096)
  | .slst t b p => t.wf && decide (b < 2) && decide (p < 16)
  | .slsnd t b p => t.wf && decide (b < 2) && decide (p < 3)
  | .slrcv t b p ph pos => t.wf && decide (b < 2) && decide (p < 3) && decide (ph < 32) && decide (pos < 4096)
  | .tideSlot => true
  | .crossingComplete i x _ _ => decide (i < 127) && decide (x.cls < 8) && decide (x.sender < 127)
  | .eavesSlot k => decide (k < 40)
  | .eavesInboundWord k => decide (k < 40)
  | .descriptorIntake d src x => decide (d < 2) && decide (src < 3) && decide (x < 2 ^ 512)
  | .tenderWord t _ => decide (t < 16)
  | .tenderCopyDone t => decide (t < 16)
  | .tenderDataWord p => decide (p < 104)
  | .completionDelivery d => decide (d < 2)
  | .signalDetectChange e c _ => chanWf e c
  | .dataBlock e n p => laneWf e n && decide (p < 2 ^ 64)
  | .damagedBlock l p => laneWf l.e l.n && decide (p < 2 ^ 64)
  | .invalidControlBlock l p => laneWf l.e l.n && decide (p < 2 ^ 64) && controlInvalid l.e p
  | .idleBlock e n => laneWf e n
  | .frameOpen q n f g => laneWf q n && decide (q < 20) && decide (f < 2 ^ 48) && decide (g < 256)
  | .frameClose q n c => laneWf q n && decide (q < 20) && decide (c < 2 ^ 24)
  | .laneMarker e n i => laneWf e n && decide (i < 2 ^ 12)
  | .trainingBlock e n p => laneWf e n && decide (p < 2 ^ 36) && decide (p % 256 = 0x78)
  | .markerMissed e n => laneWf e n
  | .skewOverrun q g => decide (q < 20) && decide (g < 4)
  | .blockLockSet e c => chanWf e c
  | .blockLockLoss e c _ => chanWf e c
  | .relockDone e c _ => chanWf e c
  | .blockLockSearchStep e c _ => chanWf e c
  | .dfeUpdate e c _ x => chanWf e c && decide (x.syms.length ≤ 12)
  | .fomMeasure e c u l => chanWf e c && decide (u.length = l.length) && decide (1 ≤ u.length)
  | .ctleTrack e c f => chanWf e c && decide (f < 256)
  | .startBringup e c => chanWf e c
  | .bringupStepDone g _ => decide (g < 24 * 32)
  | .bringupStateOverrun g => decide (g < 24 * 32)
  | .bringupTimeout g => decide (g < 24 * 32)
  | .powerStateWrite e c v => chanWf e c && decide (v < 4)
  | .powerStateReached e c => chanWf e c
  | .slipWrite e c v => chanWf e c && decide (v < 128)
  | .laneMapWrite e _ n c => laneWf e n && decide (c < 256)
  | .scheduleBind => true
  | .slotRelease q => decide (q < 20)
  | .replayCourseRead q => decide (q < 20)
  | .courseHeaderWrite q f => decide (q < 20) && decide (f < 2 ^ 48)
  | .calWindowClose l k => decide (l < 256) && decide (1 ≤ k) && decide (k < 4)
  | .calibrationEvent => true
  | .layerTotalsRefresh => true
  | .markArrival p => decide (p < 104)
  | .ridgeEvaluate => true
  | .pinRelease => true
  | .acceptPulseEnd o => decide (o < 12)
  | .menuCheck _ => true
  | .doubtRegister k => decide (k < 8)
  | .releaseHoldEnd => true
  | .holdoffRelease => true
  | .hostCapture f a b m d =>
    decide (f < 2 ^ 48) && decide (a < 256) && decide (b < 256) && decide (m < 2 ^ 20) && decide (d < 2)
  | .requestStart => true
  | .fragmentCopyDone _ _ _ => true
  | .fragmentRereadDone _ _ => true
  | .fragmentTimeout _ _ => true
  | .recordPublish _ => true
  | .hostRingNotify => true
  | .linkEgressRecord => true
  | .windowSlotBind => true
  | .verdictMark p => decide (p < 104)
  | .verdictDeadline _ => true
  | .windowCopyDone _ => true
  | .captureAbort q _ => decide (q < 2 ^ 32)
  | .rearm => true
  | .hostConsumerWrite v => decide (v < 2 ^ 64)
  | .berthCalibrationEnd => true
  | .calibrationReport k a b _ _ _ => decide (k < 32) && decide (a < 1024) && decide (b < 1024)
  | .berthReportFramesEnd => true
  | .summaryMessage k m => decide (k < 32) && m.wf
  | .berthCombineClose => true
  | .berthWordSend p => decide (p < 40)
  | .berthWord k w _ => decide (k < 32) && decide (w < 2 ^ 512)
  | .berthWordDelivery k => decide (k < 32)
  | .relayMessage m k => m.wf && decide (k < 16)
  | .uplinkSummary m k _ => m.wf && decide (k < 16)
  | .jettyCombineClose => true
  | .harbourCombineClose => true
  | .harbourCombine m => m.wf
  | .harbourCalibrationEnd => true
  | .mainIncrementWrite v => decide (v < 2 ^ 64)
  | .mainTime v => decide (v < 2 ^ 128)
  | .timeAdjust v => decide (-(2 ^ 31) ≤ v) && decide (v < 2 ^ 31)
  | .fallbackCommit => true
  | .fallbackRefit => true
  | .clockFault i c => decide (i < 127) && decide (1 ≤ c) && decide (c ≤ 3)
  | .ptpFrameForward p _ => decide (p < 2)
  | .ptpAnnounce d p m _ u =>
    decide (d < 2) && decide (p < 2) && decide (m < 2 ^ 64) && decide (-(2 ^ 15) ≤ u) && decide (u < 2 ^ 15)
  | .delayReqSend d => decide (d < 2)
  | .ptpExchange d _ _ n g => decide (d < 2) && decide (n < 2 ^ 16) && decide (-128 ≤ g) && decide (g < 128)
  | .domainTimeout d => decide (d < 2)
  | .holdoverExpiry => true
  | .serveSync p => decide (p < 2)
  | .serveAnnounce p => decide (p < 2)
  | .serveDelayResp p i => decide (p < 2) && decide (i < 2 ^ 16)
  | .txStamp p y i x => decide (p < 2) && decide (y < 2) && decide (i < 2 ^ 16) && decide (x < 2 ^ 128)
  | .trigEdge i _ b => decide (i < 16) && decide (b < 103)
  | .timelineRelease => true
  | .timelineConsumerWrite v => decide (v < 2 ^ 32)
  | .load => true
  | .unload => true
  | .arm => true
  | .disarm => true
  | .start => true
  | .pause => true
  | .pauseTakesEffect => true
  | .resume => true
  | .resumeTakesEffect => true
  | .save => true
  | .savePark => true
  | .saveCopyDone c => decide (c < 16)
  | .restore => true
  | .restart => true
  | .berthRestartFrame => true
  | .usdoDownload i u n v => accessWf i u n v
  | .usdoUpload i u => accessWf i u 0 0
  | .nmtStart => true
  | .nmtStop => true
  | .nmtPreOperational => true
  | .nmtResetCommunication => true
  | .nmtResetNode => true
  | .classicalFrame => true
  | .heartbeat => true
  | .emcyTransmit => true
  | .slotAccess x i u _ _ n v => decide (x < 64) && decide (n < 128) && accessWf i u 64 v
  | .hotRegisterWrite o v => decide (o < 2 ^ 24) && decide (v < 2 ^ 64)
  | .featureLatch d => decide (d < 2 ^ 64)
  | .bar2Write o b => decide (o + b.length ≤ 2 ^ 36)
  | .storeParameters k _ => decide (k < 2 ^ 32)
  | .restoreDefaultParameters k => decide (k < 2 ^ 32)
  | .registerWrite p i u n v => p.wf && accessWf i u n v
  | .powerOnReset => true
  | .resetN => true
  | .resetNRelease => true
  | .watchdogExpiry => true
  | .softwareReset k => decide (k < 2 ^ 32)
  | .perstAssert => true
  | .blockReset k n => decide (k < 8) && decide (n < 128)
  | .blockResetRelease => true
  | .trimAttemptDone _ => true
  | .startupStepDone _ _ h d => decide (h < 2 ^ 10) && decide (d < 2 ^ 12)
  | .pllRetry _ => true
  | .bootGo b _ => decide (b < 2 ^ 24)
  | .ddrReady => true
  | .supplyDoubt r v => decide (r < 5) && decide (v < 2 ^ 32)
  | .supplyDoubtClear => true
  | .telemetrySample l r p =>
    l.all (fun e => decide (e.1 / 4096 < 7) && decide (-(2 ^ 31) ≤ e.2) && decide (e.2 < 2 ^ 31)) &&
      r.all (fun e => decide (e.1 < 5) && decide (e.2.1 < 2 ^ 32) && decide (e.2.2 < 2 ^ 32)) && decide (p < 2 ^ 32)
  | .sramPatrol p r c u => decide (p < 104) && decide (r < 393216) && decide (c + u ≤ 8)
  | .tablePatrol k u i c x =>
    decide (k < 3) && decide (u < if k = 2 then 40 else 104) && decide (i < if k = 0 then 16384 else 65536) && !(c && x)
  | .memoryPatrol k u _ _ _ => decide (u < if k = 0 then 10 else 12) && decide (k < 2)
  | .spareSelfTest p _ => decide (p < 104)
  | .laserWearSample b s _ _ => decide (b < 48) && decide (s < 3)
  | .laserSwapDone b _ => decide (b < 48)
  | .recorderOperation => true
  | .summaryInterval => true
  | .recorderSlot p k => p.wf && decide (k < 2 ^ 16)
  | .firmwareBegin => true
  | .firmwareData v => decide (v < 2 ^ 512)
  | .firmwareGo t => decide (t < 2)
  | .firmwareWriteDone => true
  | .messageBegin => true
  | .messageData v => decide (v < 2 ^ 512)
  | .keyInstall => true
  | .keyRevoke => true
  | .imageFloor => true
  | .firmwareFloor => true
  | .debugOpen => true
  | .debugClose => true
  | .attestationGo => true
  | .attestationReady => true
  | .mainClockTick => true
  | .powerOnResetRelease => true
  | .perstRelease => true
  | .ptpLinkChange p _ => decide (p < 2)
  | .unitOutOfService k n => decide (n < if k = 0 then 10 else 12) && decide (k < 2)
  | .islandGeneratorLocked i => decide (i < 127)
  | .restoreDone c => decide (c < 16)
  | .hotRefusalRead => true

end Sys2Proof
end

