-- ==== Sys2Proof/Machine/Words.lean ====
section
/-! DEFINITION. The words of tile programs (R202 to R252): what instruction a 64-bit word is, and the word of an
instruction, both from the field maps. Bits a form does not use read as 0: a word with such a bit set is refused at
load (R254). -/

namespace Sys2Proof.Machine

/-- Opcode of a word (R202). -/
def opcodeOf (w : Nat) : Nat := bits w 56 8

/-- The fields of MAC and CMAC under their activation source (R214). -/
def macOps (w : Nat) : MacOps :=
  let src := bits w 36 3
  { dest := bits w 50 2
    k4 := bit w 49
    xSigned := bit w 48
    wSigned := bit w 47
    zx := bits w 39 8
    src := src
    ptr := if src = 1 then bits w 32 4 else 0
    postInc := src == 1 && bit w 31
    slice := if 2 ≤ src then bits w 27 4 else 0 }

/-- An operand field of AADD and AMAX (R226). -/
def alnOp (o : Nat) : AlnOp :=
  if bit o 20 then
    { row := true, file := 0, ptr := bits o 16 4, buf := bits o 15 1, slot := bits o 10 5, fmt := bits o 8 2,
      zp := bits o 0 8 }
  else { row := false, file := bits o 18 2, ptr := 0, buf := 0, slot := 0, fmt := 0, zp := 0 }

/-- The instruction of a control or scalar word (R233 to R235, R244 to R252). -/
def controlWord (t : Iss) (w : Nat) : Option Instr :=
  let f := bits w
  let three := fun (c : Iss → Nat → Nat → Nat → Instr) => some (c t (f 47 5) (f 42 5) (f 37 5))
  match opcodeOf w with
  | 0x01 => some (.pad t (f 32 20))
  | 0x02 => some (.fwait t (f 41 11))
  | 0x03 => some (.loop t (f 40 12) (f 26 14))
  | 0x04 => some (.halt t)
  | 0x05 => some (.fsel t (f 44 8) (bit w 43) (if bit w 43 then f 38 5 else 0) (f 35 3))
  | 0x06 =>
    some (.mark t
      { src := f 50 2
        ptr := if f 50 2 = 0 then f 46 4 else 0
        offset := if f 50 2 = 0 then f 30 16 else 0
        sreg := if f 50 2 = 0 then 0 else f 25 5
        fmt := f 23 2
        score := f 13 10
        zp := f 5 8 })
  | 0x07 => some (.mchk t (f 47 5) (bit w 46))
  | 0x10 => three .add
  | 0x11 => three .sub
  | 0x12 => three .andR
  | 0x13 => three .orR
  | 0x14 => three .xorR
  | 0x15 => three .shl
  | 0x16 => three .shr
  | 0x17 => three .sra
  | 0x18 => some (.addi t (f 47 5) (f 42 5) (f 10 32))
  | 0x19 => some (.movi t (f 47 5) (f 15 32))
  | 0x1A => some (.cmp t (f 49 3) (f 46 3) (f 41 5) (f 36 5))
  | 0x1B => some (.cmpi t (f 49 3) (f 46 3) (f 41 5) (f 9 32))
  | 0x1C => some (.pfop t (f 49 3) (f 46 3) (f 43 3) (f 41 2))
  | 0x1D => some (.pset t (f 48 4) (f 23 25))
  | 0x1E =>
    some (.padd t (f 48 4) (f 44 4) (bit w 43) (if bit w 43 then f 38 5 else 0) (if bit w 43 then 0 else f 13 25))
  | 0x1F => some (.pmov t (bit w 51) (f 46 5) (f 42 4))
  | 0x20 => some (.sld t (f 47 5) (f 43 4) (f 27 16))
  | 0x21 => some (.sst t (f 47 5) (f 43 4) (f 27 16))
  | _ => none

/-- The instruction of a mover word (R216, R237 to R242). -/
def moverWord (t : Iss) (w : Nat) : Option Instr :=
  let f := bits w
  match opcodeOf w with
  | 0x30 =>
    let src := f 49 3
    some (.xld t src (if src = 1 then f 45 4 else 0) (src == 1 && bit w 44) (if 2 ≤ src then f 40 4 else 0)
      (if src = 1 then f 24 16 else 0))
  | 0x31 => some (.rsnd t (f 51 1) (f 47 4) (f 44 3) (bit w 43))
  | 0x32 => some (.rrcv t (f 51 1) (f 47 4) (f 44 3) (bit w 43))
  | 0x33 => some (.tsnd t (f 48 4) (bit w 47))
  | 0x34 => some (.trcv t (f 48 4) (bit w 47))
  | 0x35 =>
    let te := bit w 42
    some (.srcv t (f 51 1) (f 47 4) (f 44 3) (bit w 43) te (if te then f 37 5 else 0) (if te then f 34 3 else 0))
  | 0x36 => some (.slld t (f 51 1) (f 47 4) (f 42 5) (f 30 12))
  | 0x37 => some (.slst t (f 51 1) (f 47 4))
  | 0x38 => some (.slsnd t (f 51 1) (f 49 2))
  | 0x39 => some (.slrcv t (f 51 1) (f 49 2) (f 44 5) (f 32 12))
  | 0x3A => some (.tdi t (f 48 4) (bit w 47))
  | _ => none

/-- The instruction of an array or post word (R211 to R228). -/
def computeWord (t : Iss) (w : Nat) : Option Instr :=
  let f := bits w
  match opcodeOf w with
  | 0x50 => some (.wld t (f 48 4) (f 43 5) (f 38 5) (bit w 37) (f 29 8))
  | 0x51 => some (.wswp t)
  | 0x52 => some (.mac t (macOps w))
  | 0x53 => some (.cmac t (macOps w) (f 22 5) (f 10 12))
  | 0x60 => some (.bias t (f 50 2) (f 45 5) (f 41 4))
  | 0x61 => some (.scan t (f 50 2) (f 45 5) (f 40 5))
  | 0x62 => some (.sbtrk t (f 51 1) (f 47 4) (signed 7 (f 40 7)) (f 37 3) (f 29 8))
  | 0x63 =>
    some (.sbopn t
      { buf := f 51 1
        src := f 49 2
        countM := f 44 5
        h := f 41 3
        target := f 26 15
        layer := f 18 8
        position := f 6 12
        phaseReg := f 1 5 })
  | 0x64 =>
    some (.rq t
      { file := f 50 2
        nM := f 45 5
        ptr := f 41 4
        dbuf := f 40 1
        dslot := f 35 5
        inUnit := bit w 34
        inSlot := f 29 5
        mK := f 21 8
        eK := signed 7 (f 14 7)
        fmt := f 11 3
        zp := f 3 8
        lutEn := bit w 2
        lut := f 0 2 })
  | 0x65 => some (.ltld t (f 50 2) (f 46 4))
  | 0x66 => some (.lut t (f 48 4) (f 44 4) (f 39 5) (f 37 2) (f 35 2) (f 33 2))
  | 0x67 => some (.aadd t (f 50 2) (f 45 5) (alnOp (f 24 21)) (alnOp (f 3 21)))
  | 0x68 => some (.amax t (f 50 2) (f 45 5) (alnOp (f 24 21)) (alnOp (f 3 21)))
  | 0x69 => some (.gath t (f 48 4) (f 44 4) (f 40 4) (f 35 5) (f 30 5) (f 28 2) (f 20 8))
  | _ => none

/-- The instruction that word `w` is at tile `p` (R202 to R204, R229); none for a reserved opcode. -/
def decodeWord (p w : Nat) : Option Instr :=
  let t : Iss := { tile := p, pred := bits w 52 3, neg := bit w 55 }
  match controlWord t w with
  | some c => some c
  | none => match moverWord t w with
    | some c => some c
    | none => computeWord t w

/-! ### The word of an instruction -/

/-- A field at bit `lo`. -/
def fieldAt (lo v : Nat) : Nat := 2 ^ lo * v

/-- A flag at bit `lo`. -/
def flagAt (lo : Nat) (b : Bool) : Nat := if b then 2 ^ lo else 0

/-- The fields of R202. -/
def headOf (op : Nat) (t : Iss) : Nat := fieldAt 56 op + flagAt 55 t.neg + fieldAt 52 t.pred

/-- The fields of MAC and CMAC (R214). -/
def macBits (o : MacOps) : Nat :=
  fieldAt 50 o.dest + flagAt 49 o.k4 + flagAt 48 o.xSigned + flagAt 47 o.wSigned + fieldAt 39 o.zx + fieldAt 36 o.src + fieldAt 32 o.ptr
    + flagAt 31 o.postInc + fieldAt 27 o.slice

/-- An operand field of AADD and AMAX (R226). -/
def alnBits (o : AlnOp) : Nat :=
  if o.row then 2 ^ 20 + fieldAt 16 o.ptr + fieldAt 15 o.buf + fieldAt 10 o.slot + fieldAt 8 o.fmt + o.zp else fieldAt 18 o.file

/-- Three scalar registers (R233). -/
def threeBits (a b c : Nat) : Nat := fieldAt 47 a + fieldAt 42 b + fieldAt 37 c

/-- The word of a control or scalar instruction. -/
def encodeControl : Instr → Option Nat
  | .pad t n => some (headOf 0x01 t + fieldAt 32 n)
  | .fwait t o => some (headOf 0x02 t + fieldAt 41 o)
  | .loop t c l => some (headOf 0x03 t + fieldAt 40 c + fieldAt 26 l)
  | .halt t => some (headOf 0x04 t)
  | .fsel t lag w sd pd => some (headOf 0x05 t + fieldAt 44 lag + flagAt 43 w + fieldAt 38 sd + fieldAt 35 pd)
  | .mark t o =>
    some (headOf 0x06 t + fieldAt 50 o.src + fieldAt 46 o.ptr + fieldAt 30 o.offset + fieldAt 25 o.sreg + fieldAt 23 o.fmt + fieldAt 13 o.score
      + fieldAt 5 o.zp)
  | .mchk t c e => some (headOf 0x07 t + fieldAt 47 c + flagAt 46 e)
  | .add t a b c => some (headOf 0x10 t + threeBits a b c)
  | .sub t a b c => some (headOf 0x11 t + threeBits a b c)
  | .andR t a b c => some (headOf 0x12 t + threeBits a b c)
  | .orR t a b c => some (headOf 0x13 t + threeBits a b c)
  | .xorR t a b c => some (headOf 0x14 t + threeBits a b c)
  | .shl t a b c => some (headOf 0x15 t + threeBits a b c)
  | .shr t a b c => some (headOf 0x16 t + threeBits a b c)
  | .sra t a b c => some (headOf 0x17 t + threeBits a b c)
  | .addi t a b i => some (headOf 0x18 t + fieldAt 47 a + fieldAt 42 b + fieldAt 10 i)
  | .movi t a i => some (headOf 0x19 t + fieldAt 47 a + fieldAt 15 i)
  | .cmp t p c a b => some (headOf 0x1A t + fieldAt 49 p + fieldAt 46 c + fieldAt 41 a + fieldAt 36 b)
  | .cmpi t p c a i => some (headOf 0x1B t + fieldAt 49 p + fieldAt 46 c + fieldAt 41 a + fieldAt 9 i)
  | .pfop t d a b o => some (headOf 0x1C t + fieldAt 49 d + fieldAt 46 a + fieldAt 43 b + fieldAt 41 o)
  | .pset t d i => some (headOf 0x1D t + fieldAt 48 d + fieldAt 23 i)
  | .padd t d a u b i => some (headOf 0x1E t + fieldAt 48 d + fieldAt 44 a + flagAt 43 u + fieldAt 38 b + fieldAt 13 i)
  | .pmov t d r p => some (headOf 0x1F t + flagAt 51 d + fieldAt 46 r + fieldAt 42 p)
  | .sld t r p o => some (headOf 0x20 t + fieldAt 47 r + fieldAt 43 p + fieldAt 27 o)
  | .sst t r p o => some (headOf 0x21 t + fieldAt 47 r + fieldAt 43 p + fieldAt 27 o)
  | _ => none

/-- The word of a mover instruction. -/
def encodeMover : Instr → Option Nat
  | .xld t src ptr i sl off =>
    some (headOf 0x30 t + fieldAt 49 src + fieldAt 45 ptr + flagAt 44 i + fieldAt 40 sl + fieldAt 24 off)
  | .rsnd t d p l i => some (headOf 0x31 t + fieldAt 51 d + fieldAt 47 p + fieldAt 44 l + flagAt 43 i)
  | .rrcv t d p l i => some (headOf 0x32 t + fieldAt 51 d + fieldAt 47 p + fieldAt 44 l + flagAt 43 i)
  | .tsnd t p i => some (headOf 0x33 t + fieldAt 48 p + flagAt 47 i)
  | .trcv t p i => some (headOf 0x34 t + fieldAt 48 p + flagAt 47 i)
  | .srcv t d p l i te sd pd =>
    some (headOf 0x35 t + fieldAt 51 d + fieldAt 47 p + fieldAt 44 l + flagAt 43 i + flagAt 42 te + fieldAt 37 sd + fieldAt 34 pd)
  | .slld t b p ph pos => some (headOf 0x36 t + fieldAt 51 b + fieldAt 47 p + fieldAt 42 ph + fieldAt 30 pos)
  | .slst t b p => some (headOf 0x37 t + fieldAt 51 b + fieldAt 47 p)
  | .slsnd t b p => some (headOf 0x38 t + fieldAt 51 b + fieldAt 49 p)
  | .slrcv t b p ph pos => some (headOf 0x39 t + fieldAt 51 b + fieldAt 49 p + fieldAt 44 ph + fieldAt 32 pos)
  | .tdi t p i => some (headOf 0x3A t + fieldAt 48 p + flagAt 47 i)
  | _ => none

/-- The word of an array or post instruction. -/
def encodeCompute : Instr → Option Nat
  | .wld t p lb cm z zw => some (headOf 0x50 t + fieldAt 48 p + fieldAt 43 lb + fieldAt 38 cm + flagAt 37 z + fieldAt 29 zw)
  | .wswp t => some (headOf 0x51 t)
  | .mac t o => some (headOf 0x52 t + macBits o)
  | .cmac t o ph pos => some (headOf 0x53 t + macBits o + fieldAt 22 ph + fieldAt 10 pos)
  | .bias t f n p => some (headOf 0x60 t + fieldAt 50 f + fieldAt 45 n + fieldAt 41 p)
  | .scan t f n d => some (headOf 0x61 t + fieldAt 50 f + fieldAt 45 n + fieldAt 40 d)
  | .sbtrk t b p e k f =>
    some (headOf 0x62 t + fieldAt 51 b + fieldAt 47 p + fieldAt 40 (unsignedOf 7 e) + fieldAt 37 k + fieldAt 29 f)
  | .sbopn t o =>
    some (headOf 0x63 t + fieldAt 51 o.buf + fieldAt 49 o.src + fieldAt 44 o.countM + fieldAt 41 o.h + fieldAt 26 o.target + fieldAt 18 o.layer
      + fieldAt 6 o.position + fieldAt 1 o.phaseReg)
  | .rq t o =>
    some (headOf 0x64 t + fieldAt 50 o.file + fieldAt 45 o.nM + fieldAt 41 o.ptr + fieldAt 40 o.dbuf + fieldAt 35 o.dslot + flagAt 34 o.inUnit
      + fieldAt 29 o.inSlot + fieldAt 21 o.mK + fieldAt 14 (unsignedOf 7 o.eK) + fieldAt 11 o.fmt + fieldAt 3 o.zp + flagAt 2 o.lutEn + o.lut)
  | .ltld t k p => some (headOf 0x65 t + fieldAt 50 k + fieldAt 46 p)
  | .lut t s d n k i o =>
    some (headOf 0x66 t + fieldAt 48 s + fieldAt 44 d + fieldAt 39 n + fieldAt 37 k + fieldAt 35 i + fieldAt 33 o)
  | .aadd t d n x y => some (headOf 0x67 t + fieldAt 50 d + fieldAt 45 n + fieldAt 24 (alnBits x) + fieldAt 3 (alnBits y))
  | .amax t d n x y => some (headOf 0x68 t + fieldAt 50 d + fieldAt 45 n + fieldAt 24 (alnBits x) + fieldAt 3 (alnBits y))
  | .gath t s i d n ns f z =>
    some (headOf 0x69 t + fieldAt 48 s + fieldAt 44 i + fieldAt 40 d + fieldAt 35 n + fieldAt 30 ns + fieldAt 28 f + fieldAt 20 z)
  | _ => none

/-- The word of a tile instruction; none of any other command. -/
def encodeWord (c : Instr) : Option Nat :=
  match encodeControl c with
  | some w => some w
  | none => match encodeMover c with
    | some w => some w
    | none => encodeCompute c

end Sys2Proof.Machine
end

