-- ==== Sys2Proof/Machine/TileOps.lean ====
section
/-! DEFINITION. Issue, occupancy and latency of tile instructions (R206 to R210, R231, R232, R245 to R247, R253): one
instruction issues in a clk; what it reads and writes in later clks waits as a list of acts of its tile, which the
tick of each clk carries out, reads before writes. -/

namespace Sys2Proof.Machine

/-- The grid runs its tables and programs: a schedule is bound and has begun, and the job is armed, running or paused
and not parked, or faulted in this very clk (R253, R459, R533). -/
def State.gridRuns (s : State) : Bool :=
  s.job.bound && decide (s.job.s0 ≤ s.clk) && !s.job.parkedTiles && !s.tele.hold &&
    (s.active || (s.flt.active && s.flt.clk == s.clk))

/-- The loop stack after the word before `pc`: iterations that end return to their start (R246). -/
def loopStep : List (Nat × Nat × Nat) → Nat → List (Nat × Nat × Nat) × Nat
  | [], pc => ([], pc)
  | (st, en, rem) :: ls, pc =>
    if pc = en then (if 0 < rem then ((st, en, rem - 1) :: ls, st) else loopStep ls pc)
    else ((st, en, rem) :: ls, pc)

/-- The tile at the start of its clk: in a new period the program starts again at address 0 with an empty loop
stack (R253). -/
def State.begun (s : State) (t : Tile) : Tile :=
  if t.period = s.periodsAt s.clk + 1 then t
  else { t with period := s.periodsAt s.clk + 1, pc := 0, loops := [] }

/-- The tile after an issue that fills `n` clk: the next word and the clk from which it may issue. -/
def Tile.advance (t : Tile) (clk n : Nat) : Tile :=
  let r := loopStep t.loops (t.pc + 1)
  { t with pc := r.2, loops := r.1, next := clk + n }

/-- The address of the word that tile `p` issues in this clk (R253). -/
def State.wordAt (s : State) (p : Nat) : Nat := (s.begun (s.tile p)).pc

/-- Tile `p` may issue in this clk: it has not halted, its next word is due, and its program has that word (R247, R253,
R254; a tile without a program takes no part, R360). -/
def State.mayIssue (s : State) (p : Nat) : Bool :=
  s.gridRuns && s.placed p && !(s.tile p).halted && decide ((s.tile p).next ≤ s.clk) &&
    decide (s.wordAt p < mget 0 s.net.plen p)

/-- The word at the program address of tile `p`. -/
def State.wordHere (s : State) (p : Nat) : Nat := mget 0 s.net.prog (16384 * p + s.wordAt p)

/-- The addresses that tile `p` reads from its program memory in this clk: those of the LOOPs that head the word it issues,
which take no clk, and of that word (R246, R253); a program nests four. -/
def State.fetches (s : State) (p : Nat) : Nat → Nat → List Nat
  | 0, _ => []
  | n + 1, a => a :: (if opcodeOf (mget 0 s.net.prog (16384 * p + a)) = 3 then s.fetches p n (a + 1) else [])

/-- Command `c` is the instruction of the word that tile `p` issues in this clk (R35, R202, R253). -/
def State.spells (s : State) (c : Instr) (p : Nat) : Bool := decide (decodeWord p (s.wordHere p) = some c)

/-- Resources with their codes in a fault report (R539): 1 mac, 2 fill, 3 port, 4 pipe, 5 alu; 0 for none. -/
def Tile.res (t : Tile) (r : Nat) : Res :=
  match r with
  | 1 => t.mac
  | 2 => t.fill
  | 3 => t.port
  | 4 => t.pipe
  | 5 => t.alu
  | _ => {}

/-- `t` with resource `r` occupied until clk `free`. -/
def Tile.occupy (t : Tile) (r free : Nat) : Tile :=
  let x : Res := { free := free, holder := t.pc }
  match r with
  | 1 => { t with mac := x }
  | 2 => { t with fill := x }
  | 3 => { t with port := x }
  | 4 => { t with pipe := x }
  | 5 => { t with alu := x }
  | _ => t

/-- The predicate of an instruction is met (R202). -/
def Tile.met (t : Tile) (i : Iss) : Bool := if i.neg then !t.flag i.pred else t.flag i.pred

/-- A unit-overlap fault in this clk: no write of the clk takes effect at tile `p`; writes of the clk that meet are still
told (R209, R534). -/
def State.noWrites (s : State) (p : Nat) : State := s.setTile p { s.tile p with noWrite := some s.clk }

/-- Issue of instruction `c` on resource `r` for `occ` clk (R206, R207, R209): a tile that may not issue in this clk, or
whose word is another, leaves the state as it is (log entry 2); a busy resource is a fault of the unit; with its predicate
unmet the instruction only occupies. `eff` is the instruction's effect, given its program address. -/
def State.issue (s : State) (c : Instr) (i : Iss) (r occ : Nat) (eff : State → Nat → State) :
    Host.Outcome State Fault Refusal :=
  if tileOk s.grade i.tile then
    if s.mayIssue i.tile && s.spells c i.tile then
      let t := s.begun (s.tile i.tile)
      if r ≠ 0 ∧ s.clk < (t.res r).free then
        .next (((s.setTile i.tile (t.advance s.clk 1)).noWrites i.tile).tileFault 2 1 i.tile t.pc (r + 2 ^ 16 * (t.res r).holder))
      else
        let s' := s.setTile i.tile ((t.occupy r (s.clk + occ)).advance s.clk 1)
        if t.met i then .next (eff s' t.pc) else .next s'
    else .next s
  else .next s

/-- An act of the instruction at `addr` of unit `unit`, `n` clk after this one. -/
def State.pendAt (s : State) (addr unit n : Nat) (act : Act) : Pend :=
  { due := s.clk + n, addr := addr, unit := unit, act := act }

/-- Acts wait at tile `p`. -/
def State.plan (s : State) (p : Nat) (l : List Pend) : State :=
  s.setTile p { s.tile p with pend := (s.tile p).pend ++ l }

/-- An allocation fault of an instruction (R260), or, with cause 8, the memory fault of an access that meets an
uncorrectable word (R261, R535, R539); its syndrome is free (log entry 27). -/
def State.allocFault (s : State) (p paddr : Nat) (e : Nat × Nat) : State :=
  if e.1 = 8 then (let y := s.fresh 8; y.2.tileFault 9 1 p paddr (e.2 + 2 ^ 64 * y.1))
  else (s.setFlag (key (0x2700 + p) 1) tmem_alloc_fault_seen true).tileFault 4 e.1 p paddr (e.2 % 2 ^ 25)

/-- A scale-lane fault (R163, R539). -/
def State.scaleFault (s : State) (p paddr cause b slot want found : Nat) : State :=
  s.tileFault 3 cause p paddr (b + 2 ^ 8 * slot + 2 ^ 32 * want + 2 ^ 48 * found)

/-- The accesses are allowed, or the instruction takes no effect and the first that is not is a fault in its clk
(R210, R260); `reach` says when each reaches its bytes (R211, R218, R236, R238). -/
def State.checked (s : State) (p paddr : Nat) (acc : List (Nat × Nat × Bool)) (reach : List Reach) (k : State) : State :=
  match s.alloc p acc with
  | none => k
  | some _ => match firstFailure (s.failures p (acc.zip reach)) with
    | some (0, e) => s.allocFault p paddr e
    | some (n + 1, e) => s.plan p [s.pendAt paddr 4 (n + 1) (.fail e.1 e.2)]
    | none => s

/-! ### Acts -/

/-- Lanes of chunk `j` of a row of `n` (R218): first lane and count. -/
def chunkLen (n j : Nat) : Nat := min 64 (n - 64 * j)

/-- Chunks of a row of `n` lanes. -/
def chunks (n : Nat) : Nat := (n + 63) / 64

/-- Accumulator lanes `lo` to `lo + n - 1`. -/
def AFile.lanes (a : AFile) (lo n : Nat) : List Int := mrange 0 a.vals lo n

/-- The largest magnitude of a list of lanes (R134). -/
def maxMag (l : List Int) : Nat := (l.map Int.natAbs).foldl max 0

/-- The values of an aligned operand's chunk (R137). -/
def State.alnVals (s : State) (p : Nat) (o : AlnCap) (lo n : Nat) : List Int :=
  if o.row then (s.rowCodes p o.addr o.fmt lo n).map (valueOf o.fmt o.zp)
  else ((s.tile p).file o.file).lanes lo n

/-- The entry write of an RQ with what it counts, and the scale the codes use (R151, R157, R164). DESIGN CHOICE (log entry
78): the row's result that layer_floor and layer_underuse count is the entry, so they count in the clk of its write. -/
def rqEntry (c : RqCap) (bigM : Nat) : RowScale × List Act :=
  let r := rowScale c bigM
  (r, [.sbEnt c.dbuf c.dslot r.ent r.set]
    ++ (if r.floor then [.layer 3 c.layer] else [])
    ++ (if c.src ≠ 0 ∧ bigM ≠ 0 ∧ underuse c bigM r.mA r.eA then [.layer 2 c.layer] else []))

/-- The codes of one chunk of an RQ as its store (R135, R136, R140, R224). DESIGN CHOICE (log entry 71): a fused
lookup reads its table in the clk in which the chunk of the file is read for its codes, for which R218 gives no clk.
-/
def State.rqCodes (s : State) (p : Nat) (c : RqCap) (mA : Nat) (eA : Int) (zero : Bool) (j : Nat) : Act :=
  let t := s.tile p
  let r := ((t.file c.file).lanes (64 * j) (chunkLen c.n j)).map
    (fun a => requantise a c.aexp mA eA zero c.fmt c.zp)
  let raw := r.map (fun x => unsignedOf (fmtBits c.fmt) x.1)
  let raw := if c.lutEn then raw.map (lookup (t.lut c.lut) (fmtK4 c.fmt)) else raw
  .codes (c.dst + rowBytes c.fmt (64 * j)) (packCodes c.fmt raw) ((r.filter (fun x => x.2)).length) c.layer

/-- What a read act of this clk gives: acts of this or a later clk. `k` builds an act of the same instruction. -/
def State.runRead (s : State) (p : Nat) (d : Pend) : List Pend :=
  let t := s.tile p
  let at_ := fun (n : Nat) (a : Act) => ({ d with due := s.clk + n, act := a } : Pend)
  match d.act with
  | .rdFill b lane base n j zs zw codes =>
    let chunk := fun (k : Nat) => (List.range 32).map (fun i => s.sram p (base + 32 * (32 * k + i)) 32)
    if j < n then
      let cs := codes ++ chunk j
      if j + 1 < n + (if zs then 1 else 0) then [at_ 1 (.rdFill b lane base n (j + 1) zs zw cs)]
      else [at_ 1 (.bank b lane (cs.map (fun c => { codes := c, zw := zw })))]
    else
      let z := s.sram p (base + 1024 * n) (32 * n)
      [at_ 1 (.bank b lane (List.zipWith (fun c w => { codes := c, zw := w }) codes z))]
  | .rdBias f n base j =>
    let bs := (List.range (chunkLen n j)).map (fun i => signed 32 (leNat (s.sram p (base + 4 * (64 * j + i)) 4)))
    let r := (List.zipWith (· + ·) ((t.file f).lanes (64 * j) (chunkLen n j)) bs).map accSat
    at_ 2 (.acc f (64 * j) (r.map Prod.fst) (r.map Prod.snd).sum)
      :: (if j + 1 < chunks n then [at_ 1 (.rdBias f n base (j + 1))] else [])
  | .rdScan f n sd j acc =>
    let m := max acc (maxMag ((t.file f).lanes (64 * j) (chunkLen n j)))
    if j + 1 < chunks n then [at_ 1 (.rdScan f n sd (j + 1) m)] else [at_ 2 (.sreg sd m)]
  | .rdRqScan c j acc =>
    let m := max acc (maxMag ((t.file c.file).lanes (64 * j) (chunkLen c.n j)))
    if j + 1 < chunks c.n then [at_ 1 (.rdRqScan c (j + 1) m)]
    else
      let r := rqEntry c m
      r.2.map (at_ 3) ++ [at_ 4 (.rdRqCode c r.1.mA r.1.eA r.1.ent.zero 4 0 m)]
  | .rdRqCode c mA eA z delay j acc =>
    let code := at_ (delay + if c.lutEn then 1 else 0) (s.rqCodes p c mA eA z j)
    let m := max acc (maxMag ((t.file c.file).lanes (64 * j) (chunkLen c.n j)))
    if j + 1 < chunks c.n then [code, at_ 1 (.rdRqCode c mA eA z delay (j + 1) m)]
    else if c.src = 0 then [code]
    else
      code :: ((rqEntry c m).2.map (at_ 0) ++
        (if c.track then [at_ 2 (.sram c.taddr (leBytes 4 (trackerUpdate c m)))] else []))
  | .rdOpen b tag n =>
    let buf := t.sb b
    let est := (List.range n).map (fun i => leNat (s.sram p (buf.tbase + 4 * ((tag + i) % 4096)) 4))
    let exs := (est.filter (fun e => e != 0)).map (fun e =>
      let q := scalePow e buf.target buf.texp
      (enc q.1 q.2).2)
    let be : Int × Bool := match exs with
      | [] => (0, false)
      | e :: es => clampExp (es.foldl max e + buf.head)
    [at_ 1 (.sbOpen b tag n (some be.1) be.2 (msetList 0 [] 0 est))]
  | .rdLut src dst n k fi fo j =>
    let cs := (s.rowCodes p src fi (64 * j) (chunkLen n j)).map (lookup (t.lut k) (fmtK4 fi))
    at_ 2 (.codes (dst + rowBytes fo (64 * j)) (packCodes fo cs) 0 0)
      :: (if j + 1 < chunks n then [at_ 1 (.rdLut src dst n k fi fo (j + 1))] else [])
  | .rdAln mx dest n x y tag j =>
    let r := alignExp x y
    let tx := (s.alnVals p x (64 * j) (chunkLen n j)).map (fun v => alignTerm x v r)
    let ty := (s.alnVals p y (64 * j) (chunkLen n j)).map (fun v => alignTerm y v r)
    let o := (List.zipWith (fun a b => if mx then max a b else a + b) tx ty).map accSat
    at_ 3 (.acc dest (64 * j) (o.map Prod.fst) (o.map Prod.snd).sum)
      :: (if j + 1 < chunks n then [at_ 1 (.rdAln mx dest n x y tag (j + 1))] else [at_ 3 (.accMeta dest r tag)])
  | .rdGath src idx dst n ns fmt zp j row =>
    if j < chunks ns then
      [at_ 1 (.rdGath src idx dst n ns fmt zp (j + 1) (row ++ s.rowCodes p src fmt (64 * j) (chunkLen ns j)))]
    else
      let i := j - chunks ns
      let z := fmtZp fmt zp
      let cs := (List.range (chunkLen n i)).map (fun u =>
        let e := leNat (s.sram p (idx + 2 * (64 * i + u)) 2)
        if bit e 15 || decide (ns ≤ bits e 0 10) then z else row.getD (bits e 0 10) z)
      at_ 3 (.codes (dst + rowBytes fmt (64 * i)) (packCodes fmt cs) 0 0)
        :: (if i + 1 < chunks n then [at_ 1 (.rdGath src idx dst n ns fmt zp (j + 1) row)] else [])
  | .rdTide2 b first =>
    match s.reg (regKey p 5) with
    | none => []
    | some w => [at_ 1 (sbLoadOf b (first ++ leBytes 4 w.word))]
  | _ => []

/-- An act reads in its clk and writes nothing itself. -/
def Act.isRead : Act → Bool
  | .rdFill .. => true
  | .rdBias .. => true
  | .rdScan .. => true
  | .rdRqScan .. => true
  | .rdRqCode .. => true
  | .rdOpen .. => true
  | .rdLut .. => true
  | .rdAln .. => true
  | .rdGath .. => true
  | .rdTide2 .. => true
  | _ => false

/-- The places an act writes, for the clashes of R209 and R232: kind (0 accumulator lane, 1 SRAM byte, 2 s register,
3 p register, 4 predicate flag, 5 scale buffer, 6 frame context), first place and count. -/
def Act.places : Act → Option (Nat × Nat × Nat)
  | .mac f .. => some (0, 1024 * f, 1024)
  | .acc f lo vs _ => some (0, 1024 * f + lo, vs.length)
  | .sram a bs => some (1, a, bs.length)
  | .codes a bs .. => some (1, a, bs.length)
  | .sreg r _ => if r = 0 then none else some (2, r, 1)
  | .preg r _ => some (3, r, 1)
  | .pflag r _ => if r = 0 then none else some (4, r, 1)
  | .sbOpen b .. => some (5, b, 1)
  | .sbEnt b .. => some (5, b, 1)
  | .sbLoad b .. => some (5, b, 1)
  | .fctx .. => some (6, 0, 1)
  | _ => none

/-- Two writes of a clk meet: kind and lowest place. Of one unit, two writes meet on a register, a predicate flag, a
scale buffer or fctx (R232, which lists SLD beside the scalar unit). DESIGN CHOICE (log entry 71): R129 and R209 name
two units, so two writes of one unit to a lane or an SRAM byte are no clash, and the later in the list of acts holds.
-/
def clash (a b : Pend) : Option (Nat × Nat) :=
  match a.act.places, b.act.places with
  | some (k, lo, n), some (k', lo', n') =>
    if k = k' ∧ lo < lo' + n' ∧ lo' < lo + n ∧ (a.unit ≠ b.unit ∨ 2 ≤ k) then some (k, max lo lo') else none
  | _, _ => none

/-- Two writes that meet: their units, whether in memory (a lane or an SRAM byte) or in a register, the place (kind and
number), and the writers' addresses in increasing order. -/
structure Clash where
  u1 : Nat
  u2 : Nat
  kind : Nat
  place : Nat
  a1 : Nat
  a2 : Nat
deriving DecidableEq, Repr

/-- Cause of a clash (R209): 3 write_clash, 4 register_clash. DESIGN CHOICE (log entry 71): a clash on a predicate
flag, a scale buffer or fctx is a register_clash whose place is the number of the flag or buffer, and 0 for fctx. -/
def Clash.cause (c : Clash) : Nat := if c.kind ≤ 1 then 3 else 4

/-- The order of clashes of one pair of units and one cause: the lowest place first. DESIGN CHOICE (log entry 71): of
equal places the lower kind, then the lower addresses. -/
def Clash.rank (c : Clash) : Nat := ((c.place * 8 + c.kind) * 2 ^ 16 + c.a1) * 2 ^ 16 + c.a2

/-- The clashes among the writes of a clk. -/
def clashes : List Pend → List Clash
  | [] => []
  | a :: l =>
    l.filterMap (fun b => (clash a b).map (fun c =>
      { u1 := min a.unit b.unit, u2 := max a.unit b.unit, kind := c.1, place := c.2, a1 := min a.addr b.addr,
        a2 := max a.addr b.addr })) ++ clashes l

/-- The report of each pair of units and cause: that of the lowest place at which the pair meets (R209). -/
def lowestClash (l : List Clash) : List Clash :=
  (l.filter (fun e => l.all (fun f =>
    !(f.u1 == e.u1 && f.u2 == e.u2 && f.cause == e.cause) || decide (e.rank ≤ f.rank)))).dedup

/-- A counter of tile `p` advances by `n`, and its flag notes that it has advanced (R142 to R144): a counter that is full
does not advance. -/
def State.countTile (s : State) (p sub : Nat) (f : Fld) (n : Nat) : State :=
  let k := key (0x2300 + p) sub
  if n = 0 ∨ s.fld k cnt48 = 2 ^ 48 - 1 then s else (s.bumpBy k cnt48 n).setFlag (key (0x2300 + p) 3) f true

/-- acc_clip and its flag (R127, R142 to R144). -/
def State.countClips (s : State) (p n : Nat) : State := s.countTile p 1 ast_acc_clip_seen n

/-- One count of a layer's counter: 1 saturation, 2 underuse, 3 floor (R164). -/
def State.countLayer (s : State) (kind l n : Nat) : State :=
  if n = 0 then s
  else { s with job := { s.job with
    layerTot := mset 0 s.job.layerTot (4 * l + kind) (min (mget 0 s.job.layerTot (4 * l + kind) + n) (2 ^ 48 - 1)),
    layerWin := mset 0 s.job.layerWin (4 * l + kind) (mget 0 s.job.layerWin (4 * l + kind) + n) } }

/-- requant_sat, its flag and the layer's saturation counter (R135, R142). -/
def State.countSats (s : State) (p layer n : Nat) : State :=
  (s.countTile p 2 ast_requant_sat_seen n).countLayer 1 layer n

/-- A token leaves for register `r`. -/
def State.launch (s : State) (f : Flight) : State := { s with net := { s.net with flights := s.net.flights ++ [f] } }

/-- Register key of the neighbour's rafter input in direction east or south of tile `p`; none at the grid's last
column or row (R174, R192, R193). -/
def State.rafterTo (s : State) (p : Nat) (south : Bool) : Option Nat :=
  let r := s.vrow p
  let v := s.vcol p
  if south then (if r + 1 < 8 then some (regKey (s.ptile (r + 1) v) 7) else none)
  else (if v + 1 < vcols s.grade then some (regKey (s.ptile r (v + 1)) 6) else none)

/-- One write of tile `p` takes effect. -/
def State.applyAct (s : State) (p : Nat) (a : Act) : State :=
  let t := s.tile p
  match a with
  | .mac f clear d tag =>
    let old := t.file f
    if clear then s.setTile p (t.setFile f { vals := d, exp := 0, tag := tag })
    else
      let r := d.foldl (fun (acc : SMap Int × Nat) e =>
        let v := accSat (mget 0 acc.1 e.1 + e.2)
        (mset 0 acc.1 e.1 v.1, acc.2 + v.2)) (old.vals, 0)
      (s.setTile p (t.setFile f { old with vals := r.1 })).countClips p r.2
  | .acc f lo vs n =>
    (s.setTile p (t.setFile f { t.file f with vals := msetList 0 (t.file f).vals lo vs })).countClips p n
  | .accMeta f e tag => s.setTile p (t.setFile f { t.file f with exp := e, tag := tag })
  | .sram a bs => (s.write (sramBase p + a) bs).freshWords p a bs.length
  | .codes a bs n l => ((s.write (sramBase p + a) bs).freshWords p a bs.length).countSats p l n
  | .sreg r v => s.setTile p (t.setS r v)
  | .preg r v => s.setTile p (t.setP r v)
  | .pflag r v => s.setTile p (t.setF r v)
  | .latch bs => s.setTile p { t with x := bs }
  | .bank b lane ls => s.setTile p (t.setBank b (msetList zeroLane (t.bankOf b) lane ls))
  | .swap => s.setTile p { t with active := 1 - t.active }
  | .table k bs => s.setTile p { t with luts := msetList 0 t.luts (256 * k) bs }
  | .sbTrack b base e k fr => s.setTile p (t.setSb b { t.sb b with tbase := base, texp := e, tk := k, frac := fr })
  | .sbCtx b src tgt h l => s.setTile p (t.setSb b { t.sb b with src := src, target := tgt, head := h, layer := l })
  | .sbOpen b tag n be cl est =>
    let x := t.sb b
    s.setTile p (t.setSb b { x with
      tag := tag, count := n, bexp := be, clamped := cl, ents := [], written := [], est := est, opened := true,
      obase := x.tbase, oexp := x.texp, ok := x.tk, ofrac := x.frac })
  | .sbEnt b slot e set =>
    let x := t.sb b
    let x := { x with ents := mset noEnt x.ents slot e, written := mset false x.written slot true }
    s.setTile p (t.setSb b (match set with | some q => { x with bexp := some q.1, clamped := q.2 } | none => x))
  | .sbLoad b tag n be cl es =>
    s.setTile p (t.setSb b { t.sb b with
      tag := tag, count := n, bexp := some be, clamped := cl, opened := false,
      ents := msetList noEnt [] 0 es, written := msetList false [] 0 (List.replicate n true) })
  | .fctx n v => s.setTile p { t with fnum := n, fvoid := v }
  | .cmark c v => s.setTile p { t with cm := mset false t.cm c v }
  | .layer kind l => s.countLayer kind l 1
  | .rafter south w =>
    (match s.rafterTo p south with
     | some r => s.launch { reg := r, due := s.clk + 3, tok := { word := w }, cross := some (if south then 4 else 5),
                            sender := p, done := false }
     | none => s.bump (kTstat p) tstat_unread_words)
  | .tide w side =>
    s.launch { reg := regKey p 4, due := s.clk + 1, tok := { word := w, side := side }, cross := none, sender := p,
               done := true }
  | _ => s

/-- An act sets a completion mark. -/
def Act.setsMark : Act → Bool
  | .cmark _ v => v
  | _ => false

/-- The acts of tile `p` due in this clk: reads first, then the writes unless some of them clash, completion marks
set last (R252). Answers the state and the clashes. -/
def State.tickTile (s : State) (p : Nat) : State × List Clash :=
  let t := s.tile p
  let due := t.pend.filter (fun d => d.due == s.clk)
  if due.isEmpty then (s, [])
  else
    let new := (due.filter (fun d => d.act.isRead)).flatMap (s.runRead p)
    let all := due.filter (fun d => !d.act.isRead) ++ new.filter (fun d => d.due == s.clk)
    let writes := all.filter (fun d => !d.act.setsMark) ++ all.filter (fun d => d.act.setsMark)
    let rest := t.pend.filter (fun d => d.due != s.clk) ++ new.filter (fun d => d.due != s.clk)
    let s := s.setTile p { t with pend := rest }
    let cl := lowestClash (clashes writes)
    if cl.isEmpty ∧ t.noWrite ≠ some s.clk then (writes.foldl (fun s d => s.applyAct p d.act) s, []) else (s, cl)

/-- Registers a scale receive from the tide port reads in this clk (R243). -/
def Tile.tide2Due (t : Tile) (c : Nat) : Option Nat :=
  (t.pend.find? (fun d => d.due == c && (match d.act with | .rdTide2 .. => true | _ => false))).map (fun d => d.addr)

/-- The accesses of this clk that fail: tile, program address, cause and byte (R260). -/
def State.failsDue (s : State) : List (Nat × Nat × Nat × Nat) :=
  s.tiles.flatMap (fun e => e.2.pend.filterMap (fun d => match d.act with
    | .fail c b => if d.due = s.clk then some (e.1, d.addr, c, b) else none
    | _ => none))

/-- The tick of every tile: second tide words first, then reads and writes, then the faults of the clk. DESIGN CHOICE
(log entry 71): the faulting instruction of a clash is the writer of the higher program address. -/
def State.tickTiles (s : State) : State :=
  let ps := (s.tiles.filter (fun e => !e.2.pend.isEmpty)).map Prod.fst
  let fails := s.failsDue
  let s := ps.foldl (fun s p => match (s.tile p).tide2Due s.clk with
    | none => s
    | some a => match s.reg (regKey p 5) with
      | some _ => s.markRead (regKey p 5)
      | none => s.emptyReceive p a 4) s
  let r := ps.foldl (fun (acc : State × List (Nat × Clash)) p =>
    let x := acc.1.tickTile p
    (x.1, acc.2 ++ x.2.map (fun c => (p, c)))) (s, [])
  let s := r.2.foldl (fun s e =>
    let c := e.2
    s.tileFault 2 c.cause e.1 c.a2 (2 ^ 16 * c.a1 + 2 ^ 32 * c.a2 + 2 ^ 64 * c.place)) r.1
  fails.foldl (fun s e => s.allocFault e.1 e.2.1 e.2.2) s

/-- Words that nobody read in this clk are discarded and counted (R174): rafter inputs and tide receive registers.
Registers hold a word for one clk only (R173). -/
def State.clearRegs (s : State) : State :=
  let left := s.net.regs.filter (fun e =>
    decide (e.1 % 16 = 5 ∨ e.1 % 16 = 6 ∨ e.1 % 16 = 7) && decide (e.1 / 16 < 104) && !s.net.read.contains e.1)
  let s := left.foldl (fun s e => s.bump (kTstat (e.1 / 16)) tstat_unread_words) s
  { s with net := { s.net with regs := [], read := [] } }

end Sys2Proof.Machine
end

