-- ==== Sys2Proof/Machine/Tide.lean ====
section
/-! DEFINITION. The tide network in one clk (R171 to R195): tokens come into their registers, each router applies its
table entry, eaves ports send and take words, and crossings complete with a margin. -/

namespace Sys2Proof.Machine

/-- Register key of eaves port `k`. -/
def eavesKey (k : Nat) : Nat := regKey (104 + k) 0

/-- The island that holds register `r` (R184, R538). -/
def islandOfReg (r : Nat) : Nat := if r / 16 < 104 then r / 16 else 124 + eavesDie (r / 16 - 104)

/-- Index of the Timing Status and Margin Histogram of an island (R196): its tile, or the hub die it is on. -/
def timingIdx (isl : Nat) : Nat :=
  if isl < 104 then 0x2610 + isl
  else if isl < 124 then 0x26A0 + quayDie (isl - 104)
  else if isl = 125 then 0x26A1 else 0x26A0

/-- A tide fault at register `r` (R194): located at its tile, or at its eaves port without a virtual place (R266). -/
def State.tideFault (s : State) (cause r island detail : Nat) : State :=
  if r / 16 < 104 then
    s.fault { family := 1, cause := cause, loc := loc 1 (r / 16), island := island, vrow := s.vrow (r / 16),
              vcol := s.vcol (r / 16), detail := detail }
  else s.fault { family := 1, cause := cause, loc := loc 9 (r / 16 - 104), island := island, detail := detail }

/-- A slip at register `r` of a token of class `c` (R186). -/
def State.slipAt (s : State) (r sender c : Nat) : State :=
  (s.setFlag (key (timingIdx (islandOfReg r)) 1) tstat_slip_seen true).tideFault 3 r sender c

/-- The token of a flight whose clk has come enters its register; a crossing that is not complete has slipped
(R185, R186). -/
def State.arrive (s : State) (f : Flight) : State :=
  match f.cross with
  | none => { s with net := { s.net with regs := mset none s.net.regs f.reg (some f.tok) } }
  | some c =>
    if f.done then { s with net := { s.net with regs := mset none s.net.regs f.reg (some f.tok) } }
    else s.slipAt f.reg f.sender c

/-- Every token due in this clk enters its register (R185), at the edge that opens the clk. -/
def State.arrivals (s : State) : State :=
  let due := s.net.flights.filter (fun f => f.due == s.clk)
  due.foldl State.arrive { s with net := { s.net with flights := s.net.flights.filter (fun f => f.due != s.clk) } }

/-- Where output `o` (0 N, 1 E, 2 S, 3 W) of tile `p` leads: register, latency and crossing class (R172, R192, R193,
R264). -/
def State.hop (s : State) (p o : Nat) : Nat × Nat × Nat :=
  let r := s.vrow p
  let v := s.vcol p
  match o with
  | 0 => if r = 0 then (eavesKey (8 + v), 8, 6) else (regKey (s.ptile (r - 1) v) 2, 3, 2)
  | 1 => if v + 1 = vcols s.grade then (eavesKey (20 + r), 8, 6) else (regKey (s.ptile r (v + 1)) 3, 3, 3)
  | 2 => if r = 7 then (eavesKey (28 + v), 8, 6) else (regKey (s.ptile (r + 1) v) 0, 3, 0)
  | _ => if v = 0 then (eavesKey r, 8, 6) else (regKey (s.ptile r (v - 1)) 1, 3, 1)

/-- Select code of output `o` in a tide table entry (R177). -/
def tideSel (e o : Nat) : Nat := bits e (3 * o) 3

/-- Router `p` sends on output `o` what its entry names (R179). -/
def State.routeOut (s : State) (p e o : Nat) : State :=
  let k := tideSel e o
  if k = 0 ∨ 5 < k then s
  else match s.reg (regKey p (k - 1)) with
    | none => s
    | some w =>
      if o = 4 then
        s.launch { reg := regKey p (if w.side % 4 = 2 then 8 else 5), due := s.clk + 1, tok := w, cross := none,
                   sender := p, done := true }
      else
        let h := s.hop p o
        s.launch { reg := h.1, due := s.clk + h.2.1, tok := w, cross := some h.2.2, sender := p, done := false }

/-- A word in input `k` of router `p` that no output names is a collision (R181). DESIGN CHOICE (log entry 72): the
port in the detail is the input's number, 0 N, 1 E, 2 S, 3 W, 4 local; R539 gives ports no codes. -/
def State.collide (s : State) (p e k : Nat) : State :=
  match s.reg (regKey p k) with
  | none => s
  | some _ =>
    if (List.range 5).any (fun o => tideSel e o == k + 1) then s
    else (s.setFlag (kTstat p) tstat_collision_seen true).tideFault 1 (regKey p k) 0xFFF k

/-- Router `p` applies its entry of slot j. -/
def State.route (s : State) (j p : Nat) : State :=
  let e := mget 0 s.net.tide (65536 * p + j)
  let s := (List.range 5).foldl (fun s o => s.routeOut p e o) s
  (List.range 5).foldl (fun s k => s.collide p e k) s

/-- Where a background word moves from router `p` in this clk; none where it leaves the grid, as a word of a hub die's
island, or of a router that has no place in it, does at once. The spec gives background words no route: the direction
is a free value (log entry 44). -/
def State.bgNext (s : State) (p : Nat) : Option Nat :=
  let r := s.vrow p
  let v := s.vcol p
  if 104 ≤ p ∨ !s.placed p then none
  else match Config.backgroundHop p s.clk % 4 with
    | 0 => if r = 0 then none else some (s.ptile (r - 1) v)
    | 1 => if v + 1 = vcols s.grade then none else some (s.ptile r (v + 1))
    | 2 => if r = 7 then none else some (s.ptile (r + 1) v)
    | _ => if v = 0 then none else some (s.ptile r (v - 1))

/-- A margin warning of island `isl` over class `c`, with the sending island and the margin, as a background word
(R187, R188). -/
def warnWord (isl c margin sender : Nat) : Nat := sender + 2 ^ 16 * c + 2 ^ 24 * margin + 2 ^ 32 * isl

/-- A margin warning has reached the harbourmaster (R188): its record, its EMCY message, and the mark of a sending
tile. DESIGN CHOICE (log entry 78): the physical tile byte is the island's number modulo 256 where the sender is no
tile. -/
def State.warned (s : State) (w : Nat) : State :=
  let sender := bits w 0 16
  let s := s.record 10 (sender + 2 ^ 16 * bits w 16 8) (bits w 24 8 + 2 ^ 16 * bits w 32 16)
  let s := s.emcy 4 (sender % 256 + 2 ^ 8 * bits w 16 8 + 2 ^ 16 * bits w 24 8)
  if s.flag (key 0x2600 2) mctl_retire_on_warn ∧ sender < 104 then s.markRetire sender else s

/-- In a reserved slot every background word moves one hop in the background registers; one that leaves the grid has
reached its hub die and the harbourmaster (R180, R187). -/
def State.moveBg (s : State) : State :=
  let out := s.net.bg.flatMap (fun e => if (s.bgNext e.1).isNone then e.2 else [])
  let stay := s.net.bg.foldl (fun m e => match s.bgNext e.1 with
    | none => m
    | some q => mset [] m q (mget [] m q ++ e.2)) []
  out.foldl State.warned { s with net := { s.net with bg := stay } }

/-- TIDE_SLOT (R179): once in a clk while the schedule runs; else nothing (log entry 2). -/
def execTideSlot (s : State) : Host.Outcome State Fault Refusal :=
  if s.gridRuns ∧ s.net.lastSlot ≠ some s.clk then
    let s := if s.slotAt s.clk % 64 = 63 then s.moveBg else s
    let s := { s with net := { s.net with
      lastSlot := some s.clk, captured := s.net.captured.filter (fun x => decide (s.clk < x.2.2)) } }.arrivals
    .next (((List.range 104).filter s.placed).foldl (fun s p => s.route (s.slotAt s.clk) p) s)
  else .next s

/-- A margin measured at island `isl` over class `c` (R187, R188): histogram, least margin, and the warning, which
sets out for the harbourmaster as a background word. -/
def State.margin (s : State) (isl c margin sender : Nat) : State :=
  let m := min margin 255
  let x := timingIdx isl
  let bin : Fld := { lo := 32 * min 15 (m / 4), w := 32, acc := .ro }
  let s := s.bump (key x (0x10 + c)) bin
  let k := key x 1
  let s := if m < s.fld k tstat_min_margin then (s.setFld k tstat_min_margin m).setFld k tstat_min_class c else s
  if m < s.fld (key 0x2600 2) mctl_margin_warn then
    let s := (s.bump k tstat_margin_warns).setFlag k tstat_margin_warn_seen true
    { s with net := { s.net with bg := mset [] s.net.bg isl (mget [] s.net.bg isl ++ [warnWord isl c m sender]) } }
  else s

/-- The first flight that a crossing (island, class, sending island, due) completes; a class brings an island tokens
of one sender, but for class 6 at a hub die. -/
def Flight.crossing (f : Flight) (isl c from_ due : Nat) : Bool :=
  islandOfReg f.reg == isl && f.cross == some c && (c != 6 || f.sender == from_) && f.due == due && !f.done

/-- Marks the first matching flight complete. -/
def completeFlight (isl c from_ due : Nat) : List Flight → List Flight
  | [] => []
  | f :: fs => if f.crossing isl c from_ due then { f with done := true } :: fs else f :: completeFlight isl c from_ due fs

/-- Latency of a crossing of class `c` from island `sender` (R172); of a score delivery that of R251. -/
def crossLatency (c sender : Nat) : Nat :=
  if c = 7 then 20 else if c = 4 ∨ c = 5 then (if sender < 104 then 2 else 6) else if c = 6 ∨ 104 ≤ sender then 8 else 3

/-- The entry of a crossing's holding ring that a token takes: its sending slot modulo 4 (R185). -/
def State.ringEntry (s : State) (c sender due : Nat) : Nat := s.slotAt (due - crossLatency c sender) % 4

/-- The holding ring of a crossing, which leads from `sender` to register `reg` over class `c`, has the entry of the
token scheduled for `due` free: no other token, empty or not, holds it (R185). -/
def State.entryFree (s : State) (reg c sender due : Nat) : Bool :=
  let meets := fun (d : Nat) => d != due && decide (s.clk < d) && s.ringEntry c sender d == s.ringEntry c sender due
  !s.net.flights.any (fun g => g.done && g.reg == reg && g.cross == some c && meets g.due) &&
    !s.net.captured.any (fun x => x.1 == reg && x.2.1 == c && meets x.2.2) &&
    !(c == 7 && s.dec.marks.any (fun m => m.crossed && !m.window && m.tile == sender && meets m.arrive))

/-- The holding ring of a word's crossing has its entry free. -/
def State.ringFree (s : State) (f : Flight) : Bool := s.entryFree f.reg (f.cross.getD 0) f.sender f.due

/-- Input register and crossing class of slipway `q`'s entry port (R101, R117). -/
def State.entryPort (s : State) (q : Nat) : Nat × Nat :=
  let k := key (0x22C0 + q) 1
  let i := s.fld k slip_entry_index
  if s.fld k slip_entry_edge = 0 then (regKey (s.ptile i 0) 6, 5) else (regKey (s.ptile 0 i) 7, 4)

/-- The edge router's input register of eaves port `k`, with its crossing class (R175, R264). -/
def State.eavesTarget (s : State) (k : Nat) : Nat × Nat :=
  if k < 8 then (regKey (s.ptile k 0) 3, 3)
  else if k < 20 then (regKey (s.ptile 0 (k - 8)) 0, 0)
  else if k < 28 then (regKey (s.ptile (k - 20) (vcols s.grade - 1)) 1, 1)
  else (regKey (s.ptile 7 (k - 28)) 2, 2)

/-- The island whose tokens island `isl` receives over class `c` (R184, R191 to R193, R197); none where it receives no
such token. Where a class brings tokens of several islands (6 at a hub die, 7 at the ridge) the command names the
sender, `from_`. -/
def State.crossSender (s : State) (isl c from_ : Nat) : Option Nat :=
  let r := s.vrow isl
  let v := s.vcol isl
  let slip := fun (e : Nat × Nat) => (s.slipQuays.find? (fun q => decide (s.entryPort q = e))).map (fun q => 104 + q)
  let tile := if from_ < 104 ∧ s.placed from_ then some from_ else none
  if isl < 104 then
    if s.placed isl then
      match c with
      | 0 => some (if r = 0 then 124 + eavesDie (8 + v) else s.ptile (r - 1) v)
      | 1 => some (if v + 1 = vcols s.grade then 124 + eavesDie (20 + r) else s.ptile r (v + 1))
      | 2 => some (if r = 7 then 124 + eavesDie (28 + v) else s.ptile (r + 1) v)
      | 3 => some (if v = 0 then 124 + eavesDie r else s.ptile r (v - 1))
      | 4 => if r = 0 then slip (regKey isl 7, 4) else some (s.ptile (r - 1) v)
      | 5 => if v = 0 then slip (regKey isl 6, 5) else some (s.ptile r (v - 1))
      | _ => none
    else none
  else if (c = 6 ∧ (isl = 124 ∨ isl = 125)) ∨ (c = 7 ∧ isl = 126) then tile
  else none

/-- The register a token of class `c` is bound for at island `isl`: an eaves port for class 6, the one at the sender's
edge; for class 7 a place beyond the registers, one for each sending tile. -/
def State.crossReg (s : State) (isl c sender : Nat) : Nat :=
  if c < 4 then regKey isl c
  else if c = 4 then regKey isl 7
  else if c = 5 then regKey isl 6
  else if c = 7 then regKey 200 0 + sender
  else eavesKey (((List.range 40).find? (fun k =>
    124 + eavesDie k == isl && (s.eavesTarget k).1 / 16 == sender)).getD 0)

/-- A slip at the ridge: the mark is lost and the ridge island raises the tide fault, naming the sending tile (R186,
R538). -/
def State.ridgeSlip (s : State) (sender : Nat) : State :=
  (s.setFlag (key (timingIdx 126) 1) tstat_slip_seen true).fault
    { family := 1, cause := 3, loc := loc 7 0, island := sender, detail := 7 }

/-- The slip of a crossing is among the faults of this clk. -/
def State.slipTold (s : State) (isl c sender : Nat) : Bool :=
  let r := s.crossReg isl c sender
  let l := if c = 7 then loc 7 0 else if r / 16 < 104 then loc 1 (r / 16) else loc 9 (r / 16 - 104)
  s.flt.active && s.flt.clk == s.clk &&
    s.flt.recs.any (fun f => f.family == 1 && f.cause == 3 && f.loc == l && f.island == sender && f.detail == c)

/-- A link that carries no word to clk `due` carries an empty token there (R173, R174), which a crossing measures too:
once, after the clk in which it was sent (R172). -/
def State.emptyDue (s : State) (isl c sender due : Nat) : Bool :=
  let r := s.crossReg isl c sender
  decide (due < s.clk + crossLatency c sender) && !s.net.flights.any (fun f => f.reg == r && f.cross == some c && f.due == due) &&
    !s.net.captured.contains (r, c, due) && !(c == 7 && s.dec.marks.any (fun m => !m.window && m.tile == sender && m.arrive == due))

/-- An empty token is in the holding ring of its crossing. -/
def State.capture (s : State) (isl c sender due : Nat) : State :=
  { s with net := { s.net with captured := s.net.captured ++ [(s.crossReg isl c sender, c, due)] } }

/-- A score delivery of tile `p` to the ridge, due in clk `due`, whose crossing is not complete (R197, R251). -/
def MarkRec.crossing (m : MarkRec) (p due : Nat) : Bool := m.tile == p && m.arrive == due && !m.window && !m.crossed

/-- Marks the first matching score delivery complete. -/
def completeMark (p due : Nat) : List MarkRec → List MarkRec
  | [] => []
  | m :: ms => if m.crossing p due then { m with crossed := true } :: ms else m :: completeMark p due ms

/-- CROSSING_COMPLETE (R185 to R187): a token of the class and from the island of `x`, scheduled for clk `due`, is in
the holding ring of island `isl`, where its entry is free, and its margin is measured: a word sent to that clk, a
score delivery for class 7, else the link's empty token. Completing after the edge that opens `due` is a slip (R186):
of a word it is told at that edge, of an empty token when the late completion is reported (log entry 45). -/
def execCrossingComplete (isl : Nat) (x : Crossing) (due margin : Nat) (s : State) : Host.Outcome State Fault Refusal :=
  let cls := x.cls
  if isl < 127 ∧ cls < 8 then
    match s.net.flights.find? (fun f => f.crossing isl cls x.sender due) with
    | some f =>
      if s.clk < due ∧ due ≤ s.clk + crossLatency cls f.sender ∧ s.ringFree f then
        .next ({ s with net := { s.net with flights := completeFlight isl cls x.sender due s.net.flights } }.margin isl cls
          margin f.sender)
      else .next s
    | none =>
      match s.crossSender isl cls x.sender with
      | none => .next s
      | some k =>
        if s.clk < due then
          if !s.entryFree (s.crossReg isl cls k) cls k due then .next s
          else if cls = 7 ∧ s.dec.marks.any (fun m => m.crossing k due) then
            .next ({ s with dec := { s.dec with marks := completeMark k due s.dec.marks } }.margin isl cls margin k)
          else if s.emptyDue isl cls k due then .next ((s.capture isl cls k due).margin isl cls margin k)
          else .next s
        else if s.gridRuns ∧ !s.slipTold isl cls k ∧ !s.net.captured.contains (s.crossReg isl cls k, cls, due) then
          .next (if cls = 7 then s.ridgeSlip k else s.slipAt (s.crossReg isl cls k) k cls)
        else .next s
  else .next s

/-- The entry of eaves port `k` for this clk (R265). -/
def State.eavesEntry (s : State) (k : Nat) : Nat := mget 0 s.net.eaves (65536 * k + s.slotAt s.clk)

/-- EAVES_SLOT (R265): the head word of the queue the entry names sets out; one word in a clk. -/
def execEavesSlot (port : Nat) (s : State) : Host.Outcome State Fault Refusal :=
  if eavesOk s.grade port then
    let q := s.eavesEntry port % 16
    let tgt := s.eavesTarget port
    let sent := s.net.flights.any (fun f => f.reg == tgt.1 && f.due == s.clk + 8)
    match mget [] s.net.outq (16 * port + q) with
    | w :: ws =>
      if s.gridRuns ∧ q ≠ 0 ∧ !sent then
        .next ({ s with net := { s.net with outq := mset [] s.net.outq (16 * port + q) ws } }.launch
          { reg := tgt.1, due := s.clk + 8, tok := w, cross := some tgt.2, sender := 124 + eavesDie port, done := false })
      else .next s
    | [] => .next s
  else .next s

/-- EAVES_INBOUND_WORD (R266): a descriptor waits for the intake of its die, under queue number 0 of its port; a plain
word joins the inbound queue its entry names; what has no place is a fault of the port. -/
def execEavesInboundWord (port : Nat) (s : State) : Host.Outcome State Fault Refusal :=
  if eavesOk s.grade port then
    let r := eavesKey port
    match s.reg r with
    | none => .next s
    | some w =>
      let s := { s with net := { s.net with regs := mset none s.net.regs r none } }
      let hub := key (0x26A0 + eavesDie port) 1
      let put := fun (q : Nat) =>
        let w := if q = 15 then { w with tag := some ((s.clk - s.job.s0) % 2 ^ 24) }
          else if q = 0 then { w with tag := some s.clk } else w
        { s with net := { s.net with
          inq := mset [] s.net.inq (16 * port + q) (mget [] s.net.inq (16 * port + q) ++ [w]) } }
      if w.side % 4 = 1 then .next (put 0)
      else
        let q := s.eavesEntry port / 16 % 16
        if w.side % 4 = 2 ∨ q = 0 then
          .next ((s.setFlag hub tstat_collision_seen true).tideFault 1 r 0xFFF 0)
        else if 32 ≤ (mget [] s.net.inq (16 * port + q)).length then
          .next (s.fault { family := 5, cause := 7, loc := loc 9 port })
        else .next (put q)
  else .next s

end Sys2Proof.Machine
end

