-- ==== Sys2Proof/Machine/Tenders.lean ====
section
/-! DEFINITION. Tenders (R263, R267 to R275): descriptors at intake, the copy word by word, tender words at a tile, and
the completion trees. -/

namespace Sys2Proof.Machine

/-- Fields of a descriptor (R269). -/
def descSrc (d : Nat) : Nat := bits d 4 3
/-- Destination space. -/
def descDst (d : Nat) : Nat := bits d 7 3
/-- Source address. -/
def descSrcAddr (d : Nat) : Nat := bits d 16 40
/-- Destination address. -/
def descDstAddr (d : Nat) : Nat := bits d 56 40
/-- Element length less one, in words. -/
def descElem (d : Nat) : Nat := bits d 96 16
/-- Elements less one. -/
def descCount (d : Nat) : Nat := bits d 112 16
/-- Source stride. -/
def descSrcStride (d : Nat) : Int := signed 32 (bits d 128 32)
/-- Destination stride. -/
def descDstStride (d : Nat) : Int := signed 32 (bits d 160 32)
/-- Bytes of an element. -/
def descLen (d : Nat) : Nat := 64 * (descElem d + 1)

/-- The populated DDR4 channels (R282). -/
def State.ddrChannels (s : State) : List Nat := (List.range 12).filter (bit s.tend.ddrPop)

/-- Bytes of each DIMM: 16, 32 or 64 GiB (R282). -/
def dimmBytes : Nat := 2 ^ 34 * 2 ^ (Config.dimmSize % 3)

/-- Bytes of the DDR4 module space (R282). -/
def State.ddrBytes (s : State) : Nat := s.ddrChannels.length * dimmBytes

/-- Reserved bits and codes, alignment, wrong spaces, and fields that the copy's spaces do not use (R269, R271); an
eaves port that does not exist is a reserved code. -/
def descBad (g : Grade) (d : Nat) : Bool :=
  let src := descSrc d
  let dst := descDst d
  bits d 10 6 != 0 || bits d 232 280 != 0 || src == 0 || src == 3 || decide (4 < src) || dst == 0 || decide (3 < dst)
    || descDstAddr d % 64 != 0 || bits d 128 32 % 64 != 0 || bits d 160 32 % 64 != 0
    || (if src == 4 then
          descSrcAddr d / 2 ^ 10 != 0 || bits d 22 4 == 0 || bits d 128 32 != 0 || !eavesOk g (descSrcAddr d % 64)
        else descSrcAddr d % 64 != 0)
    || (if dst == 3 then bits d 214 4 == 0 || bits d 224 8 != 0 || !eavesOk g (bits d 208 6)
        else bits d 192 26 != 0)

/-- Queue 15 of an eaves port bound to a berth bundle carries berth words: no descriptor may name it (R386). -/
def State.descBound (s : State) (d : Nat) : Bool :=
  let bound := fun (k : Nat) => s.flag (key (0x2D50 + k) 1) peer_enable
  (descSrc d == 4 && bits d 22 4 == 15 && bound (descSrcAddr d % 64)) ||
    (descDst d == 3 && bits d 214 4 == 15 && bound (bits d 208 6))

/-- The copy names the other hub die (R271). -/
def descWrongDie (die d : Nat) : Bool :=
  (d % 16 / 8 != die) || (descSrc d == 4 && eavesDie (descSrcAddr d % 64) != die)
    || (descDst d == 3 && eavesDie (bits d 208 6) != die)

/-- First byte of element `i`. -/
def elemAt (a : Nat) (stride : Int) (i : Nat) : Int := (a : Int) + i * stride

/-- Bytes [a, a + n) lie in [0, cap) and miss [base, base + size). -/
def spanOk (a : Int) (n cap base size : Nat) : Bool :=
  decide (0 ≤ a) && decide (a + n ≤ cap) && (size == 0 || decide (a + n ≤ base) || decide ((base : Int) + size ≤ a))

/-- Every byte of the copy is one R270 allows. -/
def State.descSpaceOk (s : State) (die d : Nat) : Bool :=
  let idx := List.range (descCount d + 1)
  let n := descLen d
  let src := fun (i : Nat) => elemAt (descSrcAddr d) (descSrcStride d) i
  let dst := fun (i : Nat) => elemAt (descDstAddr d) (descDstStride d) i
  (match descSrc d with
    | 1 => idx.all (fun i => spanOk (src i) n 120000000000 0 0)
    | 2 => idx.all (fun i => spanOk (src i) n s.ddrBytes 0 0)
    | _ => true) &&
  (match descDst d with
    | 1 => idx.all (fun i => spanOk (dst i) n 120000000000 (s.hbmMap die 1) (s.hbmMap die 2))
    | 2 => idx.all (fun i => spanOk (dst i) n s.ddrBytes (s.ent (key 0x27E0 3)) (s.ent (key 0x27E0 4)))
    | _ => idx.all (fun i => spanOk (dst i) n 0x1800000 0 0))

/-- Grid Tenders. -/
def kGridT : Nat := key 0x2C00 7

/-- The first failure of a descriptor at intake as a cause of R275 (R271): grid_tenders take the eaves' descriptors
and no other tender does; the capture logic's go to the others, the harbourmaster's to any (R369). -/
def State.descFault (s : State) (die source d : Nat) : Option Nat :=
  if descBad s.grade d || s.descBound d then some 2
  else if descWrongDie die d then some 3
  else if !s.descSpaceOk die d then some 4
  else if source ≠ 2 ∧ decide (source = 0) != bit (s.ent kGridT) (d % 16) then some 9
  else none

/-- A tender fault at tender `t` for the descriptor of intake sequence `q` (R275). -/
def State.tenderFault (s : State) (t cause q : Nat) : State :=
  (s.setFld (kTend t) tend_last_fault cause).fault
    { family := 5, cause := cause, loc := loc 3 t, detail := t + 2 ^ 32 * (q % 2 ^ 32) }

/-- Tender `t`. -/
def State.tender (s : State) (t : Nat) : Tender := mget {} s.tend.t t

/-- `s` with tender `t` replaced. -/
def State.setTender (s : State) (t : Nat) (x : Tender) : State :=
  { s with tend := { s.tend with t := mset {} s.tend.t t x } }

/-- Tender `t` is under a block reset: its wrapper answers every transfer with an error (R492). -/
def State.tenderFenced (s : State) (t : Nat) : Bool :=
  match s.rst.block with
  | some b => b.1 == 2 && b.2.1 == t
  | none => false

/-- Tile `p` is under a block reset (R492). -/
def State.tileFenced (s : State) (p : Nat) : Bool :=
  match s.rst.block with
  | some b => b.1 == 4 && b.2.1 == p
  | none => false

/-- Descriptor `y` comes after `r` in the intake order of R268: it reached the die in a later clk, or in the same clk
and stands behind it there. -/
def DescRec.after (y r : DescRec) : Bool := decide (r.clk < y.clk) || (y.clk == r.clk && decide (r.rank < y.rank))

/-- Descriptors of a queue that cannot be overtaken: the one whose copy is under way. -/
def Tender.begun (x : Tender) : Nat := if x.i = 0 ∧ x.w = 0 then 0 else 1

/-- How many waiting descriptors of a queue come after `r`. -/
def Tender.behind (x : Tender) (r : DescRec) : Nat := ((x.queue.drop x.begun).filter (fun y => y.after r)).length

/-- The waiting descriptors that come after `r` move up by one in the intake sequence (R268). -/
def Tender.pushBack (x : Tender) (r : DescRec) : Tender :=
  { x with queue := x.queue.take x.begun ++
      (x.queue.drop x.begun).map (fun y => if y.after r then { y with seq := (y.seq + 1) % 2 ^ 32 } else y) }

/-- A descriptor placed before those that come after it. -/
def insertDesc (r : DescRec) : List DescRec → List DescRec
  | [] => [r]
  | x :: xs => if x.after r then r :: x :: xs else x :: insertDesc r xs

/-- A descriptor with its sequence number joins a queue; one whose copy is under way stays first. -/
def Tender.place (x : Tender) (r : DescRec) : Tender :=
  { x with queue := x.queue.take x.begun ++ insertDesc r (x.queue.drop x.begun) }

/-- The number of the queue of tender `t` in which a descriptor of `source` stands: management copies have one of their
own, t + 16, so that the foreground never waits for them (R26; DEDUCED, log entry 75). -/
def laneOf (t source : Nat) : Nat := if source = 2 then t + 16 else t

/-- A descriptor joins tender `t` at its place in the one intake sequence of both queues (R267, R268). -/
def State.enterDesc (s : State) (t : Nat) (r : DescRec) : State :=
  let x := s.tender t
  let y := s.tender (t + 16)
  let r := { r with seq := (x.seq + 2 ^ 32 - x.behind r - y.behind r) % 2 ^ 32 }
  let s := (s.setTender t { x.pushBack r with seq := (x.seq + 1) % 2 ^ 32 }).setTender (t + 16) (y.pushBack r)
  s.setTender (laneOf t r.source) ((s.tender (laneOf t r.source)).place r)

/-- Descriptors for tender `t` that have reached the eaves ports of its die and are still to enter (R266): those that
stand in a port's register in this clk and those it has passed on. -/
def State.eavesWaiting (s : State) (t : Nat) : Nat :=
  ((List.range 40).map (fun k => if eavesDie k = t / 8 then
    (((s.reg (eavesKey k)).toList.filter (fun w => w.side % 4 == 1) ++ mget [] s.net.inq (16 * k)).filter
      (fun w => w.word % 16 == t)).length else 0)).sum

/-- Tender `t` has no free entry for the capture logic and the harbourmaster, before which the eaves' descriptors of
earlier clks go (R267, R268). -/
def State.tenderFull (s : State) (t : Nat) : Bool := decide (2048 ≤ s.fld (kTend t) tend_outstanding + s.eavesWaiting t)

/-- A descriptor enters the intake of hub die `die` from source 0 eaves (`rank` its port), 1 capture, 2 harbourmaster,
which it reached in clk `c` (R268, R271). -/
def State.intake (s : State) (die source rank c d : Nat) : State :=
  let t := d % 16
  let x := s.tender t
  if s.tenderFenced t then
    (if source = 0 then s.fault { family := 11, cause := 2, loc := loc 3 t, detail := t }
     else s.bump (kTend t) tend_refusals)
  else if source ≠ 0 ∧ s.tenderFull t then s
  else match (if source = 0 ∧ 2048 ≤ s.fld (kTend t) tend_outstanding then some 1 else s.descFault die source d) with
    | some c => if source = 0 then s.tenderFault t c x.seq else s.bump (kTend t) tend_refusals
    | none => (s.enterDesc t { seq := 0, word := d, source := source, clk := c, rank := rank }).bump (kTend t) tend_outstanding

/-- The lowest eaves port of a die with a descriptor `d` waiting (R268). -/
def State.waitingDesc (s : State) (die d : Nat) : Option Nat :=
  (List.range 40).find? (fun k => eavesDie k == die &&
    ((mget [] s.net.inq (16 * k)).head?.map (fun w => w.word)) == some d)

/-- DESCRIPTOR_INTAKE (R268, R271). From an eaves port the descriptor is one that EAVES_INBOUND_WORD passed on. -/
def execDescriptorIntake (die source desc : Nat) (s : State) : Host.Outcome State Fault Refusal :=
  if die < 2 ∧ source < 3 then
    if source = 0 then
      match s.waitingDesc die desc with
      | none => .next s
      | some k =>
        .next ({ s with net := { s.net with inq := mset [] s.net.inq (16 * k) ((mget [] s.net.inq (16 * k)).drop 1) }
          }.intake die 0 k ((((mget [] s.net.inq (16 * k)).head?.bind (fun w => w.tag)).getD s.clk)) desc)
    else .next (s.intake die source (39 + source) s.clk desc)
  else .next s

/-- The memory unit that holds the word at an address (R276, R282): its status word. -/
def State.unitOf (s : State) (die space a : Nat) : Nat :=
  if space = 1 then key (0x27A0 + (stackOf die a).1) 1
  else key (0x27B0 + s.ddrChannels.getD (a / 4096 % max 1 s.ddrChannels.length) 0) 1

/-- The word at address `a` of HBM or DDR4 lies in a stack or channel out of service (R275). -/
def State.unitDown (s : State) (die space a : Nat) : Bool :=
  (space == 1 || space == 2) && !s.flag (s.unitOf die space a) munit_in_service

/-- Some word of the `n` bytes at address `a` lies in a unit out of service. -/
def State.spanDown (s : State) (die space a n : Nat) : Bool :=
  (List.range ((n + 63) / 64)).any (fun i => s.unitDown die space (a + 64 * i))

/-- The clk of tenders that are reserved for management copies (R26, R267): one in 64, DEDUCED (log entry 75) to be
that of the slots with j mod 64 = 63, and on the tender's own count while no schedule runs. -/
def State.reservedClk (s : State) : Bool :=
  (if s.scheduled ∧ s.job.s0 ≤ s.clk then s.slotAt s.clk else s.clk) % 64 == 63

/-- The queue of tender `t` whose clk this is: its management copies' in the reserved clk (R26). -/
def State.tenderLane (s : State) (t : Nat) : Nat := if s.reservedClk then t + 16 else t

/-- 64 bytes at address `a` of a space. -/
def State.spaceRead (s : State) (die space a : Nat) : List Nat :=
  if space = 1 then readBytes s.mem (hbmBase die + a) 64 else s.ddrRead a 64

/-- The word at address `a` of a space is known to be uncorrectable (R275, R535). -/
def State.readsBad (s : State) (die space a : Nat) : Bool :=
  (space == 1 && s.memBad (hbmBase die + a) 64) || (space == 2 && s.memBad (ddrBase + a) 64)

/-- 64 bytes written at address `a` of a space. -/
def State.spaceWrite (s : State) (die space a : Nat) (bs : List Nat) : State :=
  if space = 1 then s.rewrite (hbmBase die + a) bs else s.ddrWrite a bs

/-- A tender past one word of descriptor `d`. -/
def Tender.past (x : Tender) (d : Nat) : Tender :=
  if x.w < descElem d then { x with w := x.w + 1 } else { x with w := 0, i := x.i + 1 }

/-- A tender rid of its first descriptor. -/
def Tender.rest (x : Tender) : Tender := { x with queue := x.queue.drop 1, i := 0, w := 0 }

/-- The copy of tender `t` ends failed (R275), `word` for an uncorrectable word: a tile's copy faults the job, any
other goes back to its issuer. -/
def State.copyFails (s : State) (t : Nat) (r : DescRec) (word : Bool) : State :=
  let die := t / 8
  let u := s.tenderLane t
  let x := s.tender u
  let a := (elemAt (descSrcAddr r.word) (descSrcStride r.word) x.i).toNat + 64 * x.w
  let s := if !word || descSrc r.word = 4 then s
    else s.setFlag (s.unitOf die (descSrc r.word) a) munit_uncorrected_seen true
  let s := s.setTender u x.rest
  let s := s.setFld (kTend t) tend_outstanding (s.fld (kTend t) tend_outstanding - 1)
  if r.source = 0 then s.tenderFault t 8 r.seq else s

/-- Sequence number `a` comes before `b` in the intake sequence of a tender. -/
def seqBefore (a b : Nat) : Bool := a != b && decide ((b + 2 ^ 32 - a) % 2 ^ 32 < 2 ^ 31)

/-- Tender `t` may move a word of the first descriptor `r` of the queue whose clk it is: one in a clk, and a management
copy's only once no earlier descriptor of the tender is left for it to overtake (R267). The words of a capture copy
move as its copy commits (log entry 77). -/
def State.tenderMoves (s : State) (t : Nat) (r : DescRec) : Bool :=
  (s.tender (s.tenderLane t)).last != some s.clk && r.frag.isNone &&
    (r.source != 2 || (s.tender t).queue.all (fun y => !seqBefore y.seq r.seq))

/-- A window card sets out as the one word of its descriptor `d`, with its completion mark, for the tender port of the
card tile, which checks and writes it (R273, R339). When it arrives the spec does not say: a free value (log entry
49). -/
def State.sendCard (s : State) (t seq d v : Nat) : State :=
  let tile := s.fld kWslot wslot_card_row_tile
  let p := s.ptile (tile % 16) (tile / 16)
  let side := 2 + 4 + (if bit d 223 then 8 else 0) + 2 ^ 4 * bits d 218 5 + 2 ^ 9 * bits d 192 8 + 2 ^ 17 * (descDstAddr d / 64) + 2 ^ 36 * t
  let f := s.fresh 32
  let fl : Flight :=
    { reg := regKey p 8, due := s.clk + 1 + f.1, tok := { word := v, side := side, tag := some seq }, cross := none, sender := p, done := true }
  { f.2 with net := { f.2.net with flights := f.2.net.flights ++ [fl] } }

/-- TENDER_WORD (R272): one word of the first descriptor, of the management copies in the reserved clk and of the
others in the rest (R26, R267); it waits while its outbound queue is full or its inbound queue is empty. A corrected
bit of the word read counts (R288); an uncorrectable word, met now or found before, ends the copy, and so does a stack
or channel out of service. -/
def execTenderWord (t : Nat) (ecc : Ecc) (s : State) : Host.Outcome State Fault Refusal :=
  if t < 16 then
    let u := s.tenderLane t
    let x := s.tender u
    match x.queue with
    | [] => .next s
    | r :: _ =>
      let d := r.word
      let die := t / 8
      let inqKey := 16 * (descSrcAddr d % 64) + descSrcAddr d / 64 % 16
      let inq := mget [] s.net.inq inqKey
      let outKey := 16 * bits d 208 6 + bits d 214 4
      let out := mget [] s.net.outq outKey
      if s.tenderMoves t r = false ∨ descCount d < x.i ∨ (descSrc d = 4 ∧ inq.isEmpty) ∨ (descDst d = 3 ∧ r.card.isNone ∧ 32 ≤ out.length) then .next s
      else if r.card.isSome then .next ((s.setTender u { x.past d with last := some s.clk }).sendCard t r.seq d (r.card.getD 0))
      else
        let sa := (elemAt (descSrcAddr d) (descSrcStride d) x.i).toNat + 64 * x.w
        let da := (elemAt (descDstAddr d) (descDstStride d) x.i).toNat + 64 * x.w
        let bad := ecc == .bad || s.readsBad die (descSrc d) sa
        if bad ∨ s.unitDown die (descSrc d) sa ∨ s.unitDown die (descDst d) da then .next (s.copyFails t r bad)
        else
          let word := if descSrc d = 4 then leBytes 64 ((inq.head?.map (fun w => w.word)).getD 0)
            else s.spaceRead die (descSrc d) sa
          let s := if descSrc d = 4 then { s with net := { s.net with inq := mset [] s.net.inq inqKey (inq.drop 1) } }
            else s
          let s := s.setTender u { x.past d with last := some s.clk }
          let s := if ecc = .corrected ∧ descSrc d ≠ 4 then s.bump (s.unitOf die (descSrc d) sa) munit_corrected else s
          if descDst d = 3 then
            let last := x.i == descCount d && x.w == descElem d
            let side := 2 + (if last then 4 else 0) + (if bit d 223 then 8 else 0) + 2 ^ 4 * bits d 218 5
              + 2 ^ 9 * bits d 192 8 + 2 ^ 17 * (da / 64) + 2 ^ 36 * t
            .next { s with net := { s.net with
              outq := mset [] s.net.outq outKey (out ++ [{ word := leNat word, side := side, tag := some r.seq }]) } }
          else .next (s.spaceWrite die (descDst d) da word)
  else .next s

/-- Every word of the first descriptor of queue `u` has moved. -/
def State.copyMoved (s : State) (u : Nat) : Bool :=
  match (s.tender u).queue with
  | [] => false
  | r :: _ => decide (descCount r.word < (s.tender u).i) && r.frag.isNone

/-- TENDER_COPY_DONE (R272, R274): every word of the first descriptor has moved and its writes are committed. -/
def execTenderCopyDone (t : Nat) (s : State) : Host.Outcome State Fault Refusal :=
  if t < 16 then
    let u := if s.copyMoved t then t else t + 16
    let x := s.tender u
    match x.queue with
    | [] => .next s
    | r :: _ =>
      if descCount r.word < x.i ∧ r.frag.isNone then
        let s := (s.setTender u x.rest).bump (kTend t) tend_completed
        let s := s.setFld (kTend t) tend_outstanding (s.fld (kTend t) tend_outstanding - 1)
        if descDst r.word ≠ 3 ∧ bit r.word 223 then
          let e := (bits r.word 224 4, bits r.word 228 4, bits r.word 218 5)
          .next { s with tend := { s.tend with
            compl := mset [] s.tend.compl (t / 8) (mget [] s.tend.compl (t / 8) ++ [e]) } }
        else .next s
      else .next s
  else .next s

/-- The slot `j` lies in the lock window of region `r`, which wraps when its last slot is below its first (R258). -/
def lockedIn (r j : Nat) : Bool :=
  let a := reg_lock_first.of r
  let b := reg_lock_last.of r
  if a ≤ b then decide (a ≤ j) && decide (j ≤ b) else decide (a ≤ j) || decide (j ≤ b)

/-- The check of a tender word at tile `p` (R273): the cause of its fault, if any. -/
def State.dataCheck (s : State) (p side : Nat) : Option Nat :=
  match ((List.range 64).map (s.region p)).find? (fun r => reg_size.of r != 0 && reg_tag.of r == bits side 9 8
      && decide (reg_base.of r ≤ bits side 17 19) && decide (bits side 17 19 < reg_base.of r + reg_size.of r)) with
  | none => some 5
  | some r =>
    if reg_tw.of r = 0 then some 5
    else if reg_lock_en.of r = 1 ∧ lockedIn r (s.slotAt (s.clk + 1)) then some 6
    else none

/-- TENDER_DATA_WORD (R273): the word at the tender port of tile `p` is checked in this clk and written in the next,
with its completion mark; the wrapper of a tile under reset takes none (R492). -/
def execTenderDataWord (p : Nat) (s : State) : Host.Outcome State Fault Refusal :=
  if tileOk s.grade p then
    match s.reg (regKey p 8) with
    | none => .next s
    | some w =>
      let s := { s with net := { s.net with regs := mset none s.net.regs (regKey p 8) none } }
      let row := bits w.side 17 19
      if s.tileFenced p then .next s else
      match s.dataCheck p w.side with
      | some c =>
        let t := bits w.side 36 4
        .next (((s.setFlag (key (0x2700 + p) 1) tmem_tender_fault_seen true).setFld (kTend t) tend_last_fault c).tileFault
          5 c p 0x7FFF (t + 2 ^ 32 * (w.tag.getD 0 % 2 ^ 32) + 2 ^ 64 * row))
      | none =>
        .next (s.plan p (s.pendAt 0x7FFF 5 1 (.sram (64 * row) (leBytes 64 w.word))
          :: if bit w.side 2 && bit w.side 3 then [s.pendAt 0x7FFF 5 1 (.cmark (bits w.side 4 5) true)] else []))
  else .next s

/-- COMPLETION_DELIVERY (R274): the first completion of a die's tree reaches its tile and sets its mark, seen from the
next clk (R252); one in a clk. DESIGN CHOICE (log entry 78): one that names no tile of the grid is dropped. -/
def execCompletionDelivery (die : Nat) (s : State) : Host.Outcome State Fault Refusal :=
  if die < 2 then
    match mget [] s.tend.compl die with
    | [] => .next s
    | (r, v, cm) :: cs =>
      if s.clk < mget 0 s.tend.complAt die then .next s else
      let s := { s with tend := { s.tend with
        compl := mset [] s.tend.compl die cs
        complAt := mset 0 s.tend.complAt die (s.clk + 1) } }
      if r < 8 ∧ v < vcols s.grade then .next (s.plan (s.ptile r v) [s.pendAt 0x7FFF 5 0 (.cmark cm true)])
      else .next s
  else .next s

end Sys2Proof.Machine
end

