-- ==== Sys2Proof/Machine/LandingOps.lean ====
section
/-! DEFINITION. What lanes and landing share: dictionary places of a lane (R71), lane groups (R90), the alignment of a
group (R91 to R95), lane frames becoming group frames (R88, R94), the gutter (R96), courses (R97, R279, R280), and the
wait for release (R103, R104, R107). -/

namespace Sys2Proof.Machine

/-! ### Places (R71, R111, R376) -/

/-- Engine `e` exists: quays 0 to 19 as the grade has them, link engines as 20 to 23. -/
def engineOk (g : Grade) (e : Nat) : Bool := quayOk g e || (decide (20 ≤ e) && decide (e < 24))

/-- Lane `n` of engine `e` exists. -/
def laneOk (g : Grade) (e n : Nat) : Bool := engineOk g e && decide (n < 32)

/-- Channel `c` of engine `e` exists. -/
def chanOk (g : Grade) (e c : Nat) : Bool := engineOk g e && decide (c < 34)

/-- Index of a lane object: the quay's from `q`, the link engine's from `l`. -/
def laneIdx (q l e : Nat) : Nat := if e < 20 then q + e else l + (e - 20)

/-- Lane Control of channel `c`. -/
def kLctl (e c : Nat) : Nat := key (laneIdx 0x2100 0x21A0 e) (1 + c)
/-- Lane Status. -/
def kLstat (e c : Nat) : Nat := key (laneIdx 0x2120 0x21A4 e) (1 + c)
/-- Lane Counters. -/
def kLcnt (e c : Nat) : Nat := key (laneIdx 0x2140 0x21A8 e) (1 + c)
/-- Lane Equaliser. -/
def kLeq (e c : Nat) : Nat := key (laneIdx 0x2160 0x21AC e) (1 + c)
/-- Lane Map of lane `n`, receive. -/
def kLmap (e n : Nat) : Nat := key (laneIdx 0x2180 0x21B4 e) (1 + n)
/-- Lane Landing Counters of lane `n`. -/
def kLlc (e n : Nat) : Nat := key (laneIdx 0x2280 0x21B8 e) (1 + n)

/-- The channel of lane `n`. -/
def State.chanOf (s : State) (e n : Nat) : Nat := s.ent (kLmap e n)

/-- The lane on channel `c`, if any. -/
def State.laneOfChan (s : State) (e c : Nat) : Option Nat := (List.range 32).find? (fun n => s.chanOf e n == c)

/-- Bundle of lane `n` of engine `e`, 20 ≤ e (R376). -/
def bundleOf (e n : Nat) : Nat := 8 * (e - 20) + n / 4

/-- Bundle word. -/
def kBun (k : Nat) : Nat := key (0x2D10 + k) 1

/-- Berth size. -/
def State.berthSize (s : State) : Nat := s.fld (key 0x2D00 1) bctl_berth_size

/-- Position in the berth. -/
def State.position (s : State) : Nat := s.fld (key 0x2D00 1) bctl_position

/-- Bundle `k` is a berth bundle: its far position is in the berth (R376). -/
def State.berthBundle (s : State) (k : Nat) : Bool :=
  decide (k < 31) && decide ((s.position + k + 1) % 32 < s.berthSize)

/-- Lanes of group `g` of quay `q` (R90). -/
def State.groupLanes (s : State) (q g : Nat) : List Nat :=
  (List.range (s.laneCount q g)).map (fun i => s.fld (key (0x2200 + q) (2 + g)) grp_first_lane + i)

/-- The group of lane `n` of quay `q`, if any. -/
def State.groupOf (s : State) (q n : Nat) : Option Nat := (List.range 4).find? (fun g => (s.groupLanes q g).contains n)

/-- The lanes brought up together with lane `n` (R54, R69, R378). DESIGN CHOICE (log entry 79): with lane 0 of bundle 31 an
uplink, its other three lanes are one unit. -/
def State.unitLanes (s : State) (e n : Nat) : List Nat :=
  if e < 20 then (match s.groupOf e n with | some g => s.groupLanes e g | none => [n])
  else if bundleOf e n = 31 ∧ s.fld (kBun 31) bun_role = 3 then (if n = 28 then [28] else [29, 30, 31])
  else (List.range 4).map (fun i => n / 4 * 4 + i)

/-- Blocks per 1,000,000 clk at a rate code (R45, R106). -/
def bpcMillion : Nat → Nat
  | 0 => 125000
  | 1 => 312500
  | 2 => 643939
  | _ => 1287879

/-- Key of the bring-up of lane `n`'s unit: 32 e + its first lane. -/
def State.unitKey (s : State) (e n : Nat) : Nat := 32 * e + (s.unitLanes e n).headD n

/-- The group is one of the job's (R95). -/
def State.isJobGroup (s : State) (q g : Nat) : Bool := s.jobGroups.contains (4 * q + g)

/-- Parser of lane `n` of engine `e`. -/
def State.parser (s : State) (e n : Nat) : Parser := mget {} s.land.parsers (32 * e + n)
/-- `s` with it replaced. -/
def State.setParser (s : State) (e n : Nat) (p : Parser) : State :=
  { s with land := { s.land with parsers := mset {} s.land.parsers (32 * e + n) p } }

/-- Group `g` of quay `q`. -/
def State.group (s : State) (q g : Nat) : Group := mget {} s.land.groups (4 * q + g)
/-- `s` with it replaced. -/
def State.setGroup (s : State) (q g : Nat) (x : Group) : State :=
  { s with land := { s.land with groups := mset {} s.land.groups (4 * q + g) x } }

/-- Group Status. -/
def kGst (q g : Nat) : Nat := key (0x2220 + q) (1 + g)

/-- align_state (R91). -/
def State.align (s : State) (q g : Nat) : Nat := s.fld (kGst q g) gstat_align_state

/-- A group frame goes to the gutter of quay `q` (R96). -/
def State.gutter (s : State) (q reason : Nat) : State := s.bump (key (0x2240 + q) reason) cnt48

/-! ### Courses (R97, R279, R280) -/

/-- Every stack of hub die `d` is in service. -/
def State.stacksOk (s : State) (d : Nat) : Bool :=
  (List.range 5).all (fun i => s.flag (key (0x27A0 + 5 * d + i) 1) munit_in_service)

/-- The landing island of quay `q` has its clock (R38, R413). -/
def State.islandRuns (s : State) (q : Nat) : Bool := !s.time.unlocked.contains (104 + q)

/-- The course slots of quay `q` lie in the ring region of its die. DESIGN CHOICE (log entry 76): before an arming has
checked it (R278), a quay whose segment leaves the region has no slot to write. -/
def State.ringFits (s : State) (q : Nat) : Bool :=
  let d := quayDie q
  let n := s.ent (key (0x2780 + q) 2) + if s.flag kCapc capc_ring_mode then s.ent (key (0x2960 + q) 1) else 0
  decide (s.ent (key (0x2780 + q) 2) ≠ 0) && decide (s.ent (key (0x2780 + q) 1) + n * s.courseSize q ≤ s.hbmMap d 2) &&
    decide (s.hbmMap d 1 + s.hbmMap d 2 ≤ 120000000000)

/-- Quay `q` writes the ring, in every job state (R37, R97, R107), unless landing is stopped by a thermal trip, a
stack of its die is out of service or its landing island has lost its clock (R38). -/
def State.ringOn (s : State) (q : Nat) : Bool :=
  !s.tele.hold && s.stacksOk (quayDie q) && s.islandRuns q && s.ringFits q

/-- Courses of quay `q` whose header is not written. -/
def State.courses (s : State) (q : Nat) : List Course := mget [] s.land.courses q

/-- The course of frame `n`, changed by `f`; made at address `a` when it is not there. -/
def changeCourse (n a : Nat) (f : Course → Course) : List Course → List Course
  | [] => [f { frame := n, addr := a }]
  | c :: cs => if c.frame = n then f c :: cs else c :: changeCourse n a f cs

/-- `s` with the course of frame `n` of quay `q` changed. -/
def State.onCourse (s : State) (q n : Nat) (f : Course → Course) : State :=
  { s with land := { s.land with courses := mset [] s.land.courses q (changeCourse n (s.coursePtr q n) f (s.courses q)) } }

/-- Offset of group `g` in a course of quay `q` (R279). -/
def State.groupOffset (s : State) (q g : Nat) : Nat :=
  128 + ((List.range g).map (fun i => s.laneCount q i * s.blocksPer q i * 8)).sum

/-- The payload bytes of a group: lane by lane, zeros for a lane that was lost (R97). -/
def State.groupBytes (s : State) (q g : Nat) (data : List (Nat × List Nat)) : List Nat :=
  (List.range (s.laneCount q g)).flatMap (fun i =>
    let blocks := ((data.find? (fun e => e.1 == i)).map (fun e => e.2)).getD []
    (List.range (s.blocksPer q g)).flatMap (fun b => leBytes 8 (blocks.getD b 0)))

/-- The entry of a group in a course header (R279). -/
def courseEntry (reason flags valid count : Nat) : Nat :=
  reason + 2 ^ 4 * flags + 2 ^ 12 * valid + 2 ^ 44 * count

/-- The header with its CRC from its first 124 bytes. -/
def sealHeader (v : Nat) : List Nat := let b := leBytes 124 v; b ++ leBytes 4 (crc32c b)

/-- The header of a course (R279); a group that has not landed is missing. Where no frame-close came, the spec states
no time stamp: `stamp` is then a free value. -/
def State.courseHeader (s : State) (q : Nat) (c : Course) (stamp : Nat) : List Nat :=
  let entry := fun (g : Nat) =>
    if s.laneCount q g = 0 then 0
    else let e := mget (6, 0, 0) c.groups g; courseEntry e.1 e.2.1 e.2.2 (s.laneCount q g)
  sealHeader (c.frame + 2 ^ 48 * q + (if c.replayed then 2 ^ 53 else 0) + 2 ^ 64 * stamp
    + 2 ^ 128 * s.payloadBytes q + 2 ^ 256 * entry 0 + 2 ^ 320 * entry 1 + 2 ^ 384 * entry 2 + 2 ^ 448 * entry 3)

/-- A header written again with the entry of one group (R280). DESIGN CHOICE (log entry 79): it keeps its time_stamp. -/
def amendHeader (h : List Nat) (g e : Nat) : List Nat :=
  let v := leNat (h.take 124)
  let f : Fld := { lo := 256 + 64 * g, w := 64, acc := .ro }
  sealHeader (f.put v e)

/-- Address of a course of frame `n` of quay `q` whose header is written and still in its slot. -/
def State.writtenAt (s : State) (q n : Nat) : Option Nat :=
  match (mget [] s.land.written q).find? (fun e => e.1 == n) with
  | some e => if leNat (readBytes s.mem e.2 6) = n then some e.2 else none
  | none => none

/-- The later of two time stamps that may be missing. -/
def laterStamp (a b : Option Nat) : Option Nat :=
  match a, b with
  | some x, some y => some (max x y)
  | some x, none => some x
  | none, y => y

/-- Frame `frame` has landed on group `g` (R384). -/
def State.noteLanded (s : State) (q g frame : Nat) : State :=
  let x := s.group q g
  s.setGroup q g { x with landed := match x.landed with
    | some n => if later frame n then some frame else some n
    | none => some frame }

/-- A group frame is written to its course (R97, R280): payload now, its entry in the header to come, or in the header
already written, as late. A course that begins in a spill band freezes the ring (R325). -/
def State.landCourse (s : State) (q g frame reason flags valid : Nat) (data : List (Nat × List Nat))
    (stamp : Option Nat) : State :=
  let s := s.noteLanded q g frame
  if s.ringOn q then
    let bytes := s.groupBytes q g data
    match (if (s.courses q).any (fun c => c.frame == frame) then none else s.writtenAt q frame) with
    | some a =>
      (s.rewrite (a + s.groupOffset q g) bytes).rewrite a
        (amendHeader (readBytes s.mem a 128) g (courseEntry 7 flags valid (s.laneCount q g)))
    | none =>
      let fresh := !(s.courses q).any (fun c => c.frame == frame)
      let s := if fresh && s.spills frame then s.setFlag kCaps caps_frozen true else s
      let s := s.onCourse q frame (fun c =>
        { c with groups := mset (6, 0, 0) c.groups g (reason, flags, valid), stamp := laterStamp c.stamp stamp,
                 close := max c.close (s.clk + 16) })
      match (s.courses q).find? (fun c => c.frame == frame) with
      | some c => s.rewrite (c.addr + s.groupOffset q g) bytes
      | none => s
  else s

/-- The final gutter reason of a group in a course whose header is to come, where the group has landed in it (R97). -/
def State.courseReason (s : State) (q g frame reason : Nat) : State :=
  if (s.courses q).any (fun c => c.frame == frame && c.groups.any (fun e => e.1 == g)) then
    s.onCourse q frame (fun c =>
      let e := mget (6, 0, 0) c.groups g
      { c with groups := mset (6, 0, 0) c.groups g (reason, e.2.1, e.2.2) })
  else s

/-! ### Waiting for release (R103, R104, R107) -/

/-- Start, or the resume of a parked job, has registered and the schedule is not bound (R103, R462). -/
def State.awaiting (s : State) : Bool :=
  s.flag kJob jst_started && !s.job.bound && (s.jobState == ARMED || (s.jobState == PAUSED && s.job.resumeParked))

/-- Slots of quay `q` released so far. -/
def State.released (s : State) (q : Nat) : Nat := mget 0 s.land.released q

/-- The slot of frame `n` of group `g` of quay `q` has been released, in this schedule or in one that has ended, and has
counted what was not there (R96). -/
def State.slotPast (s : State) (q g n : Nat) : Bool :=
  (match (s.group q g).past with | some p => !later n p | none => false) || s.job.bound && s.slipQuays.contains q && decide (0 ≤ frameIndex s.job.n0 n) &&
    decide (frameIndex s.job.n0 n < s.released q)

/-- A berth is moored (R391). -/
def State.moored (s : State) : Bool := s.flag (key 0x2D00 1) bctl_moored && decide (1 < s.berthSize)

/-- A moored module may make no timing-dependent choice: a late or overflowed group frame is a berth fault (R391). -/
def State.frameLate (s : State) (frame : Nat) : State :=
  if s.moored then s.fault { family := 8, cause := 4, loc := 0, frame := frame } else s

/-- A frame ready in this clk or before leaves its group's ready list (R96, R103, R107): without a schedule, or on a
quay outside the job, it is held; before N0 it is late; beyond two waiting frames it overflows; else it waits. DESIGN
CHOICE (log entry 74): a frame already counted for a reason of 1 to 4 takes one of the two waiting places until its
slot; R96 does not say. -/
def State.settleOne (s : State) (q g : Nat) (f : ReadyFrame) : State :=
  let drop := fun (s : State) (r : Nat) => (if f.counted then s else s.gutter q r)
  if !s.job.bound || !s.slipQuays.contains q then
    let r := if f.reason = 0 then 10 else f.reason
    (drop s r).courseReason q g f.frame r
  else if frameIndex s.job.n0 f.frame < 0 then
    let r := if f.reason = 0 ∨ 7 < f.reason then 7 else f.reason
    let s := (drop s r).courseReason q g f.frame r
    if r = 7 then s.frameLate f.frame else s
  else
    let x := s.group q g
    if 2 ≤ x.wait.length then
      let r := if f.reason = 0 ∨ 8 < f.reason then 8 else f.reason
      let s := s.setGroup q g { x with gone := (f.frame, r) :: x.gone }
      let s := (drop s r).courseReason q g f.frame r
      if r = 8 then s.frameLate f.frame else s
    else s.setGroup q g { x with wait := x.wait ++ [f] }

/-- Settles every frame of a group that is ready by clk `c`, oldest first. -/
def State.settleBy (s : State) (c q g : Nat) : State :=
  let x := s.group q g
  let ripe := x.ready.filter (fun f => decide (f.ready ≤ c))
  let s := s.setGroup q g { x with ready := x.ready.filter (fun f => !decide (f.ready ≤ c)) }
  ripe.foldl (fun s f => s.settleOne q g f) s

/-- The groups that have landed something, as 4 q + g. -/
def State.landGroups (s : State) : List Nat := s.land.groups.map Prod.fst

/-- Every frame ready by clk `c` is settled; those of the job's quays wait while the start waits for its binding. -/
def State.settleAll (s : State) (c : Nat) : State :=
  s.landGroups.foldl (fun s k => if s.awaiting ∧ s.slipQuays.contains (k / 4) then s else s.settleBy c (k / 4) (k % 4)) s

/-! ### Alignment (R91, R93, R95) -/

/-- A lane is in service: block lock and bringup_state 8. -/
def State.inService (s : State) (e n : Nat) : Bool :=
  let k := kLstat e (s.chanOf e n)
  s.flag k lstat_block_lock && s.fld k lstat_bringup_state == 8

/-- Every lane of a group confirmed its identity. -/
def State.allMarked (s : State) (q g : Nat) : Bool := (s.groupLanes q g).all (fun n => (s.parser q n).marked)

/-- The group moves by the conditions of R91 on its lanes. -/
def State.refreshGroup (s : State) (q g : Nat) : State :=
  let st := s.align q g
  let ok := (s.groupLanes q g).all (s.inService q)
  if s.laneCount q g = 0 then (if st = 0 then s else s.setFld (kGst q g) gstat_align_state 0)
  else if st ≤ 1 then
    if ok then
      (s.groupLanes q g).foldl (fun s n => s.setParser q n { s.parser q n with marked := false })
        ((s.setGroup q g { s.group q g with open_ := [], incomplete := 0 }).setFld (kGst q g) gstat_align_state 2)
    else s.setFld (kGst q g) gstat_align_state 1
  else if st = 2 then
    if !ok then s.setFld (kGst q g) gstat_align_state 1
    else if s.allMarked q g then
      ((s.setGroup q g { s.group q g with good := 0, last := none }).setFld (kGst q g) gstat_align_state 3).setFld
        (kGst q g) gstat_skew_max 0
    else s
  else if st = 3 ∧ !ok then s.setFld (kGst q g) gstat_align_state 1
  else s

/-- The lanes of a group frame that arrived whole: without a fault (R97, R279). -/
def lanesValid (l : List LaneFrame) : Nat := ((l.filter (fun f => decide (f.fault = 0))).map (fun f => 2 ^ f.lane)).sum

/-- The stored blocks of the lanes of a group frame, by lane of the group. -/
def lanesData (l : List LaneFrame) : List (Nat × List Nat) := l.map (fun f => (f.lane, f.data))

/-- OR of the frame-open flags. -/
def lanesFlags (l : List LaneFrame) : Nat := l.foldl (fun v f => v ||| f.flags) 0

/-- The latest frame-close of some lane frames. -/
def lanesStamp (l : List LaneFrame) : Option Nat := l.foldl (fun v f => laterStamp v f.stamp) none

/-- The lane frames of group frame `f` that are open in their parsers, as they stand: cut by the loss of alignment,
with the blocks stored so far (R94). -/
def State.cutLanes (s : State) (q g : Nat) (f : GroupFrame) : List LaneFrame :=
  let first := s.fld (key (0x2200 + q) (2 + g)) grp_first_lane
  (List.range (s.laneCount q g)).filterMap (fun i =>
    let p := s.parser q (first + i)
    if p.inside && p.frame == f.frame && !f.ended.any (fun l => l.lane == i) then
      some { lane := i, fault := 3, flags := p.flags, data := p.data.reverse, stamp := none }
    else none)

/-- The frames of a group that lost alignment go to the gutter as unaligned, unless counted before; a frame being
deskewed is written to its course as it stands (R93, R94, R97). One counted as unaligned before the group was aligned
is neither counted again nor written (R91). -/
def State.dropFrames (s : State) (q g : Nat) (x : Group) : State :=
  let s := (x.ready ++ x.wait).foldl (fun s f =>
    (if f.counted then s else s.gutter q 5).courseReason q g f.frame (if f.counted then f.reason else 5)) s
  (x.open_.filter (fun f => !x.gone.any (fun e => e.1 == f.frame))).foldl (fun s f =>
    let l := f.ended ++ s.cutLanes q g f
    (if s.slotPast q g f.frame then s else s.gutter q 5).landCourse q g f.frame (if s.slotPast q g f.frame then 7 else 5)
      (lanesFlags l) (lanesValid l) (lanesData l) (lanesStamp l)) s

/-- A group leaves wait_marker, wait_frame or aligned for wait_lock (R91, R93): an aligned group drops its frames,
reports its loss and doubt; the group then moves on by R91. -/
def State.loseAlign (s : State) (q g : Nat) : State :=
  let st := s.align q g
  if st < 2 then s
  else
    let x := s.group q g
    let lost := x.open_.map (fun f => (f.frame, 5)) ++
      (x.ready ++ x.wait).map (fun f => (f.frame, if f.counted then f.reason else 5))
    let clear := fun (s : State) => (s.setGroup q g
      { gone := (if st = 4 ∧ s.landOn q then lost else []) ++ x.gone, landed := (s.group q g).landed, past := x.past }).setFld (kGst q g) gstat_align_state 1
    if st < 4 then (clear s).refreshGroup q g
    else
      let s := s.record 7 (q + 2 ^ 8 * g) (st + 2 ^ 8 * s.fld (kGst q g) gstat_skew_max)
      let s := s.setFlag (kGst q g) gstat_align_lost_seen true
      let s := if s.landOn q then s.dropFrames q g x else s
      ((clear s).refreshGroup q g).refreshLaneDoubt

/-! ### Lane frames and group frames (R88, R91, R94, R96) -/

/-- Gutter reason of a complete group frame (R96): the lowest lane fault, else flags. -/
def frameReason (l : List LaneFrame) (dropFlags : Nat) : Nat :=
  let faults := (l.map (fun f => f.fault)).filter (fun r => r != 0)
  match faults with
  | r :: rs => rs.foldl min r
  | [] => if lanesFlags l &&& dropFlags ≠ 0 then 9 else 0

/-- A group frame all of whose lanes ended (R91, R93, R96, R97); one that was counted as unaligned before the group was
aligned has gone to the gutter (R91). -/
def State.completeFrame (s : State) (q g : Nat) (f : GroupFrame) : State :=
  let x := s.group q g
  let st := s.align q g
  let faulted := f.ended.any (fun l => l.fault != 0)
  let inc := if f.ended.any (fun l => l.fault == 4) then x.incomplete + 1 else 0
  let rest := x.open_.filter (fun y => y.frame != f.frame)
  if st = 3 then
    let next := match x.last with | some n => (n + 1) % 2 ^ 48 == f.frame | none => false
    let good := if faulted ∨ 64 < f.skew then 0 else if next then x.good + 1 else 1
    let s := s.setGroup q g { x with open_ := rest, good := good, incomplete := inc, last := some f.frame }
    if 4 ≤ good then
      (s.setFld (kGst q g) gstat_align_state 4).refreshLaneDoubt
    else if 3 ≤ inc then s.loseAlign q g else s
  else if st = 4 then
    if 3 ≤ inc then s.loseAlign q g
    else
      let s := s.setGroup q g { x with open_ := rest, incomplete := inc, last := some f.frame }
      if s.landOn q ∧ !x.gone.any (fun e => e.1 == f.frame) then
        let flags := lanesFlags f.ended
        let valid := lanesValid f.ended
        let data := lanesData f.ended
        let reason := frameReason f.ended (s.fld (key (0x2200 + q) (2 + g)) grp_drop_flags)
        let stamp := lanesStamp f.ended
        if s.slotPast q g f.frame then s.landCourse q g f.frame 7 flags valid data stamp
        else
          let now := decide (1 ≤ reason) && decide (reason ≤ 4)
          let s := (if now then s.gutter q reason else s).landCourse q g f.frame reason flags valid data stamp
          let r : ReadyFrame := { frame := f.frame, ready := s.clk + 16, reason := reason, counted := now, flags := flags, data := data }
          s.setGroup q g { s.group q g with ready := (s.group q g).ready ++ [r] }
      else s
  else
    let s := s.setGroup q g { x with open_ := rest, incomplete := inc }
    if 3 ≤ inc then s.loseAlign q g else s

/-- A lane frame of the group frame `n` ended (or was found missing): the group frame completes with its last lane. -/
def State.endLaneFrame (s : State) (q g n : Nat) (l : LaneFrame) : State :=
  let x := s.group q g
  match x.open_.find? (fun y => y.frame == n) with
  | none => s
  | some f =>
    if f.ended.any (fun y => y.lane == l.lane) then s
    else
      let f := { f with ended := f.ended ++ [l] }
      let s := s.setGroup q g { x with open_ := x.open_.map (fun y => if y.frame = n then f else y) }
      if f.ended.length = s.laneCount q g then s.completeFrame q g f else s

/-- Fault of a lane frame that ends malformed: damaged when it held a damaged block, which is the lower reason (R88, R89,
R96). -/
def Parser.cutFault (p : Parser) : Nat := if p.damaged then 2 else 3

/-- The lane frame inside the parser of lane `n` ends with a fault of R89 (0 none, 3 malformed); `stamp` is the time of
its frame-close, if one came. -/
def State.endParser (s : State) (q g n fault : Nat) (stamp : Option Nat) : State :=
  let p := s.parser q n
  let i := n - s.fld (key (0x2200 + q) (2 + g)) grp_first_lane
  let s := s.setParser q n { p with inside := false, count := 0, data := [], damaged := false }
  s.endLaneFrame q g p.frame { lane := i, fault := fault, flags := p.flags, data := p.data.reverse, stamp := stamp }

/-- The count of blocks to the next lane marker of lane `n` ends with its block lock: markers are counted in consecutive
blocks (R93). -/
def State.dropPhase (s : State) (e n : Nat) : State :=
  s.setParser e n { s.parser e n with mark := 0, missed := 0, hasMark := false }

/-- Bundle `k` is aligned: each of its four lanes has confirmed its identity since it locked (R93, R377). -/
def State.bundleAligned (s : State) (k : Nat) : Bool :=
  (List.range 4).all (fun b => (s.parser (20 + k / 8) (k % 8 * 4 + b)).marked)

/-- The bundle of lane `n` of link engine `e` is no longer aligned (R93, R377); it is so again once every lane of it
has received a new marker (R91). A berth bundle that left aligned is a berth fault while the berth is moored (R393),
which every cycle-coupled berth is (R387); in an unmoored berth what its peer sent before says no more whether that
restarts (R392; DESIGN CHOICE, log entry 55). -/
def State.bundleDown (s : State) (e n : Nat) : State :=
  let k := bundleOf e n
  let t := (List.range 4).foldl (fun s b => s.setParser e (n / 4 * 4 + b) { s.parser e (n / 4 * 4 + b) with marked := false }) s
  let p := (s.position + k + 1) % 32
  if s.bundleAligned k ∧ s.active ∧ s.berthBundle k then
    if s.moored then t.fault { family := 8, cause := 7, loc := loc 4 (e - 20), detail := k + 2 ^ 8 * p }
    else { t with berth := { t.berth with nextOf := mset none t.berth.nextOf p none } }
  else t

/-- block_lock cleared on lane `n` (R88, R91, R93): its lane frame ends malformed, and its group leaves wait or loses
alignment; a link lane takes its bundle out of alignment. -/
def State.laneUnlocked (s : State) (e n : Nat) : State :=
  let s := s.dropPhase e n
  if e < 20 then
    match s.groupOf e n with
    | none => s
    | some g =>
      let s := if (s.parser e n).inside then s.endParser e g n (s.parser e n).cutFault none else s
      (s.loseAlign e g).refreshGroup e g
  else s.bundleDown e n

end Sys2Proof.Machine
end

