-- ==== Sys2Proof/Machine/Lanes.lean ====
section
/-! DEFINITION. Optical lanes and link engines (R44 to R72): light, block lock and its search, equalisers, figure of
merit, power states, slip, lane maps, light and bring-up. What light, eyes and samples measure comes with the command (log
entry 13). -/

namespace Sys2Proof.Machine

/-- Abort codes the lane writes give (R439). -/
def abState : Nat := 0x08000022
/-- A value out of range. -/
def abRange : Nat := 0x06090030

/-- Channel word beyond the dictionary. -/
def State.chan (s : State) (e c : Nat) : Chan := mget {} s.land.chans (64 * e + c)
/-- `s` with it replaced. -/
def State.setChan (s : State) (e c : Nat) (x : Chan) : State :=
  { s with land := { s.land with chans := mset {} s.land.chans (64 * e + c) x } }

/-- What follows for the lane on channel `c` when its block lock clears or its group's condition may have changed. -/
def State.afterUnlock (s : State) (e c : Nat) : State :=
  match s.laneOfChan e c with
  | some n => s.laneUnlocked e n
  | none => s

/-- The group of the lane on channel `c` moves by R91. -/
def State.afterLock (s : State) (e c : Nat) : State :=
  match s.laneOfChan e c with
  | some n => if e < 20 then (match s.groupOf e n with | some g => s.refreshGroup e g | none => s) else s
  | none => s

/-- block_lock clears without a loss (R67): entry into sleep. -/
def State.unlock (s : State) (e c : Nat) : State :=
  let k := kLstat e c
  let had := s.flag k lstat_block_lock
  let s := (s.setFlag k lstat_block_lock false).setFlag k lstat_cdr_lock false
  if had then s.afterUnlock e c else s

/-- The bring-up of unit `gk`. -/
def State.bringOf (s : State) (gk : Nat) : Option Bring := mget none s.land.bring gk
/-- `s` with it replaced. -/
def State.setBring (s : State) (gk : Nat) (b : Option Bring) : State :=
  { s with land := { s.land with bring := mset none s.land.bring gk b } }

/-- The bring-up of the lane on channel `c`, if one is under way. -/
def State.bringAt (s : State) (e c : Nat) : Option Bring :=
  match s.laneOfChan e c with
  | some n => s.bringOf (s.unitKey e n)
  | none => none

/-- The lane on channel `c` has no bring-up under way. -/
def State.settled (s : State) (e c : Nat) : Bool := (s.laneOfChan e c).isSome && (s.bringAt e c).isNone

/-- The slip value of a lane and its present boundary; the lock count restarts (R63). -/
def State.putSlip (s : State) (e c v : Nat) : State :=
  let s := (s.setFld (kLctl e c) lctl_slip v).setFld (kLstat e c) lstat_slip_now v
  s.setChan e c { s.chan e c with since := some s.clk }

/-- A block-lock search starts at the last locked slip (R64). -/
def State.startSearch (s : State) (e c : Nat) : State :=
  let s := s.putSlip e c (s.chan e c).lastSlip
  s.setChan e c { s.chan e c with search := some 0, conv := false }

/-- The DFE of the lane on channel `c` reconverges, before its block-lock search (R66, R67). -/
def State.reconverge (s : State) (e c : Nat) : State := s.setChan e c { s.chan e c with search := none, conv := true }

/-- `n` blocks have passed on channel `c` at its rate since its lock count restarted (R45, R63). -/
def State.waited (s : State) (e c n : Nat) : Bool :=
  match (s.chan e c).since with
  | none => true
  | some t => decide (n * 1000000 ≤ (s.clk - t) * bpcMillion (s.fld (kLstat e c) lstat_rate_now))

/-- bringup_state holds a failure code, which stays until the next start_bringup (R61). -/
def State.failedCode (s : State) (e c : Nat) : Bool :=
  let st := s.fld (kLstat e c) lstat_bringup_state
  decide (9 ≤ st) && decide (st ≤ 14)

/-- bringup_state of a relock, which leaves a failure code in place (R61, R66). -/
def State.relockState (s : State) (e c v : Nat) : State :=
  if s.failedCode e c then s else s.setFld (kLstat e c) lstat_bringup_state v

/-- An automatic relock starts (R66): from light on, with the DFE's reconvergence. -/
def State.startRelock (s : State) (e c : Nat) : State :=
  let s := (s.relockState e c 7).setChan e c { s.chan e c with relock := true }
  if s.flag (kLstat e c) lstat_signal_detect then s.reconverge e c else s

/-- block_lock of a locked lane clears, which is one loss (R62, R66): outside a bring-up it relocks by itself when
auto_relock is 1. -/
def State.dropLock (s : State) (e c : Nat) : State :=
  let k := kLstat e c
  let s := ((s.setFlag k lstat_block_lock false).setFlag k lstat_lock_lost_seen true).bump (kLcnt e c) lcnt_lock_losses
  let s := if s.flag (kLctl e c) lctl_auto_relock ∧ s.settled e c then s.startRelock e c else s
  s.afterUnlock e c

/-- Tap k (1 to 12) of the equaliser readout (R76). -/
def dfeTap (k : Nat) : Fld := { lo := 8 * k + 8, w := 8, acc := .ro }

/-- The receiver runs at a rate (R55): its clock recovery starts anew, and taps 9 to 12 read 0 at NRZ rates (R76). -/
def State.tune (s : State) (e c rate : Nat) : State :=
  let s := (s.setFld (kLstat e c) lstat_rate_now rate).setFlag (kLstat e c) lstat_cdr_lock false
  if rate < 2 then (List.range 4).foldl (fun s i => s.setFld (kLeq e c) (dfeTap (i + 9)) 0) s else s

/-- A lane loses block lock (R62, R66); in the switch state of a bring-up, with a countdown block seen, it is retuned
(R55). -/
def State.lockLoss (s : State) (e c : Nat) : State :=
  if s.flag (kLstat e c) lstat_block_lock then
    let t := s.dropLock e c
    match s.bringAt e c with
    | some b => if b.state = 5 ∧ (s.chan e c).cdown then t.tune e c b.rate else t
    | none => t
  else s

/-- Receivers retuned to a rate: a locked lane loses cdr_lock and with it block_lock, which is a loss (R62, R66). -/
def State.retune (s : State) (e c rate : Nat) : State :=
  (if s.flag (kLstat e c) lstat_block_lock then s.dropLock e c else s).tune e c rate

/-- The window of sync headers of the lane on channel `c` starts anew (R62). -/
def State.clearHeaders (s : State) (e c : Nat) : State :=
  match s.laneOfChan e c with
  | some n => s.setParser e n { s.parser e n with hdr := 0 }
  | none => s

/-- block_lock sets at the present slip, which ends a search (R62, R64); on a lane that is locked already the window
of sync headers goes on. -/
def State.gainLock (s : State) (e c : Nat) : State :=
  let k := kLstat e c
  let had := s.flag k lstat_block_lock
  let s := if had then s else (s.setFlag k lstat_block_lock true).setFlag k lstat_cdr_lock true
  let s := s.setChan e c { s.chan e c with lastSlip := s.fld k lstat_slip_now, search := none }
  (if had then s else s.clearHeaders e c).afterLock e c

/-- SIGNAL_DETECT_CHANGE (R44, R62): a relock waiting for light starts with the DFE's reconvergence (R66). -/
def execSignalDetectChange (e ch : Nat) (up : Bool) (s : State) : Host.Outcome State Fault Refusal :=
  if chanOk s.grade e ch then
    let k := kLstat e ch
    if s.flag k lstat_signal_detect = up then .next s
    else
      let s := s.setFlag k lstat_signal_detect up
      .next (if up then (if (s.chan e ch).relock then s.reconverge e ch else s) else s.lockLoss e ch)
  else .next s

/-- BLOCK_LOCK_SET (R62): 64 valid sync headers in a row since the lock count restarted (R63), on a lane that is not
asleep, or that wakes (R67); a lane whose relock failed stays unlocked (R66). -/
def execBlockLockSet (e ch : Nat) (s : State) : Host.Outcome State Fault Refusal :=
  if chanOk s.grade e ch then
    let x := s.chan e ch
    if s.flag (kLstat e ch) lstat_block_lock ∨ x.dead ∨ !s.waited e ch 64 ∨
        (s.fld (kLstat e ch) lstat_power_state_now = 2 ∧ x.search.isNone) then .next s
    else .next (s.gainLock e ch)
  else .next s

/-- BLOCK_LOCK_LOSS (R62, R66): by invalid headers, or by the loss of CDR lock. -/
def execBlockLockLoss (e ch : Nat) (cdr : Bool) (s : State) : Host.Outcome State Fault Refusal :=
  if chanOk s.grade e ch then
    let s := if cdr then s.setFlag (kLstat e ch) lstat_cdr_lock false else s
    .next (s.lockLoss e ch)
  else .next s

/-- RELOCK_DONE (R66): with light, bringup_state 8 once the lane is locked, or 12 when the search failed and the lane
is still unlocked; it then stays so. The lane's group moves on (R91). Success on a lane that is not locked is no event of the hardware (log entry 2).
-/
def execRelockDone (e ch : Nat) (ok : Bool) (s : State) : Host.Outcome State Fault Refusal :=
  if chanOk s.grade e ch then
    let k := kLstat e ch
    let x := s.chan e ch
    if x.relock ∧ s.flag k lstat_signal_detect then
      if s.flag k lstat_block_lock then
        .next (((s.setChan e ch { x with relock := false, conv := false, search := none }).relockState e ch 8).afterLock e ch)
      else if ok then .next s
      else .next (((s.setChan e ch { x with relock := false, dead := true, conv := false, search := none }).relockState e ch 12).afterLock e ch)
    else .next s
  else .next s

/-- BLOCK_LOCK_SEARCH_STEP (R64): 72 blocks at one slip of a running search have passed; locked there, or on to the
next slip, of two passes over all 66 from the last locked one. On a lane whose DFE reconverges the step says that it
has, and the search starts (R66, R67; DESIGN CHOICE, log entry 36: the table has no row for the end of a
reconvergence). -/
def execBlockLockSearchStep (e ch : Nat) (locked : Bool) (s : State) : Host.Outcome State Fault Refusal :=
  if chanOk s.grade e ch then
    let x := s.chan e ch
    match x.search with
    | none => .next (if x.conv then s.startSearch e ch else s)
    | some i =>
      if !s.waited e ch 72 then .next s
      else if locked then .next (s.gainLock e ch)
      else if i + 1 = 132 then .next (s.setChan e ch { x with search := none })
      else .next ((s.setChan e ch { x with search := some (i + 1) }).putSlip e ch ((x.lastSlip + (i + 1)) % 66))
  else .next s

/-- DFE taps in use at a rate code (R48): 8 at NRZ rates, 12 at PAM4 rates. -/
def dfeTaps (rate : Nat) : Nat := if rate < 2 then 8 else 12

/-- Sign of an integer. -/
def sgn (x : Int) : Int := if x < 0 then -1 else if 0 < x then 1 else 0

/-- The PAM4 level of a bit pair, its earlier bit the more significant (R47). -/
def pam4Level : Nat → Int
  | 0 => -3
  | 1 => -1
  | 3 => 1
  | _ => 3

/-- The bit pair of a PAM4 level (R47). -/
def pam4Bits (l : Int) : Nat := if l = -3 then 0 else if l = -1 then 1 else if l = 1 then 3 else 2

/-- Three times level(d) of a symbol at a rate code (R48): ±1 at NRZ rates, 1 for a one bit (DEDUCED, log entry 33),
and -1, -1/3, 1/3 or 1 at PAM4 rates. -/
def level3 (rate d : Nat) : Int := if rate < 2 then (if d % 2 = 1 then 3 else -3) else pam4Level (d % 4)

/-- What the DFE subtracts from the sample (R48), in thirds of tap_lsb: `taps` are c_1, c_2, …, `syms` d[n-1], d[n-2],
… -/
def dfeSum (rate : Nat) (taps : List Int) (syms : List Nat) : Int := (List.zipWith (fun c d => c * level3 rate d) taps syms).sum

/-- The taps of channel `c` in use. -/
def State.tapsOf (s : State) (e c : Nat) : List Int :=
  (List.range (dfeTaps (s.fld (kLstat e c) lstat_rate_now))).map (fun i => signed 8 (s.fld (kLeq e c) (dfeTap (i + 1))))

/-- The DFE of channel `c` converges at mu_shift_coarse whatever its fom: in the adapt state of a bring-up (R55), and
when a lane relocks or leaves sleep (R66, R67). -/
def State.coarse (s : State) (e c : Nat) : Bool :=
  (s.chan e c).conv || (match s.bringAt e c with | some b => b.state == 2 | none => false)

/-- mu of R49: fine while fom is at least fom_fine, else coarse; coarse while the DFE converges (R55, R66). -/
def State.muShift (s : State) (e c : Nat) : Nat :=
  let k := key 0x21F0 1
  if !s.coarse e c ∧ s.fld k lglb_fom_fine ≤ s.fld (kLstat e c) lstat_fom then s.fld k lglb_mu_shift_fine else s.fld k lglb_mu_shift_coarse

/-- DFE_UPDATE (R48, R49): 2^mu UI (`ui`) after the latest update, one step of sign-sign LMS, on a lane that is not
asleep, or that reconverges on its way out of sleep (R67). -/
def execDfeUpdate (e ch ui : Nat) (x : Sliced) (s : State) : Host.Outcome State Fault Refusal :=
  if chanOk s.grade e ch then
    let st := kLstat e ch
    let rate := s.fld st lstat_rate_now
    if (s.fld st lstat_power_state_now ≠ 2 ∨ (s.chan e ch).conv) ∧ ¬ s.flag (kLctl e ch) lctl_dfe_freeze ∧ ui = 2 ^ s.muShift e ch then
      let err := sgn (x.diff - dfeSum rate (s.tapsOf e ch) x.syms)
      .next ((x.syms.take (dfeTaps rate)).zipIdx.foldl (fun s d =>
        let f := dfeTap (d.2 + 1)
        let c := signed 8 (s.fld (kLeq e ch) f)
        s.setFld (kLeq e ch) f (unsignedOf 8 (sat (c + err * sgn (level3 rate d.1)) (-128) 127))) s)
    else .next s
  else .next s

/-- An offset point passes (R49): at most 4 of its 65,536 decisions disagree. -/
def pointPasses (count : Nat) : Bool := decide (count ≤ 4)

/-- The largest offset that passes, by the binary search of 7 points of R50: entry `k` of the list counts the
disagreements at offset `k`. -/
def eyeEdge (counts : List Nat) : Nat :=
  [64, 32, 16, 8, 4, 2, 1].foldl (fun k d => if pointPasses (counts.getD (k + d) 65536) then k + d else k) 0

/-- The figure of merit of R50 from the passing offsets of each eye. -/
def fomOf (u l : List Nat) : Nat :=
  match List.zipWith (fun a b => min a 127 + min b 127) u l with
  | [] => 0
  | x :: xs => min 255 (xs.foldl min x)

/-- A figure of merit enters the interval's histogram of its lane (R51, R562): bins 0 to 15, then least and largest. -/
def State.fomHistogram (s : State) (e c fom : Nat) : State :=
  let b := (64 * e + c) * 32
  let m := s.recd.fom
  let m := mset 0 m (b + fom / 16) (mget 0 m (b + fom / 16) + 1)
  let least := mget 0 m (b + 16)
  let m := mset 0 m (b + 16) (if least = 0 then fom + 1 else min least (fom + 1))
  let m := mset 0 m (b + 17) (max (mget 0 m (b + 17)) (fom + 1))
  { s with recd := { s.recd with fom := m } }

/-- FOM_MEASURE (R50, R51): a locked lane whose fom falls below fom_warn is flagged, recorded and told; so is one
whose first fom since it woke lies below it (DESIGN CHOICE, log entry 76). `u` and `l` hold for each eye the
disagreements at the offsets upwards and downwards from its threshold. -/
def execFomMeasure (e ch : Nat) (u l : List (List Nat)) (s : State) : Host.Outcome State Fault Refusal :=
  if chanOk s.grade e ch then
    let k := kLstat e ch
    if s.fld k lstat_power_state_now ≠ 2 then
      let x := s.chan e ch
      let old := s.fld k lstat_fom
      let fom := fomOf (u.map eyeEdge) (l.map eyeEdge)
      let s := ((s.setFld k lstat_fom fom).fomHistogram e ch fom).setChan e ch { x with fomSeen := true }
      let warn := s.fld (key 0x21F0 1) lglb_fom_warn
      if s.flag k lstat_block_lock ∧ fom < warn ∧ (!x.fomSeen ∨ warn ≤ old) then
        .next (((s.setFlag k lstat_fom_warn_seen true).record 9 (e + 2 ^ 8 * ch)
          (fom + 2 ^ 8 * s.fld k lstat_rate_now)).emcy 3 (e + 2 ^ 8 * ch + 2 ^ 16 * fom))
      else .next s
    else .next s
  else .next s

/-- CTLE_TRACK (R52): the code one step away, alternating up and down, kept when fom rises by at least 8. DESIGN
CHOICE (log entry 74): a trial that is not kept leaves the lane's fom as it was and warns of nothing. -/
def execCtleTrack (e ch fomNew : Nat) (s : State) : Host.Outcome State Fault Refusal :=
  if chanOk s.grade e ch then
    let k := kLstat e ch
    if s.flag (kLctl e ch) lctl_ctle_track ∧ s.fld k lstat_bringup_state = 8 ∧ s.fld k lstat_power_state_now ≠ 2 then
      let x := s.chan e ch
      let c := s.fld (kLeq e ch) leq_ctle_code
      let s := (s.setChan e ch { x with ctleUp := !x.ctleUp }).fomHistogram e ch fomNew
      let ok := if x.ctleUp then decide (c < 15) else decide (0 < c)
      if ok ∧ s.fld k lstat_fom + 8 ≤ fomNew then
        .next ((s.setFld (kLeq e ch) leq_ctle_code (if x.ctleUp then c + 1 else c - 1)).setFld k lstat_fom fomNew)
      else .next s
    else .next s
  else .next s

/-- The lane on channel `c` belongs to a group of the armed job. -/
def State.armedLane (s : State) (e c : Nat) : Bool :=
  s.active && (match s.laneOfChan e c with
    | some n => decide (e < 20) && (match s.groupOf e n with | some g => s.isJobGroup e g | none => false)
    | none => false)

/-- Power state `v` would move the lane on channel `c`, one of the armed job, out of active (R68). -/
def State.powerBarred (s : State) (e c v : Nat) : Bool :=
  v != 0 && s.fld (kLctl e c) lctl_power_state == 0 && s.armedLane e c

/-- A power state is requested for the lane on channel `c`: one that leaves sleep reconverges its DFE from the taps it
kept and then runs its own block-lock search (R67), unless its relock failed, which only start_bringup retries (R66;
log entry 76). -/
def State.requestPower (s : State) (e c v : Nat) : State :=
  let s := s.setChan e c { s.chan e c with request := some v }
  if v ≠ 2 ∧ s.fld (kLstat e c) lstat_power_state_now = 2 ∧ !(s.chan e c).dead then s.reconverge e c else s

/-- A write of power_state (R67, R68, R72): the request, or its abort code. -/
def State.powerWrite (s : State) (e c v : Nat) : Except Nat State :=
  if 2 < v then .error abRange
  else if s.powerBarred e c v then .error abState
  else
    let s := s.setFld (kLctl e c) lctl_power_state v
    if (s.laneOfChan e c).isSome then .ok (s.requestPower e c v) else .ok s

/-- The outcome of a write that may be refused: refused, nothing changes (R434). -/
def orSame (s : State) (r : Except Nat State) : Host.Outcome State Fault Refusal :=
  match r with
  | .ok t => .next t
  | .error _ => .next s

/-- POWER_STATE_WRITE (R68). -/
def execPowerStateWrite (e ch v : Nat) (s : State) : Host.Outcome State Fault Refusal :=
  if chanOk s.grade e ch then orSame s (s.powerWrite e ch v) else .next s

/-- A lane goes to sleep (R67): unlocked without a loss, its figure of merit reads 0, and no relock or search goes on. -/
def State.sleep (s : State) (e c : Nat) : State :=
  let s := (s.setFld (kLstat e c) lstat_power_state_now 2).setFld (kLstat e c) lstat_fom 0
  (s.setChan e c { s.chan e c with relock := false, search := none, conv := false, fomSeen := false }).unlock e c

/-- POWER_STATE_REACHED (R67). -/
def execPowerStateReached (e ch : Nat) (s : State) : Host.Outcome State Fault Refusal :=
  if chanOk s.grade e ch then
    match (s.chan e ch).request with
    | none => .next s
    | some v =>
      let s := s.setChan e ch { s.chan e ch with request := none }
      if v = 2 then .next (s.sleep e ch) else .next (s.setFld (kLstat e ch) lstat_power_state_now v)
  else .next s

/-- A write of the slip value (R63). -/
def State.slipWrite (s : State) (e c v : Nat) : Except Nat State :=
  if 65 < v then .error abRange
  else if (s.laneOfChan e c).isSome then .ok (s.putSlip e c v)
  else .ok (s.setFld (kLctl e c) lctl_slip v)

/-- SLIP_WRITE (R63). -/
def execSlipWrite (e ch v : Nat) (s : State) : Host.Outcome State Fault Refusal :=
  if chanOk s.grade e ch then orSame s (s.slipWrite e ch v) else .next s

/-- A channel that no lane lies on any more has no power (R68). -/
def State.vacated (s : State) (e old : Nat) : State :=
  (s.setChan e old { s.chan e old with request := none }).sleep e old

/-- Lane `n` of engine `e` has moved from channel `old` to `c`: the channel it left has no power, the control word of
the other takes effect (R72), and its group moves by R91. -/
def State.remapped (s : State) (e n old c : Nat) : State :=
  let s := if old = c then s else s.vacated e old
  let p := s.fld (kLctl e c) lctl_power_state
  let s := if p = s.fld (kLstat e c) lstat_power_state_now then s else s.requestPower e c p
  let s := s.setFld (kLstat e c) lstat_slip_now (s.fld (kLctl e c) lctl_slip)
  if e < 20 then (match s.groupOf e n with | some g => s.refreshGroup e g | none => s) else s

/-- A write of a lane map entry (R41, R71); transmit maps belong to link engines. -/
def State.laneMapWrite (s : State) (e : Nat) (tx : Bool) (n c : Nat) : Except Nat State :=
  let base := kLmap e 0 + if tx then 32 else 0
  if !s.idle then .error abState
  else if 33 < c then .error abRange
  else if (List.range 32).any (fun m => m != n && s.ent (base + m) == c) then .error abRange
  else
    let t := s.setEnt (base + n) c
    .ok (if tx then t else t.remapped e n (s.ent (base + n)) c)

/-- LANE_MAP_WRITE (R71). -/
def execLaneMapWrite (e : Nat) (tx : Bool) (n ch : Nat) (s : State) : Host.Outcome State Fault Refusal :=
  if laneOk s.grade e n ∧ (!tx ∨ 20 ≤ e) then orSame s (s.laneMapWrite e tx n ch) else .next s

/-! ### Bring-up (R54 to R61, R69, R74) -/

/-- The channels of a list of lanes. -/
def State.chansOf (s : State) (e : Nat) (ns : List Nat) : List Nat := ns.map (s.chanOf e)

/-- All elements are equal. -/
def allSame : List Nat → Bool
  | [] => true
  | x :: xs => xs.all (fun y => y == x)

/-- Sets a status field on every channel of a unit. -/
def State.onChans (s : State) (e : Nat) (cs : List Nat) (f : Fld) (v : Nat) : State :=
  cs.foldl (fun s c => s.setFld (kLstat e c) f v) s

/-- The armed rate that binds a unit (R60): that of its group, while a job it belongs to is armed. -/
def State.armedRate (s : State) (e : Nat) (ns : List Nat) : Option Nat :=
  if s.active ∧ e < 20 then
    match s.groupOf e (ns.headD 0) with
    | some g => if s.isJobGroup e g then mget none s.land.armed (4 * e + g) else none
    | none => none
  else none

/-- An armed rate binds the unit, and it is not `r`. -/
def State.bindsOther (s : State) (e : Nat) (ns : List Nat) (r : Nat) : Bool :=
  match s.armedRate e ns with
  | some a => a != r
  | none => false

/-! ### Light and training (R42, R43, R69, R70, R86) -/

/-- Laser Bank `i` = 2 × engine + bank. -/
def kLas (i : Nat) : Nat := key (0x3030 + i) 1

/-- Return Channel of quay `q`. -/
def kRch (q : Nat) : Nat := key (0x2100 + q) 0x23

/-- Source `src` of bank `i` feeds its channels: the spare does not stand in its place (R42). -/
def State.feeds (s : State) (i src : Nat) : Bool :=
  !(s.fld (kLas i) las_spare_state == 1 && s.fld (kLas i) las_replaced == src)

/-- Source `src` of bank `i` is being swapped for the spare, and its channels are dark (R549): the first source due of
its bank, from when the conditions of a swap hold until LASER_SWAP_DONE (log entry 28). -/
def State.swapping (s : State) (i src : Nat) : Bool :=
  !s.active && s.flag (key 0x3070 1) lwc_swap_enable && s.fld (kLas i) las_spare_state == 0 &&
    (s.tele.due.find? (fun x => x.1 == i)).map Prod.snd == some src

/-- Source of R42 that feeds transmit channel `c` of a link engine, in its bank of 17 channels. -/
def linkSource (c : Nat) : Nat := min (c % 17 / 6) 2

/-- What the return channel of a quay sends (R43). -/
inductive RetSend where
  | dark
  | idle
  | training
deriving DecidableEq, Repr

/-- A negotiating bring-up of a lane of quay `q` is under way. -/
def State.quayTrains (s : State) (q : Nat) : Bool :=
  s.land.bring.any (fun x => match x.2 with | some b => b.engine == q && !b.fixed | none => false)

/-- Engine `e` is under a block reset: the return channel of a quay and the transmitters of a link engine are dark
(R493). -/
def State.engineReset (s : State) (e : Nat) : Bool :=
  match s.rst.block with
  | some b => if e < 20 then b.1 == 1 && b.2.1 == e else b.1 == 3 && b.2.1 + 20 == e
  | none => false

/-- What the return channel of quay `q` sends: training blocks during a bring-up of one of its groups, idle blocks at
all other times while it is enabled (R43, R59, R77); nothing before the first arming (R489) or while the quay is reset
(R493). -/
def State.returnSends (s : State) (q : Nat) : RetSend :=
  if !s.dec.driven || !s.flag (kRch q) rch_rc_enable || s.tele.hold || s.engineReset q || s.swapping (2 * q) (s.fld (kRch q) rch_rc_use_spare) then .dark else if s.quayTrains q then .training else .idle

/-- Transmit channel `c` of link engine `e` is lit (R70): enabled, a lane placed on it, and its laser source in
service, which it is, it or the spare in its place (R42), but during a swap (R549); the transmitters are dark while
the engine is reset (R493), and before the first arming (R489). -/
def State.txLit (s : State) (e c : Nat) : Bool :=
  s.dec.driven && !s.tele.hold && !s.engineReset e && !s.swapping (2 * e + c / 17) (linkSource c) && s.flag (key (0x21B0 + (e - 20)) (1 + c)) txc_tx_enable &&
    (List.range 32).any (fun n => s.ent (key (0x21B4 + (e - 20)) (33 + n)) == c)

/-- The transmit channel of lane `n` of link engine `e` is lit. -/
def State.laneLit (s : State) (e n : Nat) : Bool := s.txLit e (s.ent (key (0x21B4 + (e - 20)) (33 + n)))

/-- The unit of a bring-up is enabled on the return channel side (R56): the quay's return channel, or every transmit
lane of the link bundle (R69). -/
def State.returnOn (s : State) (e : Nat) (ns : List Nat) : Bool :=
  if e < 20 then s.flag (kRch e) rch_rc_enable && !s.engineReset e else ns.all (s.laneLit e)

/-- The identity in the training blocks of lane `n` (R86): the group_id of its group, and on a link lane what its
markers carry (R377). A lane in no group has no group_id: a free value (log entry 34). -/
def State.trainIdent (s : State) (e n : Nat) : Nat :=
  if e < 20 then (match s.groupOf e n with | some g => 4 * e + g | none => Config.loneGroupId (32 * e + n) % 2 ^ 12)
  else 2 ^ 7 * s.position + 2 ^ 2 * bundleOf e n + n % 4

/-- The training block an engine sends (R86): every rate code in its capability, the chosen rate once there is one,
"done". -/
def trainWord (rate : Option Nat) (done : Bool) (ident : Nat) : Nat :=
  0x78 + 2 ^ 8 * 15 + (match rate with | some r => 2 ^ 12 * r + 2 ^ 14 | none => 0) + (if done then 2 ^ 23 else 0) + 2 ^ 24 * ident

/-- A unit's engine sends training blocks (R43, R69): on the quay's return channel, or on each lit lane of the link
bundle; a fixed-rate unit sends none (R59). -/
def State.sendTraining (s : State) (gk : Nat) (b : Bring) (rate : Option Nat) (done : Bool) : State :=
  let e := b.engine
  let send := fun (s : State) (n : Nat) => s.emit (.training e n (trainWord rate done (s.trainIdent e n)))
  if b.fixed then s
  else if e < 20 then (if s.returnSends e = .dark then s else send s (gk % 32))
  else b.lanes.foldl (fun s n => if s.laneLit e n then send s n else s) s

/-- The countdown of a link bundle's transmitters, from 63 to 0, after which they send at the rate (R69). -/
def State.sendCountdown (s : State) (b : Bring) (rate : Nat) : State :=
  if b.engine < 20 then s
  else b.lanes.foldl (fun s n => if s.laneLit b.engine n then s.emit (.countdown b.engine n rate) else s) s

/-! ### Bring-up (R54 to R61, R69, R74) -/

/-- Another unit of engine `e` than `gk` is in bring-up: an engine brings up one lane group at a time (R54). -/
def State.engineBusy (s : State) (e gk : Nat) : Bool :=
  s.land.bring.any (fun x => x.1 != gk && x.1 / 32 == e && x.2.isSome)

/-- The lanes of a unit are brought up at a fixed rate (R59). -/
def State.unitFixed (s : State) (e : Nat) (cs : List Nat) : Bool :=
  cs.any (fun c => s.flag (kLctl e c) lctl_fixed_rate)

/-- The bring-up of the unit of lane `n` begins in wake (R54, R55, R59): its receivers are powered at R10, or at the
fixed rate, and the return channel is enabled for a negotiating group (DEDUCED from R55's wake, log entry 34). -/
def State.wakeUnit (s : State) (e n : Nat) : State :=
  let ns := s.unitLanes e n
  let cs := s.chansOf e ns
  let gk := s.unitKey e n
  let fixed := s.unitFixed e cs
  let rate := if fixed then s.fld (kLctl e (cs.headD 0)) lctl_fixed_rate_code else 0
  let b : Bring := { engine := e, lanes := ns, state := 1, rate := rate, downs := 0, fixed := fixed }
  let s := s.setBring gk (some b)
  let s := cs.foldl (fun s c =>
    let s := (s.setFld (kLctl e c) lctl_power_state 0).setFld (kLstat e c) lstat_power_state_now 0
    let s := s.setChan e c { s.chan e c with
      relock := false, request := none, cap := none, search := none, conv := false, dead := false, cdown := false }
    ((s.setFld (kLstat e c) lstat_bringup_state 1).setFlag (kLstat e c) lstat_trained false).retune e c rate) s
  let s := if fixed ∨ 20 ≤ e then s else s.setFlag (kRch e) rch_rc_enable true
  s.sendTraining gk b none false

/-- A bring-up of engine `e` has ended: the next that waits begins (R54). -/
def State.nextUnit (s : State) (e : Nat) : State :=
  match s.land.bringWait.find? (fun g => g / 32 == e) with
  | some g => { s with land := { s.land with bringWait := s.land.bringWait.erase g } }.wakeUnit e (g % 32)
  | none => s

/-- A write of start_bringup on channel `c` (R54, R56, R59, R75), or its abort code. An engine brings up one group at
a time: while another of its units is in bring-up this one waits for it. DESIGN CHOICE (log entry 74): a write for a
unit whose own bring-up is under way abandons that and starts anew from wake; R54 does not say. -/
def State.startBringup (s : State) (e c : Nat) : Except Nat State :=
  match s.laneOfChan e c with
  | none => .ok s
  | some n =>
    let cs := s.chansOf e (s.unitLanes e n)
    let get := fun (f : Fld) => cs.map (fun c => s.fld (kLctl e c) f)
    let differs := !allSame (get lctl_rate_ceiling) || (s.unitFixed e cs && !allSame (get lctl_fixed_rate_code))
    if differs then .error abState
    else if s.engineReset e then .ok s
    else
      let s := cs.foldl (fun s c => s.setEnt (kLcnt e c) 0) s
      let gk := s.unitKey e n
      if s.engineBusy e gk then
        .ok (if s.land.bringWait.contains gk then s
          else { s with land := { s.land with bringWait := s.land.bringWait ++ [gk] } })
      else .ok (s.wakeUnit e n)

/-- START_BRINGUP (R54, R484, R487): an engine under a block reset starts nothing (R492). -/
def execStartBringup (e ch : Nat) (s : State) : Host.Outcome State Fault Refusal :=
  if chanOk s.grade e ch ∧ s.dictOpen then orSame s (s.startBringup e ch) else .next s

/-- The group that a bring-up record names (R562): of a quay its group, or 32 and the lane where that is in none, of a
link engine the bundle within it (log entry 24). -/
def State.bringGroup (s : State) (gk : Nat) : Nat :=
  if gk / 32 < 20 then (s.groupOf (gk / 32) (gk % 32)).getD (32 + gk % 32) else gk % 32 / 4

/-- A bring-up fails with a code of R74 (R61): its lanes sleep, and the recorder is told. -/
def State.failBringup (s : State) (gk code : Nat) (b : Bring) : State :=
  let cs := s.chansOf b.engine b.lanes
  let least := (cs.map (fun c => s.fld (kLstat b.engine c) lstat_fom)).foldl min 255
  let s := s.setBring gk none
  let s := cs.foldl (fun s c => (s.setFld (kLctl b.engine c) lctl_power_state 2).sleep b.engine c) s
  let s := s.onChans b.engine cs lstat_bringup_state code
  (s.record 6 (b.engine + 2 ^ 8 * s.bringGroup gk + 2 ^ 16 * code) (least + 2 ^ 8 * b.rate)).nextUnit b.engine

/-- The unit's lanes are in service, bringup_state 8 (R55). -/
def State.inServiceNow (s : State) (gk : Nat) (b : Bring) : State :=
  let cs := s.chansOf b.engine b.lanes
  let s := (s.setBring gk none).onChans b.engine cs lstat_bringup_state 8
  let s := s.onChans b.engine cs lstat_trained (if b.fixed then 0 else 1)
  (cs.foldl (fun s c => s.afterLock b.engine c) s).nextUnit b.engine

/-- The unit has relocked (R55): it sends "done" and is in service; a link bundle that negotiated is so once it has
received "done" as well (R69). -/
def State.bringupDone (s : State) (gk : Nat) (b : Bring) : State :=
  let s := s.sendTraining gk b (some b.rate) true
  if b.engine < 20 ∨ b.fixed ∨ b.heard then s.inServiceNow gk b else s.setBring gk (some { b with sent := true })

/-- The unit comes into service at a rate an armed job allows, or fails with fail_rate_mismatch (R60). -/
def State.finishBringup (s : State) (gk : Nat) (b : Bring) : State :=
  match s.armedRate b.engine b.lanes with
  | some r => if r = b.rate then s.bringupDone gk b else s.failBringup gk 13 b
  | none => s.bringupDone gk b

/-- The lowest code of a sweep with the largest figure of merit (R52), and that figure. -/
def bestCtle (foms : List Nat) : Nat × Nat :=
  (foms.take 16).zipIdx.foldl (fun (b : Nat × Nat) x => if b.2 < x.1 then (x.2, x.1) else b) (0, foms.headD 0)

/-- Each lane of a unit takes the best code of its sweep; every figure measured enters its histogram (R51). -/
def State.takeSweep (s : State) (e : Nat) (cs : List Nat) (foms : List (List Nat)) : State :=
  (cs.zip foms).foldl (fun s x =>
    let b := bestCtle x.2
    let s := (s.setFld (kLeq e x.1) leq_ctle_code b.1).setFld (kLstat e x.1) lstat_fom b.2
    (x.2.take 16).foldl (fun s f => s.fomHistogram e x.1 f) (s.setChan e x.1 { s.chan e x.1 with fomSeen := true })) s

/-- A unit moves to a state of R55. -/
def State.bringTo (s : State) (gk st : Nat) (b : Bring) : State :=
  (s.setBring gk (some { b with state := st })).onChans b.engine (s.chansOf b.engine b.lanes) lstat_bringup_state st

/-- A unit moves to a state that searches for block lock on every lane (R55, R64). -/
def State.bringSearch (s : State) (gk st : Nat) (b : Bring) : State :=
  (s.chansOf b.engine b.lanes).foldl (fun s c => s.startSearch b.engine c) (s.bringTo gk st b)

/-- A unit sends the rate of `b` and follows the countdown to it (R55, R58, R69). -/
def State.bringSwitch (s : State) (gk : Nat) (b : Bring) : State :=
  let s := s.bringTo gk 5 b
  let s := (s.chansOf b.engine b.lanes).foldl (fun s c => s.setChan b.engine c { s.chan b.engine c with cdown := false }) s
  (s.sendTraining gk b (some b.rate) false).sendCountdown b b.rate

/-- Some lane of a unit is below fom_lock_min. -/
def State.lowFom (s : State) (e : Nat) (cs : List Nat) : Bool :=
  cs.any (fun c => decide (s.fld (kLstat e c) lstat_fom < s.fld (key 0x21F0 1) lglb_fom_lock_min))

/-- The block-lock search has found lock on every lane of a unit (R55). -/
def State.allLocked (s : State) (e : Nat) (cs : List Nat) : Bool := cs.all (fun c => s.flag (kLstat e c) lstat_block_lock)

/-- The chosen rate of R56: the highest code every lane reports that is no higher than the ceiling, with the unit
enabled on the return channel side. -/
def chosenRate (on : Bool) (caps : List Nat) (ceiling : Nat) : Option Nat :=
  if on then ([3, 2, 1, 0].filter (fun r => decide (r ≤ ceiling))).find? (fun r => caps.all (fun c => bit c r)) else none

/-- What the exchange of unit `b` chooses: none while some lane's capability has not come, else the rate of R56. -/
def State.chooses (s : State) (b : Bring) : Option (Option Nat) :=
  let cs := s.chansOf b.engine b.lanes
  let caps := cs.map (fun c => (s.chan b.engine c).cap)
  if caps.any (fun c => c.isNone) then none
  else some (chosenRate (s.returnOn b.engine b.lanes) (caps.map (fun c => c.getD 0))
    (s.fld (kLctl b.engine (cs.headD 0)) lctl_rate_ceiling))

/-- BRINGUP_STEP_DONE (R55, R56, R58): the state of unit `gk` has done its action; `foms` holds, for the states with a
sweep, the figures of merit of each lane at each CTLE code. When R10 is chosen the unit is done at the end of lock, or
of the exchange where a capability was still to come. A state that searches for lock is done once every lane is
locked. DESIGN CHOICE (log entry 74): where no rate code meets R56's conditions, to which the spec gives no outcome,
the unit fails with fail_no_training (10); and the next lower rate of R58 is the rate code below, whatever the lanes'
capabilities. -/
def execBringupStepDone (gk : Nat) (foms : List (List Nat)) (s : State) : Host.Outcome State Fault Refusal :=
  match s.bringOf gk with
  | none => .next s
  | some b =>
    let e := b.engine
    let cs := s.chansOf e b.lanes
    match b.state with
    | 1 => .next ((s.onChans e cs lstat_cdr_lock 1).bringTo gk 2 b)
    | 2 =>
      let s := s.takeSweep e cs foms
      if s.lowFom e cs then .next (s.failBringup gk 11 b) else .next (s.bringSearch gk 3 b)
    | 3 =>
      if !s.allLocked e cs then .next s
      else if b.fixed ∨ s.chooses b = some (some 0) then .next (s.finishBringup gk b) else .next (s.bringTo gk 4 b)
    | 4 =>
      match s.chooses b with
      | none => .next s
      | some none => .next (s.failBringup gk 10 b)
      | some (some r) =>
        let b := { b with rate := r }
        if s.bindsOther e b.lanes r then .next (s.failBringup gk 13 b)
        else if r = 0 then .next (s.finishBringup gk b)
        else .next (s.bringSwitch gk b)
    | 5 => if cs.all (fun c => s.fld (kLstat e c) lstat_rate_now == b.rate) then .next (s.bringTo gk 6 b) else .next s
    | 6 =>
      let s := s.takeSweep e cs foms
      if s.lowFom e cs then
        if 0 < b.rate ∧ b.downs < s.fld (key 0x21F0 1) lglb_max_step_downs then
          if s.bindsOther e b.lanes (b.rate - 1) then .next (s.failBringup gk 13 b)
          else .next (s.bringSwitch gk { b with rate := b.rate - 1, downs := b.downs + 1 })
        else .next (s.failBringup gk 11 b)
      else .next (s.bringSearch gk 7 b)
    | _ => if b.sent ∨ !s.allLocked e cs then .next s else .next (s.finishBringup gk b)

/-- A lane of a unit in bring-up has received a training block (R55, R56, R69): its capability up to the exchange; in
switch the countdown, after whose 0 its receiver is retuned; and on a link bundle "done", which puts it in service
once it has sent its own. -/
def State.trains (s : State) (e n gk payload : Nat) (b : Bring) : State :=
  let c := s.chanOf e n
  let x := s.chan e c
  let s := if b.state ≤ 4 then s.setChan e c { x with cap := some (bits payload 8 4) } else s
  let s := if b.state = 5 ∧ bit payload 22 then
      let s := s.setChan e c { x with cdown := true }
      if bits payload 16 6 = 0 then s.retune e c b.rate else s
    else s
  if 20 ≤ e ∧ bit payload 23 then
    (if b.sent then s.inServiceNow gk b else s.setBring gk (some { b with heard := true }))
  else s

/-- The failure of a state that overruns its bound (R55). -/
def overrunCode : Nat → Nat
  | 1 => 9
  | 2 => 11
  | 3 => 12
  | 4 => 10
  | 5 => 10
  | 6 => 11
  | _ => 12

/-- BRINGUP_STATE_OVERRUN (R55). -/
def execBringupStateOverrun (gk : Nat) (s : State) : Host.Outcome State Fault Refusal :=
  match s.bringOf gk with
  | none => .next s
  | some b => .next (s.failBringup gk (overrunCode b.state) b)

/-- BRINGUP_TIMEOUT (R61). -/
def execBringupTimeout (gk : Nat) (s : State) : Host.Outcome State Fault Refusal :=
  match s.bringOf gk with
  | none => .next s
  | some b => .next (s.failBringup gk 14 b)

end Sys2Proof.Machine
end

