-- ==== Sys2Proof/Machine/Landing.lean ====
section
/-! DEFINITION. Blocks as lanes deliver them (R46, R65, R80 to R94, R379): the parser of each quay lane, markers and
their phase, skew, training blocks, and what link lanes count. -/

namespace Sys2Proof.Machine

/-! ### The descrambler (R46) -/

/-- One bit through the descrambler: `h` holds the 58 scrambled bits before it, bit k - 1 the one received k bits
earlier. -/
def descrambleBit (h r : Nat) : Nat × Nat := ((r + h / 2 ^ 38 + h / 2 ^ 57) % 2, (2 * h + r) % 2 ^ 58)

/-- The payload delivered for the bits received, bit 0 first, and the descrambler's bits after them. -/
def descramble (h : Nat) : List Nat → List Nat × Nat
  | [] => ([], h)
  | r :: rs =>
    let x := descrambleBit h r
    let y := descramble x.2 rs
    (x.1 :: y.1, y.2)

/-- The scrambled bits that spell a payload, and the scrambler's bits after them: s = d ^ hist[39] ^ hist[58]. -/
def scramble (h : Nat) : List Nat → List Nat × Nat
  | [] => ([], h)
  | d :: ds =>
    let r := (d + h / 2 ^ 38 + h / 2 ^ 57) % 2
    let y := scramble ((2 * h + r) % 2 ^ 58) ds
    (r :: y.1, y.2)

/-- The 64 payload bits of a block, bit 0 first. -/
def payloadBits (w : Nat) : List Nat := (List.range 64).map (fun i => w / 2 ^ i % 2)

/-- Bits set in the lowest 64. -/
def ones64 (w : Nat) : Nat := (payloadBits w).sum

/-! ### Blocks of a lane (R46, R62, R65, R67) -/

/-- Lane `n` of engine `e` delivers blocks (R62, R67): locked and active, and landing not stopped by a trip (R37), nor
that of a quay by its landing island's clock (R38), nor the block fenced by a reset (R492). -/
def State.delivers (s : State) (e n : Nat) : Bool :=
  let k := kLstat e (s.chanOf e n)
  s.flag k lstat_block_lock && s.fld k lstat_power_state_now == 0 && !s.tele.hold && (decide (20 ≤ e) || s.islandRuns e) &&
    !s.engineReset e

/-- A locked lane's parser has taken a block: its sync header (`bad`: invalid) enters the window of R62, its payload
`w` the descrambler (R46); a block that is delivered is counted. -/
def State.hear (s : State) (e n : Nat) (bad : Bool) (w : Nat) : State :=
  let p := s.parser e n
  let p := { p with hdr := (2 * p.hdr + if bad then 1 else 0) % 2 ^ 64, hist := (scramble p.hist (payloadBits w)).2 }
  s.setParser e n (if s.delivers e n then { p with total := p.total + 1, mark := p.mark + 1 } else p)

/-- A block received on a locked lane: heard, an invalid header counted whatever the power state (R65, R75), and
delivered with `eff` when the lane delivers. The header that is the 16th invalid one of 64 ends the lock, after the
block it heads has been delivered (R62; log entry 76). `w` is the payload as descrambled (log entry 33). -/
def State.onBlock (s : State) (e n : Nat) (bad : Bool) (w : Nat) (eff : State → State) : Host.Outcome State Fault Refusal :=
  if laneOk s.grade e n then
    let c := s.chanOf e n
    if s.flag (kLstat e c) lstat_block_lock then
      let t := s.hear e n bad w
      let t := if bad then t.bump (kLcnt e c) lcnt_sh_errors else t
      let u := if s.delivers e n then eff t else t
      .next (if 16 ≤ ones64 (t.parser e n).hdr then u.lockLoss e c else u)
    else .next s
  else .next s

/-- Blocks per frame of the group of lane `n` of quay `q`. -/
def State.laneBlocks (s : State) (q g : Nat) : Nat := s.blocksPer q g

/-- A stray block (R88, R379). -/
def State.stray (s : State) (e n : Nat) : State := s.bump (kLlc e n) llc_stray_blocks

/-- A data block in a lane's parser (R88): stored inside a frame, `none` for a damaged one, which is stored as zero. -/
def State.dataIn (s : State) (e n : Nat) (v : Option Nat) : State :=
  if 20 ≤ e then (if v.isSome then s.stray e n else s)
  else match s.groupOf e n with
    | none => s
    | some g =>
      let p := s.parser e n
      if !p.inside then (if v.isSome then s.stray e n else s)
      else if p.count < s.blocksPer e g then
        let x := v.getD 0
        s.setParser e n { p with count := p.count + 1, crc := crc24Block p.crc x, data := x :: p.data, damaged := p.damaged || v.isNone }
      else s.endParser e g n (s.parser e n).cutFault none

/-- DATA_BLOCK (R88, R379). -/
def execDataBlock (e n payload : Nat) (s : State) : Host.Outcome State Fault Refusal :=
  s.onBlock e n false payload fun s => s.dataIn e n (some payload)

/-- DAMAGED_BLOCK (R65, R88). -/
def execDamagedBlock (lane : LaneAt) (payload : Nat) (s : State) : Host.Outcome State Fault Refusal :=
  s.onBlock lane.e lane.n true payload fun s => s.dataIn lane.e lane.n none

/-- An invalid control block counts and acts as a damaged one (R81, R379); a lane outside every group delivers nothing
to landing (R90). -/
def State.badControl (s : State) (e n : Nat) : State :=
  if e < 20 ∧ (s.groupOf e n).isNone then s else (s.bump (kLlc e n) llc_ctl_errors).dataIn e n none

/-- INVALID_CONTROL_BLOCK (R81, R379). -/
def execInvalidControlBlock (lane : LaneAt) (payload : Nat) (s : State) : Host.Outcome State Fault Refusal :=
  s.onBlock lane.e lane.n false payload fun s => s.badControl lane.e lane.n

/-- IDLE_BLOCK (R88): a frame it cuts ends malformed. -/
def execIdleBlock (e n : Nat) (s : State) : Host.Outcome State Fault Refusal :=
  s.onBlock e n false 0x1E fun s =>
    match (if e < 20 then s.groupOf e n else none) with
    | some g => if (s.parser e n).inside then s.endParser e g n (s.parser e n).cutFault none else s
    | none => s

/-! ### Frames (R83, R88, R91 to R94) -/

/-- A frame-open of a lane of a group that is not aligned counts once per frame number as unaligned (R91), unless the
slot of that frame has counted it (R96). -/
def State.countUnaligned (s : State) (q g frame : Nat) : State :=
  let x := s.group q g
  if s.align q g = 4 ∨ !s.landOn q ∨ s.slotPast q g frame ∨ x.gone.any (fun e => e.1 == frame) then s
  else (s.setGroup q g { x with gone := (frame, 5) :: x.gone }).gutter q 5

/-- The number of frame `n` has its slot still before it on quay `q`, or may have: a start waits for its binding. -/
def State.slotAhead (s : State) (q n : Nat) : Bool :=
  s.slipQuays.contains q && (s.awaiting || (s.job.bound && decide ((s.released q : Int) ≤ frameIndex s.job.n0 n)))

/-- What has gone to the gutter is known until every lane of the group has opened that frame or a later one, which opens
with frame `n`, the frame is complete and its slot is past. -/
def State.trimGone (s : State) (q g n : Nat) : State :=
  let x := s.group q g
  let passed := fun (n : Nat) => (s.groupLanes q g).all (fun l => match (s.parser q l).prev with | some p => !later n p | none => false)
  s.setGroup q g { x with gone := x.gone.filter (fun e =>
    !passed e.1 || s.slotAhead q e.1 || e.1 == n || x.open_.any (fun f => f.frame == e.1)) }

/-- Lane `n` of a group opens `frame`, not later than `old`, its previous: the numbers start again, once for the
group, and what went to the gutter under numbers from `frame` on is forgotten. -/
def State.renumber (s : State) (q g n old frame : Nat) : State :=
  let x := s.group q g
  if frame = old ∨ ((s.groupLanes q g).any (fun l => l != n && (match (s.parser q l).prev with
      | some p => decide ((frameIndex frame p).natAbs < (frameIndex old p).natAbs)
      | none => false))) then s
  else s.setGroup q g { x with gone := x.gone.filter (fun e => later frame e.1), past := none }

/-- Lane `i` is missing from every frame being deskewed that is earlier than `frame` and that it never opened (R94). -/
def State.missEarlier (s : State) (q g i frame : Nat) : State :=
  (s.group q g).open_.foldl (fun s f =>
    if later frame f.frame ∧ !f.opened.any (fun o => o.1 == i) then
      s.endLaneFrame q g f.frame { lane := i, fault := 4, flags := 0, data := [], stamp := none }
    else s) s

/-- The group frame of number `frame`, which lane `i` opens, is being deskewed; lanes already past it are missing from
it (R94). One that another lane opened before the group left wait_lock is not followed (log entry 76): it never opens
whole. -/
def State.openGroupFrame (s : State) (q g i frame : Nat) : State :=
  let x := s.group q g
  if x.open_.any (fun f => f.frame == frame) ||
      (s.groupLanes q g).zipIdx.any (fun e => e.2 != i && (s.parser q e.1).prev == some frame) then s
  else
    let s := s.setGroup q g { x with open_ := x.open_ ++ [{ frame := frame }] }
    (s.groupLanes q g).zipIdx.foldl (fun s e =>
      if (match (s.parser q e.1).prev with | some p => later p frame | none => false) then
        s.endLaneFrame q g frame { lane := e.2, fault := 4, flags := 0, data := [], stamp := none }
      else s) s

/-- The skew of a group frame once every lane has opened it (R92, R93, R115). -/
def State.measureSkew (s : State) (q g frame : Nat) : State :=
  let x := s.group q g
  match x.open_.find? (fun f => f.frame == frame) with
  | none => s
  | some f =>
    if f.opened.length = s.laneCount q g then
      let first := s.fld (key (0x2200 + q) (2 + g)) grp_first_lane
      let skew := (f.opened.map (fun o => (s.parser q (first + o.1)).total - o.2)).foldl max 0
      let s := s.setGroup q g { x with
        open_ := x.open_.map (fun y => if y.frame = frame then { f with skew := skew } else y) }
      let s := s.setFld (kGst q g) gstat_skew_now (min skew 255)
      let s := s.setFld (kGst q g) gstat_skew_max (max (s.fld (kGst q g) gstat_skew_max) (min skew 255))
      if 64 < skew then s.loseAlign q g else s
    else s

/-- A frame-open on lane `n` of group `g`. -/
def State.openFrame (s : State) (q g n frame flags : Nat) : State :=
  let s := if (s.parser q n).inside then s.endParser q g n (s.parser q n).cutFault none else s
  let s := match (s.parser q n).prev with
    | some p => if later frame p then s else (s.loseAlign q g).renumber q g n p frame
    | none => s
  let p := s.parser q n
  let s := s.setParser q n { p with inside := true, count := 0, crc := 0xFFFFFF, damaged := false, data := [], frame := frame, flags := flags, prev := some frame }
  let s := (s.countUnaligned q g frame).trimGone q g frame
  if s.align q g < 2 then s
  else
    let i := n - s.fld (key (0x2200 + q) (2 + g)) grp_first_lane
    let s := (s.missEarlier q g i frame).openGroupFrame q g i frame
    let x := s.group q g
    let s := s.setGroup q g { x with open_ := x.open_.map (fun f =>
      if f.frame = frame then { f with opened := f.opened ++ [(i, p.total)] } else f) }
    s.measureSkew q g frame

/-- FRAME_OPEN (R83, R88, R91 to R94). -/
def execFrameOpen (q n frame flags : Nat) (s : State) : Host.Outcome State Fault Refusal :=
  if 20 ≤ q then .next s
  else s.onBlock q n false (0x4B + 2 ^ 8 * frame + 2 ^ 56 * flags) fun s =>
    match s.groupOf q n with
    | none => s
    | some g => s.openFrame q g n frame flags

/-- D_rx of a rate code (R297). -/
def dRx : Nat → Nat
  | 0 => 48
  | 1 => 32
  | 2 => 30
  | _ => 22

/-- The arrival tag of a frame and its reference instant take a frame-close of an aligned group of the job (R105,
R297). -/
def State.tagClose (s : State) (q g n frame : Nat) : State :=
  if s.isJobGroup q g ∧ s.align q g = 4 then
    let r : Int := (s.clk : Int) - dRx (s.fld (kLstat q (s.chanOf q n)) lstat_rate_now)
    let t := match mget none s.dec.tags frame with
      | none => (s.clk, r, s.now)
      | some (_, r', _) => (s.clk, max r r', s.now)
    { s with dec := { s.dec with tags := mset none s.dec.tags frame (some t) } }
  else s

/-- A frame-close on lane `n` of group `g`: out of place it is stray, or ends its frame malformed; in place the CRC is
compared (R88, R89). -/
def State.closeFrame (s : State) (q g n crc : Nat) : State :=
  let p := s.parser q n
  if !p.inside then s.stray q n
  else
    let s := s.tagClose q g n p.frame
    let fault := if p.damaged then 2 else if p.count < s.blocksPer q g then 3 else if p.crc ≠ crc then 1 else 0
    s.endParser q g n fault (some s.now)

/-- FRAME_CLOSE (R84, R88, R89, R105). -/
def execFrameClose (q n crc : Nat) (s : State) : Host.Outcome State Fault Refusal :=
  if 20 ≤ q then .next s
  else s.onBlock q n false (0x55 + 2 ^ 8 * crc) fun s =>
    match s.groupOf q n with
    | none => s
    | some g => s.closeFrame q g n crc

/-! ### Markers (R85, R91, R93, R377) -/

/-- The identity expected on a lane: expected_id of a quay lane, the facing bundle's of a berth lane; any other link
lane expects none. -/
def State.expectedId (s : State) (e n : Nat) : Option Nat :=
  if e < 20 then some (s.ent (key (0x2260 + e) (1 + n)) % 2 ^ 12)
  else
    let k := bundleOf e n
    if s.berthBundle k then
      let j := (s.position + k + 1) % 32
      some (2 ^ 7 * j + 2 ^ 2 * ((s.position + 31 + 32 - j) % 32) + n % 4)
    else none

/-- Lane `n` of engine `e` is a quay's lane outside every group, which delivers nothing to landing (R90). -/
def State.outside (s : State) (e n : Nat) : Bool := decide (e < 20) && (s.groupOf e n).isNone

/-- LANE_MARKER (R93): phase, then identity. `ident` is lane_identity. -/
def execLaneMarker (e n ident : Nat) (s : State) : Host.Outcome State Fault Refusal :=
  s.onBlock e n false (0x66 + 2 ^ 8 * (ident % 2 ^ 12)) fun s =>
    if s.outside e n then s
    else
      let p := s.parser e n
      let off := p.hasMark && p.mark != 16384
      let s := if off then s.bump (kLlc e n) llc_marker_errors else s
      let good := match s.expectedId e n with | some x => ident % 2 ^ 12 == x | none => true
      let s := s.setParser e n { p with mark := 0, missed := 0, hasMark := true, marked := good || (decide (20 ≤ e) && p.marked) }
      let s := if good then s else s.bump (kLlc e n) llc_id_errors
      if e < 20 then
        match s.groupOf e n with
        | none => s
        | some g => if good then s.refreshGroup e g else s.loseAlign e g
      else if good then s else s.bundleDown e n

/-- MARKER_MISSED (R93): each 16,384 blocks without a marker count once; at 32,768 an aligned group is lost. -/
def execMarkerMissed (e n : Nat) (s : State) : Host.Outcome State Fault Refusal :=
  if laneOk s.grade e n then
    let p := s.parser e n
    if 16384 * (p.missed + 1) ≤ p.mark ∧ !s.outside e n then
      let s := (s.setParser e n { p with missed := p.missed + 1 }).bump (kLlc e n) llc_marker_errors
      .next (match (if e < 20 then s.groupOf e n else none) with
        | some g => if 2 ≤ p.missed + 1 then s.loseAlign e g else s
        | none => if 20 ≤ e ∧ 2 ≤ p.missed + 1 then s.bundleDown e n else s)
    else .next s
  else .next s

/-- A lane of group `g` has delivered 65 blocks past its own frame-open for some frame that another lane has opened
neither itself nor any later frame for (R94). -/
def State.overrun (s : State) (q g : Nat) : Bool :=
  let first := s.fld (key (0x2200 + q) (2 + g)) grp_first_lane
  (s.group q g).open_.any (fun f =>
    f.opened.any (fun o => decide (o.2 + 65 ≤ (s.parser q (first + o.1)).total)) &&
      (List.range (s.laneCount q g)).any (fun i =>
        !f.opened.any (fun o => o.1 == i) && !f.ended.any (fun l => l.lane == i)))

/-- SKEW_OVERRUN (R93, R94, R378): group `g` of a quay; for an engine q = 20 + e, the skew of its bundle `g` is above 64
blocks, which takes the bundle out of alignment. Link lanes carry no frame-open to measure a bundle's skew by (R379), so
the command tells of it (log entry 55). -/
def execSkewOverrun (q g : Nat) (s : State) : Host.Outcome State Fault Refusal :=
  if quayOk s.grade q ∧ g < 4 then
    if s.overrun q g then .next (s.loseAlign q g) else .next s
  else if 20 ≤ q ∧ q < 24 ∧ g < 8 then .next (s.bundleDown q (4 * g))
  else .next s

/-! ### Training (R55, R56, R86) -/

/-- TRAINING_BLOCK (R86): during its unit's bring-up a lane reads it (R55, R69); outside bring-up it sets train_seen,
also on a lane in idle, and does nothing else (R73). One with a reserved bit set is an invalid control block (R81).
`payload` is the whole block. -/
def execTrainingBlock (e n payload : Nat) (s : State) : Host.Outcome State Fault Refusal :=
  if 2 ^ 36 ≤ payload then s.onBlock e n false payload fun s => s.badControl e n
  else if laneOk s.grade e n then
    let c := s.chanOf e n
    if s.flag (kLstat e c) lstat_block_lock then
      let t := s.hear e n false payload
      let gk := s.unitKey e n
      .next (match s.bringOf gk with
        | some b => t.trains e n gk payload b
        | none => t.setFlag (kLstat e c) lstat_train_seen true)
    else .next s
  else .next s

end Sys2Proof.Machine
end

