-- ==== Sys2Proof/Machine/Blocks.lean ====
section
/-! DEFINITION. What link lanes carry (R378 to R383): the blocks of messages, words and records, the lanes they go on, when they leave,
and the blocks that receivers hear. Blocks are 64-bit payloads, bit 0 first. -/

namespace Sys2Proof.Machine

/-! ### Layouts (R379 to R381) -/

/-- A message (R380): its open block, which names the frame and the kind, and data blocks 0 and 1. -/
def messageBlocks (kind frame d0 d1 : Nat) : List Nat := [0x2D + 2 ^ 8 * (frame % 2 ^ 48) + 2 ^ 56 * kind, d0, d1]

/-- Data block 0 of a summary or combine (R380). -/
def summData (m : Summ) : Nat :=
  m.accept + 2 ^ 8 * m.raw + (if m.void then 2 ^ 16 else 0) + (if m.faulted then 2 ^ 17 else 0) + 2 ^ 19 * m.module +
    2 ^ 32 * m.excluded + 2 ^ 48 * m.included

/-- The blocks of a summary, combine or relay message; its data block 1 is `tail`. -/
def summBlocks (kind : Nat) (m : Summ) : List Nat := messageBlocks kind m.frame (summData m) m.tail

/-- What a message of kinds 0 to 3 or 6 says: its kind and its fields. -/
def readSumm : List Nat → Option (Nat × Summ)
  | [o, d0, d1] =>
    if o % 2 ^ 8 = 0x2D then
      some (bits o 56 4, {
        frame := bits o 8 48
        accept := bits d0 0 8
        raw := bits d0 8 8
        void := bit d0 16
        faulted := bit d0 17
        module := bits d0 19 13
        excluded := bits d0 32 16
        included := bits d0 48 16
        tail := d1 })
    else none
  | _ => none

/-- Data block 0 of a calibration report (R381); its d fields hold 0 to 1,023 (DESIGN CHOICE, log entry 55). -/
def reportData (r : CalRep) : Nat :=
  min 1023 r.dMax.toNat + 2 ^ 10 * min 1023 r.dMin.toNat + (if r.unstable then 2 ^ 20 else 0) + (if r.moored then 2 ^ 21 else 0) +
    (if r.patient then 2 ^ 22 else 0)

/-- The blocks of a calibration report of the module's number `number`; the spec names no frame for it (log entry 55). -/
def reportBlocks (number : Nat) (r : CalRep) : List Nat := messageBlocks 5 (Config.reportFrame number) (reportData r) 0

/-- `n` data blocks of 8 bytes each (R46). -/
def dataBlocks : Nat → List Nat → List Nat
  | 0, _ => []
  | n + 1, bs => leNat (bs.take 8) :: dataBlocks n (bs.drop 8)

/-- A berth word (R381): word-open with the count in which it joined its queue, and its eight data blocks. -/
def wordBlocks (sent word : Nat) : List Nat := (0x33 + 2 ^ 8 * (sent % 2 ^ 24)) :: dataBlocks 8 (leBytes 64 word)

/-- An egress record (R381, R383): record-open, its bytes in order, record-close with their CRC-32C. -/
def recordBlocks (number seq : Nat) (bytes : List Nat) : List Nat :=
  (0x87 + 2 ^ 8 * (seq % 2 ^ 32) + 2 ^ 40 * number) :: (dataBlocks (bytes.length / 8) bytes ++ [0x99 + 2 ^ 8 * crc32c bytes])

/-! ### Sending (R378, R382, R383) -/

/-- D_tx of a rate code (R382). -/
def dTx (rate : Nat) : Nat := if rate < 2 then 12 else 14

/-- Rate of lane `l` of 128 link lanes. -/
def State.linkRate (s : State) (l : Nat) : Nat := s.fld (kLstat (20 + l / 32) (s.chanOf (20 + l / 32) (l % 32))) lstat_rate_now

/-- Rate of bundle `k`: that of its lane 0. -/
def State.bundleRate (s : State) (k : Nat) : Nat := s.linkRate (4 * k)

/-- Blocks that a lane has sent before a clk at a rate code (R45). -/
def blocksBy (rate clk : Nat) : Nat := clk * bpcMillion rate / 1000000

/-- Block `i` of link lane `l` is a lane marker: every 16,384th is (R85, R379), from a phase the spec leaves open (log
entry 55). -/
def markerBlock (l i : Nat) : Bool := (i + Config.markerPhase l) % 16384 == 0

/-- A lane marker falls due on link lane `l` in this clk. -/
def State.markerDue (s : State) (l : Nat) : Bool :=
  let a := blocksBy (s.linkRate l) s.clk
  (List.range (blocksBy (s.linkRate l) (s.clk + 1) - a)).any (fun i => markerBlock l (a + i))

/-- Blocks enter the transmit path of some lanes of bundle `k` in this clk (R382), block i on lane i mod their number;
the first bit of the first leaves the ferrule in clk `leave`, or one block later when a lane marker falls due. -/
def State.sendBlocks (s : State) (k : Nat) (lanes blocks : List Nat) : State :=
  let l := 4 * k + lanes.headD 0
  s.emit (.link k lanes (s.clk + dTx (s.linkRate l)) (s.markerDue l) blocks)

/-- A summary, combine or relay goes out: on lane 3 of a berth bundle, on lane 0 of bundle 31, the uplink (R376, R378). -/
def State.sendSumm (s : State) (k kind : Nat) (m : Summ) : State := s.sendBlocks k [if k = 31 then 0 else 3] (summBlocks kind m)

/-- The lanes of an egress bundle that carry records (R378, R376): lane 0 of an uplink and lane 3 where it carries
accepts carry none. -/
def State.recordLanes (s : State) (k : Nat) : List Nat :=
  (List.range 4).filter (fun b => !(b == 0 && k == 31 && s.fld (kBun 31) bun_role == 3) &&
    !(b == 3 && s.flag (kBun k) bun_carry_accept))

/-- What a link lane sends when no message, word or record is on it (R378). -/
inductive LinkSend where
  | dark
  | training
  | idle
  | marker (ident : Nat)
deriving DecidableEq, Repr

/-- Lane `n` of link engine `e` sends training blocks in a negotiating bring-up of its bundle (R69), else idle blocks
and lane markers with the identity of R377; a dark channel sends nothing (R70). -/
def State.linkSends (s : State) (e n : Nat) : LinkSend :=
  if !s.laneLit e n then .dark
  else if (match s.bringOf (s.unitKey e n) with | some b => !b.fixed | none => false) then .training
  else if s.markerDue (32 * (e - 20) + n) then .marker (s.trainIdent e n)
  else .idle

/-- The lane markers that this clk's blocks hold (R85, R377, R378). -/
def State.sendMarkers (s : State) : State :=
  (List.range 128).foldl (fun s l => match s.linkSends (20 + l / 32) (l % 32) with
    | .marker ident => s.emit (.marker l ident)
    | _ => s) s

/-! ### Receiving (R46, R379) -/

/-- Locked link lane `l` hears blocks: they count towards its next marker. A link engine under reset takes none (R492). -/
def State.hearLane (s : State) (l : Nat) (blocks : List Nat) : State :=
  let e := 20 + l / 32
  if s.flag (kLstat e (s.chanOf e (l % 32))) lstat_block_lock && !s.engineReset e then blocks.foldl (fun s w => s.hear e (l % 32) false w) s else s

/-- A message is heard on lane 3 of bundle `k`, or on the uplink. -/
def State.hearSumm (s : State) (k kind : Nat) (m : Summ) : State := s.hearLane (4 * k + if k = 31 then 0 else 3) (summBlocks kind m)

/-- A berth word is heard on lanes 0 to 2 of bundle `k`, block i on lane i mod 3 (R378). -/
def State.hearWord (s : State) (k sent word : Nat) : State :=
  let bs := (wordBlocks sent word).zipIdx
  (List.range 3).foldl (fun s b => s.hearLane (4 * k + b) ((bs.filter (fun x => x.2 % 3 == b)).map Prod.fst)) s

end Sys2Proof.Machine
end

