-- ==== Sys2Proof/Machine/TileControl.lean ====
section
/-! DEFINITION. The control unit (R244 to R253): which word issues in each clk, the frame context, marks to the ridge
and completion marks. A mark travels 20 clk (R251). -/

namespace Sys2Proof.Machine

/-- PAD: nothing issues for n_m + 1 clk from this one (R245). -/
def execPad (t : Iss) (nM : Nat) (s : State) : Host.Outcome State Fault Refusal :=
  s.issue (.pad t nM) t 0 0 fun s _ => s.setTile t.tile { s.tile t.tile with next := s.clk + nM + 1 }

/-- FWAIT: the next word issues in the first later clk whose slot is `off` modulo F (R245). -/
def execFwait (t : Iss) (off : Nat) (s : State) : Host.Outcome State Fault Refusal :=
  s.issue (.fwait t off) t 0 0 fun s _ =>
    let w := (((off : Int) - s.slotAt s.clk - 1) % s.F).toNat + 1
    s.setTile t.tile { s.tile t.tile with next := s.clk + w }

/-- LOOP: takes no clk of its own (R246). -/
def execLoop (t : Iss) (countM lenM : Nat) (s : State) : Host.Outcome State Fault Refusal :=
  if tileOk s.grade t.tile then
    if s.mayIssue t.tile && s.spells (.loop t countM lenM) t.tile then
      let x := s.begun (s.tile t.tile)
      .next (s.setTile t.tile { x with
        pc := x.pc + 1
        loops := (x.pc + 1, x.pc + lenM + 2, countM) :: x.loops })
    else .next s
  else .next s

/-- HALT: the tile issues nothing more until the job is unloaded (R247). -/
def execHalt (t : Iss) (s : State) : Host.Outcome State Fault Refusal :=
  s.issue (.halt t) t 0 0 fun s _ => s.setTile t.tile { s.tile t.tile with halted := true }

/-- Tile `p` belongs to the window partition (R336). -/
def State.windowTile (s : State) (p : Nat) : Bool := s.job.partition.getD p 0 == 2

/-- frame_void(n) (R248, R249). -/
def State.frameVoid (s : State) (n : Nat) : Bool := mget none s.dec.voids n == some true

/-- Window slot z holds no bound window (R338, R340). -/
def State.slotEmpty (s : State) (z : Nat) : Bool := (mget none s.cap.slots z).isNone

/-- Frame number and void of FSEL in this clk: the frame whose status came last, `lag` frames back (R248), or the
window slot for a tile of the window partition (R340). -/
def State.fselOf (s : State) (p lag : Nat) : Nat × Bool :=
  if s.windowTile p then
    let len := max 1 (s.fld kWslot wslot_slot_length)
    let z := ((s.clk : Int) - s.job.s0 - s.fld kWslot wslot_window_offset) / len - lag
    (unsignedOf 48 z, decide (z < 0) || s.slotEmpty z.toNat)
  else
    let n := ((s.clk : Int) - s.job.s0 - s.E - 8) / s.F - lag
    (unsignedOf 48 (s.job.n0 + n), decide (n < 0) || s.frameVoid n.toNat)

/-- FSEL (R248, R340). -/
def execFsel (t : Iss) (lag : Nat) (wrS : Bool) (sdst pdst : Nat) (s : State) : Host.Outcome State Fault Refusal :=
  s.issue (.fsel t lag wrS sdst pdst) t 0 0 fun s a =>
    let f := s.fselOf t.tile lag
    s.plan t.tile ([s.pendAt a 4 0 (.fctx f.1 f.2), s.pendAt a 4 0 (.pflag pdst f.2)]
      ++ if wrS then [s.pendAt a 4 0 (.sreg sdst (f.1 % 2 ^ 32))] else [])

/-- The value of a MARK from its source bytes or register (R251). -/
def markValue (fmt zp v : Nat) : Int :=
  match fmt with
  | 0 => (v % 256 : Nat) - (zp : Int)
  | 1 => signed 8 v
  | _ => signed 16 v

/-- MARK: the score sets out for the ridge, or for the capture logic from a window tile (R251, R341). -/
def execMark (t : Iss) (o : MarkOps) (s : State) : Host.Outcome State Fault Refusal :=
  s.issue (.mark t o) t 0 0 fun s a =>
    let x := s.tile t.tile
    let at_ := (x.preg o.ptr + o.offset) % 2 ^ 25
    let n := if o.fmt = 2 then 2 else 1
    let send := fun (v : Nat) =>
      let m : MarkRec := { arrive := s.clk + 20, tile := t.tile, addr := a, frame := x.fnum, score := o.score,
                           value := markValue o.fmt o.zp v, window := s.windowTile t.tile }
      { s with dec := { s.dec with marks := s.dec.marks ++ [m] } }
    if o.src = 1 then send (x.sreg o.sreg)
    else s.checked t.tile a [(at_, n, false)] [⟨0, 0⟩] (send (leNat (s.sram t.tile at_ n)))

/-- MCHK (R252): cmark_unset when the mark reads 0. -/
def execMchk (t : Iss) (cm : Nat) (clear : Bool) (s : State) : Host.Outcome State Fault Refusal :=
  s.issue (.mchk t cm clear) t 0 0 fun s a =>
    if mget false (s.tile t.tile).cm cm then
      if clear then s.plan t.tile [s.pendAt a 4 0 (.cmark cm false)] else s
    else s.tileFault 6 9 t.tile a 0

end Sys2Proof.Machine
end

