-- ==== Sys2Proof/Machine/Release.lean ====
section
/-! DEFINITION. The schedule and release (R98 to R110, R165, R166, R280, R333, R334): the binding of N0 and s0, the
frame or void of each slot with its codes, averaging, replay, course headers, and the calibration windows. -/

namespace Sys2Proof.Machine

/-! ### Conversion (R98 to R100) -/

/-- Group Conversion. -/
def kConv (q g : Nat) : Nat := key (0x2200 + q) (6 + g)

/-- Sample width of group `g` of quay `q` in bits (R114). -/
def State.sampleWidth (s : State) (q g : Nat) : Nat := 4 * (s.fld (kConv q g) conv_sample_width + 1)

/-- The samples of one data block (R98). -/
def blockSamples (w v : Nat) : List Nat := (List.range (64 / w)).map (fun i => bits v (w * i) w)

/-- The value of a stored sample. -/
def State.sampleValue (s : State) (q g x : Nat) : Int :=
  if s.flag (kConv q g) conv_sample_signed then signed (s.sampleWidth q g) x else Int.ofNat x

/-- The samples of a group frame as values, in the order of R100. -/
def State.groupSamples (s : State) (q g : Nat) (data : List (Nat × List Nat)) : List Int :=
  (List.range (s.laneCount q g)).flatMap (fun i =>
    (((data.find? (fun e => e.1 == i)).map (fun e => e.2)).getD []).flatMap (fun v =>
      (blockSamples (s.sampleWidth q g) v).map (s.sampleValue q g)))

/-- Format number of quay `q`'s codes (R120). -/
def State.quayFmt (s : State) (q : Nat) : Nat :=
  (if s.flag (key (0x2200 + q) 1) quay_code_k4 then 2 else 0) + s.fld (key (0x2200 + q) 1) quay_code_signed

/-- Zero-point code of quay `q`. -/
def State.quayZp (s : State) (q : Nat) : Nat := fmtZp (s.quayFmt q) (s.fld (key (0x2200 + q) 1) quay_zero_point)

/-- The code of one sample and whether it saturated (R99). -/
def State.convert (s : State) (q g : Nat) (x : Int) : Nat × Bool :=
  let v := roundTa (x - signed 16 (s.fld (kConv q g) conv_in_offset)) (2 ^ s.fld (kConv q g) conv_in_shift)
    + s.quayZp q
  let r := fmtRange (s.quayFmt q)
  (unsignedOf (fmtBits (s.quayFmt q)) (sat v r.1 r.2), decide (v < r.1) || decide (r.2 < v))

/-- Codes per beat (R100). -/
def State.beatCodes (s : State) (q : Nat) : Nat := 4096 / fmtBits (s.quayFmt q)

/-- Codes per quay frame (R100). -/
def State.quayCodes (s : State) (q : Nat) : Nat :=
  ((List.range 4).map (fun g => s.laneCount q g * s.blocksPer q g * (64 / s.sampleWidth q g))).sum

/-- beats(q) (R106). -/
def State.beats (s : State) (q : Nat) : Nat := (s.quayCodes q * fmtBits (s.quayFmt q) + 4095) / 4096

/-- Word of a beat from its codes; positions after the last carry the zero-point code (R100). -/
def beatWord (b zp n : Nat) (codes : List Nat) : Nat :=
  ((List.range n).map (fun p => 2 ^ (b * p) * codes.getD p zp)).sum

/-- The beats of a code stream. -/
def beatWords (b zp c : Nat) : Nat → List Nat → List Nat
  | 0, _ => []
  | n + 1, codes => beatWord b zp c (codes.take c) :: beatWords b zp c n (codes.drop c)

/-- The beats of a slot set out: each reaches the entry port 6 clk after it leaves (R102). -/
def State.sendBeats (s : State) (q n reason : Nat) (codes : List Nat) : State :=
  let port := s.entryPort q
  let words := beatWords (fmtBits (s.quayFmt q)) (s.quayZp q) (s.beatCodes q) (s.beats q) codes
  let frame := (s.job.n0 + n) % 2 ^ 48
  let tag := frame + (if reason = 0 then 0 else 2 ^ 48 + 2 ^ 49 * reason)
  words.zipIdx.foldl (fun s e => s.launch
    { reg := port.1, due := s.clk + 6 + e.2, cross := some port.2, sender := 104 + q, done := false,
      tok := { word := e.1, tag := if e.2 = 0 then some tag else none } }) s

/-! ### Averaging (R333, R334) -/

/-- Averaging word. -/
def kAvg (q : Nat) : Nat := key (0x2980 + q) 1

/-- One output sample and whether it saturated (R334). -/
def avgOut (sum : Int) (w wo lg : Nat) (sg : Bool) : Int × Bool :=
  let v := roundTa (sum * 2 ^ wo) (2 ^ w * 2 ^ lg)
  let lo : Int := if sg then -(2 ^ (wo - 1)) else 0
  let hi : Int := if sg then 2 ^ (wo - 1) - 1 else 2 ^ wo - 1
  (sat v lo hi, decide (v < lo) || decide (hi < v))

/-- Stored bytes of an output sample: 1, or 2 little-endian and extended. -/
def avgBytesOf (wo : Nat) (v : Int) : List Nat := if wo = 8 then [unsignedOf 8 v] else leBytes 2 (unsignedOf 16 v)

/-- The averaging interval of quay `q` closes with frame `frame`: its request is formed and the sums start again. -/
def State.closeAverage (s : State) (q frame : Nat) : State :=
  let lg := s.fld (kAvg q) avg_avg_log2
  let wo := match s.fld (kAvg q) avg_avg_width with | 0 => 8 | 1 => 12 | _ => 16
  let pos := (List.range 4).flatMap (fun g =>
    List.replicate (s.laneCount q g * s.blocksPer q g * (64 / s.sampleWidth q g)) g)
  let outs := pos.zipIdx.map (fun e =>
    avgOut (mget 0 s.land.sums (2 ^ 24 * q + e.2)) (s.sampleWidth q e.1) wo lg
      (s.flag (kConv q e.1) conv_sample_signed))
  let s := s.bumpBy (key (0x2980 + q) 2) cnt48 ((outs.filter (fun o => o.2)).length)
  let s := { s with land := { s.land with
    sums := s.land.sums.filter (fun e => e.1 / 2 ^ 24 != q), avgN := mset 0 s.land.avgN q 0 } }
  s.formRequest
    { seq := 0, origin := 2, frame := frame, accept := 0, raw := 0, pre := 0, post := 0, mask := 2 ^ q,
      link := s.flag (kAvg q) avg_avg_destination, window := false, doubt := false, avgLog2 := lg,
      data := outs.flatMap (fun o => avgBytesOf wo o.1) }

/-- A frame that entered the grid is added to its quay's averaging sums (R333). -/
def State.average (s : State) (q frame : Nat) (samples : List Int) : State :=
  if s.flag (kAvg q) avg_avg_enable then
    let sums := samples.zipIdx.foldl (fun m e =>
      mset 0 m (2 ^ 24 * q + e.2) (mget 0 m (2 ^ 24 * q + e.2) + e.1)) s.land.sums
    let n := mget 0 s.land.avgN q + 1
    let s := { s with land := { s.land with sums := sums, avgN := mset 0 s.land.avgN q n } }
    if 2 ^ s.fld (kAvg q) avg_avg_log2 ≤ n then s.closeAverage q frame else s
  else s

/-! ### Slots (R102, R104, R107) -/

/-- The averages of frame index `n` once every slipway of the job has released its slot, in increasing quay number; a
frame that is void on any slipway adds nothing (R104, R321, R333). -/
def State.averageDue (s : State) (n : Nat) : State :=
  if s.slipQuays.all (fun q => decide (n < s.released q)) then
    let l := s.land.avgWait.filter (fun w => w.n == n)
    let s := { s with land := { s.land with avgWait := s.land.avgWait.filter (fun w => w.n != n) } }
    if s.frameVoid n then s
    else (List.range 20).foldl (fun s q => (l.filter (fun w => w.q == q)).foldl (fun s w =>
      s.average q ((s.job.n0 + n) % 2 ^ 48) w.samples) s) s
  else s

/-- The samples of an entered frame wait for the other slipways. -/
def State.waitAverage (s : State) (q n : Nat) (samples : List Int) : State :=
  { s with land := { s.land with avgWait := s.land.avgWait ++ [{ n := n, q := q, samples := samples }] } }

/-- Slot `n` of quay `q` is entered or void: the void joins frame_void(n), beats leave while the grid runs, codes are
made, and averages advance for a frame that enters on every slipway (R99, R104, R249, R333). -/
def State.fillSlot (s : State) (q n reason : Nat) (groups : List (Nat × List (Nat × List Nat))) : State :=
  let void := reason != 0
  let old := mget none s.dec.voids n == some true
  let s := { s with dec := { s.dec with
    voids := mset none s.dec.voids n (some (old || void)) } }
  if void then (if s.gridRuns then s.sendBeats q n reason [] else s).averageDue n
  else
    let conv := groups.map (fun e => (e.1, (s.groupSamples q e.1 e.2).map (s.convert q e.1)))
    let s := conv.foldl (fun s e =>
      s.bumpBy (key (0x2240 + q) (0x11 + e.1)) cnt32 ((e.2.filter (fun c => c.2)).length)) s
    let s := if s.gridRuns then s.sendBeats q n 0 (conv.flatMap (fun e => e.2.map (fun c => c.1))) else s
    (s.waitAverage q n (groups.flatMap (fun e => s.groupSamples q e.1 e.2))).averageDue n

/-- Slot n is one in which the job admits frames: RUNNING, or PAUSED, outside the paused frames (R454, R456, R457). -/
def State.admits (s : State) (n : Nat) : Bool :=
  (s.jobState == RUNNING || s.jobState == PAUSED) && !(match s.job.heldFrom with
    | none => false
    | some a => decide (a ≤ n) && (match s.job.heldTo with | none => true | some b => decide ((n : Int) < b)))

/-- A group frame as its slot finds it: reason (0 none), whether the gutter has counted it, whether it was ready in
time, and its data. -/
structure SlotGroup where
  group : Nat
  reason : Nat
  counted : Bool
  inTime : Bool
  data : List (Nat × List Nat)
deriving DecidableEq, Repr

/-- What the slot of frame `frame` finds in group `g` of quay `q` (R96, R104). -/
def State.slotGroup (s : State) (q frame g : Nat) : SlotGroup :=
  let x := s.group q g
  match x.wait.find? (fun f => f.frame == frame) with
  | some f => { group := g, reason := f.reason, counted := f.counted, inTime := true, data := f.data }
  | none =>
    match x.ready.find? (fun f => f.frame == frame) with
    | some f =>
      { group := g, reason := if f.reason = 0 ∨ 7 < f.reason then 7 else f.reason, counted := f.counted,
        inTime := false, data := [] }
    | none =>
      match x.gone.find? (fun e => e.1 == frame) with
      | some e => { group := g, reason := e.2, counted := true, inTime := false, data := [] }
      | none =>
        { group := g, reason := if x.open_.any (fun f => f.frame == frame) then 7 else 6, counted := false,
          inTime := false, data := [] }

/-- The frames of a group up to the slot's leave its lists; what has gone to the gutter stays known until every lane
is past it, so that a lane that opens such a frame later counts it no second time (R91, R96). -/
def Group.after (x : Group) (frame : Nat) : Group :=
  { x with
    wait := x.wait.filter (fun f => later f.frame frame)
    ready := x.ready.filter (fun f => f.frame != frame) }

/-- One group's part in a void slot (R96, R104): its gutter count, and its final reason in the course. A late frame of a
moored module is a berth fault (R391). -/
def State.voidGroup (s : State) (q frame low : Nat) (g : SlotGroup) : State :=
  let r := if g.inTime then (if g.counted then g.reason else low) else g.reason
  let s := if g.counted then s else s.gutter q r
  let s := s.courseReason q g.group frame r
  if r = 7 then s.frameLate frame else s

/-- The lowest reason of a list, 0 when there is none. -/
def lowReason (l : List Nat) : Nat :=
  match l.filter (fun r => r != 0) with
  | [] => 0
  | r :: rs => rs.foldl min r

/-- The release of slot `n` of quay `q` from its lane groups (R104, R107). -/
def State.releaseLive (s : State) (q n : Nat) : State :=
  let frame := (s.job.n0 + n) % 2 ^ 48
  let gs := (s.usedGroups q).map (s.slotGroup q frame)
  let held := if s.admits n then 0 else 10
  let low := lowReason (held :: gs.map (fun g => g.reason))
  let s := (s.usedGroups q).foldl (fun s g => s.setGroup q g ((s.group q g).after frame)) s
  let s := if low = 0 then s else gs.foldl (fun s g => s.voidGroup q frame low g) s
  s.fillSlot q n low (gs.map (fun g => (g.group, g.data)))

/-! ### Replay (R108 to R110) -/

/-- Replay is on. -/
def State.replaying (s : State) : Bool := s.flag (key 0x22F0 1) lndg_replay_enable

/-- Memory address of course `k` of the replay segment of quay `q` (R280). -/
def State.replayPtr (s : State) (q k : Nat) : Nat :=
  hbmBase (quayDie q) + s.hbmMap (quayDie q) 3 + s.ent (key (0x2780 + q) 4) + k * s.courseSize q

/-- Courses of the replay segment of quay `q`. -/
def State.replayCount (s : State) (q : Nat) : Nat := s.ent (key (0x2780 + q) 5)

/-- Recorded frame number of course `k`. -/
def State.replayFrame (s : State) (q k : Nat) : Nat := readNat s.mem (s.replayPtr q k) 6

/-- The recorded entry of group `g` in course `k`: reason, flags, valid lanes. -/
def State.replayEntry (s : State) (q k g : Nat) : Nat × Nat × Nat :=
  let v := readNat s.mem (s.replayPtr q k + 32 + 8 * g) 8
  (bits v 0 4, bits v 4 8, bits v 12 32)

/-- The recorded blocks of group `g`, by lane. -/
def State.replayData (s : State) (q k g : Nat) : List (Nat × List Nat) :=
  (List.range (s.laneCount q g)).map (fun i => (i, (List.range (s.blocksPer q g)).map (fun b =>
    readNat s.mem (s.replayPtr q k + s.groupOffset q g + 8 * (i * s.blocksPer q g + b)) 8)))

/-- Λ: one more than the largest (last frame number - N0) over the job's quays (R110). -/
def State.replayLambda (s : State) : Nat :=
  (s.slipQuays.map (fun q => (s.replayFrame q (s.replayCount q - 1) + 2 ^ 48 - s.job.n0) % 2 ^ 48)).foldl max 0 + 1

/-- Replay of quay `q`. -/
def State.replay (s : State) (q : Nat) : Replay := mget {} s.land.replay q
/-- `s` with it replaced. -/
def State.setReplay (s : State) (q : Nat) (r : Replay) : State :=
  { s with land := { s.land with replay := mset {} s.land.replay q r } }

/-- Number of the next course of quay `q`, with the loop offset of its pass (R110). -/
def State.replayNumber (s : State) (q : Nat) : Nat :=
  (s.replayFrame q (s.replay q).pos + (s.replay q).pass * s.land.lambda) % 2 ^ 48

/-- The next course of quay `q` is out of order: not later than the one consumed before it (R109). -/
def State.replaySkips (s : State) (q : Nat) : Bool :=
  decide ((s.replay q).pos < s.replayCount q) &&
    (match (s.replay q).last with | some l => !later (s.replayNumber q) l | none => false)

/-- Skips at most `n` courses that are out of order, each counted (R109). -/
def State.skipCourses (s : State) (q : Nat) : Nat → State
  | 0 => s
  | n + 1 =>
    let s := s.skipCourses q n
    if s.replaySkips q then
      (s.setReplay q { s.replay q with pos := (s.replay q).pos + 1 }).bump (key 0x22F0 1) lndg_replay_skipped
    else s

/-- What the slot of frame `frame` finds in the segment of quay `q` (R109, R110): the state, the reason of the slot, and
the course that enters. -/
def State.replayPick (s : State) (q frame : Nat) : State × Nat × Option Nat :=
  let s := s.skipCourses q 8
  let r := s.replay q
  if s.replayCount q ≤ r.pos then (s, 11, none)
  else if s.replaySkips q ∨ s.replayNumber q ≠ frame then (s, 6, none)
  else
    let idx := r.pass * s.replayCount q + r.pos
    let r' := { r with pos := r.pos + 1, last := some frame }
    if r.read.any (fun e => e.1 == idx && decide (e.2 < s.clk)) then
      (s.setReplay q { r' with read := r.read.filter (fun e => decide (idx < e.1)) }, 0, some r.pos)
    else (s.setReplay q { r' with late := (idx, frame) :: r.late }, 7, none)

/-- The arrival tag of a replayed frame (R109): the earliest r(q, n) less entry_margin and 16 clk. -/
def State.replayTag (s : State) (n : Nat) : Int :=
  let first := (s.slipQuays.map s.entryOffset).foldl min 65535
  (s.job.s0 + first + n * s.F : Nat) - (s.fld (key 0x22F0 1) lndg_entry_margin + 16 : Nat)

/-- A replayed course is written to the ring as a course of its quay with the frame number of its slot (R109), a new
one also where a schedule before this one wrote a course of that number. -/
def State.landReplay (s : State) (q frame k : Nat) (reason : Option Nat) (stamp : Nat) : State :=
  let s := { s with land := { s.land with
    written := mset [] s.land.written q ((mget [] s.land.written q).filter (fun e => e.1 != frame)) } }
  let s := (s.usedGroups q).foldl (fun s g =>
    let e := s.replayEntry q k g
    s.landCourse q g frame (reason.getD e.1) e.2.1 e.2.2 (s.replayData q k g) (some stamp)) s
  s.onCourse q frame (fun c => { c with replayed := true, close := s.clk })

/-- The release of slot `n` of quay `q` from the replay region (R109, R110). A course that is not read in time is a berth
fault of a moored module (R391); a reason recorded in a course is no timing-dependent choice. -/
def State.releaseReplay (s : State) (q n : Nat) : State :=
  let frame := (s.job.n0 + n) % 2 ^ 48
  let r := s.replay q
  let pass := n / max 1 s.land.lambda
  let s := if s.flag (key 0x22F0 1) lndg_replay_loop ∧ r.pass < pass then
    s.setReplay q { r with pos := 0, pass := pass } else s
  let p := s.replayPick q frame
  let s := p.1
  let held := if s.admits n then 0 else 10
  let s := match p.2.2 with
    | none =>
      let s := (s.usedGroups q).foldl (fun (s : State) _ => s.gutter q p.2.1) s
      if p.2.1 = 7 then s.frameLate frame else s
    | some _ => s
  let s := if s.slipQuays.all (fun q => decide (s.replayCount q ≤ (s.replay q).pos)) &&
      !s.flag (key 0x22F0 1) lndg_replay_loop then s.setFlag (key 0x22F0 1) lndg_replay_done true else s
  match p.2.2 with
  | none => s.fillSlot q n p.2.1 []
  | some k =>
    let tag := s.replayTag n
    let stamp := s.globalTime tag.toNat
    let own := (s.usedGroups q).map (fun g => (g, (s.replayEntry q k g).1))
    let low := lowReason (held :: own.map Prod.snd)
    let s := { s with dec := { s.dec with tags := mset none s.dec.tags frame (some (tag.toNat, tag - 22, stamp)) } }
    let s := own.foldl (fun (s : State) (e : Nat × Nat) =>
      if low = 0 then s else s.gutter q (if e.2 = 0 then low else e.2)) (s.landReplay q frame k none stamp)
    let s := own.foldl (fun (s : State) (e : Nat × Nat) =>
      if low ≠ 0 ∧ e.2 = 0 then s.courseReason q e.1 frame low else s) s
    s.fillSlot q n low ((s.usedGroups q).map (fun g => (g, s.replayData q k g)))

/-- The slot of quay `q` whose release clk r(q, n) this is, once. -/
def State.releaseSlot (s : State) (q : Nat) : State :=
  let from_ := s.job.s0 + s.entryOffset q
  let n := (s.clk - from_) / s.F
  if s.job.bound ∧ s.slipQuays.contains q ∧ from_ ≤ s.clk ∧ (s.clk - from_) % s.F = 0 ∧ s.released q ≤ n then
    let s := { s with land := { s.land with released := mset 0 s.land.released q (n + 1) } }
    if s.replaying then s.releaseReplay q n else s.releaseLive q n
  else s

/-- Every slot whose release clk this is. -/
def State.releaseSlots (s : State) : State := s.slipQuays.foldl State.releaseSlot s

/-- SLOT_RELEASE (R102, R104, R107, R109): in release clk r(q, n), once. -/
def execSlotRelease (q : Nat) (s : State) : Host.Outcome State Fault Refusal :=
  if quayOk s.grade q then .next (s.releaseSlot q) else .next s

/-- Course `k` of the quay's replay segment is read from HBM: an uncorrectable word is a memory fault of its stack, and the
course is read as it stands (R535, R536). -/
def State.readCourse (s : State) (q k : Nat) : State :=
  match s.firstBad (s.replayPtr q k) (s.courseSize q) with
  | some w =>
    let a := w - hbmBase (quayDie q)
    s.memFault 3 (loc 5 (stackOf (quayDie q) a).1) a 0xFF 0xFF
  | none => s

/-- REPLAY_COURSE_READ (R109): the next course of the quay's segment is read; one whose slot has passed is written to
the ring as late. -/
def execReplayCourseRead (q : Nat) (s : State) : Host.Outcome State Fault Refusal :=
  if quayOk s.grade q then
    let r := s.replay q
    let c := s.replayCount q
    if s.replaying ∧ s.slipQuays.contains q ∧ s.active ∧ (r.reads < c ∨ s.flag (key 0x22F0 1) lndg_replay_loop) then
      let idx := r.reads
      let s := s.readCourse q (idx % max 1 c)
      match r.late.find? (fun e => e.1 == idx) with
      | some e =>
        let s := s.setReplay q { r with reads := idx + 1, late := r.late.filter (fun x => x.1 != idx) }
        .next (s.landReplay q e.2 (idx % max 1 c) (some 7)
          (s.globalTime (s.replayTag (frameIndex s.job.n0 e.2).toNat).toNat))
      | none => .next (s.setReplay q { r with reads := idx + 1, read := r.read ++ [(idx, s.clk)] })
    else .next s
  else .next s

/-! ### The binding (R103, R109, R298, R299, R384) -/

/-- The clk in which frame `frame` is ready on group `k` (4 q + g), if it is. -/
def State.readyAt (s : State) (k frame : Nat) : Option Nat :=
  (((s.group (k / 4) (k % 4)).ready).find? (fun f => f.frame == frame)).map (fun f => f.ready)

/-- The latest ready clk of `frame` over some groups, when it is ready on each by now. -/
def State.readyOn (s : State) (ks : List Nat) (frame : Nat) : Option Nat :=
  ks.foldl (fun m k => match m, s.readyAt k frame with
    | some a, some b => if b ≤ s.clk then some (max a b) else none
    | _, _ => none) (some 0)

/-- The frame that binds as N0 for a live job, with nothing else wanted: the first that is ready on every group; in a
berth only berth_start_frame (R103, R384). -/
def State.bindFrame (s : State) : Option Nat :=
  match s.jobGroups with
  | [] => none
  | k :: ks =>
    let cand := ((s.group (k / 4) (k % 4)).ready.map (fun f => f.frame)).filter (fun n =>
      (s.readyOn (k :: ks) n).isSome && (decide (s.berthSize ≤ 1) || n == s.ent (key 0x2D00 4)))
    cand.foldl (fun m n => match m with
      | none => some n
      | some a => if later a n then some n else some a) none

/-- s0 (R103): the smallest clk after this one with s0 + entry_offset ≥ ready + entry_margin on every quay. -/
def State.bindStart (s : State) (readyOf : Nat → Nat) : Nat :=
  let m := s.fld (key 0x22F0 1) lndg_entry_margin
  (s.slipQuays.map (fun q => readyOf q + m - s.entryOffset q)).foldl max (s.clk + 1)

/-- A ridge fault (R296, R539). -/
def State.ridgeFault (s : State) (cause frame detail : Nat) : State :=
  s.fault { family := 7, cause := cause, loc := loc 7 0, frame := frame, detail := detail }

/-- The schedule is bound (R103): the slots start from 0, the pin delay of void frames is fixed, and a negative one is
latency_unmet (R299). -/
def State.bind (s : State) (n0 s0 : Nat) (tref : Int) : State :=
  let d : Int := tref + s.fld (key 0x2800 1) dec_latency_l - (s0 + s.fld (key 0x2800 1) dec_ridge_close : Nat) - 22
  let resumed := s.job.resumeParked
  let s := { s with
    job := { s.job with bound := true, n0 := n0, s0 := s0, parkedTiles := false, heldFrom := none, heldTo := none, pauseAt := none, resumeAt := none, layerWin := [], winNext := [] }
    land := { s.land with released := [] }
    dec := { s.dec with dNom := d, voids := [], nextEval := 0, scores := [] }
    cap := { s.cap with slots := [], nextSlot := 0, verdicts := [] }
    tiles := if resumed then mmap ({} : Tile) (fun t => { t with period := 0, pc := 0, next := 0, loops := [] }) s.tiles else s.tiles
    net := { s.net with lastSlot := none } }
  let s := s.setFld (key 0x2800 2) pin_d_nom (if d < 0 then 0 else d.toNat)
  if d < 0 then (s.setFlag (key 0x2800 2) pin_unmet_seen true).ridgeFault 4 n0 0 else s

/-- The latest lane's frame-close of a frame that was ready before a job was armed has left no tag: it came 16 clk
before the frame was ready (R103, R105, R297). A frame that has lost a frame-close (R96) takes it only where it has no
tag at all. -/
def State.tagReady (s : State) (k : Nat) (f : ReadyFrame) : State :=
  let close := f.ready - 16
  let r : Int := (close : Int) - dRx (s.fld (kLstat (k / 4) (s.chanOf (k / 4) ((s.groupLanes (k / 4) (k % 4)).headD 0))) lstat_rate_now)
  let stamp := s.globalTime close
  let t := match mget none s.dec.tags f.frame with
    | none => (close, r, stamp)
    | some t =>
      if 2 ≤ f.reason ∧ f.reason ≤ 4 then t
      else if close ≤ t.1 then (t.1, max r t.2.1, t.2.2) else (close, max r t.2.1, stamp)
  { s with dec := { s.dec with tags := mset none s.dec.tags f.frame (some t) } }

/-- Every frame that is ready on the job's groups has its arrival tag (R105). -/
def State.tagAll (s : State) : State :=
  s.jobGroups.foldl (fun s k => (s.group (k / 4) (k % 4)).ready.foldl (fun s f => s.tagReady k f) s) s

/-- SCHEDULE_BIND (R103, R109, R384), once the frame is ready; a clk in which it is binds by itself (State.tick).
DESIGN CHOICE (log entry 74): for a replayed N0 ready(q, N0) is the clk in which the first course of the quay is read,
and in a berth N0 is berth_start_frame in replay too. -/
def execScheduleBind (s : State) : Host.Outcome State Fault Refusal :=
  if s.awaiting then
    if s.replaying then
      match s.slipQuays with
      | [] => .next s
      | q0 :: qs =>
        if (q0 :: qs).all (fun q => decide (0 < (s.replay q).reads)) then
          let n0 := if s.berthSize ≤ 1 then s.replayFrame ((q0 :: qs).foldl min q0) 0 else s.ent (key 0x2D00 4) % 2 ^ 48
          let s0 := s.bindStart (fun q => (((s.replay q).read.find? (fun e => e.1 == 0)).map (fun e => e.2)).getD s.clk)
          let s := { s with job := { s.job with s0 := s0, n0 := n0 } }
          let s := { s with land := { s.land with lambda := s.replayLambda } }
          .next (s.bind n0 s0 (s.replayTag 0 - 22))
        else .next s
    else
      match s.bindFrame with
      | none => .next s
      | some n0 =>
        let s0 := s.bindStart (fun q => ((s.readyOn ((s.usedGroups q).map (fun g => 4 * q + g)) n0).getD 0))
        let s := s.tagAll
        let tref := match mget none s.dec.tags n0 with | some t => t.2.1 | none => (s.clk : Int)
        let s := s.jobGroups.foldl (fun s k =>
          let x := s.group (k / 4) (k % 4)
          let old := x.ready.filter (fun f => later n0 f.frame && decide (f.ready ≤ s.clk))
          let s := s.setGroup (k / 4) (k % 4) { x with
            ready := x.ready.filter (fun f => !(later n0 f.frame && decide (f.ready ≤ s.clk))) }
          old.foldl (fun s f =>
            let r := if f.reason = 0 then 10 else f.reason
            (if f.counted then s else s.gutter (k / 4) r).courseReason (k / 4) (k % 4) f.frame r) s) s
        .next ((s.bind n0 s0 tref).settleAll s.clk)
  else .next s

/-! ### Headers (R280) -/

/-- The reasons of a course are final and its close has come (R280). -/
def State.courseClosed (s : State) (q : Nat) (c : Course) : Bool :=
  decide (c.close ≤ s.clk) && (List.range 4).all (fun g =>
    !((s.group q g).ready ++ (s.group q g).wait).any (fun f => f.frame == c.frame)) &&
    (!s.job.bound || !s.slipQuays.contains q || decide (frameIndex s.job.n0 c.frame < 0) || s.slotPast q 0 c.frame)

/-- The used groups that did not land a course read as zero in it (R97). -/
def State.zeroMissing (s : State) (q : Nat) (c : Course) : State :=
  (s.usedGroups q).foldl (fun s g =>
    if c.groups.any (fun e => e.1 == g) then s
    else { s with mem := zeroRange s.mem (c.addr + s.groupOffset q g) (s.laneCount q g * s.blocksPer q g * 8) }) s

/-! ### Calibration (R165 to R169) -/

/-- CAL_WINDOW_CLOSE (R165): the count of the window that ends is compared with its threshold; kinds 1 to 3. DESIGN CHOICE
(log entry 78): a window also closes while the grid is parked or the job is FAULTED, as long as the schedule is bound. -/
def execCalWindowClose (layer kind : Nat) (s : State) : Host.Outcome State Fault Refusal :=
  if layer < 256 ∧ 1 ≤ kind ∧ kind ≤ 3 then
    let k := key (0x2400 + layer) kind
    let len := s.fld k cwin_window * s.F
    let done := (s.clk - s.job.s0) / len
    let c := 4 * layer + kind
    if s.job.bound ∧ s.job.s0 < s.clk ∧ (s.clk - s.job.s0) % len = 0 ∧ mget 0 s.job.winNext c < done then
      let n := mget 0 s.job.layerWin c
      let th := s.fld k cwin_threshold
      let j := done - 1
      let s := { s with job := { s.job with
        layerWin := mset 0 s.job.layerWin c 0, winNext := mset 0 s.job.winNext c done } }
      if s.flag (key 0x2500 1) cglb_cal_events_enable ∧ th ≠ 0 ∧ th ≤ n then
        .next { s with job := { s.job with calQ := s.job.calQ ++
          [{ layer := layer, kind := kind, window := j, frame := (s.job.n0 + j * s.fld k cwin_window) % 2 ^ 48, count := n, threshold := th }] } }
      else .next s
    else .next s
  else .next s

/-- Seen flag and event count of a kind (R169). -/
def calFlds : Nat → Fld × Fld
  | 1 => (cstat_saturation_seen, cstat_saturation_events)
  | 2 => (cstat_underuse_seen, cstat_underuse_events)
  | _ => (cstat_floor_seen, cstat_floor_events)

/-- A calibration event is raised (R166, R170): status, EMCY of class calibration and record. DESIGN CHOICE (log entry
73): a window index or count of 2^32 or more is taken modulo 2^32 in the 32-bit fields. -/
def State.raiseCal (s : State) (e : CalEvent) : State :=
  let k := key (0x2400 + e.layer) 7
  let f := calFlds e.kind
  let s := (s.setFlag k f.1 true).bump k f.2
  let d := e.layer + 2 ^ 8 * e.kind + 2 ^ 32 * (e.window % 2 ^ 32) + 2 ^ 64 * e.frame
    + 2 ^ 128 * (e.count % 2 ^ 32) + 2 ^ 160 * e.threshold
  (s.emcy 2 d).record 11 (e.layer + 2 ^ 8 * e.kind)
    (e.window % 2 ^ 32 + 2 ^ 32 * e.frame + 2 ^ 96 * (e.count % 2 ^ 32) + 2 ^ 128 * (e.threshold % 2 ^ 32)
      + 2 ^ 160 * (e.window % 2 ^ 32))

/-- CALIBRATION_EVENT (R166, R170): the oldest waiting event is raised; a window index or count of 2^32 or more wraps
in it (DESIGN CHOICE, log entry 73). -/
def execCalibrationEvent (s : State) : Host.Outcome State Fault Refusal :=
  match s.job.calQ with
  | [] => .next s
  | e :: es => .next ({ s with job := { s.job with calQ := es } }.raiseCal e)

/-- Every waiting calibration event is raised: which windows raise one is fixed by the counts alone (R166). -/
def State.raiseAllCal (s : State) : State := s.job.calQ.foldl State.raiseCal { s with job := { s.job with calQ := [] } }

/-- LAYER_TOTALS_REFRESH (R167). -/
def execLayerTotalsRefresh (s : State) : Host.Outcome State Fault Refusal := .next s.refreshTotals

end Sys2Proof.Machine
end

