-- ==== Sys2Proof/Machine/Decision.lean ====
section
/-! DEFINITION. The decision path (R288 to R310): marks at the ridge, the menu, the latency pin, the flashing, the
discrete outputs and the accept messages. -/

namespace Sys2Proof.Machine

/-! ### Marks (R251, R289, R290) -/

/-- C of the loaded job. -/
def State.C (s : State) : Nat := s.fld (key 0x2800 1) dec_ridge_close

/-- e0(n) (R295). -/
def State.e0 (s : State) (n : Nat) : Nat := s.job.s0 + n * s.F + s.C

/-- The next frame to be evaluated after this clk. -/
def State.nextFrame (s : State) : Nat :=
  if s.clk < s.job.s0 + s.C then 0 else (s.clk - (s.job.s0 + s.C)) / s.F + 1

/-- The job still meets faults in this clk (R534). -/
def State.running (s : State) : Bool := s.active || (s.flt.active && s.flt.clk == s.clk)

/-- A ridge fault of a mark names the tile that sent it (R296, R539). -/
def State.markFault (s : State) (cause : Nat) (m : MarkRec) : State :=
  s.fault { family := 7, cause := cause, loc := loc 7 0, frame := m.frame, vrow := s.vrow m.tile, vcol := s.vcol m.tile,
            detail := m.score + 2 ^ 16 * loc 1 m.tile }

/-- The score of frame index `n`, if marked. -/
def State.score (s : State) (n x : Nat) : Option Int := mget none s.dec.scores (1024 * n + x)

/-- One mark is sorted by the rows of R290. -/
def State.sortMark (s : State) (m : MarkRec) : State :=
  let i := frameIndex s.job.n0 m.frame
  if !s.job.bound || !s.running || decide (i < 0) then s
  else
    let n := i.toNat
    if s.job.s0 + n * s.F + s.E + 7 ≤ s.clk ∧ s.frameVoid n then s
    else if s.e0 n ≤ s.clk then s.markFault 1 m
    else if s.nextFrame + 64 ≤ n then s.markFault 2 m
    else if (s.score n m.score).isSome then s.markFault 3 m
    else { s with dec := { s.dec with scores := mset none s.dec.scores (1024 * n + m.score) (some m.value) } }

/-- A mark that reaches the ridge in this clk. -/
def State.markDue (s : State) (m : MarkRec) : Bool := m.arrive == s.clk && !m.window

/-- mark_clash of the marks of a list, which reach the ridge in one clk with one score index (R251): raised at the
lowest tile (DESIGN CHOICE, log entry 79), once for each other tile that it names. For three tiles and more that is a DESIGN
CHOICE (log entry 76): R251 speaks of two. -/
def State.markClash (s : State) (l : List MarkRec) (a : MarkRec) : State :=
  (l.filter (fun x => x.tile != a.tile)).foldl (fun s x => s.tileFault 6 10 a.tile a.addr (loc 1 x.tile + 2 ^ 16 * a.score)) s

/-- The mark of the lowest tile among `a` and a list. -/
def lowestMark (a : MarkRec) (l : List MarkRec) : MarkRec := l.foldl (fun m x => if x.tile < m.tile then x else m) a

/-- MARK_ARRIVAL (R251, R290): the mark of tile `p`; with other tiles' marks of the same score in this clk none takes
effect, and mark_clash is raised at the lowest tile. -/
def execMarkArrival (p : Nat) (s : State) : Host.Outcome State Fault Refusal :=
  if tileOk s.grade p then
    match s.dec.marks.find? (fun m => s.markDue m && m.tile == p) with
    | none => .next s
    | some m =>
      let same := fun (x : MarkRec) => s.markDue x && x.score == m.score
      match s.dec.marks.filter (fun x => same x && x.tile != p) with
      | [] => .next ({ s with dec := { s.dec with marks := s.dec.marks.filter (fun x => x != m) } }.sortMark m)
      | x :: xs =>
        let t := { s with dec := { s.dec with marks := s.dec.marks.filter (fun y => !same y) } }
        .next (t.markClash (m :: x :: xs) (lowestMark m (x :: xs)))
  else .next s

/-! ### Evaluation (R292, R293, R295) -/

/-- compare(s, i, n): none when not enabled; the truth, and whether the score was unmarked. -/
def State.compare (s : State) (seed i n : Nat) : Option Bool × Nat :=
  let k := key (0x2A00 + seed) (4 + i)
  if s.flag k cmp_cmp_enable then
    match s.score n (s.fld k cmp_score_index) with
    | none => (some false, 1)
    | some x => (some (menuOp (s.fld k cmp_op) x (signed 16 (s.ent (key (0x2A00 + seed) i)))), 0)
  else (none, 0)

/-- ALL of a list. -/
def allOf (l : List (Option Bool)) : Option Bool :=
  match l.filterMap id with | [] => none | bs => some (bs.all id)

/-- ANY of a list. -/
def anyOf (l : List (Option Bool)) : Option Bool :=
  match l.filterMap id with | [] => none | bs => some (bs.any id)

/-- The combine code of a seed (R292, R314). -/
def combineSeed (code : Nat) (a b c d : Option Bool) : Bool :=
  (match code with
    | 0 => allOf [a, b, c, d]
    | 1 => anyOf [a, b, c, d]
    | 2 => anyOf [allOf [a, b], allOf [c, d]]
    | _ => allOf [anyOf [a, b], anyOf [c, d]]).getD false

/-- One seed of evaluate(n): the state, accept, raw and the seeds that fired as bits. -/
def State.evalSeed (s : State) (n : Nat) (acc : Nat × Nat × Nat) (seed : Nat) : State × Nat × Nat × Nat :=
  let k := key (0x2A00 + seed) 9
  if s.flag k seed_seed_enable then
    let c := (List.range 4).map (fun i => s.compare seed (i + 1) n)
    let s := s.bumpBy (key 0x2800 7) cnt48 ((c.map Prod.snd).sum)
    let g := fun (i : Nat) => (c.getD i (none, 0)).1
    if combineSeed (s.fld k seed_combine) (g 0) (g 1) (g 2) (g 3) then
      let m := s.fld k seed_class_mask
      let s := s.bump (key (0x2A00 + seed) 10) cnt48
      let pc := s.ent (key (0x2A00 + seed) 12) + 1
      let raw := acc.2.1 ||| m
      let fired := acc.2.2 + 2 ^ seed
      if pc = s.fld k seed_prescale then
        ((s.setEnt (key (0x2A00 + seed) 12) 0).bump (key (0x2A00 + seed) 11) cnt48, acc.1 ||| m, raw, fired)
      else (s.setEnt (key (0x2A00 + seed) 12) pc, acc.1, raw, fired)
    else (s, acc)
  else (s, acc)

/-- evaluate(n) over all seeds. -/
def State.evaluate (s : State) (n : Nat) : State × Nat × Nat × Nat :=
  (List.range 256).foldl (fun a seed => a.1.evalSeed n a.2 seed) (s, 0, 0, 0)

/-- MARK_N outputs whose seed fired (R306). -/
def State.markOutputs (s : State) (fired : Nat) : Nat :=
  ((List.range 4).map (fun i =>
    let k := key 0x2820 (1 + i)
    if s.flag k mko_mark_enable && bit fired (s.fld k mko_mark_seed) then 2 ^ i else 0)).sum

/-- Class accepts count (R311). -/
def State.countClasses (s : State) (sub accept : Nat) : State :=
  (List.range 8).foldl (fun s c => if bit accept c then s.bump (key (0x2810 + c) sub) cnt48 else s) s

/-- A record sets out for the latency pin (R295). -/
def State.submit (s : State) (r : PinRec) : State := { s with dec := { s.dec with decided := s.dec.decided ++ [r] } }

/-- RIDGE_EVALUATE (R290, R292, R295, R310): in clk e0(n), once; a void frame, and every frame of a faulted job, gives a
void record. -/
def execRidgeEvaluate (s : State) : Host.Outcome State Fault Refusal :=
  let from_ := s.job.s0 + s.C
  let n := (s.clk - from_) / s.F
  if s.job.bound ∧ from_ ≤ s.clk ∧ (s.clk - from_) % s.F = 0 ∧ s.dec.nextEval ≤ n then
    let frame := (s.job.n0 + n) % 2 ^ 48
    let s := { s with dec := { s.dec with nextEval := n + 1 } }
    let free := fun (s : State) => { s with dec := { s.dec with
      scores := s.dec.scores.filter (fun e => decide (1024 * (n + 1) ≤ e.1)) } }
    match (if s.frameVoid n || !s.running then none else mget none s.dec.tags frame) with
    | none =>
      .next (free ((s.bump (key 0x2800 6) cnt48).submit
        { n := n, frame := frame, out := s.clk + 12, d := s.dec.dNom, accept := 0, raw := 0, void := true, marks := 0 }))
    | some t =>
      let d : Int := t.2.1 + s.fld (key 0x2800 1) dec_latency_l - s.clk - 22
      let r := s.evaluate n
      let s := ((free r.1).bump (key 0x2800 5) cnt48).countClasses 1 r.2.1
      .next (s.submit { n := n, frame := frame, out := s.clk + 12, d := d, accept := r.2.1, raw := r.2.2.1, void := false,
                        marks := s.markOutputs r.2.2.2 })
  else .next s

/-! ### Requests of accepts (R321, R343) -/

/-- The capturing classes of an accept. -/
def State.captureClasses (s : State) (accept : Nat) : List Nat :=
  (List.range 8).filter (fun c => bit accept c && s.flag (key (0x2910 + c) 1) ccap_capture_enable)

/-- The request of an accepted frame, of origin `origin` (R321, R390, R400): an accept forms none while the ring is frozen
(R326); one of origin host carries no accept and raw (R330). -/
def State.acceptRequest (s : State) (origin frame accept raw : Nat) : State :=
  match s.captureClasses accept with
  | [] => s
  | c0 :: cs =>
    if origin = 0 ∧ s.flag kCaps caps_frozen then s
    else
      let get := fun (f : Fld) => (c0 :: cs).map (fun c => s.fld (key (0x2910 + c) 1) f)
      s.formRequest
        { seq := 0, origin := origin, frame := frame, accept := if origin = 0 then accept else 0,
          raw := if origin = 0 then raw else 0, pre := (get ccap_pre_count).foldl max 0,
          post := (get ccap_post_count).foldl max 0, mask := (get ccap_quay_mask).foldl (fun a b => a ||| b) 0,
          link := s.flag (key (0x2910 + c0) 1) ccap_destination,
          window := s.flag (key (0x2910 + c0) 1) ccap_to_window, doubt := false }

/-! ### Pin, flashing and outputs (R298 to R309) -/

/-- A record enters the latency pin in clk e0 + 12 (R298, R299, R316, R321): its accept forms a request, a negative
delay is latency_unmet and discards it, else it waits d clk. -/
def State.enterPin (s : State) (r : PinRec) : State :=
  let s := if r.void ∨ (s.flag (key 0x2D00 1) bctl_berth_capture ∧ 1 < s.berthSize) ∨ !s.running then s
    else s.acceptRequest 0 r.frame r.accept r.raw
  if r.d < 0 then
    if r.void then s else (s.setFlag (key 0x2800 2) pin_unmet_seen true).ridgeFault 4 r.frame 0
  else
    let s := { s with dec := { s.dec with pin := s.dec.pin ++ [{ r with out := r.out + 6 + r.d.toNat }] } }
    if r.void then s
    else s.setFld (key 0x2800 2) pin_d_min (min (s.fld (key 0x2800 2) pin_d_min) r.d.toNat)

/-- Every decided record whose clk has come enters the pin. -/
def State.tickPin (s : State) : State :=
  let due := s.dec.decided.filter (fun r => r.out == s.clk)
  if due.isEmpty then s
  else due.foldl State.enterPin { s with dec := { s.dec with
    decided := s.dec.decided.filter (fun r => r.out != s.clk) } }

/-- Output `o` carries a low pulse of accept_width clk from the accept edge; one that begins while another is low merges
with it, one that begins later finds the output high again (R305, R306). -/
def State.pulse (s : State) (o : Nat) : State :=
  let a := s.clk + 4
  let b := a + s.fld (key 0x2800 3) outc_accept_width
  match mget none s.dec.pulses o with
  | some p =>
    if a < p.2 then
      { s with dec := { s.dec with pulses := mset none s.dec.pulses o (some (p.1, b)) } }.bump (key 0x2800 2)
        pin_pulse_merges
    else ({ s with dec := { s.dec with pulses := mset none s.dec.pulses o (some (a, b)) } }.emit (.pulseEnd o p.2)).emit (.pulse o a)
  | none => ({ s with dec := { s.dec with pulses := mset none s.dec.pulses o (some (a, b)) } }).emit (.pulse o a)

/-- The accept message of a record (R309). -/
def State.acceptMessage (s : State) (r : PinRec) (flashed : Bool) : Nat :=
  let off := r.void || flashed
  r.frame + (if off then 0 else 2 ^ 48 * r.accept + 2 ^ 56 * r.raw) + (if r.void then 2 ^ 64 else 0)
    + (if flashed then 2 ^ 65 else 0) + 2 ^ 67 * s.moduleNumber + 2 ^ 80 * (s.ent (key 0x2B00 1) % 2 ^ 16)
    + 2 ^ 96 * (r.d.toNat % 2 ^ 10)

/-- The bundles whose lane 3 carries accept messages: the egress bundles with carry_accept 1, bundle 31 as uplink among
them (R378, R382, R406). -/
def State.acceptBundles (s : State) : List Nat :=
  (List.range 32).filter (fun k => !s.berthBundle k && decide (2 ≤ s.fld (kBun k) bun_role) && s.flag (kBun k)
    bun_carry_accept)

/-- An accept message enters lane 3 of every bundle that carries them (R309, R380, R382). -/
def State.sendAccept (s : State) (m : Nat) : State :=
  s.acceptBundles.foldl (fun s k => s.sendBlocks k [3] (messageBlocks 4 m (m % 2 ^ 64) (m / 2 ^ 64))) s

/-- The accept edges of this clk enter the timeline with the global time of the edge (R411, R427). -/
def State.enterEdges (s : State) : State :=
  let due := s.dec.edges.filter (fun e => e.1 == s.clk)
  due.foldl (fun s e => s.timelineEnter s.now (s.source 1 e.2.1) 3 e.2.2)
    { s with dec := { s.dec with edges := s.dec.edges.filter (fun e => e.1 != s.clk) } }

/-- A record leaves the flashing's output register unforced: pulses, and the timeline's accept entries, which their
edges enter (R305, R306, R427). -/
def State.passRecord (s : State) (r : PinRec) : State :=
  let s := (List.range 8).foldl (fun s c => if bit r.accept c then s.pulse c else s) s
  let s := (List.range 4).foldl (fun s i => if bit r.marks i then s.pulse (8 + i) else s) s
  let seen := (List.range 8).filter (fun c => bit r.accept c && bit (s.fld kTlc tlc_accept_mask) c)
  { s with dec := { s.dec with edges := s.dec.edges ++ seen.map (fun c => (s.clk + 4, c, r.frame)) } }

/-- PIN_RELEASE (R298): a record reaches the end of the flashing's output register in this clk, which it leaves as the
clk ends. -/
def execPinRelease (s : State) : Host.Outcome State Fault Refusal :=
  match (if s.dec.leaving.isSome then none else s.dec.pin.find? (fun r => r.out == s.clk)) with
  | none => .next s
  | some r => .next { s with dec := { s.dec with pin := s.dec.pin.filter (fun x => x.n != r.n), leaving := some r } }

/-- The record at the end of the flashing leaves it (R302, R305, R309, R382), once every doubt of the clk has
registered: it is discarded when the flashing forces, or forced while the record was in its six stages. -/
def State.leaveFlashing (s : State) : State :=
  match s.dec.leaving with
  | none => s
  | some r =>
    let s := { s with dec := { s.dec with leaving := none } }
    let flashed := s.flag kFlsh flsh_forcing || decide (r.out < s.dec.forceEnd + 6)
    let s := if flashed then s.countClasses 2 r.accept else s.passRecord r
    if s.flag (key 0x2800 3) outc_accept_msg_enable ∧ (s.jobState = RUNNING ∨ s.jobState = PAUSED) then
      s.sendAccept (s.acceptMessage r flashed)
    else s

/-- ACCEPT_PULSE_END (R305): outputs 0 to 7 are ACCEPT_N, 8 to 11 MARK_N. -/
def execAcceptPulseEnd (o : Nat) (s : State) : Host.Outcome State Fault Refusal :=
  if o < 12 then
    match mget none s.dec.pulses o with
    | some p =>
      if p.2 ≤ s.clk then
        .next ({ s with dec := { s.dec with pulses := mset none s.dec.pulses o none } }.emit (.pulseEnd o p.2))
      else .next s
    | none => .next s
  else .next s

/-- The menu image (R294): the threshold, comparison and control words of every seed. -/
def State.menuImage (s : State) : List Nat :=
  (List.range 256).flatMap (fun d =>
    (List.range 4).flatMap (fun i => leBytes 2 (s.ent (key (0x2A00 + d) (1 + i)))) ++
      (List.range 4).flatMap (fun i => leBytes 4 (s.ent (key (0x2A00 + d) (5 + i)))) ++
      leBytes 8 (s.ent (key (0x2A00 + d) 9)))

/-- Menu CRC (R294). -/
def kMenuCrc : Nat := key 0x2B00 3

/-- MENU_CHECK (R294, R301): the CRC of the evaluation copy against menu_crc. -/
def execMenuCheck (uncorrectable : Bool) (s : State) : Host.Outcome State Fault Refusal :=
  if s.running then
    if uncorrectable || crc32c s.menuImage != s.ent kMenuCrc then .next ((s.ridgeFault 5 0 0).setDoubt 4 true)
    else .next s
  else .next s

/-- Doubt source `k` holds, as far as the block's own state says (R301): no job, a fault of the job, a menu check that
fails, an island without its clock. The others are what landing, time and the sensors report. -/
def State.doubtHolds (s : State) (k : Nat) : Bool :=
  match k with
  | 0 => s.jobState == EMPTY || s.jobState == LOADED || s.jobState == FAULTED
  | 1 => s.jobState == FAULTED || s.flt.active
  | 4 => bit s.doubtMain 4 || (s.active && crc32c s.menuImage != s.ent kMenuCrc)
  | 7 => !s.time.unlocked.isEmpty
  | _ => true

/-- Telemetry Status. -/
def kTel : Nat := key 0x3300 1

/-- The supply doubt begins (R466, R520, R530), with its flag and an EMCY message that names the rail. -/
def State.supplyDoubt (s : State) (rail reading : Nat) : State :=
  ((s.setDoubt 6 true).setFlag kTel tel_supply_doubt true).emcy 7 (7 * 2 ^ 12 + rail + 2 ^ 16 * (reading % 2 ^ 32))

/-- DOUBT_REGISTER (R301, R302): doubt source `k` registers; a menu check that fails also faults the job, which a
fault of the job and a clock fault have done when they were raised. The thermal doubt shows in its flag, the supply
doubt is entered as R520 has it, by a rail and a reading that the command does not give: free values (R530, log entry
64). -/
def execDoubtRegister (k : Nat) (s : State) : Host.Outcome State Fault Refusal :=
  if k < 8 then
    if !s.doubtHolds k then .next s
    else if k = 4 ∧ !bit s.doubtMain 4 then .next ((s.ridgeFault 5 0 0).setDoubt 4 true)
    else if k = 5 then .next ((s.setDoubt 5 true).setFlag kTel tel_thermal_doubt true)
    else if k = 6 ∧ !bit s.doubtMain 6 then
      (let r := s.fresh 3
       let v := r.2.fresh 32
       .next (v.2.supplyDoubt (r.1 % 5) v.1))
    else .next (s.setDoubt k true)
  else .next s

/-- RELEASE_HOLD_END (R301, R307): with no other doubt, the outputs are released and FAULT goes low. -/
def execReleaseHoldEnd (s : State) : Host.Outcome State Fault Refusal :=
  match s.dec.holdEnd with
  | none => .next s
  | some e =>
    if e ≤ s.clk ∧ s.doubtMain = 0 then
      let s := (s.setFld kFlsh flsh_doubt 0).setFlag kFlsh flsh_forcing false
      let s := { s with dec := { s.dec with holdEnd := none, forceEnd := s.clk, faultHigh := false } }
      .next ((if s.dec.driven then s.emit (.pinFault false s.clk) else s).refreshHold)
    else .next s

/-- HOLDOFF_RELEASE (R308): every cause has stayed clear for holdoff_release clk. -/
def execHoldoffRelease (s : State) : Host.Outcome State Fault Refusal :=
  match s.dec.holdClear with
  | none => .next s
  | some c =>
    if s.flag kFlsh flsh_holdoff_now ∧ s.holdCauses = 0 ∧ c + s.fld (key 0x2800 3) outc_holdoff_release ≤ s.clk then
      let s := s.setFlag kFlsh flsh_holdoff_now false
      .next (if s.dec.driven then s.emit (.holdoff false s.clk) else s)
    else .next s

end Sys2Proof.Machine
end

