-- ==== Sys2Proof/Machine/Capture.lean ====
section
/-! DEFINITION. Capture (R320 to R347, R463, R464): host requests, starts and reservations, fragments with their rereads
and retries, window slots and verdicts, aborts, the two egress rings. A fragment's copy and its reread end when their
commands say; the bytes move when the copy commits. -/

namespace Sys2Proof.Machine

/-! ### Host requests (R323) -/

/-- Every tender of hub die `d` is in grid_tenders (R369). -/
def State.dieAllGrid (s : State) (d : Nat) : Bool := (List.range 8).all (fun i => bit (s.ent kGridT) (8 * d + i))

/-- A host request is refused for the job's state, a quay that does not land, or a die without a tender for capture
(R323). -/
def State.hostRefused (s : State) (mask : Nat) : Bool :=
  let quays := (List.range 20).filter (bit mask)
  (s.jobState != RUNNING && s.jobState != PAUSED) || quays.any (fun q => !s.landOn q) ||
    quays.any (fun q => s.dieAllGrid (quayDie q))

/-- A host request, or its abort code (R323); a full queue counts whatever else refuses it. Average requests of the
same clk are formed before it (R321). -/
def State.hostCapture (s : State) (frame pre post mask dest : Nat) : State × Option Nat :=
  let s := s.releaseSlots
  if 256 ≤ s.cap.reqs.length then (s.capCount 2, some abState)
  else if s.hostRefused mask then (s, some abState)
  else (s.formRequest
    { seq := 0, origin := 1, frame := frame, accept := 0, raw := 0, pre := pre, post := post, mask := mask,
      link := dest == 1, window := false, doubt := false }, none)

/-- HOST_CAPTURE (R323). -/
def execHostCapture (frame pre post mask dest : Nat) (s : State) : Host.Outcome State Fault Refusal :=
  .next (s.hostCapture frame pre post mask dest).1

/-! ### Fragments (R325 to R329) -/

/-- Memory address of the course slot of frame `n` of quay `q` outside the spill band (R278). -/
def State.slotPtr (s : State) (q n : Nat) : Nat :=
  hbmBase (quayDie q) + s.hbmMap (quayDie q) 1 + s.ent (key (0x2780 + q) 1)
    + n % max 1 (s.ent (key (0x2780 + q) 2)) * s.courseSize q

/-- The frame whose valid header a course slot holds, if any (R279). -/
def State.headerAt (s : State) (a : Nat) : Option Nat :=
  let h := readBytes s.mem a 128
  if leNat (h.drop 124) = crc32c (h.take 124) then some (leNat (h.take 6)) else none

/-- A fragment may be issued: its course's header is written, or its slot holds a later frame, which resolves it as
missing (R327, R328). -/
def State.fragReady (s : State) (n q : Nat) : Bool :=
  match s.headerAt (s.slotPtr q n) with
  | some f => f == n || later f n
  | none => false

/-- The next tender of die `d` in rotation that is not in grid_tenders (R327, R369). -/
def State.nextTender (s : State) (d : Nat) : Option Nat :=
  let last := mget 7 s.cap.rotTender d
  ((List.range 8).map (fun i => 8 * d + (last + 1 + i) % 8)).find? (fun t => !bit (s.ent kGridT) t)

/-- Memory address of fragment `k` in the window buffer of request `r` (R337). -/
def State.bufferPtr (s : State) (r : Req) (k : Nat) : Nat :=
  let d := quayDie (r.fragment k).2
  let before := (List.range k).filter (fun i => quayDie (r.fragment i).2 == d)
  hbmBase d + s.hbmMap d 5 + r.buffer.getD 0 * s.fld (key 0x2900 7) wbuf_window_buffer_bytes
    + (before.map (fun i => s.courseSize (r.fragment i).2)).sum

/-- A set of fragments with fragment `k` in it. -/
def withBit (v k : Nat) : Nat := if bit v k then v else v + 2 ^ k

/-- A set of fragments without fragment `k`. -/
def withoutBit (v k : Nat) : Nat := if bit v k then v - 2 ^ k else v

/-- The tag of a region of tile `p` with tw that holds a row; 0 where there is none, which the tile's check then
refuses (R258, R273). -/
def State.cardTag (s : State) (p row : Nat) : Nat :=
  match ((List.range 64).map (s.region p)).find? (fun r => reg_size.of r != 0 && reg_tw.of r == 1 &&
      decide (reg_base.of r ≤ row) && decide (row < reg_base.of r + reg_size.of r)) with
  | some r => reg_tag.of r
  | none => 0

/-- The copy of fragment `k` as a descriptor for tender `t` (R269, R327): from ring space to the window buffer or the
record. -/
def State.fragDesc (s : State) (r : Req) (k t : Nat) : Nat :=
  let f := r.fragment k
  let die := quayDie f.2
  let dst := if r.window then s.bufferPtr r k - hbmBase die else s.ringPtr r.link (r.offset.getD 0) + s.fragOffset r k
  let bytes := if r.origin = 2 then r.avgBytes else s.courseSize f.2
  t + 2 ^ 4 + 2 ^ 7 * (if r.window then 1 else 2) + 2 ^ 16 * ((s.slotPtr f.2 f.1 - hbmBase die) % 2 ^ 40) + 2 ^ 56 * (dst % 2 ^ 40)
    + 2 ^ 96 * (bytes / 64 - 1)

/-- A descriptor of the capture logic enters tender `t` as copy `k` of request `r` (R268). -/
def State.enterCopy (s : State) (r : Req) (k t word : Nat) : State :=
  let s := { s with cap := { s.cap with rotTender := mset 7 s.cap.rotTender (t / 8) (t % 8) } }
  let d : DescRec := { seq := 0, word := word, source := 1, clk := s.clk, rank := 40, frag := some (r.id, k) }
  (s.enterDesc t d).bump (kTend t) tend_outstanding

/-- A descriptor of the capture logic is refused back to it: it counts in the tender's refusals (R271). -/
def State.refuseCopy (s : State) (t : Nat) : State :=
  { s with cap := { s.cap with rotTender := mset 7 s.cap.rotTender (t / 8) (t % 8) } }.bump (kTend t) tend_refusals

/-- Tender `t` refuses a descriptor of the capture logic: it would fail (R271), or the tender is under a block reset
(R492). -/
def State.copyRefused (s : State) (t d : Nat) : Bool := s.tenderFenced t || (s.descFault (t / 8) 1 d).isSome

/-- Fragment `k` of request `r` is issued to the next tender of its die, behind what that holds (R267, R327); it waits
while the tender has no free entry (R268). One that the tender refuses has failed (R271; DEDUCED, log entry 77). -/
def State.issueFrag (s : State) (r : Req) (k : Nat) : State × Req :=
  match s.nextTender (quayDie (r.fragment k).2) with
  | none => (s, r)
  | some t =>
    let r1 := { r with issued := withBit r.issued k, again := withoutBit r.again k }
    if s.tenderFull t then (s, r)
    else if s.copyRefused t (s.fragDesc r k t) then
      (s.refuseCopy t, { r1 with reread := r1.reread ++ [(k, false, s.clk)] })
    else (s.enterCopy r k t (s.fragDesc r k t), { r1 with busy := r.busy ++ [(k, t)] })

/-- Bytes of fragment `k` written to their place: the window buffer, or the record's fragment slot. -/
def State.putFrag (s : State) (r : Req) (k : Nat) (bs : List Nat) : State :=
  if r.window then s.rewrite (s.bufferPtr r k) bs
  else match r.offset with
    | some off => s.ddrWrite (s.ringPtr r.link off + s.fragOffset r k) bs
    | none => s

/-- The header bytes of fragment `k` as copied. -/
def State.copiedHeader (s : State) (r : Req) (k : Nat) : List Nat :=
  if r.window then readBytes s.mem (s.bufferPtr r k) 128
  else match r.offset with
    | some off => s.ddrRead (s.ringPtr r.link off + s.fragOffset r k) 128
    | none => []

/-- Reserves the destination of a request, writing the pad it needs; unchanged while it does not fit (R344). DESIGN CHOICE
(log entry 79): pad and record are reserved together, so the space of both must be free. -/
def State.reserveFor (s : State) (r : Req) : State × Req :=
  let g := s.ringOf r.link
  let n := s.recordBytes r
  if r.offset.isSome ∨ !g.fits n then (s, r)
  else
    let v := g.reserve n r.seq r.id
    let s := if v.2.1 = 0 then s else s.ddrWrite (s.ringPtr r.link g.next) (leBytes 256 (padHeader v.2.1))
    (s.setRing r.link v.2.2, { r with offset := some v.1 })

/-- Every fragment of `r` is resolved: the record is terminal, or its window is whole, or goes on as not run (R328,
R338). -/
def State.settleReq (s : State) (r : Req) : State :=
  if popCount r.count r.resolved < r.count then s.putReq r
  else
    let whole := popCount r.count r.bits == r.count
    if !r.window then s.finishReq r (if whole then 1 else 2)
    else if whole then s.putReq { r with stage := 2 }
    else
      let v := s.reserveFor { r with stage := 4, result := 3, issued := 0, retry := 0 }
      v.1.putReq v.2

/-- Fragment `k` of `r` resolves as whole or missing (R328, R343): a missing one is filled with zeros. -/
def State.resolveFrag (s : State) (r : Req) (k : Nat) (whole : Bool) : State :=
  let r := { r with
    resolved := withBit r.resolved k
    issued := withBit r.issued k
    busy := r.busy.filter (fun e => e.1 != k)
    reread := r.reread.filter (fun e => e.1 != k) }
  if whole then
    let h := leNat (s.copiedHeader r k)
    let held := (List.range 4).any (fun g => bits h (256 + 64 * g) 4 == 10)
    let early := later r.frame (r.fragment k).1
    s.settleReq { r with bits := r.bits + 2 ^ k, short := r.short || (held && early) }
  else
    let bytes := if r.origin = 2 then r.avgBytes else s.courseSize (r.fragment k).2
    ((s.putFrag r k (List.replicate bytes 0)).capCount 8).settleReq r

/-- Fragment `k` is issued; a retry, or the copy of an average record, that is refused is missing. -/
def State.issueOne (s : State) (r : Req) (k : Nat) : State :=
  let v := s.issueFrag r k
  if v.2.reread.any (fun e => e.1 == k) ∧ (r.origin = 2 ∨ bit r.retry k) then v.1.resolveFrag v.2 k false else v.1.putReq v.2

/-- The copy of fragment `k` of a kept window as a descriptor for tender `t`: from its buffer to its record (R342). -/
def State.windowDesc (s : State) (r : Req) (k t : Nat) : Nat :=
  let f := r.fragment k
  t + 2 ^ 4 + 2 ^ 7 * 2 + 2 ^ 16 * ((s.bufferPtr r k - hbmBase (quayDie f.2)) % 2 ^ 40)
    + 2 ^ 56 * ((s.ringPtr r.link (r.offset.getD 0) + s.fragOffset r k) % 2 ^ 40) + 2 ^ 96 * (s.courseSize f.2 / 64 - 1)

/-- A kept window takes its reservation when it fits, and its copies enter the tenders of their dies in rotation, as
far as those have free entries (R268, R342, R344); one that is refused leaves its fragment out (DESIGN CHOICE, log
entry 77). -/
def State.issueWindow (s : State) (q : Nat) : State :=
  match s.findReq q with
  | none => s
  | some r0 =>
    if r0.stage ≠ 4 then s
    else
      let v := s.reserveFor r0
      if v.2.offset.isNone then s
      else (List.range r0.count).foldl (fun s k =>
        match s.findReq q with
        | none => s
        | some r =>
          if bit r.issued k then s
          else match s.nextTender (quayDie (r.fragment k).2) with
            | none => s
            | some t =>
              if s.tenderFull t then s
              else
                let r1 := { r with issued := withBit r.issued k }
                if s.copyRefused t (s.windowDesc r k t) then (s.refuseCopy t).putReq { r1 with bits := withoutBit r1.bits k }
                else (s.enterCopy r k t (s.windowDesc r k t)).putReq { r1 with busy := r1.busy ++ [(k, t)] }) (v.1.putReq v.2)

/-- The window cards that wait enter their tender, as far as it has free entries (R268, R339); one that a tender under
a block reset refuses waits for the next in rotation, and one whose row no SRAM has is refused and gone (R271; DESIGN
CHOICE, log entry 49). -/
def State.issueCards (s : State) : State :=
  s.cap.cards.foldl (fun s v =>
    let t := (s.nextTender 0).getD 0
    if s.tenderFull t then s
    else if s.tenderFenced t then s.refuseCopy t
    else
      let p := s.ptile (s.fld kWslot wslot_card_row_tile % 16) (s.fld kWslot wslot_card_row_tile / 16)
      let row := s.fld kWslot wslot_card_row
      let d := t + 2 ^ 7 * 3 + 2 ^ 62 * row + 2 ^ 192 * s.cardTag p row + 2 ^ 218 * s.fld kWslot wslot_card_cm + 2 ^ 223
      let s := { s with cap := { s.cap with cards := s.cap.cards.drop 1 } }
      if !s.descSpaceOk (t / 8) d then s.refuseCopy t
      else (s.enterDesc t { seq := 0, word := d, source := 1, clk := s.clk, rank := 40, card := some v }).bump (kTend t) tend_outstanding) s

/-- Issues every fragment of a started request that may be issued, and the retries that wait (R328); one of a frame
after the freeze is missing (R326, R327). -/
def State.issueReq (s : State) (q : Nat) : State :=
  match s.findReq q with
  | none => s
  | some r0 =>
    (List.range r0.count).foldl (fun s k =>
      match s.findReq q with
      | none => s
      | some r =>
        if r.stage ≠ 1 then s
        else if bit r.again k then s.issueOne r k
        else if bit r.issued k then s
        else if r.origin = 2 then s.issueOne r k
        else
          let f := r.fragment k
          if s.spills f.1 then s.resolveFrag r k false
          else if s.fragReady f.1 f.2 then s.issueOne r k
          else s) s

/-- Cards, started requests and kept windows issue what may be issued, as a clk begins: in the clk after a course
header is written or a reread asks for a retry (R327, R328). -/
def State.issueAll (s : State) : State :=
  (s.cap.reqs.map (fun r => r.seq)).foldl (fun s q => (s.issueReq q).issueWindow q) s.issueCards

/-- COURSE_HEADER_WRITE (R97, R280): after the close, once; fragments that wait for the header are issued in the next
clk (R327). -/
def execCourseHeaderWrite (q frame : Nat) (s : State) : Host.Outcome State Fault Refusal :=
  if quayOk s.grade q then
    match (s.courses q).find? (fun c => c.frame == frame) with
    | none => .next s
    | some c =>
      if s.courseClosed q c ∧ s.ringOn q then
        let f := match c.stamp with | some t => (t64 t, s) | none => s.fresh 64
        let s := (f.2.zeroMissing q c).write c.addr (f.2.courseHeader q c f.1)
        .next { s with land := { s.land with
          courses := mset [] s.land.courses q ((s.courses q).filter (fun x => x.frame != frame)),
          written := mset [] s.land.written q ((frame, c.addr) ::
            (mget [] s.land.written q).filter (fun e => e.1 != frame && e.2 != c.addr)) } }
      else .next s
  else .next s

/-- The lowest window buffer that no request, and no aborted one whose copies run on, holds (R337, R347). -/
def State.freeBuffer (s : State) : Option Nat :=
  (List.range (s.fld (key 0x2900 7) wbuf_window_buffers)).find? (fun b =>
    !(s.cap.reqs ++ s.cap.aborted).any (fun r => r.buffer == some b))

/-- REQUEST_START (R327, R337, R344): the first waiting request, once its space is reserved. -/
def execRequestStart (s : State) : Host.Outcome State Fault Refusal :=
  match s.cap.reqs.find? (fun r => r.stage == 0) with
  | none => .next s
  | some r =>
    if r.window then
      match s.freeBuffer with
      | none => .next s
      | some b =>
        let r := { r with stage := 1, buffer := some b }
        if r.count = 0 then .next (s.settleReq r) else .next ((s.putReq r).issueReq r.seq)
    else
      let v := s.reserveFor r
      if v.2.offset.isNone then .next s
      else if r.count = 0 then .next (v.1.finishReq v.2 1)
      else .next ((v.1.putReq { v.2 with stage := 1 }).issueReq r.seq)

/-- The course slot that fragment `k` is read from holds a word known to be uncorrectable (R275, R535). -/
def State.copyBad (s : State) (r : Req) (k : Nat) : Bool :=
  r.origin != 2 && s.memBad (s.slotPtr (r.fragment k).2 (r.fragment k).1) (s.courseSize (r.fragment k).2)

/-- Some word of the copy of fragment `k`, as read or as written, lies in a stack or channel out of service (R275). -/
def State.copyDown (s : State) (r : Req) (k : Nat) : Bool :=
  let f := r.fragment k
  let die := quayDie f.2
  let n := if r.origin = 2 then r.avgBytes else s.courseSize f.2
  (r.origin != 2 && s.spanDown die 1 (s.slotPtr f.2 f.1 - hbmBase die) n) ||
    (if r.window then s.spanDown die 1 (s.bufferPtr r k - hbmBase die) n
     else s.spanDown die 2 (s.ringPtr r.link (r.offset.getD 0) + s.fragOffset r k) n)

/-- The bytes the copy of fragment `k` moves: the course slot's, or the averages padded to words (R334). -/
def State.fragBytes (s : State) (r : Req) (k : Nat) : List Nat :=
  let f := r.fragment k
  if r.origin = 2 then r.data ++ List.replicate (r.avgBytes - r.data.length) 0
  else readBytes s.mem (s.slotPtr f.2 f.1) (s.courseSize f.2)

/-- A copy that fails with every stack and channel in service has met an uncorrectable word: its unit notes it (R275,
R288). Which of the words read it is, no command says: a free value (log entry 77). -/
def State.noteBadCopy (s : State) (r : Req) (k : Nat) : State :=
  let f := r.fragment k
  if r.origin = 2 ∨ s.copyDown r k then s
  else
    let v := s.fresh 32
    v.2.setFlag (s.unitOf (quayDie f.2) 1 (s.slotPtr f.2 f.1 - hbmBase (quayDie f.2) + 64 * (v.1 % max 1 (s.courseSize f.2 / 64))))
      munit_uncorrected_seen true

/-- The copy of fragment `k` of request `r` at tender `t` ends: it commits, or fails (R275, R493). Its bytes are in
place and its reread is issued; the one copy of an average record has no course header to reread and resolves at once,
and a retry that fails is missing. An aborted request's last copy that ends delivers its record (R347). -/
def State.endCopy (s : State) (r : Req) (k t : Nat) (ok : Bool) : State :=
  let s := s.leaveTender t ok
  let s := if ok then s.putFrag r k (s.fragBytes r k) else s
  let r := { r with busy := r.busy.filter (fun e => e.1 != k) }
  if s.cap.aborted.any (fun x => x.id == r.id) then
    (if r.busy.isEmpty then s.endAborted r
     else { s with cap := { s.cap with aborted := s.cap.aborted.map (fun x => if x.id = r.id then r else x) } })
  else if r.origin = 2 ∨ (!ok ∧ bit r.retry k) then s.resolveFrag r k ok
  else s.putReq { r with reread := r.reread ++ [(k, ok, s.clk)] }

/-- FRAGMENT_COPY_DONE (R267, R328, R347): the copy stands at the head of its tender; where a stack or channel is out
of service, or a word it reads is known to be uncorrectable, it fails. -/
def execFragmentCopyDone (seq k : Nat) (ok : Bool) (s : State) : Host.Outcome State Fault Refusal :=
  let here := fun (r : Req) (e : Nat × Nat) => e.1 == k && s.copyStarted r.id k e.2
  match (s.cap.reqs ++ s.cap.aborted).find? (fun r => r.seq == seq && r.stage != 4 && r.busy.any (here r)) with
  | none => .next s
  | some r =>
    match r.busy.find? (here r) with
    | none => .next s
    | some e =>
      let fine := ok && !s.copyDown r k && !s.copyBad r k
      .next ((if fine then s else s.noteBadCopy r k).endCopy r k e.2 fine)

/-- FRAGMENT_REREAD_DONE (R328): whole, retried or missing; the reread was issued in the clk after the copy ended. -/
def execFragmentRereadDone (seq k : Nat) (s : State) : Host.Outcome State Fault Refusal :=
  match s.findReq seq with
  | none => .next s
  | some r =>
    match r.reread.find? (fun e => e.1 == k && decide (e.2.2 < s.clk)) with
    | none => .next s
    | some e =>
      let f := r.fragment k
      let a := s.slotPtr f.2 f.1
      let valid := s.headerAt a == some f.1
      let same := readBytes s.mem a 128 == s.copiedHeader r k
      if valid ∧ e.2.1 ∧ same then .next (s.resolveFrag r k true)
      else if valid ∧ ¬ bit r.retry k then
        let r := { r with
          reread := r.reread.filter (fun e => e.1 != k), retry := r.retry + 2 ^ k, again := withBit r.again k, retried := true }
        .next ((s.capCount 7).putReq r)
      else .next (s.resolveFrag r k false)

/-- FRAGMENT_TIMEOUT (R328): no header of the fragment's frame, nor of a later one in its slot, by r(q, N) + 64 F. -/
def execFragmentTimeout (seq k : Nat) (s : State) : Host.Outcome State Fault Refusal :=
  match s.findReq seq with
  | none => .next s
  | some r =>
    let f := r.fragment k
    let r0 : Int := (s.job.s0 : Int) + s.entryOffset f.2 + (frameIndex s.job.n0 f.1 + 64) * s.F
    if r.stage = 1 ∧ r.origin ≠ 2 ∧ k < r.count ∧ ¬ bit r.issued k ∧ s.job.bound ∧ r0 ≤ s.clk ∧ !s.fragReady f.1 f.2 then .next (s.resolveFrag r k false)
    else .next s

/-! ### Egress rings (R345, R383, R463, R464) -/

/-- The `n` payload bytes at staging address `a` of a record that ended ABORTED: R347 says that they are not defined,
so they are free values (log entry 8). -/
def State.freePayload (s : State) (a n : Nat) : State :=
  let f := s.fresh (8 * n)
  f.2.ddrWrite a (leBytes n f.1)

/-- The status field of a record header (R330). -/
def headerStatus (h : Nat) : Nat := h / 2 ^ 32 % 4

/-- Writes the header and bitmap of the first terminal record of a ring that is not finished; the payload of an
ABORTED one is open (R347). -/
def State.writeTerm (s : State) (link : Bool) : State :=
  let g := s.ringOf link
  match g.resv.find? (fun e => e.term.isSome && !e.done) with
  | none => s
  | some e =>
    let t := e.term.getD (0, 0, 0)
    let a := s.ringPtr link e.off
    let s := if headerStatus t.1 = 3 then s.freePayload (a + 256 + t.2.2) (e.len - (256 + t.2.2)) else s
    let s := (s.ddrWrite (a + 256) (leBytes t.2.2 t.2.1)).ddrWrite a (leBytes 256 t.1)
    s.setRing link { g with
      resv := g.resv.map (fun x => if x.off = e.off ∧ x.seq = e.seq then { x with done := true } else x) }

/-- RECORD_PUBLISH (R345): a terminal record's header and bitmap are written, and the finished records at the head of
its ring are published. -/
def execRecordPublish (link : Bool) (s : State) : Host.Outcome State Fault Refusal :=
  .next ((s.writeTerm link).publishRing link)

/-- Host Link Control. -/
def kHlc : Nat := key 0x2F20 1

/-- clk in a microsecond. -/
def usClk : Nat := 1250

/-- HOST_RING_NOTIFY (R464). -/
def execHostRingNotify (s : State) : Host.Outcome State Fault Refusal :=
  match s.cap.firstUnnotified with
  | none => .next s
  | some c =>
    if s.fld kHlc hlc_notify_bytes ≤ s.cap.notified ∨ c + s.fld kHlc hlc_notify_us * usClk ≤ s.clk then
      .next ({ s with cap := { s.cap with notified := 0, firstUnnotified := none } }.raise 2)
    else .next s

/-- Every record lane of bundle `k` is lit and its bring-up has come to its end: the bundle is in service (R55, R493;
DEDUCED, log entry 65). -/
def State.bundleServes (s : State) (k : Nat) : Bool :=
  let e := 20 + k / 8
  (s.recordLanes k).all (fun b =>
    let n := k % 8 * 4 + b
    s.laneLit e n && (s.chansOf e [n]).all (fun c => s.fld (kLstat e c) lstat_bringup_state == 8))

/-- Bundles that carry records (R378, R383, R406): egress, and bundle 31 as uplink, in service (R493). -/
def State.egressBundles (s : State) : List Nat :=
  (List.range 32).filter (fun k => !s.berthBundle k && decide (2 ≤ s.fld (kBun k) bun_role) && s.bundleServes k)

/-- LINK_EGRESS_RECORD (R345, R383): the next published record of the link ring has left whole on the next egress
bundle in rotation, as one record-open block, its data blocks and one record-close block, block i on record lane i mod
their number (R378, R381), and its space is free; pads are passed over. -/
def execLinkEgressRecord (s : State) : Host.Outcome State Fault Refusal :=
  let g := s.cap.link
  let rest := g.unsent.dropWhile (fun e => e.seq.isNone)
  match rest, s.egressBundles with
  | e :: es, b :: bs =>
    let k := ((b :: bs).find? (fun x => decide (s.cap.rotBundle ≤ x))).getD b
    let s := { s with cap := { s.cap with
      rotBundle := k + 1
      link := { g with unsent := es, consumer := (e.off + e.len) % (max 1 g.size) } } }
    .next (s.sendBlocks k (s.recordLanes k) (recordBlocks s.moduleNumber (e.seq.getD 0) (s.ddrRead (s.ringPtr true e.off) e.len)))
  | _, _ => .next s

/-- A write of host_consumer, or its abort code (R348, R463). -/
def State.consumerWrite (s : State) (v : Nat) : Except Nat State :=
  let g := s.cap.host
  if v % 64 ≠ 0 ∨ max 1 g.size ≤ v ∨
      (g.producer + g.size - g.consumer) % (max 1 g.size) < (v + g.size - g.consumer) % (max 1 g.size) then
    .error abRange
  else .ok ({ s with cap := { s.cap with host := { g with consumer := v } } }.setEnt kHostC v)

/-- HOST_CONSUMER_WRITE (R463). -/
def execHostConsumerWrite (v : Nat) (s : State) : Host.Outcome State Fault Refusal := orSame s (s.consumerWrite v)

/-! ### Window slots (R336 to R342) -/

/-- Start of window slot `z`. -/
def State.slotStart (s : State) (z : Nat) : Nat :=
  s.job.s0 + s.fld kWslot wslot_window_offset + z * s.fld kWslot wslot_slot_length

/-- Verdict clk of window slot `z`. -/
def State.verdictClk (s : State) (z : Nat) : Nat := s.slotStart z + s.fld kWslot wslot_verdict_offset

/-- The window card of slot `z` (R339). -/
def State.windowCard (s : State) (z : Nat) (r : Option Req) : Nat :=
  match r with
  | none => z % 2 ^ 32 + 2 ^ 32
  | some r =>
    let part := fun (d : Nat) => s.hbmMap d 5 + r.buffer.getD 0 * s.fld (key 0x2900 7) wbuf_window_buffer_bytes
    z % 2 ^ 32 + 2 ^ 64 * r.seq + 2 ^ 96 * r.frame + 2 ^ 144 * r.mask + 2 ^ 164 * r.pre + 2 ^ 172 * r.post
      + 2 ^ 192 * part 0 + 2 ^ 256 * part 1

/-- A card sets out as a capture descriptor of one word, with card_cm as its completion mark (R339). -/
def State.writeCard (s : State) (v : Nat) : State := { s with cap := { s.cap with cards := s.cap.cards ++ [v] } }.issueCards

/-- WINDOW_SLOT_BIND (R338): in clk slot start - window_lead, once. DESIGN CHOICE (log entry 79): a slot whose bind clk lies
before the schedule is bound stays unbound, without a card. -/
def execWindowSlotBind (s : State) : Host.Outcome State Fault Refusal :=
  let len := s.fld kWslot wslot_slot_length
  let from_ := s.job.s0 + s.fld kWslot wslot_window_offset
  let t := s.clk + s.fld kWslot wslot_window_lead
  let z := (t - from_) / len
  if s.job.bound ∧ s.active ∧ 0 < len ∧ from_ ≤ t ∧ (t - from_) % len = 0 ∧ s.cap.nextSlot ≤ z then
    let cand := s.cap.reqs.find? (fun r => r.window && decide (r.stage < 3))
    let r := match cand with | some r => if r.stage = 2 then some r else none | none => none
    let s := { s with cap := { s.cap with
      nextSlot := z + 1, slots := mset none s.cap.slots z (r.map (fun (r : Req) => r.seq)) } }
    let s := s.writeCard (s.windowCard z r)
    match r with
    | some r => .next (s.putReq { r with stage := 3, slot := z })
    | none => .next s
  else .next s

/-- A kept window sets out for its destination (R342, R344). -/
def State.keepWindow (s : State) (r : Req) : State :=
  let v := s.reserveFor { r with stage := 4, issued := 0, retry := 0 }
  v.1.putReq v.2

/-- VERDICT_MARK (R341): a verdict for the window slot that the mark names. DESIGN CHOICE (log entry 79): one that is later
than the first counts in extra_verdicts alone, also after the verdict clk; one after the verdict clk is no first one, and each of those counts in late_verdicts. -/
def execVerdictMark (p : Nat) (s : State) : Host.Outcome State Fault Refusal :=
  if tileOk s.grade p then
    match s.dec.marks.find? (fun m => m.arrive == s.clk && m.window && m.tile == p) with
    | none => .next s
    | some m =>
      let s := { s with dec := { s.dec with marks := s.dec.marks.filter (fun x => x != m) } }
      let z := m.frame
      match mget none s.cap.slots z with
      | none => .next s
      | some q =>
        if s.cap.verdicts.contains z then .next (s.capCount 10)
        else if s.verdictClk z < s.clk then .next (s.capCount 9)
        else
          let s := { s with cap := { s.cap with verdicts := z :: s.cap.verdicts } }
          match s.findReq q with
          | none => .next s
          | some r =>
            if r.stage ≠ 3 then .next s
            else if 0 < m.value then .next (s.keepWindow { r with result := 1, score := m.value })
            else .next (s.putReq { r with stage := 5, score := m.value })
  else .next s

/-- A verdict mark for window slot `z` arrives in this clk. -/
def State.verdictComes (s : State) (z : Nat) : Bool :=
  s.dec.marks.any (fun m => m.arrive == s.clk && m.window && m.frame == z)

/-- VERDICT_DEADLINE (R341, R342): a dropped window is freed, one without a verdict by the end of its verdict clk is
kept as no_verdict. -/
def execVerdictDeadline (z : Nat) (s : State) : Host.Outcome State Fault Refusal :=
  match mget none s.cap.slots z with
  | none => .next s
  | some q =>
    if s.verdictClk z ≤ s.clk ∧ !s.verdictComes z then
      match s.findReq q with
      | none => .next s
      | some r =>
        if r.slot ≠ z then .next s
        else if r.stage = 5 then .next ((s.capCount 6).dropReq q)
        else if r.stage = 3 then .next (s.keepWindow { r with result := 2 })
        else .next s
    else .next s

/-- The copy of fragment `k` of a kept window commits: it stands in a tender and meets no stack or channel out of
service and no word known to be uncorrectable (R275). -/
def State.windowCommits (s : State) (r : Req) (k : Nat) : Bool :=
  let f := r.fragment k
  let n := s.courseSize f.2
  r.busy.any (fun e => e.1 == k) && !s.memBad (s.bufferPtr r k) n && !s.spanDown (quayDie f.2) 1 (s.bufferPtr r k - hbmBase (quayDie f.2)) n &&
    !s.spanDown (quayDie f.2) 2 (s.ringPtr r.link (r.offset.getD 0) + s.fragOffset r k) n

/-- The fragments of a window move from its buffer to its record; zeros take the place of one whose copy failed. -/
def State.moveWindow (s : State) (r : Req) : State :=
  (List.range r.count).foldl (fun s k =>
    let n := s.courseSize (r.fragment k).2
    s.ddrWrite (s.ringPtr r.link (r.offset.getD 0) + s.fragOffset r k)
      (if s.windowCommits r k then readBytes s.mem (s.bufferPtr r k) n else List.replicate n 0)) s

/-- The fragments of a kept window that its record holds: those of the window whose copies commit. -/
def State.windowBits (s : State) (r : Req) : Nat :=
  ((List.range r.count).map (fun k => if bit r.bits k && s.windowCommits r k then 2 ^ k else 0)).sum

/-- The copies of a window leave their tenders. -/
def State.leaveWindow (s : State) (r : Req) : State := r.busy.foldl (fun t e => t.leaveTender e.2 (s.windowCommits r e.1)) s

/-- Every copy of a kept window has been issued, and its tenders have come to those that stand in them (R267). -/
def State.windowStarted (s : State) (r : Req) : Bool :=
  r.offset.isSome && (List.range r.count).all (bit r.issued) && r.busy.all (fun e =>
    ((s.tender e.2).queue.takeWhile (fun d => match d.frag with | some f => f.1 == r.id | none => false)).any
      (fun d => d.frag == some (r.id, e.1)))

/-- WINDOW_COPY_DONE (R342, R347): the copies of a kept window commit, or fail where a stack or channel is out of
service; its record is terminal and its buffer free. DESIGN CHOICE (log entry 77): a fragment whose copy failed is
zeros and missing, as R328 has it, for which R342 gives no rule. An aborted one whose started copies ran on is
delivered as ABORTED. -/
def execWindowCopyDone (seq : Nat) (s : State) : Host.Outcome State Fault Refusal :=
  match s.findReq seq with
  | some r =>
    if r.stage = 4 ∧ s.windowStarted r then
      let b := s.windowBits r
      .next (((s.moveWindow r).leaveWindow r).finishReq { r with bits := b } (if popCount r.count b = r.count then 1 else 2))
    else .next s
  | none =>
    match s.cap.aborted.find? (fun r => r.seq == seq && r.stage == 4) with
    | none => .next s
    | some r => .next ((s.leaveWindow r).endAborted r)

/-! ### Aborts and rearm (R326, R346, R347, R353) -/

/-- CAPTURE_ABORT (R346, R353): an abort through the abort word registers; its reply is written in the next clk. -/
def execCaptureAbort (seq : Nat) (all : Bool) (s : State) : Host.Outcome State Fault Refusal :=
  .next (s.registerAbort seq all true)

/-- The freeze is left (R326, R350). -/
def State.rearm (s : State) : State :=
  let s := { s with cap := { s.cap with frozenSeen := false } }
  (s.setFlag kCaps caps_frozen false).setFld kCaps caps_freeze_frame 0

/-- REARM (R326). -/
def execRearm (s : State) : Host.Outcome State Fault Refusal := .next s.rearm

end Sys2Proof.Machine
end

