-- ==== Sys2Proof/Machine/Time.lean ====
section
/-! DEFINITION. Time and ordering (R408 to R432): the main clock and its steps, the fall-back clock, clock faults, PTP
domains with their servo, served ports, transmit stamps, trigger edges and the timeline. What IEEE 1588 computes from
the messages comes with the command (log entry 14). -/

namespace Sys2Proof.Machine

/-! ### The main clock (R409 to R411) -/

/-- Main Increment. -/
def kInc : Nat := key 0x2E00 3

/-- A step of the main clock by `d` units of 2^-32 ns (R410): never below 0; it counts and enters the timeline with the
signed step made, in 2^-16 ns (R21, R427). -/
def State.stepMain (s : State) (d : Int) : State :=
  let m := ((s.time.main : Int) + d).toNat
  let made := roundTa ((m : Int) - s.time.main) (2 ^ 16)
  let s := { s with time := { s.time with main := m } }
  let s := (s.setFlag kTime tsts_main_valid true).bump kTime tsts_steps
  s.timeEvent 7 (unsignedOf 64 made)

/-- From this clk on global time runs on the line that `s` has, after `l`: the same line goes on, or a new one begins
(R411). -/
def State.turn (s : State) (l : Line) : State :=
  if l.m s.clk = s.line.m s.clk ∧ l.inc = s.line.inc ∧ l.fb = s.line.fb then s
  else { s with time := { s.time with since := s.clk, past := l :: s.time.past } }

/-- One tick (R409, R410, R412, R413): a pending increment comes into force, the clock advances by inc, steps and a
fall-back commit take effect, and the fall-back stands in while on_fallback is 1; a write of Main Time sets the clock
at its tick. -/
def State.mainTick (s : State) : State :=
  let t := s.time
  let l := s.line
  let fit := s.fitNow
  let s := match t.incNext with | some v => s.setEnt kInc v | none => s
  let s := { s with time := { s.time with
    main := t.main + s.inc
    tickClk := s.clk
    incSum := t.incSum + s.inc
    fbTicks := t.fbTicks + 1
    fbLive := s.flag kTime tsts_on_fallback
    fbBase := fit.1
    fbTick := fit.2.1
    fbRate := fit.2.2
    incNext := none
    setNext := none
    adjNext := none
    fbCommit := false } }
  let s := match t.setNext with | some v => s.stepMain ((v : Int) - s.time.main) | none => s
  let s := match t.adjNext with | some d => s.stepMain d | none => s
  s.turn l

/-- MAIN_CLOCK_TICK (R409): in a clk divisible by 4, once; in safe hold the time block does not run (R482). -/
def execMainClockTick (s : State) : Host.Outcome State Fault Refusal :=
  if s.clk % 4 = 0 ∧ s.time.tickClk < s.clk ∧ !s.rst.safeHold then .next s.mainTick else .next s

/-- A write of inc (R409), or its abort code. -/
def State.incWrite (s : State) (v : Nat) : Except Nat State :=
  if s.flag (key 0x2E00 1) tctl_servo_enable then .error abState
  else if v * 10000 < 31968 * 2 ^ 32 ∨ 32032 * 2 ^ 32 < v * 10000 then .error abRange
  else .ok { s with time := { s.time with incNext := some v } }

/-- MAIN_INCREMENT_WRITE (R409, R487). -/
def execMainIncrementWrite (v : Nat) (s : State) : Host.Outcome State Fault Refusal :=
  if s.dictOpen then orSame s (s.incWrite v) else .next s

/-- A write of Main Time, a T128 (R408, R410), or its abort code. -/
def State.timeWrite (s : State) (v : Nat) : Except Nat State :=
  if s.active then .error abState
  else if 999999999 < bits v 32 32 then .error abRange
  else .ok { s with time := { s.time with setNext := some (ofT128 v) } }

/-- MAIN_TIME (R410, R487). -/
def execMainTime (v : Nat) (s : State) : Host.Outcome State Fault Refusal :=
  if s.dictOpen then orSame s (s.timeWrite v) else .next s

/-- A write of Time Adjust, in ns (R410), or its abort code. -/
def State.adjustWrite (s : State) (v : Int) : Except Nat State :=
  if s.active then .error abState
  else .ok { s with time := { s.time with adjNext := some (s.time.adjNext.getD 0 + v * 2 ^ 32) } }

/-- TIME_ADJUST (R410, R487). -/
def execTimeAdjust (v : Int) (s : State) : Host.Outcome State Fault Refusal :=
  if s.dictOpen then orSame s (s.adjustWrite v) else .next s

/-! ### The fall-back clock and clock faults (R184, R412, R413) -/

/-- FALLBACK_COMMIT (R412, R487). -/
def execFallbackCommit (s : State) : Host.Outcome State Fault Refusal :=
  if s.dictOpen then .next { s with time := { s.time with fbCommit := true } } else .next s

/-- FALLBACK_REFIT (R21, R412): once a second, while nothing forbids it, fb_base is M at fb_tick and fb_rate comes
from the two latest refits. -/
def execFallbackRefit (s : State) : Host.Outcome State Fault Refusal :=
  let t := s.time
  let second := match t.fbPrev with | none => true | some p => decide (p.1 + 312500000 ≤ t.fbTicks)
  if s.flag (key 0x2E00 1) tctl_fb_auto ∧ s.flag kTime tsts_main_valid ∧ !s.flag kTime tsts_on_fallback ∧ second = true then
    let r := match t.fbPrev with
      | none => t.fbRate
      | some p =>
        let dt5 : Int := ((t.fbTicks - p.1 : Nat) : Int) * 68719476736
        roundTa ((5 * ((t.main : Int) - p.2) - dt5) * 2 ^ 40) dt5.toNat
    let rate := sat r (-(2 ^ 31)) (2 ^ 31 - 1)
    let s := { s with time := { s.time with
      fbBase := t.main
      fbTick := t.fbTicks
      fbRate := rate
      fbPrev := some (t.fbTicks, t.main) } }
    .next (((s.setEnt (key 0x2E01 1) (t128 t.main)).setEnt (key 0x2E01 2) t.fbTicks).setEnt (key 0x2E01 3)
      (unsignedOf 32 rate))
  else .next s

/-- Island `i` of R538 exists on the grade. -/
def islandOk (g : Grade) (i : Nat) : Bool :=
  if i < 104 then tileOk g i else if i < 124 then quayOk g (i - 104) else decide (i < 127)

/-- Location of island `i` (R538): its tile, its quay, the ridge; the eaves ports of a die have none of their own. -/
def islandLoc (i : Nat) : Nat :=
  if i < 104 then loc 1 i else if i < 124 then loc 2 (i - 104) else if i = 126 then loc 7 0 else 0

/-- A clock fault of an island (R184, R301, R413, R539); of the ridge island it sets on_fallback. -/
def State.clockFault (s : State) (island cause : Nat) : State :=
  let s := { s with time := { s.time with unlocked := island :: s.time.unlocked.filter (fun i => i != island) } }
  let s := s.setDoubt 7 true
  let s := if island = 126 ∧ !s.flag kTime tsts_on_fallback then
    (s.setFlag kTime tsts_on_fallback true).timeEvent 9 0 else s
  s.fault {
    family := 10
    cause := cause
    loc := islandLoc island
    island := island
    vrow := if island < 104 then s.vrow island else 0xFF
    vcol := if island < 104 then s.vcol island else 0xFF
    detail := cause }

/-- CLOCK_FAULT (R184, R413): cause 1 lock_lost, 2 alignment, 3 reference_lost. -/
def execClockFault (island cause : Nat) (s : State) : Host.Outcome State Fault Refusal :=
  if islandOk s.grade island then .next (s.clockFault island cause) else .next s

/-- ISLAND_GENERATOR_LOCKED (R413). -/
def execIslandGeneratorLocked (island : Nat) (s : State) : Host.Outcome State Fault Refusal :=
  if islandOk s.grade island then
    .next { s with time := { s.time with unlocked := s.time.unlocked.filter (fun i => i != island) } }
  else .next s

/-- At a job load after the ridge island's generator locked again, the main clock is set to G_fb and on_fallback clears
(R413, R430). -/
def State.leaveFallback (s : State) : State :=
  if s.flag kTime tsts_on_fallback ∧ !s.time.unlocked.contains 126 then
    let l := s.line
    let s := { s with time := { s.time with main := s.fallback s.time.fbTicks, fbLive := false } }
    (((s.turn l).setFlag kTime tsts_main_valid true).setFlag kTime tsts_on_fallback false).timeEvent 10 0
  else s

/-! ### Domains, the servo and time lock (R416, R419 to R423) -/

/-- Domain words. -/
def kDom (d : Nat) : Nat := key (0x2E10 + d) 1
/-- Domain status word. -/
def kDoms (d : Nat) : Nat := key (0x2E10 + d) 2

/-- Domain `d` beyond its words. -/
def State.domain (s : State) (d : Nat) : Domain := if d = 0 then s.time.dom0 else s.time.dom1
/-- `s` with it replaced. -/
def State.setDomain (s : State) (d : Nat) (x : Domain) : State :=
  if d = 0 then { s with time := { s.time with dom0 := x } } else { s with time := { s.time with dom1 := x } }

/-- o[d] in 2^-16 ns. -/
def State.offset (s : State) (d : Nat) : Int := signed 64 (s.ent (key (0x2E10 + d) 3))
/-- base[d] in 2^-8 ppb. -/
def State.baseRate (s : State) (d : Nat) : Int := signed 32 (s.ent (key (0x2E10 + d) 4))

/-- Domain `d` is healthy (R419). -/
def State.domainHealthy (s : State) (d : Nat) : Bool :=
  let x := s.domain d
  s.flag (kDom d) dom_domain_enable && s.flag (kDoms d) doms_master_seen &&
    decide (s.fld (kDom d) dom_settle_syncs ≤ x.same) && x.syncOk && x.annOk

/-- The healthy flags follow. -/
def State.refreshHealth (s : State) : State :=
  (s.setFlag (kDoms 0) doms_healthy (s.domainHealthy 0)).setFlag (kDoms 1) doms_healthy (s.domainHealthy 1)

/-- The active or last active domain. -/
def State.activeDomain (s : State) : Nat := s.fld kTime tsts_active_domain

/-- Time lock is gained or lost (R423, R427). -/
def State.setLock (s : State) (on : Bool) : State :=
  if on = s.flag kTime tsts_time_lock then s
  else
    let s := s.setFlag kTime tsts_time_lock on
    let s := if on then s.timeEvent 4 0 else (s.setFlag kTime tsts_lock_lost_seen true).timeEvent 5 0
    s.refreshTimeDoubt

/-- Holdover still keeps time lock (R423). -/
def State.holdoverKeeps (s : State) : Bool :=
  s.flag kTime tsts_holdover && (match s.time.lockTime with
    | some c => decide (s.clk ≤ c + 1250000 * s.fld (key 0x2E00 1) tctl_holdover_ms)
    | none => false)

/-- Time lock by the rule of R423: a lock that the offset ends has been held by a healthy domain until now. -/
def State.refreshLock (s : State) : State :=
  let a := s.activeDomain
  if s.flag kTime tsts_active_valid ∧ s.domainHealthy a ∧ (s.offset a).natAbs ≤ 65536 * s.fld (key 0x2E00 1) tctl_lock_window then
    { s with time := { s.time with lockTime := some s.clk } }.setLock true
  else
    let s := if s.flag kTime tsts_time_lock ∧ !s.flag kTime tsts_holdover then
      { s with time := { s.time with lockTime := some s.clk } } else s
    s.setLock s.holdoverKeeps

/-- The active domain changes to `d` (R421). -/
def State.switchTo (s : State) (d : Nat) : State :=
  let s := ((s.setFld kTime tsts_active_domain d).bump kTime tsts_switches).setFlag kTime tsts_switch_seen true
  s.timeEvent 6 (d + 2 ^ 32 * s.ent (key (0x2E10 + d) 3))

/-- Whether the active domain is healthy: it is active, or the engine is in holdover (R421, R430). As holdover begins,
a time lock that holds has been held by a healthy domain until now (R423). -/
def State.noteActive (s : State) (ok : Bool) : State :=
  let s := if !ok && !s.flag kTime tsts_holdover && s.flag kTime tsts_time_lock then
    { s with time := { s.time with lockTime := some s.clk } } else s
  (s.setFlag kTime tsts_active_valid ok).setFlag kTime tsts_holdover (!ok)

/-- At a completed exchange the engine chooses the active domain by the first rule of R421 that applies. -/
def State.chooseDomain (s : State) : State :=
  let a := s.activeDomain
  let p := s.fld (key 0x2E00 1) tctl_preferred_domain
  let s :=
    if s.domainHealthy a then
      (if s.flag (key 0x2E00 1) tctl_revert ∧ p ≠ a ∧ s.domainHealthy p then s.switchTo p else s)
    else if s.domainHealthy (1 - a) then s.switchTo (1 - a) else s
  s.noteActive (s.domainHealthy s.activeDomain)

/-- inc of an adjustment of num / den ppb (R420). -/
def incOf (num : Int) (den : Nat) : Nat :=
  (roundTa (68719476736 * ((den : Int) * 1000000000 + num)) (5 * den * 1000000000)).toNat

/-- inc from base of the active domain, with no proportional term (R421, R422). -/
def State.steerBase (s : State) : State :=
  if s.flag (key 0x2E00 1) tctl_servo_enable then
    let adj := sat (s.baseRate s.activeDomain) (-256000000) 256000000
    { s with time := { s.time with incNext := some (incOf adj 256) } }
  else s

/-- Holdover steers by base of the last active domain (R421). -/
def State.steerHold (s : State) : State := if s.flag kTime tsts_holdover then s.steerBase else s

/-- Health and lock follow a change of a domain or of the time control word: an active domain that is healthy no
longer leaves the engine in holdover until a completed exchange chooses (log entry 56). -/
def State.refreshClock (s : State) : State :=
  let s := s.refreshHealth
  let s := if s.flag kTime tsts_active_valid ∧ !s.domainHealthy s.activeDomain then s.noteActive false else s
  s.steerHold.refreshLock

/-- Port word and status of port `q`. -/
def kPort (q : Nat) : Nat := key (0x2E18 + q) 1
/-- Port status. -/
def kPst (q : Nat) : Nat := key (0x2E18 + q) 2

/-- Port `q` is in service and has link: it receives. -/
def State.portUp (s : State) (q : Nat) : Bool :=
  s.flag (kPort q) port_port_enable && s.flag (kPst q) pst_link_up && !s.rst.safeHold

/-- Port `q` receives and sends: its transmitter is in electrical idle until the first arming since power-on (R475,
R489; DEDUCED, log entry 81). -/
def State.portSends (s : State) (q : Nat) : Bool := s.portUp q && s.time.portsOn

/-- The level of PTPq_TXDIS (R515): high while the port's transmitter is in electrical idle or port_enable is 0. -/
def State.ptpTxDis (s : State) (q : Nat) : Bool := !s.time.portsOn || !s.flag (kPort q) port_port_enable || s.rst.safeHold

/-- A time stamp of the instant `t` at a cage, in 2^-32 ns: `asym` ps added, to 1/16 ns (R414). -/
def stampAt (asym : Int) (t : Nat) : Nat := (roundTa (1000 * t + asym * 2 ^ 32) (1000 * 2 ^ 28) * 2 ^ 28).toNat

/-- The receive stamp of port `q`. -/
def State.rxStamp (s : State) (q t : Nat) : Nat := stampAt (signed 16 (s.fld (kPort q) port_rx_asym)) t
/-- The transmit stamp of port `q`. -/
def State.txStamp (s : State) (q t : Nat) : Nat := stampAt (signed 16 (s.fld (kPort q) port_tx_asym)) t

/-- Domain `d` has no master, and none of its messages is in time. -/
def State.dropMaster (s : State) (d : Nat) : State :=
  (s.setDomain d { s.domain d with annOk := false }).setFlag (kDoms d) doms_master_seen false

/-- What follows from a write of the domain word of `d`, `old` before: disabled or with another domainNumber it has no
master (R416, R431). -/
def State.domainWritten (s : State) (d old : Nat) : State :=
  let moved := dom_domain_number.of old != s.fld (kDom d) dom_domain_number
  let s := if moved then s.setDomain d {} else s
  if moved ∨ !s.flag (kDom d) dom_domain_enable then s.dropMaster d else s

/-- PTP_ANNOUNCE (R416, R419): an Announce of domain `d`; `best` says that the best master clock algorithm selects its
sender, `master`, heard on `port`. -/
def execPtpAnnounce (d port master : Nat) (best : Bool) (utc : Int) (s : State) : Host.Outcome State Fault Refusal :=
  if d < 2 ∧ port < 2 then
    if s.rst.available ∧ s.flag (kDom d) dom_domain_enable ∧ s.portUp port ∧ best then
      let k := kDoms d
      let x := s.domain d
      let changed := x.master != some master
      let s := if x.master.isSome ∧ changed then s.bump k doms_master_changes else s
      let s := (s.setFlag k doms_master_seen true).setFld k doms_upstream_port port
      let s := (s.setEnt (key (0x2E10 + d) 5) master).setEnt (key (0x2E10 + d) 6) (unsignedOf 16 utc)
      .next (s.setDomain d { x with annOk := true, master := some master, same := if changed then 0 else x.same }).refreshClock
    else .next s
  else .next s

/-- The next sequence number of messages of a type on a port: no triple of port, type and number returns within 65,536
messages (R418). -/
def State.nextSeq (s : State) (q typ : Nat) : Nat × State :=
  let n := mget 0 s.time.serveSeq (16 * q + typ)
  (n, { s with time := { s.time with serveSeq := mset 0 s.time.serveSeq (16 * q + typ) ((n + 1) % 65536) } })

/-- Domain `d` is tracked on a port that receives and sends: its upstream port (R416). -/
def State.tracks (s : State) (d : Nat) : Bool :=
  s.rst.available && s.flag (kDom d) dom_domain_enable && s.flag (kDoms d) doms_master_seen &&
    s.portSends (s.fld (kDoms d) doms_upstream_port)

/-- DELAY_REQ_SEND (R416, R418): to the upstream port. -/
def execDelayReqSend (d : Nat) (s : State) : Host.Outcome State Fault Refusal :=
  if d < 2 then
    if s.tracks d then
      let q := s.fld (kDoms d) doms_upstream_port
      let r := s.nextSeq q 1
      let u := { r.2 with time := { r.2.time with reqs := (q, r.1) :: r.2.time.reqs.filter (fun x => x != (q, r.1)) } }
      .next ((u.setDomain d { u.domain d with asked := some (q, r.1), sent := none }).emit
        (.ptp q 1 r.1 (s.fld (kDom d) dom_domain_number)))
    else .next s
  else .next s

/-- a_avg of domain `d` in ppb, as a fraction (R420): what each tick since its last exchange has added, over 3.2 ns;
with no tick since then, the increment in force. -/
def State.meanAdj (s : State) (d : Nat) : Int × Nat :=
  let x := s.domain d
  let n := s.time.fbTicks - x.ticks
  let sum := if n = 0 then s.inc else s.time.incSum - x.incSum
  ((5 * (sum : Int) - 68719476736 * (max n 1 : Nat)) * 1000000000, 68719476736 * max n 1)

/-- base[d] in 2^-8 ppb after an exchange (R21, R420), `s` seconds given in ns, a_avg the fraction `a` of ppb. -/
def State.updateBase (s : State) (d : Nat) (o oPrev : Int) (a : Int × Nat) (sNs : Nat) : State :=
  let b := s.baseRate d
  let ki := 2 ^ s.fld (kDom d) dom_ki_shift
  let den := 256 * sNs * a.2 * ki
  let num := b * den + (256 * a.1 - b * a.2) * (256 * sNs : Nat) - (o - oPrev) * 1000000000 * a.2
  s.setEnt (key (0x2E10 + d) 4) (unsignedOf 32 (sat (roundTa num den) (-(2 ^ 31)) (2 ^ 31 - 1)))

/-- The servo of the active domain sets inc (R420). -/
def State.steer (s : State) (d sNs : Nat) (o : Int) : State :=
  let den : Nat := 2 ^ 24 * sNs * 2 ^ s.fld (kDom d) dom_kp_shift
  let lim : Int := 1000 * (s.fld (key 0x2E00 1) tctl_slew_max : Int) * (den : Int)
  let p := sat (o * 256000000000) (-lim) lim
  let adj := sat (s.baseRate d * ((den / 256 : Nat) : Int) - p) (-(1000000 * (den : Int))) (1000000 * (den : Int))
  { s with time := { s.time with incNext := some (incOf adj den) } }

/-- A servo step (R421): with no job armed, at the first healthy exchange while main_valid is 0, or when |o| exceeds
step_threshold. -/
def State.servoStep (s : State) (o : Int) : State :=
  let th := s.fld (key 0x2E00 1) tctl_step_threshold
  let due := !s.flag kTime tsts_main_valid || decide (th * 1000 * 65536 < o.natAbs)
  if !s.active ∧ th ≠ 0 ∧ due ∧ s.flag kTime tsts_active_valid then
    { s with time := { s.time with adjNext := some (s.time.adjNext.getD 0 - o * 65536) } }
  else s

/-- o[d] in 2^-16 ns of an exchange whose Delay_Req left at `t3` (R416): half the difference of the two ways, each
less its correctionFields (log entry 14); `t2` and `t3` are stamps. -/
def offsetOf (t2 t3 : Nat) (x : Exch) : Int :=
  let there : Int := (t2 : Int) - x.t1 - x.corrSync * 2 ^ 16
  let back : Int := (x.t4 : Int) - t3 - x.corrResp * 2 ^ 16
  roundTa (there - back) (2 ^ 17)

/-- A Sync of domain `d` arrives (R419). -/
def State.syncHeard (s : State) (d : Nat) (logSync : Int) : State :=
  (s.setDomain d { s.domain d with syncOk := true, syncAt := s.clk }).setFld (kDoms d) doms_log_sync_interval
    (unsignedOf 8 logSync)

/-- An exchange of domain `d` completes with offset `o`, `sNs` ns after the previous one (R419 to R423): the words of
the domain, the choice, the servo, a servo step and time lock. A domain that becomes active at another's exchange, or
at its own first, steers by its base until its next; a switch makes no step (R421, R422), except that it may set the
clock while main_valid is 0. -/
def State.exchanged (s : State) (d : Nat) (o : Int) (sNs : Nat) : State :=
  let x := s.domain d
  let timed := x.started && decide (0 < sNs)
  let s := if timed then s.updateBase d o (s.offset d) (s.meanAdj d) sNs else s
  let s := s.setDomain d { x with same := x.same + 1, started := true, incSum := s.time.incSum, ticks := s.time.fbTicks,
                                  asked := none, sent := none }
  let s := (s.bump (kDoms d) doms_exchanges).setEnt (key (0x2E10 + d) 3) (unsignedOf 64 o)
  let a := s.activeDomain
  let s := s.refreshHealth.chooseDomain
  let s :=
    if d = s.activeDomain then
      (if s.flag (key 0x2E00 1) tctl_servo_enable then
        let s := if timed ∧ !s.flag kTime tsts_holdover then s.steer d sNs o else if a ≠ d then s.steerBase else s
        if a ≠ d ∧ s.flag kTime tsts_main_valid then s else s.servoStep o
       else s)
    else if a ≠ s.activeDomain then s.steerBase else s
  s.steerHold.refreshLock

/-- PTP_EXCHANGE (R416, R418 to R423): a Sync of domain `d`, with the Delay_Resp to the engine's Delay_Req `ident`,
`sNs` ns after the previous exchange, and the master's logSyncInterval. The exchange completes when that is the
Delay_Req under way and its transmit stamp has been read; else the Sync alone counts. -/
def execPtpExchange (d : Nat) (x : Exch) (sNs ident : Nat) (logSync : Int) (s : State) : Host.Outcome State Fault Refusal :=
  if d < 2 then
    if s.tracks d then
      let q := s.fld (kDoms d) doms_upstream_port
      let v := s.domain d
      let s := s.syncHeard d logSync
      match v.sent with
      | some t3 => if v.asked = some (q, ident) then .next (s.exchanged d (offsetOf (s.rxStamp q x.t2) t3 x) sNs)
                   else .next s.refreshClock
      | none => .next s.refreshClock
    else .next s
  else .next s

/-- Three of the master's Sync intervals have passed since the last Sync of domain `d` (R419). -/
def State.syncOver (s : State) (d : Nat) : Bool :=
  let g := signed 8 (s.fld (kDoms d) doms_log_sync_interval)
  decide (3 * 1250000000 * 2 ^ g.toNat < (s.clk - (s.domain d).syncAt) * 2 ^ (-g).toNat)

/-- DOMAIN_TIMEOUT (R419, R421, R423): the receipt timeout of the Sync has expired if its time is over and it still
counted; else that of the Announce, and with it the master is no longer selected (R431). Tracking rests until the
dictionary is available (R475). -/
def execDomainTimeout (d : Nat) (s : State) : Host.Outcome State Fault Refusal :=
  if d < 2 then
    if !s.rst.available then .next s
    else if (s.domain d).syncOk ∧ s.syncOver d then .next (s.setDomain d { s.domain d with syncOk := false }).refreshClock
    else .next (s.dropMaster d).refreshClock
  else .next s

/-- HOLDOVER_EXPIRY (R423). -/
def execHoldoverExpiry (s : State) : Host.Outcome State Fault Refusal :=
  if s.flag kTime tsts_holdover ∧ s.flag kTime tsts_time_lock ∧ !s.holdoverKeeps then .next (s.setLock false) else .next s

/-! ### Ports (R414, R415, R417, R418) -/

/-- PTP_LINK_CHANGE (R415, R428). -/
def execPtpLinkChange (port : Nat) (up : Bool) (s : State) : Host.Outcome State Fault Refusal :=
  if port < 2 then .next (s.setFlag (kPst port) pst_link_up up) else .next s

/-- An event message that R415 recognises: Sync, Delay_Req, Pdelay_Req or Pdelay_Resp, over Ethernet with at most one
VLAN tag or over UDP on IPv4. -/
def eventFrame (f : PtpFrame) : Bool :=
  decide (f.msgType < 4) &&
    ((f.etherType == 0x88F7 && decide (f.vlanTags ≤ 1)) || (f.etherType == 0x0800 && f.udpPort == some 319))

/-- A Delay_Resp addressed to one of the engine's own port identities, over Ethernet or UDP on IPv4 (R415, R416); PTP
over IPv6 is forwarded unchanged. -/
def ownResp (f : PtpFrame) : Bool := f.msgType == 9 && (f.etherType == 0x88F7 || f.etherType == 0x0800) && f.toOwn

/-- The frame as it leaves: of an event message, the residence time from the two stamps is added to correctionField,
in 2^-16 ns, and a UDP checksum is 0; any other is unchanged (R415). -/
def State.corrected (s : State) (port : Nat) (f : PtpFrame) : PtpFrame :=
  if eventFrame f then
    let residence : Int := (s.txStamp (1 - port) f.egress : Int) - s.rxStamp port f.ingress
    { f with correction := f.correction + residence / 2 ^ 16, checksum := if f.etherType = 0x0800 then 0 else f.checksum }
  else f

/-- PTP_FRAME_FORWARD (R414, R415): a frame received on `port`. -/
def execPtpFrameForward (port : Nat) (f : PtpFrame) (s : State) : Host.Outcome State Fault Refusal :=
  if port < 2 then
    if !s.portUp port then .next s
    else if 1522 < f.bytes ∨ !f.fcsOk then .next (s.bump (kPst port) pst_rx_errors)
    else if ownResp f ∨ !s.flag (key 0x2E00 1) tctl_tc_enable then .next s
    else if !s.portSends (1 - port) then .next (s.bump (kPst port) pst_dropped)
    else .next (s.emit (.frame (1 - port) (s.corrected port f)))
  else .next s

/-- Port `q` serves (R417). -/
def State.serves (s : State) (q : Nat) : Bool := s.portSends q && s.flag (kPort q) port_serve_enable

/-- SERVE_SYNC (R417): a two-step Sync; its Follow_Up leaves when its transmit stamp is read. -/
def execServeSync (port : Nat) (s : State) : Host.Outcome State Fault Refusal :=
  if port < 2 then
    if s.serves port then
      let r := s.nextSeq port 0
      let sent := (port, r.1) :: r.2.time.syncs.filter (fun x => x != (port, r.1))
      .next ({ r.2 with time := { r.2.time with syncs := sent } }.emit (.ptp port 0 r.1 (s.fld (kPort port) port_serve_domain)))
    else .next s
  else .next s

/-- clockClass of the engine as a master (R417). -/
def State.clockClass (s : State) : Nat :=
  if s.flag kTime tsts_time_lock then 6 else if s.flag kTime tsts_holdover then 7 else 248

/-- SERVE_ANNOUNCE (R417): clockClass, priority1 and priority2, as bytes of the value. -/
def execServeAnnounce (port : Nat) (s : State) : Host.Outcome State Fault Refusal :=
  if port < 2 then
    if s.serves port then
      let r := s.nextSeq port 11
      .next (r.2.emit (.ptp port 11 r.1 (s.clockClass + 2 ^ 8 * 128 + 2 ^ 16 * 128 : Nat)))
    else .next s
  else .next s

/-- The main clock at an instant of this clk (R411, R414). No command says which: a free value (log entry 14). -/
def State.mainInstant (s : State) : Nat × State :=
  let f := s.fresh 16
  (s.mainTimeNow + s.clk % 4 * s.inc / 4 + f.1 * s.inc / 2 ^ 18, f.2)

/-- SERVE_DELAY_RESP (R414, R417): the answer to a Delay_Req received in this clk carries its receive stamp, of the
main clock. -/
def execServeDelayResp (port reqId : Nat) (s : State) : Host.Outcome State Fault Refusal :=
  if port < 2 then
    if s.serves port then
      let t := s.mainInstant
      .next (t.2.emit (.ptp port 9 reqId (s.rxStamp port t.1)))
    else .next s
  else .next s

/-- TX Stamp Queue. -/
def kTxq : Nat := key 0x2E00 6

/-- The Delay_Req `ident` that domain `d` sent on `port` completes no exchange (R418). -/
def State.loseStamp (s : State) (port ident d : Nat) : State :=
  let x := s.domain d
  if x.asked = some (port, ident) then s.setDomain d { x with asked := none, sent := none } else s

/-- The engine has sent this message and its transmit stamp is to come: a Sync (0) or a Delay_Req (R418). -/
def State.awaits (s : State) (port msgType ident : Nat) : Bool :=
  if msgType = 0 then s.time.syncs.contains (port, ident)
  else msgType == 1 && s.time.reqs.contains (port, ident)

/-- The engine expects no more of the Sync `ident` of `port`. -/
def State.syncDone (s : State) (port ident : Nat) : State :=
  { s with time := { s.time with syncs := s.time.syncs.filter (fun x => x != (port, ident)) } }

/-- The transmit stamp of the Delay_Req `ident` of `port` has come. -/
def State.reqDone (s : State) (port ident : Nat) : State :=
  { s with time := { s.time with reqs := s.time.reqs.filter (fun x => x != (port, ident)) } }

/-- TX_STAMP (R414, R418): the transmit stamp of one of the engine's own Sync and Delay_Req, its instant at the cage
given as a T128, joins the queue, or is lost while 64 are unread; no other message takes one. -/
def execTxStamp (port msgType ident stamp : Nat) (s : State) : Host.Outcome State Fault Refusal :=
  if port < 2 then
    if !s.awaits port msgType ident then .next s
    else if 64 ≤ s.time.txq.length then
      let s := if msgType = 0 then s.syncDone port ident
        else ((s.reqDone port ident).loseStamp port ident 0).loseStamp port ident 1
      .next (((s.setFlag kTime tsts_txq_overflow true).bump kTxq txq_txq_overflows).timeEvent 8 0)
    else
      let e := ident % 2 ^ 16 + 2 ^ 16 * port + 2 ^ 17 * (msgType % 16) + 2 ^ 64 * (t128 (s.txStamp port (ofT128 stamp)) % 2 ^ 128)
      let q := s.time.txq ++ [e]
      let s := if msgType = 0 then s else s.reqDone port ident
      .next ({ s with time := { s.time with txq := q } }.setFld kTxq txq_unread q.length)
  else .next s

/-- The Delay_Req `ident` of `port`, where domain `d` has it under way, left at `t` (R416, R418). -/
def State.reqSent (s : State) (port ident t d : Nat) : State :=
  let x := s.domain d
  if x.asked = some (port, ident) then s.setDomain d { x with sent := some t } else s

/-- The harbourmaster reads the oldest stamp, one in a clk (log entry 22), and matches it to its message: that of a
Sync gives its Follow_Up, that of a Delay_Req is t3 of its exchange (R416, R418). -/
def State.readStamp (s : State) : State :=
  match s.time.txq with
  | [] => s
  | e :: es =>
    let s := { s with time := { s.time with txq := es } }.setFld kTxq txq_unread es.length
    let q := bits e 16 1
    let n := bits e 0 16
    if bits e 17 4 = 0 then
      (if s.time.syncs.contains (q, n) then (s.syncDone q n).emit (.ptp q 8 n (bits e 64 128)) else s)
    else (s.reqSent q n (ofT128 (bits e 64 128)) 0).reqSent q n (ofT128 (bits e 64 128)) 1

/-! ### Trigger edges and the timeline (R424 to R427) -/

/-- TRIG_EDGE (R424): an edge of TRIG_IN `i`, `bin` thirty-seconds of a ns after the tick before it. -/
def execTrigEdge (i : Nat) (rising : Bool) (bin : Nat) (s : State) : Host.Outcome State Fault Refusal :=
  if i < 16 ∧ !s.rst.safeHold then
    let k := key (0x2E28 + i) 1
    let e := s.fld k trig_edge
    if e = 3 ∨ (e = 1 ∧ rising) ∨ (e = 2 ∧ !rising) then
      let pos := 1024 * (s.clk / 4) + 10 * bin
      let dead := match mget none s.time.trigLast i with | some p => decide (pos < p + 2048) | none => false
      if dead then
        .next ({ s with time := { s.time with trigLost := mset 0 s.time.trigLost i (mget 0 s.time.trigLost i + 1) } }.bump
          (key (0x2E28 + i) 3) cnt32)
      else
        let t : Int := (s.mainTimeNow : Int) + ((bin : Int) - signed 16 (s.fld k trig_in_delay)) * 2 ^ 27
        let s := { s with time := { s.time with trigLast := mset none s.time.trigLast i (some pos) } }
        let s := (s.bump (key (0x2E28 + i) 2) cnt48).setEnt (key (0x2E28 + i) 4) (t128 t.toNat)
        if s.flag k trig_to_timeline then
          let lost := min 65535 (mget 0 s.time.trigLost i)
          let s := { s with time := { s.time with trigLost := mset 0 s.time.trigLost i 0 } }
          .next (s.timelineEnter t.toNat (s.source 0 i) (if rising then 1 else 2) lost)
        else .next s
    else .next s
  else .next s

/-- The held entry that comes first by R426. -/
def firstHeld : List TlEnt → Option TlEnt
  | [] => none
  | e :: es => match firstHeld es with
    | none => some e
    | some f => some (if tlBefore (f.stamp, f.source) (e.stamp, e.source) then f else e)

/-- TIMELINE_RELEASE (R426, R427): the first held entry, once global time has passed its stamp plus merge_hold. -/
def execTimelineRelease (s : State) : Host.Outcome State Fault Refusal :=
  match firstHeld s.time.held with
  | none => .next s
  | some e =>
    if e.stamp + s.fld kTlc tlc_merge_hold * 1000 * 2 ^ 32 < s.now then
      .next ({ s with time := { s.time with held := s.time.held.erase e } }.releaseEntry e)
    else .next s

/-- A write of the timeline consumer (R428), or its abort code. -/
def State.timelineWrite (s : State) (v : Nat) : Except Nat State :=
  let p := s.ent kTlP
  let c := s.ent kTlC
  if (p + 2 ^ 32 - c) % 2 ^ 32 < (v + 2 ^ 32 - c) % 2 ^ 32 then .error abRange else .ok (s.setEnt kTlC v)

/-- TIMELINE_CONSUMER_WRITE (R427, R428, R487). -/
def execTimelineConsumerWrite (v : Nat) (s : State) : Host.Outcome State Fault Refusal :=
  if s.dictOpen then orSame s (s.timelineWrite v) else .next s

/-- The 32 bytes of a timeline entry (R427). -/
def TlEnt.bits (e : TlEnt) : Nat :=
  t128 e.stamp + 2 ^ 128 * e.source + 2 ^ 152 * e.kind + (if e.ooo then 2 ^ 156 else 0) + 2 ^ 160 * (e.detail % 2 ^ 96)

end Sys2Proof.Machine
end

