-- ==== Sys2Proof/Machine/Dict.lean ====
section
/-! DEFINITION. Dictionary accesses (R16, R18, R19, R433 to R440, R585): which entries exist, the checks of a write in
their order, the word a write leaves, and what follows from writing a plain entry. Entries whose write is a command of
its own are reached through Machine/Link.lean. -/

namespace Sys2Proof.Machine

/-! ### Abort codes (R439) -/

/-- A USDO protocol error only: no command carries one (R439, R585). -/
def abGeneral : Nat := 0x08000000
/-- Access of a kind the entry does not support. -/
def abUnsupported : Nat := 0x06010000
/-- Write of an RO entry. -/
def abReadOnly : Nat := 0x06010002
/-- Index absent. -/
def abNoObject : Nat := 0x06020000
/-- Length mismatch. -/
def abLength : Nat := 0x06070010
/-- Subindex absent. -/
def abNoSub : Nat := 0x06090011
/-- Store or restore refused. -/
def abNotStored : Nat := 0x08000020

/-! ### Which entries exist (R2, R3, R71, R111, R142, R196, R285, R348, R438, R526) -/

/-- Instances of thermal class `k`, 1 to 6 (R526). -/
def classCount : Nat → Nat
  | 1 => 64
  | 2 => 16
  | 3 => 10
  | 4 => 24
  | 5 => 48
  | _ => 1

/-- Laser bank `i` = 2 × engine + bank exists: an ingest engine has one bank, a link engine two (R557). -/
def bankOk (g : Grade) (i : Nat) : Bool :=
  if i < 40 then quayOk g (i / 2) && i % 2 == 0 else decide (i < 48)

/-- Index `i` names an object of this part: none of a quay or tile that is fused off, nor of an absent eaves port or
laser bank. -/
def indexOk (g : Grade) (i : Nat) : Bool :=
  if 0x2100 ≤ i ∧ i < 0x2194 then quayOk g (i % 32)
  else if 0x2200 ≤ i ∧ i < 0x2294 then quayOk g (i % 32)
  else if 0x22C0 ≤ i ∧ i < 0x22D4 then quayOk g (i - 0x22C0)
  else if 0x2300 ≤ i ∧ i < 0x2368 then tileOk g (i - 0x2300)
  else if 0x2610 ≤ i ∧ i < 0x2678 then tileOk g (i - 0x2610)
  else if 0x2700 ≤ i ∧ i < 0x2768 then tileOk g (i - 0x2700)
  else if 0x2780 ≤ i ∧ i < 0x2794 then quayOk g (i - 0x2780)
  else if 0x2960 ≤ i ∧ i < 0x2974 then quayOk g (i - 0x2960)
  else if 0x2980 ≤ i ∧ i < 0x2994 then quayOk g (i - 0x2980)
  else if 0x2D50 ≤ i ∧ i < 0x2D78 then eavesOk g (i - 0x2D50)
  else if 0x3030 ≤ i ∧ i < 0x3060 then bankOk g (i - 0x3030)
  else true

/-- Subindex `sub` of a present index `i` is present: the readings of fused-off quays, their engines and banks are
absent (R2, R526). -/
def subOk (g : Grade) (i sub : Nat) : Bool :=
  if 0x3309 ≤ i ∧ i < 0x330F then
    decide (sub - 1 < classCount (i - 0x3308)) && (if i = 0x330C then decide (20 ≤ sub - 1) || quayOk g (sub - 1)
      else if i = 0x330D then bankOk g (sub - 1) else true)
  else true

/-- Some entry has index `i`. -/
def hasIndex (i : Nat) : Bool := entries.any (fun e => decide (e.base ≤ i) && decide (i < e.base + e.count))

/-- The descriptor of an entry, or the abort code (R438). -/
def State.lookup (s : State) (i sub : Nat) : Except Nat Entry :=
  if !(hasIndex i && indexOk s.grade i) then .error abNoObject
  else match findEntry i sub entries with
    | some e => if subOk s.grade i sub then .ok e else .error abNoSub
    | none => .error abNoSub

/-- Entries with a signed value (R433): Time Adjust, Fall-back Rate, a domain's offset, rate and UTC offset (R428),
and the readings of R526. -/
def signedEntry (i sub : Nat) : Bool :=
  (i == 0x2E00 && sub == 5) || (i == 0x2E01 && sub == 3) ||
    (decide (0x2E10 ≤ i) && decide (i < 0x2E12) && (sub == 3 || sub == 4 || sub == 6)) ||
    (decide (0x3309 ≤ i) && decide (i < 0x330F))

/-- The CANopen data type that the engine reports for entry `i`:`sub` (R433). -/
def dataType (e : Entry) (i sub : Nat) : Nat :=
  match e.bytes with
  | 1 => 0x0005
  | 2 => if signedEntry i sub then 0x0003 else 0x0006
  | 4 => if signedEntry i sub then 0x0004 else 0x0007
  | 8 => if signedEntry i sub then 0x0015 else 0x001B
  | _ => 0x000A

/-- The data type of the entry at an index and subindex; 0 for none. -/
def typeOf (i sub : Nat) : Nat :=
  match findEntry i sub entries with
  | some e => dataType e i sub
  | none => 0

/-! ### Words and their fields (R16, R434) -/

/-- A field a write can set or act on. -/
def Fld.writable (f : Fld) : Bool := f.acc != Acc.ro

/-- The bits of `v` in no field are 0, and nothing lies above the entry's size. -/
def reservedClear (e : Entry) (v : Nat) : Bool := e.flds.foldl (fun v f => f.put v 0) v == 0

/-- Every field that takes a value takes one in its range. -/
def fieldsInRange (e : Entry) (v : Nat) : Bool :=
  e.flds.all (fun f => !(f.acc == Acc.rw || f.acc == Acc.rwe) || (decide (f.min ≤ f.of v) && decide (f.of v ≤ f.max)))

/-- The word that a write of `v` leaves in place of `old`: RO fields stay, W1C bits written 1 clear, SC and WO fields
read 0. -/
def mergeWord (flds : List Fld) (old v : Nat) : Nat :=
  flds.foldl (fun w f => match f.acc with
    | .ro => w
    | .rw | .rwe => f.put w (f.of v)
    | .w1c => if f.of v = 0 then w else f.put w 0
    | .sc | .wo => f.put w 0) old

/-- A write of `v` would change an RWE field. -/
def changesRwe (e : Entry) (old v : Nat) : Bool := e.flds.any (fun f => f.acc == Acc.rwe && f.of v != f.of old)

/-- Steps 2 to 5 of R585 for a write of `len` bytes. -/
def State.accessCheck (s : State) (i sub len : Nat) : Except Nat Entry :=
  match s.lookup i sub with
  | .error c => .error c
  | .ok e =>
    if !e.flds.any Fld.writable then .error abReadOnly
    else if len ≠ e.bytes then .error abLength
    else .ok e

/-! ### Refusals that a chapter states -/

/-- A write leaves a lane's group with settings its bring-up refuses (R56, R59), or moves a lane of an armed job out of
active (R68). -/
def State.laneState (s : State) (e c v : Nat) : Bool :=
  let k := kLctl e c
  let t := s.setEnt k (mergeWord lctl (s.ent k) v)
  s.powerBarred e c (lctl_power_state.of v) ||
    (lctl_start_bringup.of v == 1 && (match t.startBringup e c with | .ok _ => false | .error _ => true))

/-- Engine and channel of a lane control entry. -/
def laneEntry (i sub : Nat) : Option (Nat × Nat) :=
  if 0x2100 ≤ i ∧ i < 0x2114 ∧ 1 ≤ sub ∧ sub ≤ 0x22 then some (i - 0x2100, sub - 1)
  else if 0x21A0 ≤ i ∧ i < 0x21A4 then some (20 + (i - 0x21A0), sub - 1)
  else none

/-- The role of bundle `k` as it reads: that of a berth bundle is berth (R376, R406). -/
def State.roleWord (s : State) (k : Nat) : Nat :=
  let v := s.ent (kBun k)
  if s.berthBundle k then bun_role.put v 1 else v

/-- What a write of a plain entry is compared with: the entry as it reads (R16). -/
def State.plainWord (s : State) (i sub : Nat) : Nat :=
  if 0x2D10 ≤ i ∧ i < 0x2D30 ∧ sub = 1 then s.roleWord (i - 0x2D10) else s.ent (key i sub)

/-- Refusals with abort code state of a plain entry (R16, R56, R59, R68, R409). -/
def State.plainState (s : State) (e : Entry) (i sub v : Nat) (load : Bool) : Bool :=
  (!s.idle && !load && changesRwe e (s.plainWord i sub) v) ||
    (match laneEntry i sub with
     | some (en, c) => s.laneState en c v
     | none => i == 0x2E00 && sub == 3 && s.flag (key 0x2E00 1) tctl_servo_enable)

/-- Two runs of lanes or bytes meet. -/
def meets (a n b m : Nat) : Bool := decide (0 < n) && decide (0 < m) && decide (a < b + m) && decide (b < a + n)

/-- A group word breaks R90. -/
def State.groupClash (s : State) (q g v : Nat) : Bool :=
  let a := grp_first_lane.of v
  let n := grp_lane_count.of v
  decide (32 < a + n) || (List.range 4).any (fun h => h != g &&
    meets a n (s.fld (key (0x2200 + q) (2 + h)) grp_first_lane) (s.laneCount q h))

/-- A DDR4 map entry that breaks R283. -/
def State.ddrClash (s : State) (sub v : Nat) : Bool :=
  let e := fun (j : Nat) => if j = sub then v else s.ent (key 0x27E0 j)
  v % 4096 != 0 || (sub == 2 && decide (2 ^ 36 < v)) ||
    (List.range 4).any (fun a => (List.range 4).any (fun b =>
      decide (a < b) && meets (e (2 * a + 1)) (e (2 * a + 2)) (e (2 * b + 1)) (e (2 * b + 2))))

/-- A domain word that R431 refuses, or that would enable the domain which a port serves (R417). -/
def State.domainClash (s : State) (d v : Nat) : Bool :=
  dom_domain_enable.of v == 1 &&
    ((s.flag (key (0x2E10 + (1 - d)) 1) dom_domain_enable &&
        dom_domain_number.of v == s.fld (key (0x2E10 + (1 - d)) 1) dom_domain_number) ||
      (List.range 2).any (fun q => s.flag (kPort q) port_serve_enable &&
        s.fld (kPort q) port_serve_domain == dom_domain_number.of v))

/-- R417: serve_domain is the number of a domain the engine tracks. -/
def State.serveClash (s : State) (v : Nat) : Bool :=
  (List.range 2).any (fun d =>
    s.flag (key (0x2E10 + d) 1) dom_domain_enable && s.fld (key (0x2E10 + d) 1) dom_domain_number == port_serve_domain.of v)

/-- serve_log_sync is -8 to 7, which four bits always are; a thermal limit word keeps warn ≤ doubt ≤ class default. -/
def limClash (k v : Nat) : Bool :=
  decide (signed 16 (lim_doubt.of v) < signed 16 (lim_warn.of v)) ||
    decide (signed 16 (lim_doubt.of (limDflt k)) < signed 16 (lim_doubt.of v))

/-- Refusals with abort code value of a plain entry beyond its fields' ranges. -/
def State.plainValue (s : State) (i sub v : Nat) : Bool :=
  if 0x2180 ≤ i ∧ i < 0x2194 then (List.range 32).any (fun m => m != sub - 1 && s.ent (key i (1 + m)) == v)
  else if 0x21B4 ≤ i ∧ i < 0x21B8 then
    (List.range 32).any (fun m => m != (sub - 1) % 32 && s.ent (key i ((sub - 1) / 32 * 32 + 1 + m)) == v)
  else if 0x21B0 ≤ i ∧ i < 0x21B4 then decide (63 < txc_ffe_pre.of v + txc_ffe_main.of v + txc_ffe_post.of v)
  else if 0x2200 ≤ i ∧ i < 0x2214 ∧ sub = 1 then
    (quay_code_signed.of v == 1 && quay_zero_point.of v != 0) ||
      (quay_code_k4.of v == 1 && decide (15 < quay_zero_point.of v))
  else if 0x2200 ≤ i ∧ i < 0x2214 ∧ 2 ≤ sub ∧ sub ≤ 5 then s.groupClash (i - 0x2200) (sub - 2) v
  else if 0x2400 ≤ i ∧ i < 0x2500 ∧ sub ≤ 3 then cwin_window.of v == 0
  else if 0x2608 ≤ i ∧ i < 0x2610 then
    row_retired_column.of v != 15 && decide (spareCol s.grade < row_retired_column.of v)
  else if 0x2770 ≤ i ∧ i < 0x2772 then v % 4096 != 0 || decide (120000000000 < v)
  else if i = 0x27E0 then s.ddrClash sub v
  else if i = 0x2800 ∧ sub = 1 then decide (dec_latency_l.of v < 240) || decide (1000 < dec_latency_l.of v)
  else if 0x2910 ≤ i ∧ i < 0x2918 then (maskQuays (ccap_quay_mask.of v)).any (fun q => !quayOk s.grade q)
  else if (0x2C10 ≤ i ∧ i < 0x2C12) ∨ i = 0x2C20 then v % 4096 != 0
  else if i = 0x2D00 ∧ sub = 1 then decide (bctl_berth_size.of v ≤ bctl_position.of v)
  else if 0x2D10 ≤ i ∧ i < 0x2D30 then bun_role.of v == 3 && i != 0x2D2F
  else if i = 0x2D40 ∧ sub = 1 then hctl_harbour_berths.of v == 0 || decide (256 < hctl_harbour_berths.of v)
  else if i = 0x2E00 ∧ sub = 1 then tctl_lock_window.of v == 0
  else if i = 0x2E00 ∧ sub = 3 then decide (v * 10000 < 31968 * 2 ^ 32) || decide (32032 * 2 ^ 32 < v * 10000)
  else if i = 0x2E01 ∧ sub = 1 then decide (999999999 < bits v 32 32)
  else if 0x2E10 ≤ i ∧ i < 0x2E12 then s.domainClash (i - 0x2E10) v
  else if 0x2E18 ≤ i ∧ i < 0x2E1A then s.serveClash v
  else if i = 0x2F00 ∧ sub = 3 then v % 4096 != 0
  else if i = 0x2F00 ∧ sub = 5 then v == 0
  else if i = 0x3000 ∧ sub = 2 then rctl_restart_limit.of v == 0 || rctl_restart_window_s.of v == 0
  else if i = 0x3070 then decide (lwc_swap_ratio.of v < 1100) || decide (3000 < lwc_swap_ratio.of v)
  else if i = 0x3100 ∧ sub = 2 then decide (32767 < v)
  else if i = 0x3100 ∧ sub = 4 then decide (v < 60)
  else if i = 0x3100 ∧ sub = 5 then !(v == 0 || v == 64 || v == 128 || v == 192)
  else if i = 0x3110 ∨ (i = 0x3160 ∧ sub = 3) then v % 64 != 0
  else if i = 0x3200 ∧ sub = 3 then blk_block_kind.of v == 0 || decide (4 < blk_block_kind.of v)
  else if 0x3302 ≤ i ∧ i < 0x3308 then limClash (i - 0x3301) v
  else false

/-- Refusals with abort code value (R18, R19, R434). -/
def State.valueRefused (s : State) (e : Entry) (i sub v : Nat) : Bool :=
  !reservedClear e v || !fieldsInRange e v || s.plainValue i sub v

/-! ### What follows from a plain write -/

/-- A lane control word: power state, slip and start_bringup act (R54, R63, R67, R72). DESIGN CHOICE (log entry 79): one that
leaves slip as it is writes no slip value, so that the lock count goes on. -/
def State.laneWrite (s : State) (e c v : Nat) : State :=
  let k := kLctl e c
  let p := s.fld k lctl_power_state
  let sl := s.fld k lctl_slip
  let s := s.setEnt k (mergeWord lctl (s.ent k) v)
  let s := if lctl_power_state.of v = p then s
    else if (s.laneOfChan e c).isSome then s.requestPower e c (lctl_power_state.of v) else s
  let s := if lctl_slip.of v = sl ∨ (s.laneOfChan e c).isNone then s else s.putSlip e c (lctl_slip.of v)
  if lctl_start_bringup.of v = 1 then (match s.startBringup e c with | .ok t => t | .error _ => s) else s

/-- A group takes a new run of lanes: what it was deskewing is dropped and it moves by R91 from wait_lock. -/
def State.groupMoved (s : State) (q g : Nat) : State :=
  ((s.setGroup q g {}).setFld (kGst q g) gstat_align_state 1).refreshGroup q g

/-- A plain entry takes the written word, and what depends on it at once follows (R91, R308, R322, R423,
R556). -/
def State.applyWrite (s : State) (e : Entry) (i sub v : Nat) : State :=
  let k := key i sub
  match laneEntry i sub with
  | some (en, c) => s.laneWrite en c v
  | none =>
    let old := s.ent k
    let s := s.setEnt k (mergeWord e.flds old v)
    if 0x2180 ≤ i ∧ i < 0x2194 then s.remapped (i - 0x2180) (sub - 1) old v
    else if 0x21B4 ≤ i ∧ i < 0x21B8 ∧ sub ≤ 32 then s.remapped (20 + (i - 0x21B4)) (sub - 1) old v
    else if 0x2200 ≤ i ∧ i < 0x2214 ∧ 2 ≤ sub ∧ sub ≤ 5 then
      (if grp_first_lane.of old = grp_first_lane.of v ∧ grp_lane_count.of old = grp_lane_count.of v then s
       else s.groupMoved (i - 0x2200) (sub - 2))
    else if 0x2608 ≤ i ∧ i < 0x2610 then (if row_retired_column.of old = row_retired_column.of v then s else s.newRetired (i - 0x2608))
    else if i = 0x2800 ∧ sub = 3 then s.refreshHold
    else if 0x2C10 ≤ i ∧ i < 0x2C12 then
      { s with job := { s.job with areaWritten := s.job.areaWritten ||| 2 ^ (i - 0x2C10) } }
    else if i = 0x2900 ∧ sub = 1 then s.refreshQueue
    else if i = 0x2E00 ∧ sub = 3 then
      { s.setEnt k old with time := { s.time with incNext := some v } }
    else if i = 0x2E00 ∧ sub = 1 then s.refreshClock.refreshTimeDoubt
    else if 0x2E10 ≤ i ∧ i < 0x2E12 ∧ sub = 1 then (s.domainWritten (i - 0x2E10) old).refreshClock.refreshTimeDoubt
    else s

/-! ### The persistence store (R436, R485) -/

/-- Entries of class S. -/
def isStored (k : Nat) : Bool :=
  match findEntry (k / 256) (k % 256) entries with
  | some e => e.cls == Cls.stored
  | none => false

/-- Store Parameters: every S entry to both copies, beside the class-A entries they hold; a store that fails to verify
keeps the old ones. -/
def State.storeAll (s : State) (k : Nat) (ok : Bool) : Except Nat State :=
  if k = 0x65766173 ∧ ok then
    let m := (s.dict.filter (fun e => isStored e.1)).foldl (fun m e =>
      mset (dflt s.grade s.stepping e.1) m e.1 (s.onlyFlds (savedFlds e.1) e.1 (s.ent e.1)))
      (s.storeMap.filter (fun e => isAlways e.1))
    let s := s.writeStore m
    .ok { s with ctl := { s.ctl with storeMark := false } }
  else .error abNotStored

/-- Restore Default Parameters: both copies are marked empty from the next power-on. -/
def State.storeClear (s : State) (k : Nat) : Except Nat State :=
  if k = 0x64616F6C then .ok { s with ctl := { s.ctl with storeMark := true } } else .error abNotStored

/-! ### Entries whose write is an action -/

/-- A result with its refusal code; refused, the state stays. -/
def answer (s : State) (r : Except Nat State) : State × Option Nat :=
  match r with
  | .ok t => (t, none)
  | .error c => (s, some c)

/-- A write of the EMCY Log Consumer: not beyond the producer (R469). -/
def State.emcyConsume (s : State) (v : Nat) : Except Nat State :=
  let c := s.ent kEmcyC
  if (s.ent kEmcyP + 2 ^ 32 - c) % 2 ^ 32 < (v + 2 ^ 32 - c) % 2 ^ 32 then .error abRange else .ok (s.setEnt kEmcyC v)

/-- Host Capture: the word is kept, and go forms the request (R323, R352). -/
def State.hostCaptureWrite (s : State) (e : Entry) (i sub v : Nat) : State × Option Nat :=
  if hcap_go.of v = 1 then
    let r := s.hostCapture (hcap_frame_number.of v) (hcap_pre_count.of v) (hcap_post_count.of v) (hcap_quay_mask.of v)
      (hcap_destination.of v)
    match r.2 with
    | some c => (r.1, some c)
    | none => (r.1.applyWrite e i sub v, none)
  else (s.applyWrite e i sub v, none)

/-- The entries whose write is an action that a settings section may ask for too: the store, capture, the record and
EMCY consumers and the clocks. -/
def hasAction (i sub : Nat) : Bool :=
  i == 0x1010 || i == 0x1011 || (i == 0x2900 && (sub == 1 || sub == 3 || sub == 4)) || (i == 0x2940 && sub == 3) ||
    (i == 0x2E00 && decide (3 ≤ sub) && decide (sub ≤ 5)) || (i == 0x2E01 && sub == 4) || (i == 0x2E40 && sub == 3) ||
    (i == 0x2F20 && sub == 4)

/-- What a write of one of them does, with the refusal that the effect finds. -/
def State.actionEffect (s : State) (e : Entry) (i sub v : Nat) : State × Option Nat :=
  if i = 0x1010 then
    (let f := s.fresh 1
     answer s (f.2.storeAll v (f.1 == 0)))
  else if i = 0x1011 then answer s (s.storeClear v)
  else if i = 0x2900 ∧ sub = 1 then
    (let t := s.applyWrite e i sub v
     (if capc_rearm.of v = 1 then t.rearm else t, none))
  else if i = 0x2900 ∧ sub = 3 then s.hostCaptureWrite e i sub v
  else if i = 0x2900 then
    (let t := s.applyWrite e i sub v
     (if abt_go.of v = 1 then t.registerAbort (abt_record_seq.of v) (abt_all.of v == 1) true else t, none))
  else if i = 0x2940 then answer s (s.consumerWrite v)
  else if i = 0x2E00 ∧ sub = 3 then answer s (s.incWrite v)
  else if i = 0x2E00 ∧ sub = 4 then answer s (s.timeWrite v)
  else if i = 0x2E00 then answer s (s.adjustWrite (signed 32 v))
  else if i = 0x2E01 then ({ s with time := { s.time with fbCommit := s.time.fbCommit || v == 1 } }, none)
  else if i = 0x2E40 then answer s (s.timelineWrite v)
  else answer s (s.emcyConsume v)

/-- Entries whose write no settings section may ask for while a load runs: the job command, resets, firmware, signed
messages, attestation and the debug word (log entry 16). -/
def noSetting (e : Entry) (v : Nat) : Bool :=
  (decide (0x3140 ≤ e.base) || e.base == 0x2F00) &&
    e.flds.any (fun f => f.acc == Acc.wo || (f.acc == Acc.sc && f.of v == 1))

/-- A write of an entry by the settings of a load or restart, or its abort code (R360, R364, R543): what a write of it
does, but RWE fields may change whatever the job state, and the window slot word is written by them (R354). -/
def State.settingWrite (s : State) (i sub len v : Nat) : Except Nat State :=
  if i = 0x2900 ∧ sub = 6 then
    if len ≠ 16 then .error abLength
    else if wslot.foldl (fun v f => f.put v 0) v ≠ 0 then .error abRange
    else .ok (s.setEnt (key i sub) v)
  else match s.accessCheck i sub len with
    | .error c => .error c
    | .ok e =>
      if s.plainState e i sub v true || noSetting e v then .error abState
      else
        let r := if hasAction i sub then s.actionEffect e i sub v else (s.applyWrite e i sub v, none)
        match r.2 with
        | some c => if c ≠ abState ∧ s.valueRefused e i sub v then .error abRange else .error c
        | none => if s.valueRefused e i sub v then .error abRange else .ok r.1

end Sys2Proof.Machine
end

