-- ==== Sys2Proof/Machine/Recorder.lean ====
section
/-! DEFINITION. The event recorder (R560 to R569): records as stored, the operation that stores one, the header,
snapshots and summary intervals. Reading a slot or the header is a read of the dictionary (Machine/Link.lean). -/

namespace Sys2Proof.Machine

/-! ### Records and the header as bytes (R561, R566) -/

/-- The 2,016 bits of a record below its crc. -/
def RecRec.bits (r : RecRec) : Nat :=
  r.seq % 2 ^ 64 + 2 ^ 64 * r.type + 2 ^ 72 * severity r.type + (if r.timeValid then 2 ^ 75 else 0)
    + (if r.fallback then 2 ^ 76 else 0) + 2 ^ 80 * r.repeats + 2 ^ 96 * (r.boot % 2 ^ 32) + 2 ^ 128 * (r.source % 2 ^ 24)
    + 2 ^ 152 * (r.key % 2 ^ 104) + 2 ^ 256 * (r.first % 2 ^ 64) + 2 ^ 320 * (r.last % 2 ^ 64)
    + 2 ^ 384 * (r.payload % 2 ^ 1632)

/-- A record as its slot holds it, with its crc. -/
def RecRec.whole (r : RecRec) : Nat := r.bits + 2 ^ 2016 * crc32c (leBytes 252 r.bits)

/-- Slots of the recorder. -/
def recSlots : Nat := 32768

/-- The record of slot `k`, if the slot is valid. -/
def State.slotRec (s : State) (k : Nat) : Option RecRec := mget none s.recd.slots k

/-- The 256 bytes of slot `k`, valid or not, as a number (R567). -/
def State.slotWord (s : State) (k : Nat) : Nat :=
  match s.slotRec k with
  | some r => r.whole
  | none => mget 0 s.recd.torn k

/-- The header's 480 bits below its crc. -/
def State.headerBits (s : State) : Nat :=
  let r := s.recd
  0x52454331 + 2 ^ 32 + (if r.rebuilt then 2 ^ 48 else 0) + 2 ^ 64 * (r.nextSeq % 2 ^ 64) + 2 ^ 128 * r.lastSlot.getD 0xFFFF + 2 ^ 160 * r.slots.length
    + 2 ^ 192 * r.drops + 2 ^ 224 * r.merges + 2 ^ 256 * r.replacements + 2 ^ 288 * r.crcFails
    + 2 ^ 320 * (r.boots % 2 ^ 32) + 2 ^ 352 * (r.headSeq % 2 ^ 32)

/-- The recorder header, with its crc. -/
def State.recHeader (s : State) : Nat := s.headerBits + 2 ^ 480 * crc32c (leBytes 60 s.headerBits)

/-! ### Storing (R563) -/

/-- The header as the present fields give it. -/
def Recorder.head (x : Recorder) : RecHead :=
  { rebuilt := x.rebuilt, nextSeq := x.nextSeq, lastSlot := x.lastSlot, drops := x.drops, merges := x.merges,
    replacements := x.replacements, crcFails := x.crcFails, boots := x.boots, headSeq := x.headSeq }

/-- The header fields taken from a copy. -/
def Recorder.withHead (x : Recorder) (h : RecHead) : Recorder :=
  { x with
    rebuilt := h.rebuilt
    nextSeq := h.nextSeq
    lastSlot := h.lastSlot
    drops := h.drops
    merges := h.merges
    replacements := h.replacements
    crcFails := h.crcFails
    boots := h.boots
    headSeq := h.headSeq }

/-- Copy header_seq mod 2 of the header block becomes `h` (R564). -/
def Recorder.setCopy (x : Recorder) (h : Option RecHead) : Recorder :=
  if x.headSeq % 2 = 0 then { x with head0 := h } else { x with head1 := h }

/-- The header is written (R564). -/
def Recorder.writeHead (x : Recorder) : Recorder := x.setCopy (some x.head)

/-- The slot with the largest seq, with that seq (R564). -/
def newestSlot : SMap (Option RecRec) → Option (Nat × Nat)
  | [] => none
  | (_, none) :: m => newestSlot m
  | (k, some r) :: m => match newestSlot m with
    | some b => some (if r.seq < b.2 then b else (k, r.seq))
    | none => some (k, r.seq)

/-- The header rebuilt from the slots (R564): every counter is 0. -/
def Recorder.rebuild (x : Recorder) : Recorder :=
  let b := newestSlot x.slots
  x.withHead { rebuilt := true, lastSlot := b.map Prod.fst, nextSeq := match b with
    | some b => b.2 + 1
    | none => 0 }

/-- The valid header copy with the higher header_seq is taken; with none, the header is rebuilt (R564). -/
def Recorder.chooseHead (x : Recorder) : Recorder :=
  match x.head0, x.head1 with
  | some a, some b => x.withHead (if a.headSeq < b.headSeq then b else a)
  | some a, none => x.withHead a
  | none, some b => x.withHead b
  | none, none => x.rebuild

/-- A 32-bit count that saturates. -/
def satInc (n : Nat) : Nat := min (n + 1) (2 ^ 32 - 1)

/-- Two records have one key (R561). -/
def RecRec.sameKey (a b : RecRec) : Bool := a.type == b.type && a.source == b.source && a.key == b.key

/-- The payload after a merge: a calibration record's last_window is the latest (R562); no other type names a latest
field. It lies in bits 191:160 of the payload (log entry 24). -/
def latestPayload (r rec : RecRec) : Nat :=
  if r.type = 11 then r.payload % 2 ^ 160 + 2 ^ 160 * (rec.payload % 2 ^ 32) + 2 ^ 192 * (r.payload / 2 ^ 192)
  else r.payload

/-- Record `r` after `rec` merges into it. -/
def RecRec.merge (r rec : RecRec) : RecRec :=
  { r with repeats := min (r.repeats + 1) 65535, last := rec.first, payload := latestPayload r rec }

/-- Of two valid slots, the one to replace first: least severity, then smallest seq. -/
def olderSlot (a b : Nat × RecRec) : Nat × RecRec :=
  if severity b.2.type < severity a.2.type ∨ (severity b.2.type = severity a.2.type ∧ b.2.seq < a.2.seq) then b else a

/-- The slot a record of severity `v` replaces, if any. -/
def victim (v : Nat) : SMap (Option RecRec) → Option (Nat × RecRec)
  | [] => none
  | (k, some r) :: m =>
    if severity r.type ≤ v then some (match victim v m with | some b => olderSlot (k, r) b | none => (k, r))
    else victim v m
  | (_, none) :: m => victim v m

/-- The lowest-numbered slot that is not valid: the slots listed are the valid ones, in order. -/
def firstFree : Nat → SMap (Option RecRec) → Option Nat
  | k, [] => if k < recSlots then some k else none
  | k, e :: m => if e.1 = k then firstFree (k + 1) m else some k

/-- Writes `r` to slot `k`, which becomes the slot last written. -/
def Recorder.putRec (x : Recorder) (k : Nat) (r : RecRec) : Recorder :=
  { x with slots := mset none x.slots k (some r), torn := mset 0 x.torn k 0, lastSlot := some k }

/-- A new record in slot `k`. -/
def Recorder.newRec (x : Recorder) (k : Nat) (r : RecRec) : Recorder :=
  { x.putRec k { r with seq := x.nextSeq, repeats := 0, last := r.first } with nextSeq := x.nextSeq + 1 }

/-- The record that `rec` merges into, with its slot. -/
def Recorder.mergesInto (x : Recorder) (rec : RecRec) : Option (Nat × RecRec) :=
  match x.lastSlot with
  | none => none
  | some k => match mget none x.slots k with
    | some r => if r.sameKey rec then some (k, r) else none
    | none => none

/-- The slot that storing `rec` writes, if any. -/
def Recorder.target (x : Recorder) (rec : RecRec) : Option Nat :=
  match x.mergesInto rec with
  | some e => some e.1
  | none => match firstFree 0 x.slots with
    | some k => some k
    | none => (victim (severity rec.type) x.slots).map Prod.fst

/-- `store(rec)` of R563 with the header write of R564. -/
def Recorder.store (x : Recorder) (rec : RecRec) : Recorder :=
  let x := { x with headSeq := x.headSeq + 1 }
  (match x.mergesInto rec with
  | some e => { x.putRec e.1 (e.2.merge rec) with merges := satInc x.merges }
  | none => match firstFree 0 x.slots with
    | some k => x.newRec k rec
    | none => match victim (severity rec.type) x.slots with
      | some e => { x.newRec e.1 rec with replacements := satInc x.replacements }
      | none => { x with drops := satInc x.drops }).writeHead

/-- Attestation Control. -/
def kAtt : Nat := key 0x3160 2

/-- RECORDER_OPERATION (R560, R563): the oldest waiting operation is stored. Those that wait stay while a report's digest
is taken (R578). -/
def execRecorderOperation (s : State) : Host.Outcome State Fault Refusal :=
  match s.recd.backlog with
  | [] => .next s
  | r :: rs =>
    if s.fld kAtt att_state = 1 then .next s
    else .next { s with recd := { s.recd with backlog := rs }.store r }

/-- A full reset meets the operation under way. Where is free: before its write, in the write of its slot, which then
fails its crc and holds what it may, or in the write of the header copy, which then fails its crc (R564, log entry 25).
Operations that waited are gone. -/
def State.tearRecorder (s : State) : State :=
  match s.recd.backlog with
  | [] => s
  | r :: _ =>
    let f := s.fresh 2
    let s := { f.2 with recd := { f.2.recd with backlog := [] } }
    match s.recd.target r with
    | none => s
    | some k =>
      if f.1 = 0 then s
      else if f.1 = 1 then { s with recd := (s.recd.store r).setCopy none }
      else
        let w := s.fresh 2048
        { w.2 with recd := { w.2.recd with slots := mset none w.2.recd.slots k none, torn := mset 0 w.2.recd.torn k w.1 } }

/-- No interval is open, and nothing of one is held (R569). -/
def Recorder.closed (x : Recorder) : Recorder :=
  { x with interval := 0, openAt := none, sens := [], rails := [], power := 0, fom := [] }

/-- What the harbourmaster does to the recorder at step 7 (R564, R569): a header is taken, failing slots count, boot_count
advances, the header is written, an interval opens. -/
def State.bootRecorder (s : State) : State :=
  let x := s.recd.chooseHead
  { s with recd := { ({ x with
    crcFails := min (x.crcFails + x.torn.length) (2 ^ 32 - 1)
    boots := x.boots + 1
    headSeq := x.headSeq + 1 } : Recorder).writeHead.closed with openAt := some s.now } }

/-! ### Snapshots (R568) -/

/-- Recorder Slot written over CAN FD or over BAR0: a snapshot of the slot. -/
def State.snapshot (s : State) (can : Bool) (slot : Nat) : State :=
  let s := s.setEnt (key 0x3100 2) slot
  if can then { s with recd := { s.recd with snapCan := s.slotWord slot } }
  else { s with recd := { s.recd with snapBar := s.slotWord slot } }

/-- Chunk offset of a path. -/
def State.setChunk (s : State) (can : Bool) (off : Nat) : State :=
  let s := s.setEnt (key 0x3100 5) off
  if can then { s with recd := { s.recd with offCan := off } } else { s with recd := { s.recd with offBar := off } }

/-- The snapshot and offset a path reads. -/
def State.snapOf (s : State) (can : Bool) : Nat × Nat :=
  if can then (s.recd.snapCan, s.recd.offCan) else (s.recd.snapBar, s.recd.offBar)

/-! ### Summary intervals (R562, R569) -/

/-- Record 14: per rail least and largest µV and largest mA, 96 bits each, then the largest module power. -/
def State.supplyExtremes (s : State) : Nat :=
  (List.range 5).foldl (fun v r =>
    let x := (mget none s.recd.rails r).getD (0, 0, 0)
    v + 2 ^ (96 * r) * (x.1 % 2 ^ 32 + 2 ^ 32 * (x.2.1 % 2 ^ 32) + 2 ^ 64 * (x.2.2 % 2 ^ 32))) 0
    + 2 ^ 480 * (s.recd.power % 2 ^ 32)

/-- Record 13 of a class and group: least and largest m°C of its 16 instances, 64 bits each. -/
def State.thermalExtremes (s : State) (cls grp : Nat) : Nat :=
  (List.range 16).foldl (fun v i =>
    let x := (mget none s.recd.sens (4096 * cls + 16 * grp + i)).getD (0, 0)
    v + 2 ^ (64 * i) * (unsignedOf 32 x.1 + 2 ^ 32 * unsignedOf 32 x.2)) 0

/-- Record 15 of a lane's channel: 16 bins, then least and largest fom. -/
def State.fomExtremes (s : State) (e c : Nat) : Nat :=
  let b := (64 * e + c) * 32
  (List.range 16).foldl (fun v i => v + 2 ^ (32 * i) * (mget 0 s.recd.fom (b + i) % 2 ^ 32)) 0
    + 2 ^ 512 * ((mget 0 s.recd.fom (b + 16) - 1) % 256) + 2 ^ 520 * ((mget 0 s.recd.fom (b + 17) - 1) % 256)

/-- The fom records of every active lane, in engine and channel order. -/
def State.fomRecords (s : State) (n : Nat) : State :=
  ((List.range 24).filter (engineOk s.grade)).foldl (fun s e => (List.range 34).foldl (fun s c =>
    if s.fld (kLstat e c) lstat_power_state_now = 0 ∧ (s.laneOfChan e c).isSome then
      s.record 15 (e + 2 ^ 8 * c + 2 ^ 16 * n) (s.fomExtremes e c) else s) s) s

/-- The margin records of every island and class that received tokens. The islands of a hub die share its histograms,
whose class tells them apart: score deliveries reach the ridge, 126, alone (R197). -/
def State.marginRecords (s : State) (n : Nat) : State :=
  ((List.range 104).filter (tileOk s.grade) ++ [124, 125, 126]).foldl (fun s i => (List.range 8).foldl (fun s c =>
    let h := s.ent (key (timingIdx i) (0x10 + c))
    if h = 0 ∨ (104 ≤ i ∧ ¬(c = 7 ↔ i = 126)) then s
    else s.record 16 (i + 2 ^ 8 * c + 2 ^ 16 * n) (h + 2 ^ 512 * s.fld (key (timingIdx i) 1) tstat_min_margin)) s) s

/-- SUMMARY_INTERVAL (R569): the open interval has lasted summary_interval_s of global time: its records are submitted and
the next one opens. -/
def execSummaryInterval (s : State) : Host.Outcome State Fault Refusal :=
  let len := s.ent (key 0x3100 4) * secUnits
  let began := s.recd.openAt.getD 0
  if s.rst.available ∧ s.recd.openAt.isSome ∧ began + len ≤ s.now then
    let n := s.recd.interval
    let s := s.record 14 n s.supplyExtremes
    let s := ([(1, 4), (2, 1), (3, 1), (4, 2), (5, 3), (6, 1)].flatMap (fun x => (List.range x.2).map (fun g => (x.1, g)))
      |>.filter (fun x => (List.range 16).any (fun i => (mget none s.recd.sens (4096 * x.1 + 16 * x.2 + i)).isSome))).foldl
      (fun s x => s.record 13 (x.1 + 2 ^ 8 * x.2 + 2 ^ 16 * n) (s.thermalExtremes x.1 x.2)) s
    let s := (s.fomRecords n).marginRecords n
    .next { s with recd := { s.recd with
      interval := n + 1
      openAt := some (began + len)
      sens := []
      rails := []
      power := 0
      fom := [] } }
  else .next s

end Sys2Proof.Machine
end

