-- ==== Sys2Proof/Machine/ImageCheck.lean ====
section
/-! DEFINITION. The checks of step 7 of a load (R182, R254, R255, R259, R265, R364): tide tables, eaves tables, programs
word by word and by their walk through the period, and region tables. A failure is the fault that the Load Fault Report
carries. -/

namespace Sys2Proof.Machine

/-! ### Program words (R202 to R255) -/

/-- What is wrong with a word's own fields: reserved bits, a reserved code, invalid operands. -/
structure WordErr where
  rsvd : Bool := false
  code : Bool := false
  ops  : Bool := false
deriving DecidableEq, Repr

/-- A word whose reserved bits are its lowest `n`. -/
def low (w n : Nat) : WordErr := { rsvd := bits w 0 n != 0 }

/-- Reserved fields of MAC and CMAC under their source, with the word's `n` low reserved bits (R214). DESIGN CHOICE (log
entry 79): a slice above 1 of a tide word is an invalid operand. -/
def macErr (w n : Nat) : WordErr :=
  let src := bits w 36 3
  { rsvd := bits w 0 n != 0 || (if src = 0 then bits w 27 9 != 0 else if src = 1 then bits w 27 4 != 0
      else bits w 31 5 != 0)
    code := decide (4 < src)
    ops := src == 2 && decide (2 ≤ bits w 27 4) }

/-- An operand of AADD or AMAX (R226). -/
def alnErr (o : Nat) : WordErr :=
  if bits o 20 1 = 0 then { rsvd := bits o 0 18 != 0 }
  else { ops := bits o 8 2 == 2 && decide (15 < bits o 0 8) }

/-- Both operands of AADD or AMAX. -/
def aluErr (w : Nat) : WordErr :=
  let x := alnErr (bits w 24 21)
  let y := alnErr (bits w 3 21)
  { rsvd := bits w 0 3 != 0 || x.rsvd || y.rsvd, ops := x.ops || y.ops }

/-- The word of a control or scalar opcode (R233 to R235, R245 to R252); `f` is the job's F. -/
def controlErr (op w f : Nat) : Option WordErr :=
  match op with
  | 0x01 => some (low w 32)
  | 0x02 => some { rsvd := bits w 0 41 != 0, ops := decide (f ≤ bits w 41 11) }
  | 0x03 => some (low w 26)
  | 0x04 => some (low w 52)
  | 0x05 => some { rsvd := bits w 0 35 != 0 || (bits w 43 1 == 0 && bits w 38 5 != 0) }
  | 0x06 =>
    let src := bits w 50 2
    some { rsvd := bits w 0 5 != 0 || (src == 1 && bits w 30 20 != 0) || (src == 0 && bits w 25 5 != 0)
           code := decide (1 < src) || bits w 23 2 == 3
           ops := src == 1 && bits w 23 2 != 2 }
  | 0x07 => some (low w 46)
  | 0x18 => some (low w 10)
  | 0x19 => some (low w 15)
  | 0x1A => some { rsvd := bits w 0 36 != 0, code := decide (5 < bits w 46 3) }
  | 0x1B => some { rsvd := bits w 0 9 != 0, code := decide (5 < bits w 46 3) }
  | 0x1C => some (low w 41)
  | 0x1D => some (low w 23)
  | 0x1E => some { rsvd := bits w 0 13 != 0 || (if bits w 43 1 = 0 then bits w 38 5 != 0 else bits w 13 25 != 0) }
  | 0x1F => some (low w 42)
  | 0x20 => some (low w 27)
  | 0x21 => some (low w 27)
  | _ => if 0x10 ≤ op ∧ op < 0x18 then some (low w 37) else none

/-- The word of a mover opcode (R216, R237 to R242); a slice above 1 of a tide word as in MAC (log entry 79). -/
def moverErr (op w : Nat) : Option WordErr :=
  match op with
  | 0x30 =>
    let src := bits w 49 3
    some { rsvd := bits w 0 24 != 0 ||
             (if src = 1 then bits w 40 4 != 0 else bits w 45 4 != 0 || bits w 44 1 != 0 || bits w 24 16 != 0)
           code := src == 0 || decide (4 < src)
           ops := src == 2 && decide (2 ≤ bits w 40 4) }
  | 0x31 => some (low w 43)
  | 0x32 => some (low w 43)
  | 0x33 => some (low w 47)
  | 0x34 => some (low w 47)
  | 0x35 => some { rsvd := bits w 0 34 != 0 || (bits w 42 1 == 0 && bits w 34 8 != 0) }
  | 0x36 => some (low w 30)
  | 0x37 => some (low w 47)
  | 0x38 => some { rsvd := bits w 0 49 != 0, code := bits w 49 2 == 3 }
  | 0x39 => some { rsvd := bits w 0 32 != 0, code := bits w 49 2 == 3 }
  | 0x3A => some (low w 47)
  | _ => none

/-- The word of an array or post opcode (R211 to R228). -/
def computeErr (op w : Nat) : Option WordErr :=
  match op with
  | 0x50 => some { rsvd := bits w 0 29 != 0,
                   ops := decide (1024 < 32 * (bits w 43 5 + bits w 38 5 + 1)) || (bits w 37 1 == 1 && bits w 29 8 != 0) }
  | 0x51 => some (low w 52)
  | 0x52 => some (macErr w 27)
  | 0x53 => some (macErr w 10)
  | 0x60 => some (low w 41)
  | 0x61 => some (low w 40)
  | 0x62 => some (low w 29)
  | 0x63 => some { rsvd := bits w 0 1 != 0, code := bits w 49 2 == 3, ops := bits w 26 15 == 0 }
  | 0x64 =>
    let fmt := bits w 11 3
    some { code := decide (4 < fmt),
           ops := (bits w 34 1 == 1 && bits w 29 5 != 0) || (bits w 2 1 == 1 && fmt == 4) ||
             (bits w 2 1 == 0 && bits w 0 2 != 0) || (fmt == 2 && decide (15 < bits w 3 8)) }
  | 0x65 => some (low w 46)
  | 0x66 => some { rsvd := bits w 0 33 != 0, ops := bits w 35 2 / 2 != bits w 33 2 / 2 }
  | 0x67 => some (aluErr w)
  | 0x68 => some (aluErr w)
  | 0x69 => some { rsvd := bits w 0 20 != 0, ops := bits w 28 2 == 2 && decide (15 < bits w 20 8) }
  | _ => none

/-- The fields of a word; none for a reserved opcode (R203, R204, R229). -/
def wordErr (w f : Nat) : Option WordErr :=
  match controlErr (opcodeOf w) w f with
  | some e => some e
  | none => match moverErr (opcodeOf w) w with
    | some e => some e
    | none => computeErr (opcodeOf w) w

/-- A LOOP at address `a`: its body is the words `a + 1` to `a + loopLen w`. -/
def loopLen (w : Nat) : Nat := bits w 26 14 + 1

/-- The LOOPs of a program with their last body address. -/
def loopsOf (prog : List Nat) : List (Nat × Nat) :=
  (prog.zipIdx.filter (fun e => opcodeOf e.1 == 3)).map (fun e => (e.2, e.2 + loopLen e.1))

/-- A LOOP at `a` whose body ends at `b` breaks R246. -/
def loopBroken (prog : List Nat) (a b : Nat) : Bool :=
  let around := (loopsOf prog).filter (fun l => decide (l.1 < a) && decide (a ≤ l.2))
  decide (prog.length ≤ b) || around.any (fun l => decide (l.2 < b)) || decide (4 ≤ around.length) ||
    ((prog.drop (a + 1)).take (b - a)).any (fun w => opcodeOf w == 4)

/-- The lowest cause of R255 that the word at address `a` breaks. -/
def wordCause (prog : List Nat) (f a w : Nat) : Option Nat :=
  match wordErr w f with
  | none => some 1
  | some e =>
    let op := opcodeOf w
    if e.rsvd then some 2
    else if e.code then some 3
    else if e.ops then some 4
    else if op == 3 && loopBroken prog a (a + loopLen w) then some 5
    else if 1 ≤ op ∧ op ≤ 4 ∧ bits w 52 4 ≠ 0 then some 6
    else none

/-- The first word that breaks a rule, with the layers named so far (R254, R255). -/
def firstBad (prog : List Nat) (f : Nat) : List (Nat × Nat) → List Nat → Option (Nat × Nat)
  | [], _ => none
  | (w, a) :: ws, layers =>
    match wordCause prog f a w with
    | some c => some (c, a)
    | none =>
      if opcodeOf w = 0x63 then
        let l := bits w 18 8
        if layers.contains l then firstBad prog f ws layers
        else if 32 ≤ layers.length then some (11, a)
        else firstBad prog f ws (l :: layers)
      else firstBad prog f ws layers

/-- Issue clk that a word other than LOOP fills at clk `t` of the period (R245, R254). -/
def wordClks (w t f : Nat) : Nat :=
  match opcodeOf w with
  | 1 => bits w 32 20 + 1
  | 2 => (((bits w 41 11 : Int) - t - 1) % f).toNat + 1
  | _ => 1

/-- The walk of R254: none when the period is filled, else the address of period_count. The first argument bounds the
steps; a program whose words pass walks at most four LOOPs for each clk. -/
def walk (prog : List Nat) (p f : Nat) : Nat → List (Nat × Nat × Nat) → Nat → Nat → Option Nat
  | 0, _, pc, _ => some pc
  | n + 1, loops, pc, t =>
    match prog[pc]? with
    | none => if t = p then none else some (prog.length - 1)
    | some w =>
      if opcodeOf w = 3 then walk prog p f n ((pc + 1, pc + 1 + loopLen w, bits w 40 12) :: loops) (pc + 1) t
      else if opcodeOf w = 4 then (if t + 1 ≤ p then none else some pc)
      else
        let t' := t + wordClks w t f
        if p < t' then some pc
        else
          let r := loopStep loops (pc + 1)
          walk prog p f n r.1 r.2 t'

/-- The cause and address of a program that may not load (R254, R255). -/
def programFault (prog : List Nat) (p f : Nat) : Option (Nat × Nat) :=
  match firstBad prog f prog.zipIdx [] with
  | some e => some e
  | none => (walk prog p f (5 * p + 8) [] 0 0).map (fun a => (7, a))

/-- The program of tile `t` as written. -/
def State.programOf (s : State) (t : Nat) : List Nat := mrange 0 s.net.prog (16384 * t) (mget 0 s.net.plen t)

/-! ### Tables (R182, R259, R265) -/

/-- A tide entry at index `j` breaks R182: cause 4 reserved_slot or 5 encoding. -/
def tideCause (j e : Nat) : Option Nat :=
  let sel := fun (o : Nat) => bits e (3 * o) 3
  if (j % 64 == 63 && e != 0x8000) || (j % 64 != 63 && bit e 15) then some 4
  else if (List.range 5).any (fun o => decide (5 < sel o) || sel o == o + 1) then some 5
  else none

/-- The first entry of a table of `n` that breaks its rule. -/
def firstEntry (chk : Nat → Option Nat) : Nat → Nat → Option (Nat × Nat)
  | 0, _ => none
  | n + 1, j => match chk j with | some c => some (c, j) | none => firstEntry chk n (j + 1)

/-- Two used regions meet, or share a tag while one has tw set (R259). -/
def regionClash (a b : Nat) : Bool :=
  let used := fun (e : Nat) => reg_size.of e != 0
  used a && used b &&
    (meets (reg_base.of a) (reg_size.of a) (reg_base.of b) (reg_size.of b) ||
      (reg_tag.of a == reg_tag.of b && (reg_tw.of a == 1 || reg_tw.of b == 1)))

/-- Region entry `i` of tile `t` breaks R259; of two that clash, the later one. -/
def State.regionBad (s : State) (t i : Nat) : Bool :=
  let e := fun (i : Nat) => s.ent (key (0x2700 + t) (0x10 + i))
  decide (393216 < reg_base.of (e i) + reg_size.of (e i)) || decide (s.P ≤ reg_lock_first.of (e i)) ||
    decide (s.P ≤ reg_lock_last.of (e i)) || decide (2 ^ 82 ≤ e i) ||
    (List.range i).any (fun k => regionClash (e k) (e i))

/-- A step-7 fault of tile `t` (R364). -/
def State.tableFault (s : State) (fam cause t paddr detail : Nat) : FaultRec :=
  { family := fam, cause := cause, loc := loc 1 t, paddr := paddr, vrow := s.vrow t, vcol := s.vcol t, detail := detail }

/-- The first failure among the tiles that hold a virtual tile, in order of physical tile. -/
def State.overTiles (s : State) (f : Nat → Option FaultRec) : Option FaultRec :=
  ((List.range 104).filter s.placed).findSome? f

/-- Step 7 of R364. -/
def State.tablesFault (s : State) : Option FaultRec :=
  let tide := s.overTiles (fun t =>
    (firstEntry (fun j => tideCause j (mget 0 s.net.tide (65536 * t + j))) s.P 0).map
      (fun e => s.tableFault 1 e.1 t 0x7FFF (2 ^ 16 * e.2)))
  let eaves := ((List.range 40).filter (eavesOk s.grade)).findSome? (fun k =>
    (firstEntry (fun j => if j % 64 = 63 ∧ mget 0 s.net.eaves (65536 * k + j) ≠ 0 then some 4 else none) s.P 0).map
      (fun e => ({ family := 1, cause := 4, loc := loc 9 k, detail := 2 ^ 16 * e.2 } : FaultRec)))
  let progs := s.overTiles (fun t =>
    if mget 0 s.net.plen t = 0 ∧ !s.net.coded.contains t then none
    else (programFault (s.programOf t) s.P s.F).map (fun e => s.tableFault 6 e.1 t e.2 0))
  let regions := s.overTiles (fun t =>
    ((List.range 64).find? (s.regionBad t)).map (fun i => s.tableFault 4 4 t 0x7FFF (2 ^ 32 * i)))
  match tide with
  | some e => some e
  | none => match eaves with
    | some e => some e
    | none => match progs with
      | some e => some e
      | none => regions

end Sys2Proof.Machine
end

