-- ==== Sys2Proof/Machine/Image.lean ====
section
/-! DEFINITION. The job image and its load (R356 to R374): the image's header and sections as bytes of the library
partition, steps 1 to 8 of R364 in order, the report of the step that fails, and what a load leaves. -/

namespace Sys2Proof.Machine

/-! ### Failures (R364, R374) -/

/-- How a step fails: an image fault of steps 1 to 6 or 8, or a step-7 report. -/
inductive LoadFail where
  | image (cause step sect detail : Nat)
  | table (f : FaultRec)
deriving DecidableEq, Repr

/-- A format failure of a step, naming a section (0 for none). -/
def badFormat (step sect : Nat) : LoadFail := .image 3 step sect sect

/-- `.ok` when the check holds. -/
def must (b : Bool) (e : LoadFail) : Except LoadFail Unit := if b then .ok () else .error e

/-! ### The image as bytes (R358, R359) -/

/-- Bytes `off` to `off + n - 1` of an image. -/
def imgSlice (img : List Nat) (off n : Nat) : List Nat := (img.drop off).take n

/-- The little-endian number of `n` bytes at `off`. -/
def natAt (img : List Nat) (off n : Nat) : Nat := leNat (imgSlice img off n)

/-- A section table entry. -/
structure Section where
  typ : Nat
  vrow : Nat
  vcol : Nat
  index : Nat
  off : Nat
  len : Nat
  rsvd : Nat
deriving DecidableEq, Repr

/-- Entry `i` of the section table. -/
def sectionAt (img : List Nat) (i : Nat) : Section :=
  let v := natAt img (128 + 16 * i) 16
  { typ := bits v 0 8, vrow := bits v 8 4, vcol := bits v 12 4, index := bits v 16 16, off := bits v 32 32,
    len := bits v 64 32, rsvd := bits v 96 32 }

/-- section_count. -/
def sectionCount (img : List Nat) : Nat := natAt img 12 2

/-- The section table. -/
def sectionsOf (img : List Nat) : List Section := (List.range (sectionCount img)).map (sectionAt img)

/-- The bytes of a section. -/
def Section.bytes (img : List Nat) (x : Section) : List Nat := imgSlice img x.off x.len

/-- The grade an image names: the FQT-7620, or else the FQT-7640. -/
def imageGrade (img : List Nat) : Grade := if natAt img 6 2 = 0x7620 then .fqt7620 else .fqt7640

/-- P of an image. -/
def imageP (img : List Nat) : Nat := natAt img 16 2 + 1

/-- F of an image. -/
def imageF (img : List Nat) : Nat := bits (natAt img 16 8) 29 11

/-- k of an image. -/
def imageK (img : List Nat) : Nat := bits (natAt img 16 8) 16 13

/-- C of an image. -/
def imageC (img : List Nat) : Nat := bits (natAt img 16 8) 40 10

/-- named_rate of an image. -/
def imageRate (img : List Nat) : Nat := bits (natAt img 16 8) 60 2

/-- window_partition of an image. -/
def imageWindow (img : List Nat) : Bool := bits (natAt img 16 8) 62 1 == 1

/-- job_area_bytes of hub die `d`. -/
def imageArea (img : List Nat) (d : Nat) : Nat := natAt img (44 + 5 * d) 5

/-! ### Step 1 (R363, R364, R577) -/

/-- Image Library Address. -/
def kLib : Nat := key 0x2C20 1

/-- The image in the library partition (R373). -/
def State.locate (s : State) : Except LoadFail (List Nat) :=
  let a := s.ent kLib
  let base := s.ent (key 0x27E0 3)
  let top := base + s.ent (key 0x27E0 4)
  let n := leNat (s.ddrRead (a + 8) 4)
  if base ≤ a ∧ a + 128 ≤ top ∧ leNat (s.ddrRead a 4) = 0x46494D47 ∧ 128 ≤ n ∧ a + n ≤ top then .ok (s.ddrRead a n)
  else .error (badFormat 1 0)

/-- The signature section is the table's last (R359, R363). -/
def signatureOf (img : List Nat) : Option Section :=
  let x := sectionAt img (sectionCount img - 1)
  if x.typ = 15 ∧ x.len = 7860 ∧ x.off + x.len ≤ img.length then some x else none

/-- Digest of an image: every byte before its signature section. -/
def imageDigest (img : List Nat) : Nat :=
  match signatureOf img with
  | some x => sha256Nat (img.take x.off)
  | none => 0

/-- A list of bytes as bytes. -/
def toBytes (l : List Nat) : List Byte := l.map (BitVec.ofNat 8)

/-- The signature names an active owner slot and is valid, and rollback_version is not below image_floor. -/
def State.authentic (s : State) (img : List Nat) : Except LoadFail Unit :=
  match signatureOf img with
  | none => .error (.image 1 1 0 0)
  | some x =>
    let k := natAt img x.off 4
    if 4 ≤ k ∨ s.ent (key (0x3120 + k) 1) ≠ 1 then .error (.image 1 1 0 0)
    else if !Config.signatureValid (s.ent (key (0x3120 + k) 2)) (toBytes (sha256 (img.take x.off)))
        (toBytes (imgSlice img (x.off + 4) 7856)) then .error (.image 1 1 0 0)
    else must (decide (s.ent (key 0x3130 1) % 2 ^ 32 ≤ natAt img 40 4)) (.image 2 1 0 0)

/-! ### Step 2 (R176, R358 to R362) -/

/-- The header obeys R176 and R358. -/
def headerOk (img : List Nat) : Bool :=
  natAt img 4 2 == 1 && natAt img 14 2 == 0 && bits (natAt img 16 8) 63 1 == 0 && natAt img 26 6 == 0 &&
    natAt img 54 74 == 0 && decide (1 ≤ sectionCount img) && decide (sectionCount img ≤ 4096) &&
    decide (64 ≤ imageP img) && decide (10 ≤ imageF img) && decide (imageF img ≤ 1250) &&
    imageP img == imageK img * imageF img && imageArea img 0 % 4096 == 0 && imageArea img 1 % 4096 == 0

/-- A section type that belongs to a tile. -/
def ofTile (typ : Nat) : Bool := [1, 2, 4, 5, 6, 7, 8].contains typ

/-- Place and index of a section suit its type. -/
def Section.placeOk (g : Grade) (x : Section) : Bool :=
  (if ofTile x.typ then decide (x.vrow < 8) && decide (x.vcol < vcols g) else x.vrow == 15 && x.vcol == 15) &&
    (match x.typ with
     | 3 => eavesOk g x.index
     | 7 => decide (x.index < 2)
     | 8 => decide (x.index < 4)
     | 9 => decide (x.index < 2)
     | _ => x.index == 0)

/-- A span section of entries of `w` bytes (R361). -/
def tableSpanOk (b : List Nat) (w p : Nat) : Bool :=
  decide (4 ≤ b.length) && natAt b 0 2 % 64 == 0 && decide (natAt b 0 2 < p) && decide (natAt b 2 2 + 1 ≤ p) &&
    b.length == 4 + (natAt b 2 2 + 1) * w

/-- One dictionary write of a settings section: index, subindex, length, value (R360). -/
structure Setting where
  idx : Nat
  sub : Nat
  len : Nat
  val : Nat
deriving DecidableEq, Repr

/-- The writes of a settings section, each padded to 8 bytes; none when the bytes do not divide so. The first argument
bounds their number. -/
def settingsOf : Nat → List Nat → Option (List Setting)
  | 0, _ => none
  | n + 1, b =>
    if b.isEmpty then some []
    else
      let l := natAt b 3 1
      let sz := (4 + l + 7) / 8 * 8
      if b.length < sz then none
      else (settingsOf n (b.drop sz)).map (fun r => { idx := natAt b 0 2, sub := natAt b 2 1, len := l, val := natAt b 4 l } :: r)

/-- Length and layout of a section of its type (R360 to R362). -/
def Section.layoutOk (img : List Nat) (x : Section) : Bool :=
  let b := x.bytes img
  match x.typ with
  | 1 => decide (x.len ≤ 131072) && x.len % 8 == 0
  | 2 => tableSpanOk b 2 (imageP img)
  | 3 => tableSpanOk b 1 (imageP img)
  | 4 => x.len == 1024
  | 5 => decide (4 ≤ x.len) && decide (natAt b 0 4 + (x.len - 4) ≤ 25165824)
  | 6 => x.len == 192
  | 7 => x.len == 33792
  | 8 => x.len == 256
  | 9 => decide (8 ≤ x.len)
  | 10 => (settingsOf (x.len + 1) b).isSome
  | 11 => x.len % 16 == 0
  | 12 => x.len == 8 * vcols (imageGrade img) && b.all (fun v => decide (v < 3))
  | 15 => x.len == 7860
  | _ => false

/-- The order of R359. -/
def Section.rank (x : Section) : Nat := 2 ^ 24 * x.typ + 2 ^ 20 * x.vrow + 2 ^ 16 * x.vcol + x.index

/-- Section types of which a place may have one only. -/
def single (typ : Nat) : Bool := !([5, 9, 10, 11].contains typ)

/-- Entry `i` of the table obeys R359 to R362; the last entry, and only it, is the signature. -/
def sectionOk (img : List Nat) (i : Nat) (x : Section) : Bool :=
  let n := sectionCount img
  let before := (sectionsOf img).take i
  x.rsvd == 0 && x.off % 64 == 0 && decide (128 + 16 * n ≤ x.off) && decide (x.off + x.len ≤ img.length) &&
    x.placeOk (imageGrade img) && x.layoutOk img && decide (x.typ = 15 ↔ i + 1 = n) &&
    before.all (fun y => decide (y.rank ≤ x.rank) && !(single x.typ && y.rank == x.rank) && !meets y.off y.len x.off x.len)

/-- The partition section, with its number in the table. -/
def partitionOf (img : List Nat) : Option (Section × Nat) := (sectionsOf img).zipIdx.find? (fun e => e.1.typ == 12)

/-- The partition section suits window_partition (R360). -/
def partitionOk (img : List Nat) : Bool :=
  match partitionOf img with
  | some e => (e.1.bytes img).contains 2 == imageWindow img
  | none => !imageWindow img

/-- Step 2 of R364. -/
def checkTable (img : List Nat) : Except LoadFail Unit := do
  must (headerOk img) (badFormat 2 0)
  must (decide (128 + 16 * sectionCount img ≤ img.length)) (badFormat 2 0)
  match (sectionsOf img).zipIdx.find? (fun e => !sectionOk img e.2 e.1) with
  | some e => .error (badFormat 2 e.2)
  | none =>
    let g := imageGrade img
    let has := fun (t : Nat) => ((sectionsOf img).filter (fun x => x.typ == t)).length
    must (has 2 == 8 * vcols g && has 3 == ((List.range 40).filter (eavesOk g)).length) (badFormat 2 0)
    must (partitionOk img) (badFormat 2 (((partitionOf img).map (fun e => e.2)).getD 0))

/-! ### Steps 3 and 4 (R365, R367) -/

/-- Product code of a grade. -/
def gradeCode : Grade → Nat
  | .fqt7640 => 0x7640
  | .fqt7620 => 0x7620

/-- Job Area Base of hub die `d`. -/
def State.areaBase (s : State) (d : Nat) : Nat := s.ent (key (0x2C10 + d) 1)

/-- The job area of hub die `d` obeys R367. -/
def State.areaOk (s : State) (img : List Nat) (d : Nat) : Bool :=
  let n := imageArea img d
  let a := s.areaBase d
  (n == 0 || bit s.job.areaWritten d) && decide (a + n ≤ 120000000000) &&
    !(meets a n (s.hbmMap d 1) (s.hbmMap d 2) || meets a n (s.hbmMap d 3) (s.hbmMap d 4) ||
      meets a n (s.hbmMap d 5) (s.hbmMap d 6))

/-- Step 4 of R364. -/
def State.checkAreas (s : State) (img : List Nat) : Except LoadFail Unit := do
  must (s.areaOk img 0 && s.areaOk img 1) (.image 5 4 0 0)
  match (sectionsOf img).zipIdx.find? (fun e => e.1.typ == 9 &&
      decide (imageArea img e.1.index < natAt img e.1.off 8 + (e.1.len - 8))) with
  | some e => .error (.image 5 4 e.2 0)
  | none => .ok ()

/-! ### Step 5 (R191, R361, R362, R366) -/

/-- Entries that a job load returns to their default (R435, class J). -/
def isJobClass (k : Nat) : Bool :=
  match findEntry (k / 256) (k % 256) entries with
  | some e => e.cls == Cls.job
  | none => false

/-- The fields that a job load returns to their default in an entry of another class: timing status (R187, R201),
calibration event counts (R169), tender counts (R287), the counters of the PTP ports and trigger inputs (R428). -/
def jobFlds (k : Nat) : List Fld :=
  let i := k / 256
  if k % 256 = 1 ∧ ((0x2610 ≤ i ∧ i < 0x2678) ∨ i = 0x26A0 ∨ i = 0x26A1) then
    [tstat_min_margin, tstat_min_class, tstat_margin_warns, tstat_unread_words]
  else if k % 256 = 7 ∧ 0x2400 ≤ i ∧ i < 0x2500 then
    [cstat_saturation_events, cstat_underuse_events, cstat_floor_events]
  else if k % 256 = 1 ∧ 0x27C0 ≤ i ∧ i < 0x27D0 then [tend_completed, tend_refusals]
  else if k % 256 = 2 ∧ 0x2E18 ≤ i ∧ i < 0x2E1A then [pst_rx_errors, pst_dropped]
  else if k % 256 = 2 ∧ 0x2E28 ≤ i ∧ i < 0x2E38 then [cnt48]
  else if k % 256 = 3 ∧ 0x2E28 ≤ i ∧ i < 0x2E38 then [cnt32]
  else []

/-- Class J entries at their defaults, and the fields of other entries that a job load clears. -/
def State.clearJobClass (s : State) : State :=
  let s := { s with dict := s.dict.filter (fun e => !isJobClass e.1) }
  s.dict.foldl (fun s e => (jobFlds e.1).foldl (fun s f => s.setFld e.1 f f.dflt) s) s

/-- Row map of row `r`. -/
def kRow (r : Nat) : Nat := key (0x2608 + r) 1

/-- Every pending retirement is applied (R200, R366, R546). -/
def State.retirePending (s : State) : State :=
  (List.range 8).foldl (fun s r =>
    if s.flag (kRow r) row_retire_pending then
      ((((s.setFld (kRow r) row_retired_column (s.fld (kRow r) row_pending_column)).setFlag (kRow r)
        row_retire_pending false).setFld (kRow r) row_pending_column 15).persist (kRow r)).newRetired r
    else s) s

/-- The tile grid at its job-load values (R205, R230, R362): tiles reset, SRAM and region tables cleared, no table.
DESIGN CHOICE (log entry 71): the virtual fields of a spare's status word read 0xFF as R143 says, though R142 says
that a spare's objects read 0. -/
def State.clearGrid (s : State) : State :=
  let s := { s with
    tiles := []
    mem := zeroRange s.mem 0 (104 * 2 ^ 25)
    net := { retired := s.net.retired, bg := s.net.bg, lastSlot := s.net.lastSlot }
    tend := { s.tend with badWords := [], badTabs := [] } }
  (List.range 104).foldl (fun s p =>
    let s := (s.setFld (key (0x2300 + p) 3) ast_virtual_row 255).setFld (key (0x2300 + p) 3) ast_virtual_column 255
    (List.range 64).foldl (fun s i => s.setEnt (key (0x2700 + p) (0x10 + i)) 0) s) s

/-- The spare records of row `r` when its retired column in force changes from `a` to `b` (R562). -/
def State.spareRecords (s : State) (r a b : Nat) : State :=
  let s := if a = b ∨ a = 15 then s else s.record 4 (2 + 2 ^ 8 * loc 1 (13 * r + a)) (r + 2 ^ 8 * a)
  if a = b ∨ b = 15 then s else s.record 4 (1 + 2 ^ 8 * loc 1 (13 * r + b)) (r + 2 ^ 8 * b)

/-- Every virtual tile takes its physical tile by R191. -/
def State.place (s : State) : State :=
  let s := (List.range 8).foldl (fun s r =>
    s.spareRecords r (s.net.retired.getD r 15) (s.fld (kRow r) row_retired_column)) s
  let s := { s with net := { s.net with retired := (List.range 8).map (fun r => s.fld (kRow r) row_retired_column) } }
  (List.range 8).foldl (fun s r => (List.range (vcols s.grade)).foldl (fun s v =>
    let k := key (0x2300 + s.ptile r v) 3
    (s.setFld k ast_virtual_row r).setFld k ast_virtual_column v) s) s

/-- A span written into a table of `p` entries at `key0`, `w` bytes an entry, with `fill` at reserved indices (R361). -/
def spanTable (m : SMap Nat) (key0 p w fill : Nat) (b : List Nat) : SMap Nat :=
  let origin := natAt b 0 2
  let n := natAt b 2 2 + 1
  (List.range p).foldl (fun m j =>
    let i := (j + p - origin) % p
    mset 0 m (key0 + j) (if i < n then natAt b (4 + i * w) w else if j % 64 = 63 then fill else 0)) m

/-- The initial registers of a tile (R362). -/
def initTile (t : Tile) (b : List Nat) : Tile :=
  let t := (List.range 31).foldl (fun (t : Tile) i => t.setS (i + 1) (natAt b (4 * i) 4)) t
  let t := (List.range 16).foldl (fun (t : Tile) i => t.setP i (natAt b (124 + 4 * i) 4)) t
  let f := natAt b 188 1
  let t := (List.range 7).foldl (fun (t : Tile) i => t.setF (i + 1) (bit f (i + 1))) t
  { t with active := f % 2 }

/-- A weight bank from its codes and zero points. -/
def initBank (b : List Nat) : SMap WLane :=
  msetList zeroLane [] 0 ((List.range 1024).map (fun l =>
    { codes := imgSlice b (32 * l) 32, zw := natAt b (32768 + l) 1 }))

/-- One section is written (R360). -/
def State.writeSection (s : State) (img : List Nat) (x : Section) : State :=
  let b := x.bytes img
  let t := s.ptile x.vrow x.vcol
  match x.typ with
  | 1 => { s with net := { s.net with
      prog := msetList 0 s.net.prog (16384 * t) ((List.range (x.len / 8)).map (fun i => natAt b (8 * i) 8))
      plen := mset 0 s.net.plen t (x.len / 8)
      coded := t :: s.net.coded } }
  | 2 => { s with net := { s.net with tide := spanTable s.net.tide (65536 * t) (imageP img) 2 0x8000 b } }
  | 3 => { s with net := { s.net with eaves := spanTable s.net.eaves (65536 * x.index) (imageP img) 1 0 b } }
  | 4 => (List.range 64).foldl (fun s i => s.setEnt (key (0x2700 + t) (0x10 + i)) (natAt b (16 * i) 16)) s
  | 5 => s.write (sramBase t + natAt b 0 4) (b.drop 4)
  | 6 => s.setTile t (initTile (s.tile t) b)
  | 7 => s.setTile t ((s.tile t).setBank x.index (initBank b))
  | 8 => s.setTile t { s.tile t with luts := msetList 0 (s.tile t).luts (256 * x.index) b }
  | 9 => s.rewrite (hbmBase x.index + s.areaBase x.index + natAt b 0 8) (b.drop 8)
  | _ => s

/-- Settings in order, up to the first refused one, which names its number and abort code (R364, cause 7). -/
def State.writeSettings (s : State) : List (Setting × Nat) → State × Option LoadFail
  | [] => (s, none)
  | (w, i) :: ws =>
    match s.settingWrite w.idx w.sub w.len w.val with
    | .error c => (s, some (.image 7 5 i c))
    | .ok s => s.writeSettings ws

/-- Every write of the image's settings sections, in table order. -/
def imageSettings (img : List Nat) : List Setting :=
  ((sectionsOf img).filter (fun x => x.typ == 10)).flatMap (fun x => (settingsOf (x.len + 1) (x.bytes img)).getD [])

/-- The partition of each physical tile (R32); without a partition section every tile is a stream tile. -/
def State.partitionTiles (s : State) (img : List Nat) : List Nat :=
  (List.range 104).map (fun p =>
    if s.placed p then
      (match partitionOf img with
       | some e => (e.1.bytes img).getD (vcols s.grade * s.vrow p + s.vcol p) 0
       | none => 1)
    else 0)

/-- What the header names takes its place in the dictionary and the job (R198, R315, R358, R373). -/
def State.takeHeader (s : State) (img : List Nat) : State :=
  let s := { s with job := { s.job with
    period := imageP img, fper := imageF img } }
  let s := (s.setFld (key 0x2600 1) sched_period_m1 (imageP img - 1)).setFld (key 0x2600 1) sched_frames_per_period
    (imageK img)
  let s := s.setFld (key 0x2800 1) dec_ridge_close (imageC img)
  let s := (s.setEnt kGridT (natAt img 24 2)).setEnt (key 0x2C00 1) (natAt img 32 8)
  (s.setEnt (key 0x2C10 2) (imageArea img 0)).setEnt (key 0x2C11 2) (imageArea img 1)

/-- Settings of the landing, the lane groups, the ring segments and the HBM map, which a restart leaves as they are, so that
ring writing never stops (R543): the objects of R111, the base and count of a ring segment, the map of R285. -/
def keptAtRestart (w : Setting) : Bool :=
  (decide (0x2200 ≤ w.idx) && decide (w.idx < 0x2300)) || (decide (0x2770 ≤ w.idx) && decide (w.idx < 0x2772)) ||
    (decide (0x2780 ≤ w.idx) && decide (w.idx < 0x2794) && decide (w.sub ≤ 2))

/-- Step 5 of R364: when a setting is refused, what was written before it stays (log entry 58). -/
def State.placeImage (s : State) (img : List Nat) (restart : Bool) : State × Option LoadFail :=
  let s := (s.clearJobClass.retirePending.clearGrid.place).takeHeader img
  let s := (sectionsOf img).foldl (fun s x => s.writeSection img x) s
  let s := { s with job := { s.job with partition := s.partitionTiles img } }
  s.writeSettings ((imageSettings img).zipIdx.filter (fun w => !(restart && keptAtRestart w.1)))

/-! ### Step 6 (R368) -/

/-- Base address and size of a patch base (R368). -/
def State.patchBase (s : State) (img : List Nat) (code : Nat) : Option (Nat × Nat) :=
  match code with
  | 1 => some (s.areaBase 0, imageArea img 0)
  | 2 => some (s.areaBase 1, imageArea img 1)
  | 3 => some (s.hbmMap 0 3, s.hbmMap 0 4)
  | 4 => some (s.hbmMap 1 3, s.hbmMap 1 4)
  | 5 => some (s.hbmMap 0 5, s.hbmMap 0 6)
  | 6 => some (s.hbmMap 1 5, s.hbmMap 1 6)
  | 7 => some (s.ent kLib, img.length)
  | _ => none

/-- The immediate field of a MOVI or ADDI word (R233). -/
def immFld (w : Nat) : Option Fld :=
  match opcodeOf w with
  | 0x19 => some { lo := 15, w := 32, acc := .rw }
  | 0x18 => some { lo := 10, w := 32, acc := .rw }
  | _ => none

/-- Word `a` of tile `t`'s program, when the program has it. -/
def State.progWord (s : State) (t a : Nat) : Option Nat :=
  if a < mget 0 s.net.plen t then some (mget 0 s.net.prog (16384 * t + a)) else none

/-- One record applied; none when it breaks R368. -/
def State.patch (s : State) (img : List Nat) (v : Nat) : Option State :=
  let vr := bits v 8 4
  let vc := bits v 12 4
  let t := s.ptile vr vc
  match s.patchBase img (bits v 4 4) with
  | none => none
  | some (base, size) =>
    if 8 ≤ vr ∨ vcols s.grade ≤ vc ∨ bits v 84 44 ≠ 0 then none
    else match bits v 0 4 with
    | 1 =>
      let a := bits v 16 25
      let f : Fld := { lo := bits v 69 9, w := bits v 78 6 + 1, acc := .rw }
      if a % 64 ≠ 0 ∨ 25165824 ≤ a ∨ 512 < f.lo + f.w ∨ bits v 41 28 ≠ 0 then none
      else
        let w := readNat s.mem (sramBase t + a) 64
        let n := f.of w + base
        if size ≤ f.of w ∨ 2 ^ f.w ≤ n then none else some (s.write (sramBase t + a) (leBytes 64 (f.put w n)))
    | 2 =>
      let lo := bits v 41 14
      let hi := bits v 55 14
      if bits v 16 25 ≠ 0 ∨ bits v 69 15 ≠ 0 then none
      else match s.progWord t lo, s.progWord t hi with
        | some wl, some wh =>
          (match immFld wl, immFld wh with
           | some fl, some fh =>
             let off := fh.of wh * 2 ^ 32 + fl.of wl
             let n := off + base
             if size ≤ off ∨ 2 ^ 64 ≤ n then none
             else
               let m := mset 0 s.net.prog (16384 * t + lo) (fl.put wl (n % 2 ^ 32))
               let wh' := mget 0 m (16384 * t + hi)
               some { s with net := { s.net with prog := mset 0 m (16384 * t + hi) (fh.put wh' (n / 2 ^ 32)) } }
           | _, _ => none)
        | _, _ => none
    | 3 =>
      let lo := bits v 41 5
      let hi := bits v 55 5
      if bits v 16 25 ≠ 0 ∨ bits v 46 9 ≠ 0 ∨ bits v 60 24 ≠ 0 then none
      else
        let x := s.tile t
        let off := x.sreg hi * 2 ^ 32 + x.sreg lo
        let n := off + base
        if size ≤ off ∨ 2 ^ 64 ≤ n then none else some (s.setTile t ((x.setS lo (n % 2 ^ 32)).setS hi (n / 2 ^ 32)))
    | _ => none

/-- Records in order; the first that breaks R368 is named. -/
def State.patchAll (s : State) (img : List Nat) : List (Nat × Nat) → Except LoadFail State
  | [] => .ok s
  | (v, i) :: vs =>
    match s.patch img v with
    | none => .error (.image 6 6 0 i)
    | some s => s.patchAll img vs

/-- Every patch record of the image. -/
def imagePatches (img : List Nat) : List Nat :=
  ((sectionsOf img).filter (fun x => x.typ == 11)).flatMap (fun x =>
    (List.range (x.len / 16)).map (fun i => natAt img (x.off + 16 * i) 16))

/-! ### Step 8 (R32, R300, R336) -/

/-- The quays whose slipway the job uses. DESIGN CHOICE (log entry 74): those that land, or those with a nonzero
Replay Count while replay is on; R586 does not say which a job uses. -/
def State.jobQuays (s : State) : List Nat :=
  (List.range 20).filter (fun q => quayOk s.grade q && (if s.replaying then decide (s.replayCount q ≠ 0) else s.landOn q))

/-- latency_min (R300) for a receive delay. -/
def State.latencyMin (s : State) (d : Nat) : Nat :=
  let m := s.fld (key 0x22F0 1) lndg_entry_margin
  let e := match s.jobQuays.map s.entryOffset with
    | [] => 0
    | x :: xs => xs.foldl min x
  max 240 (d + 16 + m + max (m - e) 1 + s.fld (key 0x2800 1) dec_ridge_close + 22)

/-- The neighbours that tile `t` sends to: by a tide slot, or by a rafter send of its program (R32). -/
def State.joins (s : State) (t : Nat) : List Nat :=
  let r := s.vrow t
  let v := s.vcol t
  let nb := fun (o : Nat) => match o with
    | 0 => if r = 0 then none else some (s.ptile (r - 1) v)
    | 1 => if v + 1 = vcols s.grade then none else some (s.ptile r (v + 1))
    | 2 => if r = 7 then none else some (s.ptile (r + 1) v)
    | _ => if v = 0 then none else some (s.ptile r (v - 1))
  let tide := (List.range 4).filter (fun o => (List.range s.P).any (fun j =>
    tideSel (mget 0 s.net.tide (65536 * t + j)) o != 0))
  let sends := (s.programOf t).filterMap (fun w =>
    if opcodeOf w = 0x31 then some (1 + bits w 51 1)
    else if opcodeOf w = 0x38 ∧ bits w 49 2 < 2 then some (1 + bits w 49 2) else none)
  (tide ++ sends).filterMap nb

/-- The first tile, in row-major order, whose slots or rafters join two partitions. -/
def State.partitionBad (s : State) : Option Nat :=
  let tiles := (List.range 8).flatMap (fun r => (List.range (vcols s.grade)).map (fun v => s.ptile r v))
  tiles.find? (fun t => (s.joins t).any (fun u => s.job.partition.getD u 0 != s.job.partition.getD t 0))

/-- Window parameters within the bounds of R336. -/
def State.windowOk (s : State) (img : List Nat) : Bool :=
  let k := kWslot
  let len := s.fld k wslot_slot_length
  if imageWindow img then
    decide (len ≠ 0) && s.P % len == 0 && decide (s.fld k wslot_verdict_offset ≤ 62500) &&
      decide (s.fld k wslot_window_lead ≤ len)
  else len == 0

/-- Step 8 of R364. -/
def State.checkJob (s : State) (img : List Nat) : Except LoadFail Unit :=
  match s.partitionBad with
  | some t => .error (.image 8 8 0 (s.vrow t + 2 ^ 4 * s.vcol t))
  | none =>
    if !s.windowOk img then .error (.image 9 8 0 0)
    else
      let l := s.latencyMin (if s.replaying then 22 else dRx (imageRate img))
      if 1000 < l then .error (.image 10 8 0 l) else .ok ()

/-! ### The whole load (R364, R374) -/

/-- Signature and rollback, and steps 2 to 4, of an image that is located. -/
def State.admitImage (s : State) (img : List Nat) (restart : Bool) : Except LoadFail Unit := do
  if restart then pure () else s.authentic img
  checkTable img
  must (natAt img 6 2 == gradeCode s.grade) (.image 4 3 0 0)
  s.checkAreas img

/-- The image's read from the library partition meets an uncorrectable word: a memory fault of its channel (R534 to R536).
Its bytes are then not what was signed, so step 1 fails by its signature (DESIGN CHOICE, log entry 58). -/
def State.libraryBad (s : State) (n : Nat) : Option State :=
  (s.firstBad (ddrBase + s.ent kLib) n).map (fun w =>
    let a := w - ddrBase
    s.memFault 4 (loc 6 (s.ddrChannels.getD (a / 4096 % max 1 s.ddrChannels.length) 0)) a 0xFF 0xFF)

/-- Steps 1 to 8; a restart skips the signature and rollback of step 1 (R543). On a failure, the state reached so far. -/
def State.loadSteps (s : State) (restart : Bool) : State × Option LoadFail :=
  match s.locate with
  | .error e => (s, some e)
  | .ok img =>
    match s.libraryBad img.length with
    | some t => (t, some (.image 1 1 0 0))
    | none =>
    match s.admitImage img restart with
    | .error e => (s, some e)
    | .ok _ =>
      match s.placeImage img restart with
      | (s, some e) => (s, some e)
      | (s, none) =>
        match s.patchAll img (imagePatches img).zipIdx with
        | .error e => (s, some e)
        | .ok s =>
          match s.tablesFault with
          | some f => (s, some (.table f))
          | none =>
            match s.checkJob img with
            | .error e => (s, some e)
            | .ok _ =>
              let s := s.setFld (key 0x2800 1) dec_latency_min
                (s.latencyMin (if s.replaying then 22 else dRx (imageRate img)))
              let s := if restart then s else (List.range 4).foldl (fun s i =>
                s.setEnt (key 0x2C00 (2 + i)) (bits (imageDigest img) (64 * i) 64)) s
              ({ s with job := { s.job with slips := s.jobQuays } }, none)

/-- Load Status and Load Fault Report of a load that ended (R364, R374). DESIGN CHOICE (log entry 79): an allocation fault
of step 7, which R532 calls no job fault, does not set alloc_fault_seen. -/
def State.loadStatus (s : State) (e : Option LoadFail) : State :=
  let k := key 0x2C00 6
  let rep := key 0x2C00 8
  let s := s.setEnt rep (dflt s.grade s.stepping rep)
  match e with
  | none => s.setEnt k (lds_load_done.put 0 1)
  | some (.image c st sect d) =>
    s.setEnt k (lds_detail.put (lds_section.put (lds_load_step.put (lds_load_cause.put 0 c) st) sect) d)
  | some (.table f) =>
    (s.setEnt k (lds_load_step.put 0 7)).setEnt rep ({ s with job := { s.job with bound := false } }.report f 0 1 true)

end Sys2Proof.Machine
end

