-- ==== Sys2Proof/Machine/Save.lean ====
section
/-! DEFINITION. The save image (R459 to R462): its parts as one ordered list of items over the state, each read as a
little-endian number of a fixed number of bytes, so that a copy writes the list and a restore reads the same list. The
spec gives the parts, their order and the header; the bytes inside a part are a DESIGN CHOICE (log entry 20). -/

namespace Sys2Proof.Machine

/-- One item of a save image: its bytes, how it is read from the state and put back. -/
structure SaveItem where
  bytes : Nat
  get : State → Nat
  put : State → Nat → State

/-! ### Items of a tile (R205, R230, R460) -/

/-- An item of tile `p`. -/
def tileItem (p n : Nat) (get : Tile → Nat) (put : Tile → Nat → Tile) : SaveItem :=
  { bytes := n, get := fun s => get (s.tile p), put := fun s v => s.setTile p (put (s.tile p) v) }

/-- The bytes of the SRAM regions of tile `p` that instructions or tenders write, in table order. -/
def State.saveRegions (s : State) (p : Nat) : List SaveItem :=
  (List.range 64).filterMap (fun i =>
    let k := key (0x2700 + p) (0x10 + i)
    if s.flag k reg_iw || s.flag k reg_tw then
      let a := sramBase p + 64 * s.fld k reg_base
      let n := 64 * s.fld k reg_size
      some { bytes := n, get := fun s => readNat s.mem a n, put := fun s v => (s.write a (leBytes n v)).freshWords p (a - sramBase p) n }
    else none)

/-- A signed value in `n` bytes. -/
def signedItem (p n : Nat) (get : Tile → Int) (put : Tile → Int → Tile) : SaveItem :=
  tileItem p n (fun t => unsignedOf (8 * n) (get t)) (fun t v => put t (signed (8 * n) v))

/-- The bytes of a weight lane. -/
def laneNat (l : WLane) : Nat := leNat (l.codes ++ [l.zw])

/-- A weight lane of 33 bytes. -/
def laneOfNat (v : Nat) : WLane := { codes := leBytes 32 v, zw := bits v 256 8 }

/-- A weight bank. -/
def bankItems (p b : Nat) : List SaveItem :=
  (List.range 1024).map (fun l => tileItem p 33 (fun t => laneNat (mget zeroLane (t.bankOf b) l))
    (fun t v => t.setBank b (mset zeroLane (t.bankOf b) l (laneOfNat v))))

/-- An accumulator file with its exponent and row tag. -/
def fileItems (p f : Nat) : List SaveItem :=
  (List.range 1024).map (fun u => signedItem p 4 (fun t => mget 0 (t.file f).vals u)
    (fun t v => t.setFile f { t.file f with vals := mset 0 (t.file f).vals u v })) ++
  [signedItem p 2 (fun t => (t.file f).exp) (fun t v => t.setFile f { t.file f with exp := v }),
   tileItem p 2 (fun t => (t.file f).tag) (fun t v => t.setFile f { t.file f with tag := v })]

/-- A scale buffer with its written map and contexts. -/
def sbufItems (p b : Nat) : List SaveItem :=
  let nat := fun (n : Nat) (get : SBuf → Nat) (put : SBuf → Nat → SBuf) =>
    tileItem p n (fun t => get (t.sb b)) (fun t v => t.setSb b (put (t.sb b) v))
  let sgn := fun (n : Nat) (get : SBuf → Int) (put : SBuf → Int → SBuf) =>
    signedItem p n (fun t => get (t.sb b)) (fun t v => t.setSb b (put (t.sb b) v))
  let noEnt : SEnt := { mant := 0, off := 0, zero := false }
  [nat 1 (fun x => if x.bexp.isSome then 1 else 0) (fun x v => { x with bexp := if v = 0 then none else some 0 }),
   sgn 2 (fun x => x.bexp.getD 0) (fun x v => { x with bexp := x.bexp.map (fun _ => v) }),
   nat 2 (fun x => x.tag) (fun x v => { x with tag := v }),
   nat 1 (fun x => x.count) (fun x v => { x with count := v }),
   nat 1 (fun x => if x.clamped then 1 else 0) (fun x v => { x with clamped := v == 1 }),
   nat 1 (fun x => x.src) (fun x v => { x with src := v }),
   nat 2 (fun x => x.target) (fun x v => { x with target := v }),
   nat 1 (fun x => x.head) (fun x v => { x with head := v }),
   nat 1 (fun x => x.layer) (fun x v => { x with layer := v }),
   nat 4 (fun x => x.tbase) (fun x v => { x with tbase := v }),
   sgn 2 (fun x => x.texp) (fun x v => { x with texp := v }),
   nat 1 (fun x => x.tk) (fun x v => { x with tk := v }),
   nat 2 (fun x => x.frac) (fun x v => { x with frac := v }),
   nat 1 (fun x => if x.opened then 1 else 0) (fun x v => { x with opened := v == 1 }),
   nat 4 (fun x => x.obase) (fun x v => { x with obase := v }),
   sgn 2 (fun x => x.oexp) (fun x v => { x with oexp := v }),
   nat 1 (fun x => x.ok) (fun x v => { x with ok := v }),
   nat 2 (fun x => x.ofrac) (fun x v => { x with ofrac := v })] ++
  (List.range 32).flatMap (fun i =>
    [nat 4 (fun x => let e := mget noEnt x.ents i; e.mant + 2 ^ 16 * e.off + (if e.zero then 2 ^ 31 else 0))
      (fun x v => { x with ents := mset noEnt x.ents i { mant := v % 2 ^ 16, off := bits v 16 15, zero := bit v 31 } }),
     nat 1 (fun x => if mget false x.written i then 1 else 0) (fun x v => { x with written := mset false x.written i (v == 1) }),
     nat 4 (fun x => mget 0 x.est i) (fun x v => { x with est := mset 0 x.est i v })])

/-- Every item of tile `p`, in the order of R460. -/
def State.tileItems (s : State) (p : Nat) : List SaveItem :=
  s.saveRegions p ++
  (List.range 31).map (fun i => tileItem p 4 (fun t => mget 0 t.s (i + 1)) (fun t v => t.setS (i + 1) v)) ++
  (List.range 16).map (fun i => tileItem p 4 (fun t => mget 0 t.p i) (fun t v => t.setP i v)) ++
  (List.range 7).map (fun i => tileItem p 1 (fun t => if t.flag (i + 1) then 1 else 0) (fun t v => t.setF (i + 1) (v == 1))) ++
  bankItems p 0 ++ bankItems p 1 ++
  [tileItem p 1 (fun t => t.active) (fun t v => { t with active := v }),
   tileItem p 32 (fun t => leNat t.x) (fun t v => { t with x := leBytes 32 v })] ++
  (List.range 4).flatMap (fileItems p) ++
  (List.range 1024).map (fun i => tileItem p 1 (fun t => mget 0 t.luts i) (fun t v => { t with luts := mset 0 t.luts i v })) ++
  sbufItems p 0 ++ sbufItems p 1 ++
  [tileItem p 6 (fun t => t.fnum) (fun t v => { t with fnum := v }),
   tileItem p 1 (fun t => if t.fvoid then 1 else 0) (fun t v => { t with fvoid := v == 1 })] ++
  (List.range 32).map (fun i => tileItem p 1 (fun t => if mget false t.cm i then 1 else 0)
    (fun t v => { t with cm := mset false t.cm i (v == 1) }))

/-! ### Ridge, averaging and counters (R460) -/

/-- A dictionary entry of `n` bytes. -/
def entItem (k n : Nat) : SaveItem := { bytes := n, get := fun s => s.ent k, put := fun s v => s.setEnt k v }

/-- pcount, fired and accepted of every seed; class accepts. -/
def ridgeItems : List SaveItem :=
  (List.range 256).flatMap (fun d =>
    [entItem (key (0x2A00 + d) 12) 4, entItem (key (0x2A00 + d) 10) 8, entItem (key (0x2A00 + d) 11) 8]) ++
  (List.range 8).map (fun c => entItem (key (0x2810 + c) 1) 8)

/-- Sums and interval count of each averaging quay. -/
def State.avgItems (s : State) : List SaveItem :=
  ((List.range 20).filter (fun q => s.flag (kAvg q) avg_avg_enable)).flatMap (fun q =>
    { bytes := 2, get := fun s => mget 0 s.land.avgN q,
      put := fun s v => { s with land := { s.land with avgN := mset 0 s.land.avgN q v } } } ::
    (List.range (s.quayCodes q)).map (fun i =>
      { bytes := 4, get := fun s => unsignedOf 32 (mget 0 s.land.sums (2 ^ 24 * q + i)),
        put := fun s v => { s with land := { s.land with sums := mset 0 s.land.sums (2 ^ 24 * q + i) (signed 32 v) } } }))

/-- acc_clip and requant_sat of every virtual tile, layer totals, calibration event counts. -/
def counterItems (tiles : List Nat) : List SaveItem :=
  tiles.flatMap (fun p => [entItem (key (0x2300 + p) 1) 8, entItem (key (0x2300 + p) 2) 8]) ++
  (List.range 256).flatMap (fun l => (List.range 3).map (fun i =>
    { bytes := 8, get := fun s => mget 0 s.job.layerTot (4 * l + i + 1),
      put := fun s v => { s with job := { s.job with layerTot := mset 0 s.job.layerTot (4 * l + i + 1) v } } })) ++
  (List.range 256).flatMap (fun l =>
    [cstat_saturation_events, cstat_underuse_events, cstat_floor_events].map (fun f =>
      { bytes := 2, get := fun s => s.fld (key (0x2400 + l) 7) f, put := fun s v => s.setFld (key (0x2400 + l) 7) f v }))

/-- The virtual tiles in row-major order, as physical tiles. -/
def State.virtualTiles (s : State) : List Nat :=
  (List.range 8).flatMap (fun r => (List.range (vcols s.grade)).map (fun v => s.ptile r v))

/-- The items of a save image, in order (R460). -/
def State.saveItems (s : State) : List SaveItem :=
  s.virtualTiles.flatMap (fun p => s.tileItems p) ++ ridgeItems ++ s.avgItems ++ counterItems s.virtualTiles

/-! ### The image (R461) -/

/-- Bytes of the body of the save image. -/
def State.saveBody (s : State) : List Nat := s.saveItems.flatMap (fun x => leBytes x.bytes (x.get s))

/-- Digest of the job image recorded at its load (R363, R543). -/
def State.jobDigest (s : State) : Nat :=
  s.ent (key 0x2C00 2) + 2 ^ 64 * s.ent (key 0x2C00 3) + 2 ^ 128 * s.ent (key 0x2C00 4) + 2 ^ 192 * s.ent (key 0x2C00 5)

/-- The 128-byte header of a save image with `body`. -/
def State.saveHeader (s : State) (body : List Nat) : Nat :=
  0x46535631 + 2 ^ 32 * 1 + 2 ^ 48 * gradeCode s.grade + 2 ^ 64 * s.ent (key 0x2C00 1) + 2 ^ 128 * s.jobDigest
    + 2 ^ 384 * ((s.ent (key 0x2F00 6) + 2 ^ 48 - 1) % 2 ^ 48) + 2 ^ 448 * (128 + body.length)
    + 2 ^ 512 * sha256Nat body

/-- The save image. -/
def State.saveImage (s : State) : List Nat := let b := s.saveBody; leBytes 128 (s.saveHeader b) ++ b

/-- Module address of the save image: save_offset in the save partition (R459). -/
def State.saveBase (s : State) : Nat := s.ent (key 0x27E0 7) + s.ent (key 0x2F00 3)

/-- `n` bytes at save_offset fit the save partition. -/
def State.saveFits (s : State) (n : Nat) : Bool := decide (s.ent (key 0x2F00 3) + n ≤ s.ent (key 0x27E0 8))

/-- Save Status: state, whether a restore, cause, and the bytes of an image written or read; with none (0) those of the last
one stand (R471). -/
def State.setSave (s : State) (st : Nat) (restore : Bool) (cause bytes : Nat) : State :=
  s.setEnt kSvs (svs_save_bytes.put (svs_cause.put (svs_restore_op.put (svs_save_state.put 0 st)
    (if restore then 1 else 0)) cause) (if bytes = 0 then s.fld kSvs svs_save_bytes else bytes))

/-- The header at save_offset, as a number. -/
def State.storedHeader (s : State) : Nat := leNat (s.ddrRead s.saveBase 128)

/-- save_bytes of the image at save_offset; never below its header. -/
def State.storedBytes (s : State) : Nat := max 128 (bits s.storedHeader 448 64)

/-- The save image at save_offset holds a word known to be uncorrectable. -/
def State.saveBad (s : State) : Bool := s.memBad (ddrBase + s.saveBase) s.storedBytes

/-- A restore has met an uncorrectable word: its DDR4 channel notes it (R288), and it is a memory fault of the channel, for
the word was read for the job (R534 to R536). Where no patrol has named the word, which it was is a free value (log entry
77). -/
def State.noteBadRestore (s : State) : State :=
  let v := s.fresh 32
  let a := match s.firstBad (ddrBase + s.saveBase) s.storedBytes with
    | some w => w - ddrBase
    | none => s.saveBase + 64 * (v.1 % max 1 (s.storedBytes / 64))
  (v.2.setFlag (s.unitOf 0 2 a) munit_uncorrected_seen true).memFault 4
    (loc 6 (s.ddrChannels.getD (a / 4096 % max 1 s.ddrChannels.length) 0)) a 0xFF 0xFF

/-- Why a restore is refused (R462): 3 image_mismatch, 4 digest. An image that does not lie in the save partition has no
digest that holds; one whose magic or version is not that of R460 is no image of this one (DESIGN CHOICE, log entry 79). -/
def State.restoreRefusal (s : State) : Option Nat :=
  let h := s.storedHeader
  if h % 2 ^ 32 ≠ 0x46535631 ∨ bits h 32 16 ≠ 1 ∨ bits h 48 16 ≠ gradeCode s.grade ∨ bits h 64 64 ≠ s.ent (key 0x2C00 1) ∨
      bits h 128 256 ≠ s.jobDigest then some 3
  else if !s.saveFits s.storedBytes then some 4
  else if bits h 512 256 ≠ sha256Nat (s.ddrRead (s.saveBase + 128) (s.storedBytes - 128)) then some 4
  else none

/-- The items put back from the bytes of a body, in order. -/
def State.readItems (s : State) : List SaveItem → List Nat → State
  | [], _ => s
  | x :: xs, b => (x.put s (leNat (b.take x.bytes))).readItems xs (b.drop x.bytes)

/-- The loaded job takes the values of the save image (R462). -/
def State.readSave (s : State) : State :=
  s.readItems s.saveItems (s.ddrRead (s.saveBase + 128) (s.storedBytes - 128))

end Sys2Proof.Machine
end

