-- ==== Sys2Proof/Machine/Arming.lean ====
section
/-! DEFINITION. The arming checks of every chapter (R106 to R109, R278, R285, R294, R300, R305, R324, R326, R335, R337,
R348, R369, R387, R398, R423, R488, R580, R586) and what arming sets up. -/

namespace Sys2Proof.Machine

/-! ### Rates (R45, R60, R106) -/

/-- The rate a group takes as its armed rate (R60). -/
def State.rateOf (s : State) (q g : Nat) : Nat :=
  let c := s.chanOf q (s.fld (key (0x2200 + q) (2 + g)) grp_first_lane)
  if (s.groupLanes q g).all (s.inService q) then s.fld (kLstat q c) lstat_rate_now
  else if s.flag (kLctl q c) lctl_fixed_rate then s.fld (kLctl q c) lctl_fixed_rate_code
  else s.fld (kLctl q c) lctl_rate_ceiling

/-- Largest number of blocks of a lane in a frame period at a rate: floor(F × bpc × 16,383 / 16,384). -/
def State.blockRoom (s : State) (rate : Nat) : Nat := s.F * bpcMillion rate * 16383 / (1000000 * 16384)

/-! ### Landing and slipways (R106, R108, R109, R586) -/

/-- The quays with land_enable 1. -/
def State.enabledQuays (s : State) : List Nat := (List.range 20).filter (fun q => quayOk s.grade q && s.landOn q)

/-- Edge and index of a slipway's entry port. -/
def State.entryPlace (s : State) (q : Nat) : Nat × Nat :=
  (s.fld (key (0x22C0 + q) 1) slip_entry_edge, s.fld (key (0x22C0 + q) 1) slip_entry_index)

/-- The slipway of a quay breaks R106 by itself. -/
def State.slipMisfit (s : State) (q : Nat) : Bool :=
  let e := s.entryPlace q
  decide ((if e.1 = 0 then 8 else vcols s.grade) ≤ e.2) || decide (s.F ≤ s.entryOffset q) || decide (s.F < s.beats q)

/-- A landing quay breaks R106 by itself. -/
def State.quayMisfit (s : State) (q : Nat) : Bool :=
  s.slipMisfit q || (s.usedGroups q).any (fun g => decide (s.blockRoom (s.rateOf q g) < s.blocksPer q g + 2))

/-- Two quays of a list name one entry port. -/
def State.portShared (s : State) (l : List Nat) : Bool :=
  l.any (fun q => l.any (fun r => decide (q < r) && s.entryPlace q == s.entryPlace r))

/-- Landing refuses the arming: the slipways of a replayed job keep R106 as those of a live one (R101, R109). -/
def State.landingRefuses (s : State) : Bool :=
  let l := s.enabledQuays
  l.any s.quayMisfit || s.portShared l || s.jobQuays.isEmpty || s.jobQuays.any s.slipMisfit || s.portShared s.jobQuays ||
    (if s.replaying then
      !l.isEmpty || (match s.jobQuays with
        | [] => true
        | q :: qs => qs.any (fun r => s.replayFrame r 0 != s.replayFrame q 0))
     else l.all (fun q => (s.usedGroups q).isEmpty))

/-! ### Ring, memory and reset (R278, R285, R326, R488) -/

/-- The runs of the ring region of a die that quay `q` holds: its segment, and its spill band in single-shot mode. -/
def State.ringRun (s : State) (q : Nat) : Nat × Nat :=
  let n := s.ent (key (0x2780 + q) 2) + if s.flag kCapc capc_ring_mode then s.ent (key (0x2960 + q) 1) else 0
  (s.ent (key (0x2780 + q) 1), n * s.courseSize q)

/-- Ring segments refuse the arming (R278, R326). -/
def State.ringRefuses (s : State) : Bool :=
  let l := s.enabledQuays
  l.any (fun q =>
    let r := s.ringRun q
    s.ent (key (0x2780 + q) 2) == 0 || r.1 % 4096 != 0 || decide (s.hbmMap (quayDie q) 2 < r.1 + r.2) ||
      (s.flag kCapc capc_ring_mode && s.ent (key (0x2960 + q) 1) == 0) ||
      l.any (fun p => decide (q < p) && quayDie q == quayDie p &&
        meets r.1 r.2 (s.ringRun p).1 (s.ringRun p).2))

/-- The HBM map of die `d` refuses the arming (R277, R285). -/
def State.mapRefuses (s : State) (d : Nat) : Bool :=
  let m := fun (i : Nat) => (s.hbmMap d (2 * i + 1), s.hbmMap d (2 * i + 2))
  (List.range 3).any (fun i => decide (120000000000 < (m i).1 + (m i).2) || (List.range 3).any (fun j =>
    decide (i < j) && meets (m i).1 (m i).2 (m j).1 (m j).2))

/-- Start Status. -/
def kSst : Nat := key 0x3200 5

/-- DDR4 is in service (R282, R488). -/
def State.ddrInService (s : State) : Bool := s.flag kSst sst_ddr_population_ok && !s.ddrChannels.isEmpty

/-- A stack of a hub die that the job's quays or job area use is out of service (R488). -/
def State.hbmRefuses (s : State) (quays : List Nat) (area : Nat → Bool) : Bool :=
  (List.range 2).any (fun d => (area d || quays.any (fun q => quayDie q == d)) && !s.stacksOk d)

/-- Memory refuses a load or an arming (R488); so does a module whose PLLs failed (R483). -/
def State.memoryRefuses (s : State) (quays : List Nat) (area : Nat → Bool) : Bool :=
  s.hbmRefuses quays area || !s.ddrInService || !s.flag kSst sst_ddr_ready || s.flag kSst sst_pll_failed

/-! ### Decision path (R300, R305) -/

/-- D_rx of the job: the largest over its groups' armed rates; 22 for a job fed from the replay region (R300). -/
def State.jobDrx (s : State) : Nat :=
  if s.replaying then 22
  else (s.enabledQuays.flatMap (fun q => (s.usedGroups q).map (fun g => dRx (s.rateOf q g)))).foldl max 0

/-- The decision path refuses the arming, once menu_crc is formed (R294, R300, R305). -/
def State.decisionRefuses (s : State) : Bool :=
  let want := s.ent (key 0x2B00 2)
  (want != 0 && want != s.ent kMenuCrc) || decide (s.fld (key 0x2800 1) dec_latency_l < s.latencyMin s.jobDrx) ||
    decide (s.F ≤ s.fld (key 0x2800 3) outc_accept_width)

/-! ### Capture (R324, R335, R337, R344, R348, R369) -/

/-- Class Capture word. -/
def kCcap (c : Nat) : Nat := key (0x2910 + c) 1

/-- The classes with capture_enable 1. -/
def State.captureOn (s : State) : List Nat := (List.range 8).filter (fun c => s.flag (kCcap c) ccap_capture_enable)

/-- The quays of class `c`'s mask. -/
def State.classQuays (s : State) (c : Nat) : List Nat := maskQuays (s.fld (kCcap c) ccap_quay_mask)

/-- The largest record class `c` allows. -/
def State.classRecord (s : State) (c : Nat) : Nat :=
  let k := kCcap c
  s.recordBytes {
    seq := 0
    origin := 0
    frame := 0
    accept := 0
    raw := 0
    pre := s.fld k ccap_pre_count
    post := s.fld k ccap_post_count
    mask := s.fld k ccap_quay_mask
    link := false
    window := false
    doubt := false }

/-- host_ring_bytes. -/
def State.hostRing (s : State) : Nat := s.ent (key 0x2940 1)

/-- Bytes of a destination ring as arming lays it out (R344). -/
def State.ringBytes (s : State) (link : Bool) : Nat := if link then s.ent (key 0x27E0 2) - s.hostRing else s.hostRing

/-- The loaded image has a window partition. -/
def State.hasWindow (s : State) : Bool := s.job.partition.contains 2

/-- Class `c` breaks R324. -/
def State.classMisfit (s : State) (c : Nat) : Bool :=
  let k := kCcap c
  (s.classQuays c).any (fun q => !s.landOn q ||
      decide (s.ent (key (0x2780 + q) 2) ≤ s.fld k ccap_pre_count + s.fld k ccap_post_count)) ||
    (s.flag k ccap_to_window && !s.hasWindow) ||
    decide (s.ringBytes (s.flag k ccap_destination) < s.classRecord c + 64)

/-- Bytes of the largest window of class `c` in die `d`'s part of a buffer (R337). -/
def State.windowPart (s : State) (c d : Nat) : Nat :=
  (s.fld (kCcap c) ccap_pre_count + s.fld (kCcap c) ccap_post_count + 1) *
    (((s.classQuays c).filter (fun q => quayDie q == d)).map s.courseSize).sum

/-- Window Buffers. -/
def kWbuf : Nat := key 0x2900 7

/-- Window buffers refuse the arming (R337): the largest window of every class with to_window 1 fits. -/
def State.windowRefuses (s : State) : Bool :=
  let n := s.fld kWbuf wbuf_window_buffers
  let b := s.fld kWbuf wbuf_window_buffer_bytes
  (List.range 2).any (fun d => decide (s.hbmMap d 6 < n * b)) ||
    ((List.range 8).filter (fun c => s.flag (kCcap c) ccap_to_window)).any (fun c =>
      (List.range 2).any (fun d => decide (b < s.windowPart c d)))

/-- The averaging quays of a die. -/
def State.avgQuays (s : State) (d : Nat) : List Nat :=
  (List.range 20).filter (fun q => quayOk s.grade q && quayDie q == d && s.flag (kAvg q) avg_avg_enable)

/-- An egress ring holds a record not yet consumed or sent (R348). -/
def Ring.holds (g : Ring) : Bool := g.producer != g.consumer || !g.resv.isEmpty || !g.unsent.isEmpty

/-- The ring layout in force differs from the settings while a ring holds a record (R348). -/
def State.layoutFixed (s : State) : Bool :=
  (s.cap.host.holds || s.cap.link.holds) &&
    (s.cap.host.size != s.hostRing || s.cap.host.base != s.ent (key 0x27E0 1) ||
      s.cap.host.size + s.cap.link.size != s.ent (key 0x27E0 2))

/-- Capture refuses the arming. -/
def State.captureRefuses (s : State) : Bool :=
  s.captureOn.any s.classMisfit || s.windowRefuses ||
    (List.range 2).any (fun d => decide (524288 < ((s.avgQuays d).map s.quayCodes).sum) ||
      (s.dieAllGrid d && (!(s.avgQuays d).isEmpty ||
        s.captureOn.any (fun c => (s.classQuays c).any (fun q => quayDie q == d))))) ||
    s.hostRing % 64 != 0 || decide (s.ent (key 0x27E0 2) < s.hostRing) || s.layoutFixed

/-! ### Berths, time, debug (R387, R398, R423, R580) -/

/-- The berth's modules exchange berth words (R387). -/
def State.coupled (s : State) : Bool :=
  (List.range 40).any (fun k => eavesOk s.grade k && s.flag (key (0x2D50 + k) 1) peer_enable)

/-- Harbour Control. -/
def kHctl : Nat := key 0x2D40 1

/-- Berths, time and the debug scope refuse the arming. -/
def State.berthRefuses (s : State) : Bool :=
  let moored := s.flag (key 0x2D00 1) bctl_moored
  (s.coupled && !moored) || (s.flag kHctl hctl_patient && !moored) ||
    ((s.flag kHctl hctl_harbour_enable || decide (1 < s.berthSize)) && !s.flag (key 0x2E00 1) tctl_lock_required) ||
    s.fld (key 0x3170 1) dbg_debug_scope != 0

/-- The modules a harbour's berths need, which R394 obliges whoever sets them to keep, are not there: 2 to 256 berths
with this one among them, a harbour head with a position for every member and jetty head, a jetty head with one for
every berth of its jetty. A standalone module uses no harbour function (R375). -/
def State.harbourBroken (s : State) : Bool :=
  let h := s.fld kHctl hctl_harbour_berths
  let b := s.fld (key 0x2D00 1) bctl_berth
  decide (1 < s.berthSize) && s.flag kHctl hctl_harbour_enable &&
    (decide (h < 2) || decide (256 < h) || decide (h ≤ b) ||
      (b == 0 && decide (s.berthSize < if h ≤ 16 then h else 16 + (h + 15) / 16)) ||
      (b % 16 == 0 && decide (s.berthSize < min 16 (h - b))))

/-- Some arming check of some chapter fails. -/
def State.armRefused (s : State) : Bool :=
  s.landingRefuses || s.ringRefuses || s.mapRefuses 0 || s.mapRefuses 1 ||
    s.memoryRefuses s.jobQuays (fun d => s.ent (key (0x2C10 + d) 2) != 0) || s.decisionRefuses || s.captureRefuses ||
    s.berthRefuses

/-! ### Arming (R60, R293, R316, R325, R348, R489) -/

/-- Both rings laid out anew when they are empty (R348). -/
def State.layRings (s : State) : State :=
  if s.cap.host.holds || s.cap.link.holds then s
  else
    let base := s.ent (key 0x27E0 1)
    let s := { s with cap := { s.cap with
      host := ({ size := s.ringBytes false, base := base } : Ring)
      link := ({ size := s.ringBytes true, base := base + s.hostRing } : Ring)
      notified := 0
      firstUnnotified := none } }
    (s.setEnt kHostP 0).setEnt kHostC 0

/-- The armed rates of the job's groups (R60). -/
def State.armRates (s : State) : State :=
  let rates := s.jobGroups.foldl (fun m k => mset none m k (some (s.rateOf (k / 4) (k % 4)))) []
  { s with land := { s.land with armed := rates } }

/-- A schedule ends: the frames whose slots it released have been counted at them (R96). -/
def State.notePast (s : State) : State :=
  s.landGroups.foldl (fun s k =>
    if s.job.bound && s.slipQuays.contains (k / 4) && decide (0 < s.released (k / 4)) then
      s.setGroup (k / 4) (k % 4) { s.group (k / 4) (k % 4) with
        past := some ((s.job.n0 + s.released (k / 4) - 1) % 2 ^ 48) }
    else s) s

/-- Waiting frames of every group leave as held (R107). -/
def State.flushWait (s : State) : State :=
  s.landGroups.foldl (fun s k =>
    let x := s.group (k / 4) (k % 4)
    let s := s.setGroup (k / 4) (k % 4) { x with wait := [] }
    x.wait.foldl (fun s f =>
      let r := if f.reason = 0 then 10 else f.reason
      (if f.counted then s else s.gutter (k / 4) r).courseReason (k / 4) (k % 4) f.frame r) s) s

/-- What arming forms and resets; the job is ARMED. -/
def State.armed (s : State) : State :=
  let s := s.setFld (key 0x2800 1) dec_latency_min (s.latencyMin s.jobDrx)
  let s := if s.flag kJob jst_restored then s
    else (List.range 256).foldl (fun s d => s.setEnt (key (0x2A00 + d) 12) 0) s
  let s := s.setFld (key 0x2800 2) pin_d_min 1023
  let s := (s.setFlag (key 0x22F0 1) lndg_replay_done false).setFld (key 0x22F0 1) lndg_replay_skipped 0
  let s := (s.setEnt (key 0x2D00 3) 0).setEnt (key 0x2D40 4) 0
  let s := (s.setFlag kCaps caps_frozen false).setFld kCaps caps_freeze_frame 0
  let s := { s with
    cap := { s.cap with frozenSeen := false }
    land := { s.land with replay := [], released := [] }
    dec := { s.dec with driven := true, tags := [] }
    time := { s.time with portsOn := true }
    berth := { s.berth with
      firstFaulted := []
      jettyMarked := []
      harbourMarked := []
      restartFrame := none }
    job := { s.job with slips := s.jobQuays, bound := false } }
  let s := (s.layRings.setFlag kJob jst_started false).setJob ARMED
  s.armRates.refreshLaneDoubt.refreshHold

/-- Calibration frames (R384). -/
def State.calFrames (s : State) : Nat := s.fld (key 0x2D00 1) bctl_cal_frames

/-- Calibration and report frames: the first frame that is not held (R384). -/
def State.berthFrames (s : State) : Nat := s.calFrames + (1024 + s.F - 1) / s.F + 1

/-- Berth Status. -/
def kBsts : Nat := key 0x2D00 2

/-- Harbour Skew Bounds. -/
def kSkb : Nat := key 0x2D40 3

/-- The frame boundary b(n) (R456). -/
def State.boundary (s : State) (n : Nat) : Nat := s.job.s0 + n * s.F

/-- Pause Frame and Resume Frame. -/
def kPause : Nat := key 0x2F00 6

/-- Resume Frame. -/
def kResume : Nat := key 0x2F00 7

/-- In a berth the start begins its calibration (R384, R385, R399). -/
def State.beginBerth (s : State) : State :=
  if 1 < s.berthSize then
    let s := s.setFld kBsts bsts_cal_state 1
    let s := (List.range 32).foldl (fun s k =>
      ((s.setFld (kBun k) bun_d_min 1023).setFld (kBun k) bun_d_max 0).setFlag (kBun k) bun_unstable false) s
    { s.setEnt kSkb 0 with berth := { s.berth with
      peers := []
      got := []
      dHi := []
      dLo := []
      nextOf := []
      jettyLast := []
      harbourLast := []
      reports := []
      out := []
      nextClose := s.berthFrames
      result := []
      wordNext := []
      wordIn := []
      jetty := []
      harbour := []
      jettyNext := s.berthFrames
      harbourNext := s.berthFrames
      jettySkew := 0
      harbourSkew := 0
      skewDone := false } }
  else s

/-- Arming (R455): the menu CRC is formed, the checks of every chapter are made; a harbour that breaks R394, for which
no other behaviour is stated, faults the armed job (R7, family 13 of R532). -/
def State.arm (s : State) : State × Bool :=
  let s := s.setEnt kMenuCrc (crc32c s.menuImage)
  if s.armRefused then (s, false)
  else if s.harbourBroken then (s.armed.fault { family := 13, cause := 1 }, true)
  else (s.armed, true)

end Sys2Proof.Machine
end

