-- ==== Sys2Proof/Machine/Berth.lean ====
section
/-! DEFINITION. Berths and harbours (R375 to R401): calibration, summaries and the berth combine, berth words, the jetty
and harbour combines, and what follows from their results. A message arrives, whole, with its command. -/

namespace Sys2Proof.Machine

/-! ### Names (R376, R377, R394) -/

/-- Position that bundle `k` faces. -/
def State.facing (s : State) (k : Nat) : Nat := (s.position + k + 1) % 32

/-- The bundle that faces position `i`. -/
def State.bundleTo (s : State) (i : Nat) : Nat := (i + 31 - s.position) % 32

/-- Berth bundles. -/
def State.bundles (s : State) : List Nat := (List.range 31).filter s.berthBundle

/-- Bundle 31 is an uplink. -/
def State.hasUplink (s : State) : Bool := s.fld (kBun 31) bun_role == 3

/-- The module takes part in a harbour (R375, R407). -/
def State.inHarbour (s : State) : Bool := s.flag kHctl hctl_harbour_enable && decide (1 < s.berthSize)

/-- Berth number. -/
def State.berthNo (s : State) : Nat := s.fld (key 0x2D00 1) bctl_berth

/-- Position 0 of a jetty head. -/
def State.jettyHead (s : State) : Bool := s.inHarbour && s.position == 0 && s.berthNo % 16 == 0

/-- Position 0 of the harbour head. -/
def State.harbourHead (s : State) : Bool := s.jettyHead && s.berthNo == 0

/-- Time lock holds. -/
def State.timeLocked (s : State) : Bool := s.flag kTime tsts_time_lock

/-- The faulted bit of what this module sends (R380, R388). -/
def State.sendsFaulted (s : State) : Bool := s.jobState == FAULTED || !s.timeLocked

/-- A berth fault that names a bundle (R393, R539). -/
def State.berthFault (s : State) (cause frame k : Nat) : State :=
  s.fault { family := 8, cause := cause, loc := loc 4 (k / 8), frame := frame, detail := k + 2 ^ 8 * s.facing k }

/-- Send count of the summary of frame index n (R388). -/
def State.sendCount (s : State) (n : Nat) : Nat := n * s.F + s.C + 12

/-- d_b (R385). -/
def State.dBerth (s : State) : Nat := s.fld kBsts bsts_d_b

/-- First frame number of a list of summaries from a position, if any. -/
def noteFaulted (m : SMap (Option Nat)) (p : Nat) (x : Summ) : SMap (Option Nat) :=
  match mget none m p with
  | some _ => m
  | none => if x.faulted then mset none m p (some x.frame) else m

/-! ### Summaries (R385, R388, R389, R392) -/

/-- The module summary of a frame whose record enters the latency pin leaves on every berth bundle (R388). -/
def State.sendSummary (s : State) (r : PinRec) : State :=
  if 1 < s.berthSize then
    let m : Summ := {
      frame := r.frame
      accept := r.accept
      raw := r.raw
      void := r.void
      faulted := s.sendsFaulted
      module := s.moduleNumber
      excluded := 0
      included := 0
      tail := s.frameStamp r.frame }
    let s := s.bundles.foldl (fun s k => s.sendSumm k 0 m) s
    { s with berth := { s.berth with
      peers := s.berth.peers ++ [{ src := s.position, clk := s.clk, m := m }]
      firstFaulted := noteFaulted s.berth.firstFaulted s.position m } }
  else s

/-- Nothing is measured on bundle `k` yet (R385, R406). -/
def State.unmeasured (s : State) (k : Nat) : State :=
  let s := ((s.setFld (kBun k) bun_d_min 1023).setFld (kBun k) bun_d_max 0).setFlag (kBun k) bun_unstable false
  { s with berth := { s.berth with
    got := mset 0 s.berth.got k 0
    dHi := mset 0 s.berth.dHi k 0
    dLo := mset 0 s.berth.dLo k 0 } }

/-- d of the summary of frame index `n` that is complete in this clk: an integer, which a summary earlier than this
module's own send count makes negative (R20, R385). -/
def State.summaryD (s : State) (n : Nat) : Int := (s.clk : Int) - (s.job.s0 + s.sendCount n : Nat)

/-- A calibration frame's summary is measured on its bundle (R385); the bundle word shows 0 to 1,023. -/
def State.measureBundle (s : State) (k n : Nat) : State :=
  let d := s.summaryD n
  let first := mget 0 s.berth.got k == 0
  let s := s.setFld (kBun k) bun_d_min (min (s.fld (kBun k) bun_d_min) d.toNat)
  let s := s.setFld (kBun k) bun_d_max (max (s.fld (kBun k) bun_d_max) (min 1023 d.toNat))
  { s with berth := { s.berth with
    got := mset 0 s.berth.got k (mget 0 s.berth.got k + 1)
    dHi := mset 0 s.berth.dHi k (if first then d else max (mget 0 s.berth.dHi k) d)
    dLo := mset 0 s.berth.dLo k (if first then d else min (mget 0 s.berth.dLo k) d) } }

/-- A frame of the calibration that a rejoining peer begins with frame `start` (R384, R392). -/
def State.rejoinFrame (s : State) (start f : Nat) : Bool :=
  decide (0 ≤ frameIndex start f) && decide (frameIndex start f < s.calFrames)

/-- Peer `p` restarts with frame `f` (R392): its summaries came up to another frame, and its bundle stayed aligned.
DESIGN CHOICE (log entry 55): no message tells of a restart. -/
def State.restartsWith (s : State) (p f : Nat) : Bool :=
  match mget none s.berth.nextOf p with
  | some l => !s.moored && l != f
  | none => false

/-- What a summary of peer `p` over bundle `k` says of one that has restarted (R392): its pair is measured anew over its
calibration frames. -/
def State.rejoinNote (s : State) (k p : Nat) (m : Summ) : State :=
  let n := frameIndex s.job.n0 m.frame
  let put := fun (s : State) (r : Rejoin) => { s with berth := { s.berth with out := mset none s.berth.out p (some r) } }
  let s := if s.restartsWith p m.frame then (put s ({ start := some m.frame } : Rejoin)).unmeasured k else s
  match mget none s.berth.out p with
  | none => s
  | some r =>
    if s.rejoinFrame (r.start.getD m.frame) m.frame then
      (put s { r with dMax := if mget 0 s.berth.got k = 0 then s.summaryD n.toNat else max r.dMax (s.summaryD n.toNat) }).measureBundle
        k n.toNat
    else s

/-- A berth bundle delivers its messages and words: it is aligned, as a lane group must be (R91, R377, R378). -/
def State.hears (s : State) (k : Nat) : Bool := s.berthBundle k && s.bundleAligned k

/-- SUMMARY_MESSAGE (R385, R389, R544): a peer's module summary is complete in this clk. One whose module number names
another berth breaks R384, for which no other behaviour is stated: it faults an active job (R7, family 13 of R532). -/
def execSummaryMessage (k : Nat) (m : Summ) (s : State) : Host.Outcome State Fault Refusal :=
  if k < 32 then
    let s := s.hearSumm k 0 m
    if s.hears k ∧ s.active ∧ m.module / 32 ≠ s.berthNo then .next (s.fault { family := 13, cause := 1 })
    else if s.hears k ∧ s.job.bound then
      let p := s.facing k
      let n := frameIndex s.job.n0 m.frame
      let s : State := { s with berth := { s.berth with
        peers := s.berth.peers ++ [{ src := p, clk := s.clk, m := m }]
        firstFaulted := noteFaulted s.berth.firstFaulted p m } }
      let u := if s.fld kBsts bsts_cal_state = 1 then
          (if 0 ≤ n ∧ n < s.calFrames then s.measureBundle k n.toNat else s)
        else s.rejoinNote k p m
      .next { u with berth := { u.berth with nextOf := mset none u.berth.nextOf p (some ((m.frame + 1) % 2 ^ 48)) } }
    else .next s
  else .next s

/-- `unstable` of bundle `k` from what was measured on it (R385). -/
def State.judgeBundle (s : State) (k : Nat) : State :=
  s.setFlag (kBun k) bun_unstable
    (decide (mget 0 s.berth.dLo k + 16 < mget 0 s.berth.dHi k) || decide (mget 0 s.berth.got k < s.calFrames))

/-- The largest of some d values. -/
def largest : List Int → Int
  | [] => 0
  | d :: ds => ds.foldl max d

/-- The calibration frames of the rejoining peer of bundle `k` are over, and it has no report of this module yet
(R392). -/
def State.rejoinOver (s : State) (k : Nat) : Bool :=
  match mget none s.berth.out (s.facing k) with
  | some r => !r.told && (match r.start with
    | some f => decide (0 ≤ frameIndex s.job.n0 f) && decide (s.boundary ((frameIndex s.job.n0 f).toNat + s.calFrames) ≤ s.clk)
    | none => false)
  | none => false

/-- A calibration report goes to the peer of bundle `k` (R381, R385). -/
def State.sendReport (s : State) (k : Nat) (r : CalRep) : State := s.sendBlocks k [3] (reportBlocks s.moduleNumber r)

/-- The report of a running module to a peer that rejoins tells of their pair (R385, R392); log entry 55. -/
def State.rejoinTell (s : State) (k : Nat) : State :=
  let s := s.judgeBundle k
  let p := s.facing k
  let r := (mget none s.berth.out p).getD {}
  { s with berth := { s.berth with out := mset none s.berth.out p (some { r with told := true }) } }.sendReport k {
    dMax := mget 0 s.berth.dHi k
    dMin := mget 0 s.berth.dLo k
    unstable := s.flag (kBun k) bun_unstable
    moored := s.flag (key 0x2D00 1) bctl_moored
    patient := s.flag kHctl hctl_patient }

/-- BERTH_CALIBRATION_END (R385, R392): the module's report, from its bundle words, goes to every peer; that of a
module that runs to the peers that rejoin. -/
def execBerthCalibrationEnd (s : State) : Host.Outcome State Fault Refusal :=
  if s.fld kBsts bsts_cal_state = 1 ∧ s.job.bound ∧ s.boundary s.calFrames ≤ s.clk ∧
      mget none s.berth.reports s.position = none then
    let s := s.bundles.foldl State.judgeBundle s
    let r : CalRep := {
      dMax := largest (s.bundles.map (fun k => mget 0 s.berth.dHi k))
      dMin := largest (s.bundles.map (fun k => mget 0 s.berth.dLo k))
      unstable := s.bundles.any (fun k => s.flag (kBun k) bun_unstable)
      moored := s.flag (key 0x2D00 1) bctl_moored
      patient := s.flag kHctl hctl_patient }
    let s := { s with berth := { s.berth with reports := mset none s.berth.reports s.position (some r) } }
    .next (s.bundles.foldl (fun s k => s.sendReport k r) s)
  else if s.fld kBsts bsts_cal_state = 2 ∧ s.job.bound then
    .next ((s.bundles.filter s.rejoinOver).foldl State.rejoinTell s)
  else .next s

/-- The rejoin of the peer of bundle `k` has failed (R392). -/
def State.rejoinFails (s : State) (k : Nat) : State :=
  let p := s.facing k
  let r := (mget none s.berth.out p).getD {}
  { s with berth := { s.berth with out := mset none s.berth.out p (some { r with ok := false, failed := true }) } }.setFlag (kBun k)
    bun_rejoin_failed true

/-- A report of a peer that rejoins (R392): it comes back unless some d lies outside d_b. -/
def State.rejoinReport (s : State) (k dMax : Nat) (unstable : Bool) : State :=
  let p := s.facing k
  match mget none s.berth.out p with
  | none => s
  | some r =>
    if r.failed then s
    else if dMax ≤ s.dBerth ∧ r.dMax ≤ s.dBerth ∧ !unstable then
      { s with berth := { s.berth with out := mset none s.berth.out p (some { r with ok := true }) } }
    else s.rejoinFails k

/-- CALIBRATION_REPORT (R381, R385, R392). -/
def execCalibrationReport (k dMax dMin : Nat) (unstable moored patient : Bool) (s : State) :
    Host.Outcome State Fault Refusal :=
  if k < 32 then
    let r : CalRep := { dMax := dMax, dMin := dMin, unstable := unstable, moored := moored, patient := patient }
    let s := s.hearLane (4 * k + 3) (reportBlocks (32 * s.berthNo + s.facing k) r)
    if s.hears k then
      if s.fld kBsts bsts_cal_state = 1 then
        .next { s with berth := { s.berth with reports := mset none s.berth.reports (s.facing k) (some r) } }
      else .next (s.rejoinReport k dMax unstable)
    else .next s
  else .next s

/-- The job reads RUNNING, or PAUSED when a paused job was restarted (R384, R455, R543); a restart then shows its time
(R555). -/
def State.beginRunning (s : State) (n : Nat) : State :=
  let s := if s.job.restarting then
      let s := s.bump kRsts rsts_restarts
      let s := s.setFld kRsts rsts_last_restart_us (min (roundTa ((s.clk - s.job.faultClk : Nat) : Int) 1250).toNat (2 ^ 32 - 1))
      { s with job := { s.job with restarting := false } }
    else s
  if s.job.pauseOnStart then
    let s := { s with job := { s.job with pauseOnStart := false, heldFrom := some (Int.ofNat n) } }
    ((s.setEnt kPause ((s.job.n0 + n) % 2 ^ 48)).setFlag kJob jst_pause_pending false |>.setJob PAUSED).refreshHold
  else (s.setJob RUNNING).refreshHold

/-- The first frame index whose berth combine closes when d_b has become `d`, at the end of the report frames, or
later (R384, R389). -/
def State.firstClose (s : State) (d : Nat) : Nat := (s.berthFrames * s.F - (s.C + 12 + d) + (s.F - 1)) / s.F

/-- BERTH_REPORT_FRAMES_END (R384, R385): d_b is fixed and the job enters RUNNING, or faults cal_failed. -/
def execBerthReportFramesEnd (s : State) : Host.Outcome State Fault Refusal :=
  if s.fld kBsts bsts_cal_state = 1 ∧ s.job.bound ∧ s.jobState = ARMED ∧ s.boundary s.berthFrames ≤ s.clk then
    let reps := (List.range s.berthSize).filterMap (fun p => mget none s.berth.reports p)
    let w := largest (reps.map (fun r => r.dMax))
    let lo := largest (reps.map (fun r => r.dMin))
    let moored := s.flag (key 0x2D00 1) bctl_moored
    let dl := s.fld (key 0x2D00 1) bctl_berth_deadline
    let d : Int := if moored then w + 32 else if dl ≠ 0 then dl else w
    let same := reps.all (fun r => r.moored == moored && r.patient == s.flag kHctl hctl_patient && !r.unstable)
    let s := (s.setFld kBsts bsts_w_cal (min 1023 w.toNat)).setFld kBsts bsts_w_lo (min 1023 lo.toNat)
    if reps.length = s.berthSize ∧ same ∧ d ≤ 1023 ∧ lo ≤ d then
      let first := s.firstClose d.toNat
      let s := { s with berth := { s.berth with nextClose := first, jettyNext := first, harbourNext := first } }
      .next (((s.setFld kBsts bsts_d_b d.toNat).setFld kBsts bsts_cal_state 2).beginRunning s.berthFrames)
    else
      .next ((s.setFld kBsts bsts_cal_state 3).fault
        { family := 8, cause := 1, frame := (s.job.n0 + s.berthFrames) % 2 ^ 48 })
  else .next s

/-! ### The berth combine (R389, R391, R392) -/

/-- Position `p` may be included in frame `f`: it is not out, or its rejoin takes effect by then (R392). -/
def State.mayInclude (s : State) (p f : Nat) : Bool :=
  match mget none s.berth.out p with
  | none => true
  | some r => r.ok && (match r.start with
    | some n => decide (Int.ofNat s.berthFrames ≤ frameIndex n f)
    | none => false)

/-- A list of summaries combined (R389, R397): accept and raw OR, void when every one is void. -/
def combine (frame module excluded tail : Nat) (faulted : Bool) (l : List Summ) : Summ := {
  frame := frame
  accept := l.foldl (fun a m => a ||| m.accept) 0
  raw := l.foldl (fun a m => a ||| m.raw) 0
  void := l.all (fun m => m.void)
  faulted := faulted
  module := module
  excluded := min excluded 65535
  included := l.length
  tail := tail }

/-- In moored mode a peer that is missing or faulted is a berth fault in place of an exclusion (R391). -/
def State.mooredPeer (s : State) (f p : Nat) (x : Option SummRec) : State :=
  if s.moored then
    match x with
    | none => s.berthFault 2 f (s.bundleTo p)
    | some r => if r.m.faulted then s.berthFault 3 f (s.bundleTo p) else s
  else s

/-- What the close of frame `f` says of peer `p` that restarted (R392): its rejoin has failed when its report frames are
over without success. -/
def State.judgePeer (s : State) (f p : Nat) : State :=
  match mget none s.berth.out p with
  | none => s
  | some r =>
    match r.start with
    | some n => if !r.ok ∧ !r.failed ∧ Int.ofNat s.berthFrames ≤ frameIndex n f then s.rejoinFails (s.bundleTo p) else s
    | none => s

/-- The close of the berth combine of frame `f`, due in clk `c` (R389). -/
def State.closeBerth (s : State) (f c : Nat) : State :=
  let find := fun (p : Nat) => s.berth.peers.find? (fun r => r.src == p && r.m.frame == f && decide (r.clk < c))
  let others := (List.range s.berthSize).filter (fun p => p != s.position)
  let ok := others.filter (fun p => (match find p with | some r => !r.m.faulted | none => false) && s.mayInclude p f)
  let inc := ok ++ [s.position]
  let ms := inc.filterMap (fun p => (find p).map (fun r => r.m))
  let map := (inc.map (fun p => 2 ^ p)).sum
  let res := combine f s.moduleNumber (others.length - ok.length) map s.sendsFaulted ms
  let s := s.setFld kBsts bsts_included map
  let s := if s.moored then others.foldl (fun s p => s.mooredPeer f p (find p)) s
    else s.bumpBy (key 0x2D00 3) cnt48 (others.length - ok.length)
  let s := others.foldl (fun s p => s.judgePeer f p) s
  { s with berth := { s.berth with
    peers := s.berth.peers.filter (fun r => later r.m.frame f)
    out := s.berth.out.filter (fun e => !ok.contains e.1)
    result := s.berth.result ++ [{ src := s.position, clk := c + 2, m := res }] } }

/-- BERTH_COMBINE_CLOSE (R389): in count nF + C + 12 + d_b, frame by frame. -/
def execBerthCombineClose (s : State) : Host.Outcome State Fault Refusal :=
  let n := s.berth.nextClose
  let c := s.job.s0 + s.sendCount n + s.dBerth
  if s.fld kBsts bsts_cal_state = 2 ∧ s.job.bound ∧ c ≤ s.clk then
    let s := { s with berth := { s.berth with nextClose := n + 1 } }
    .next (s.closeBerth ((s.job.n0 + n) % 2 ^ 48) c)
  else .next s

/-- A berth result becomes readable (R389, R390, R396): it forms the berth's capture request, and position 0 sends it on
its uplink or keeps it. -/
def State.berthResult (s : State) (r : SummRec) : State :=
  let s := if s.flag (key 0x2D00 1) bctl_berth_capture && !r.m.void && s.running then
    s.acceptRequest 0 r.m.frame r.m.accept r.m.raw else s
  if s.inHarbour ∧ s.position = 0 then
    if s.jettyHead then { s with berth := { s.berth with jetty := s.berth.jetty ++ [{ r with src := 0 }] } }
    else if s.hasUplink then s.sendSumm 31 1 r.m
    else s
  else s

/-- Every berth result readable in this clk. -/
def State.tickBerth (s : State) : State :=
  let due := s.berth.result.filter (fun r => decide (r.clk ≤ s.clk))
  if due.isEmpty then s
  else due.foldl State.berthResult { s with berth := { s.berth with
    result := s.berth.result.filter (fun r => !decide (r.clk ≤ s.clk)) } }

/-! ### Berth words (R386) -/

/-- Clk between words by the rate of a bundle. -/
def wordGap : Nat → Nat
  | 0 => 24
  | 1 => 10
  | 2 => 5
  | _ => 3

/-- Berth peer word of eaves port `p`. -/
def kPeer (p : Nat) : Nat := key (0x2D50 + p) 1

/-- BERTH_WORD_SEND (R386): the head of inbound queue 15 of a bound port sets out, one word every g clk. -/
def execBerthWordSend (port : Nat) (s : State) : Host.Outcome State Fault Refusal :=
  if eavesOk s.grade port then
    let k := s.fld (kPeer port) peer_bundle
    match mget [] s.net.inq (16 * port + 15) with
    | [] => .next s
    | w :: ws =>
      if s.flag (kPeer port) peer_enable ∧ s.berthBundle k ∧ mget 0 s.berth.wordNext k ≤ s.clk then
        let s := { s with
          net := { s.net with inq := mset [] s.net.inq (16 * port + 15) ws }
          berth := { s.berth with wordNext := mset 0 s.berth.wordNext k (s.clk + wordGap (s.bundleRate k)) } }
        .next (s.sendBlocks k [0, 1, 2] (wordBlocks (w.tag.getD 0) w.word))
      else .next s
  else .next s

/-- BERTH_WORD (R386): a word is complete; past its delivery clk it is late, where BERTH_WORD_DELIVERY has not told so in
that clk. -/
def execBerthWord (k word sent : Nat) (s : State) : Host.Outcome State Fault Refusal :=
  if k < 32 then
    let s := s.hearWord k sent word
    if s.hears k ∧ s.job.bound then
      let delta := (s.clk - s.job.s0 + 2 ^ 24 - sent % 2 ^ 24) % 2 ^ 24
      if s.dBerth < delta then .next (if s.active then s.berthFault 5 0 k else s)
      else .next { s with berth := { s.berth with
        wordIn := mset [] s.berth.wordIn k (mget [] s.berth.wordIn k ++ [(s.clk + (s.dBerth - delta), word)]) } }
    else .next s
  else .next s

/-- The eaves port bound to bundle `k`. -/
def State.boundPort (s : State) (k : Nat) : Option Nat :=
  (List.range 40).find? (fun p => eavesOk s.grade p && s.flag (kPeer p) peer_enable && s.fld (kPeer p) peer_bundle == k)

/-- The word at the head of those that bundle `k` brought joins outbound queue 15 once its count has come, or overflows
it (R386). -/
def State.deliverWord (s : State) (k : Nat) : State :=
  match mget [] s.berth.wordIn k with
  | [] => s
  | e :: es =>
    if e.1 ≤ s.clk then
      let s := { s with berth := { s.berth with wordIn := mset [] s.berth.wordIn k es } }
      match s.boundPort k with
      | none => s
      | some p =>
        let q := mget [] s.net.outq (16 * p + 15)
        if 32 ≤ q.length then s.berthFault 6 0 k
        else { s with net := { s.net with outq := mset [] s.net.outq (16 * p + 15) (q ++ [{ word := e.2 }]) } }
    else s

/-- BERTH_WORD_DELIVERY (R386): a word's send count plus d_b has come: it is delivered, or faults late_word when it is not
complete. The words of a bundle complete in order, so none is due where one is complete whose count is to come. A
complete word's delivery also comes by itself (State.runBerth). -/
def execBerthWordDelivery (k : Nat) (s : State) : Host.Outcome State Fault Refusal :=
  if s.berthBundle k ∧ s.job.bound then
    .next (if mget [] s.berth.wordIn k = [] then s.berthFault 5 0 k else s.deliverWord k)
  else .next s

/-! ### Jetties and the harbour (R394 to R400) -/

/-- RELAY_MESSAGE (R380, R396): what an uplink brought goes to position 0, in the clk after it is complete, as a relay
message that names its kind. -/
def execRelayMessage (m : Summ) (kind : Nat) (s : State) : Host.Outcome State Fault Refusal :=
  let s := s.hearSumm 31 kind m
  if s.inHarbour ∧ s.position ≠ 0 ∧ s.hasUplink then
    .next (s.sendSumm (s.bundleTo 0) 6 { m with tail := m.tail % 2 ^ 60 + 2 ^ 60 * kind })
  else .next s

/-- τ(N) of frame `f` (R397). -/
def State.tau (s : State) (f : Nat) : Nat := s.globalTime (s.job.s0 + (frameIndex s.job.n0 f).toNat * s.F)

/-- A frame of harbour calibration (R399): one of the cal_frames after the berth entered RUNNING. -/
def State.skewFrame (s : State) (f : Nat) : Bool :=
  let n := frameIndex s.job.n0 f
  decide ((s.berthFrames : Int) ≤ n) && decide (n < s.berthFrames + s.calFrames)

/-- How late frame `f`'s summary is that has arrived: whole ns after τ, rounded (R21, R399). -/
def State.lateNs (s : State) (f : Nat) : Nat := (roundTa ((s.now : Int) - s.tau f) (2 ^ 32)).toNat

/-- Contributor `src` of a combine sends frame `f` (R398): after a gap of cal_frames or more, counted from the head's
own first running frame for one that has sent none, its berth has been armed again, and it is marked no longer. DESIGN
CHOICE (log entry 55): no message tells of an arming. -/
def State.unmarks (s : State) (last : SMap Nat) (marked : List Nat) (src : Nat) (m : Summ) : List Nat :=
  let l := mget 0 last src
  let before := if l = 0 then (s.job.n0 + s.berthFrames) % 2 ^ 48 else l - 1
  if !m.faulted ∧ Int.ofNat s.calFrames < frameIndex before m.frame then marked.filter (fun p => p != src) else marked

/-- Module number of the module that formed contributor `src`'s summary of `kind`, which the wiring of R394 brings:
position 0 of member berth `src` of the jetty, or of the head of jetty `src`. -/
def State.uplinkModule (s : State) (kind src : Nat) : Nat := if kind = 1 then 32 * (s.berthNo + src) else 32 * (16 * src)

/-- UPLINK_SUMMARY (R397, R399): a berth summary (kind 1) reaches its jetty head, or a jetty summary (kind 2) the
harbour head; `src` is the berth's or the jetty's number at that head, and names the position whose relay message
brings it (R394, R396). One that another module formed shows uplinks that are not wired as R394 obliges, for which no
other behaviour is stated: it faults an active job (R7, family 13 of R532). -/
def execUplinkSummary (m : Summ) (kind src : Nat) (s : State) : Host.Outcome State Fault Refusal :=
  let k := s.bundleTo (if kind = 1 then src else 16 + src)
  let s := s.hearSumm k 6 { m with tail := m.tail % 2 ^ 60 + 2 ^ 60 * kind }
  let r : SummRec := { src := src, clk := s.clk, m := m }
  let late := s.lateNs m.frame
  if !s.job.bound ∨ !s.hears k then .next s
  else if s.active ∧ (kind = 1 ∧ s.jettyHead ∨ kind = 2 ∧ s.harbourHead) ∧ m.module ≠ s.uplinkModule kind src then
    .next (s.fault { family := 13, cause := 1 })
  else if kind = 1 ∧ s.jettyHead then
    let s := { s with berth := { s.berth with
      jetty := s.berth.jetty ++ [r]
      jettyMarked := s.unmarks s.berth.jettyLast s.berth.jettyMarked src m
      jettyLast := mset 0 s.berth.jettyLast src (m.frame + 1) } }
    .next (if s.skewFrame m.frame then { s with berth := { s.berth with jettySkew := max s.berth.jettySkew late } } else s)
  else if kind = 2 ∧ s.harbourHead then
    let s := { s with berth := { s.berth with
      harbour := s.berth.harbour ++ [r]
      harbourMarked := s.unmarks s.berth.harbourLast s.berth.harbourMarked src m
      harbourLast := mset 0 s.berth.harbourLast src (m.frame + 1) } }
    .next (if s.skewFrame m.frame then { s with berth := { s.berth with harbourSkew := max s.berth.harbourSkew late } } else s)
  else .next s

/-- Members of this head's jetty: the berths of the harbour in it. -/
def State.jettySize (s : State) : Nat := min 16 (s.fld kHctl hctl_harbour_berths - s.berthNo)

/-- Jetties of the harbour. -/
def State.jetties (s : State) : Nat := (s.fld kHctl hctl_harbour_berths + 15) / 16

/-- Patient mode with its skew bounds measured (R398). -/
def State.patient (s : State) : Bool := s.flag kHctl hctl_patient && s.berth.skewDone

/-- Deadline of a combine in ns (R398). -/
def State.deadline (s : State) (jetty : Bool) : Nat :=
  if jetty then (if s.patient then s.fld kSkb skb_s_jetty else s.fld (key 0x2D40 2) hdl_jetty_deadline)
  else if s.patient then s.fld kSkb skb_s_harbour else s.fld (key 0x2D40 2) hdl_harbour_deadline

/-- The combine of frame `f` over `size` contributors from what arrived by its close: the result, and the contributors
that are not included (R397, R398). -/
def State.combineAt (s : State) (f size : Nat) (jetty : Bool) (l : List SummRec) (marked : List Nat) :
    Summ × List Nat :=
  let close := s.tau f + s.deadline jetty * 2 ^ 32
  let find := fun (p : Nat) => l.find? (fun r => r.src == p && r.m.frame == f &&
    (p == 0 || (decide (s.globalTime r.clk ≤ close) && !r.m.faulted)))
  let ok := (List.range size).filter (fun p => (find p).isSome && (p == 0 || (s.timeLocked && !marked.contains p)))
  let ms := ok.filterMap (fun p => (find p).map (fun r => r.m))
  let out := (List.range size).filter (fun p => !ok.contains p)
  let excl := (ms.map (fun m => m.excluded)).sum + out.length
  (combine f s.moduleNumber excl ((ok.map (fun p => 2 ^ p)).sum) s.sendsFaulted ms, out)

/-- JETTY_COMBINE_CLOSE (R396 to R398): at τ(N) + D the jetty head closes and sends on its uplink; the harbour head keeps
its own. -/
def execJettyCombineClose (s : State) : Host.Outcome State Fault Refusal :=
  let n := s.berth.jettyNext
  let f := (s.job.n0 + n) % 2 ^ 48
  if s.jettyHead ∧ s.job.bound ∧ s.fld kBsts bsts_cal_state = 2 ∧ s.tau f + s.deadline true * 2 ^ 32 ≤ s.now then
    let r := s.combineAt f s.jettySize true s.berth.jetty s.berth.jettyMarked
    let s := { s with berth := { s.berth with
      jettyNext := n + 1
      jetty := s.berth.jetty.filter (fun x => later x.m.frame f)
      jettyMarked := if s.patient && s.timeLocked then s.berth.jettyMarked ++
        r.2.filter (fun p => !s.berth.jettyMarked.contains p) else s.berth.jettyMarked } }
    if s.harbourHead then
      .next { s with berth := { s.berth with harbour := s.berth.harbour ++ [{ src := 0, clk := s.clk, m := r.1 }] } }
    else .next (if s.hasUplink then s.sendSumm 31 2 r.1 else s)
  else .next s

/-- What every module does with a harbour combine (R400): exclusions, class counts, and a capture of origin host,
after the requests that the slots of this clk form (R321). -/
def State.takeCombine (s : State) (m : Summ) : State :=
  let s := s.bumpBy (key 0x2D40 4) cnt48 m.excluded
  let s := (List.range 8).foldl (fun s c => if bit m.accept c then s.bump (key (0x2D48 + c) 1) cnt48 else s) s
  if s.flag kHctl hctl_harbour_capture ∧ s.active then
    s.releaseSlots.acceptRequest 1 m.frame m.accept m.raw else s

/-- Every peer of the berth is sent a combine. -/
def State.toPeers (s : State) (m : Summ) : State := s.bundles.foldl (fun s k => s.sendSumm k 3 m) s

/-- HARBOUR_COMBINE_CLOSE (R397, R398, R400). -/
def execHarbourCombineClose (s : State) : Host.Outcome State Fault Refusal :=
  let n := s.berth.harbourNext
  let f := (s.job.n0 + n) % 2 ^ 48
  if s.harbourHead ∧ s.job.bound ∧ s.fld kBsts bsts_cal_state = 2 ∧ s.tau f + s.deadline false * 2 ^ 32 ≤ s.now then
    let r := s.combineAt f s.jetties false s.berth.harbour s.berth.harbourMarked
    let s := { s with berth := { s.berth with
      harbourNext := n + 1
      harbour := s.berth.harbour.filter (fun x => later x.m.frame f)
      harbourMarked := if s.patient && s.timeLocked then s.berth.harbourMarked ++
        r.2.filter (fun p => !s.berth.harbourMarked.contains p) else s.berth.harbourMarked } }
    .next ((s.toPeers r.1).takeCombine r.1)
  else .next s

/-- HARBOUR_COMBINE (R400): position 0 sends it to its peers, another position down its uplink; each takes it. -/
def execHarbourCombine (m : Summ) (s : State) : Host.Outcome State Fault Refusal :=
  let s := s.hearSumm (if s.position = 0 then 31 else s.bundleTo 0) 3 m
  if s.inHarbour ∧ (s.position = 0 ∨ s.hears (s.bundleTo 0)) then
    let s := if s.position = 0 then s.toPeers m else if s.hasUplink then s.sendSumm 31 3 m else s
    .next (s.takeCombine m)
  else .next s

/-- The closes of every frame of harbour calibration are past at this head (R399). -/
def State.skewClosed (s : State) : Bool :=
  decide (s.berthFrames + s.calFrames ≤ s.berth.jettyNext) &&
    (!s.harbourHead || decide (s.berthFrames + s.calFrames ≤ s.berth.harbourNext))

/-- Every contributor's summary of the last frame of harbour calibration has come (R399). -/
def State.skewHeard (s : State) : Bool :=
  let f := (s.job.n0 + s.berthFrames + s.calFrames - 1) % 2 ^ 48
  let came := fun (last : SMap Nat) (p : Nat) => p == 0 || (mget 0 last p != 0 && decide (0 ≤ frameIndex f (mget 0 last p - 1)))
  (List.range s.jettySize).all (came s.berth.jettyLast) &&
    (!s.harbourHead || (List.range s.jetties).all (came s.berth.harbourLast))

/-- HARBOUR_CALIBRATION_END (R399): the skew bounds are the largest lateness measured plus harbour_guard, once the
closes of its frames are past. By itself it comes when every contributor's last summary has (State.runBerth; DESIGN
CHOICE, log entry 55). -/
def execHarbourCalibrationEnd (s : State) : Host.Outcome State Fault Refusal :=
  if s.jettyHead ∧ s.job.bound ∧ !s.berth.skewDone ∧ s.fld kBsts bsts_cal_state = 2 ∧ s.skewClosed then
    let g := s.fld kHctl hctl_harbour_guard
    let cap := fun (v : Nat) => min v (2 ^ 32 - 1)
    let s := s.setFld kSkb skb_s_jetty (cap (s.berth.jettySkew + g))
    let s := if s.harbourHead then s.setFld kSkb skb_s_harbour (cap (s.berth.harbourSkew + g)) else s
    .next { s with berth := { s.berth with skewDone := true } }
  else .next s

end Sys2Proof.Machine
end

