-- ==== Sys2Proof/Machine/TileArray.lean ====
section
/-! DEFINITION. The array unit and the activation load (R211 to R217): XLD, WLD, WSWP, MAC and CMAC. -/

namespace Sys2Proof.Machine

/-- The 32 bytes of an activation source (R214, R216): codes 0 latch, 1 SRAM, 2 tide, 3 west rafter, 4 north rafter.
An empty port raises empty_receive with its crossing class or port (R181), a failed check its allocation fault. `k`
is what the instruction does with them. -/
def State.actSource (s : State) (p paddr src ptr offset slice : Nat) (k : State → List Nat → State) : State :=
  let port := fun (reg cls : Nat) => match s.reg (regKey p reg) with
    | some w => k (s.markRead (regKey p reg)) (sliceOf w.word slice)
    | none => s.emptyReceive p paddr cls
  match src with
  | 0 => k s (s.tile p).x
  | 1 =>
    let a := (s.tile p).preg ptr + offset
    s.checked p paddr [(a, 32, false)] [⟨0, 0⟩] (k s (s.sram p a 32))
  | 2 => port 5 4
  | 3 => port 6 5
  | _ => port 7 4

/-- XLD (R216, R217): the latch holds the 32 bytes from clk t + 1. -/
def execXld (t : Iss) (src ptr : Nat) (postInc : Bool) (slice offset : Nat) (s : State) :
    Host.Outcome State Fault Refusal :=
  s.issue (.xld t src ptr postInc slice offset) t 3 1 fun s a =>
    s.actSource t.tile a src ptr offset slice fun s' codes =>
      s'.plan t.tile ([s.pendAt a 2 0 (.latch codes)] ++
        if src = 1 ∧ postInc then [s.pendAt a 2 0 (.preg ptr ((s.tile t.tile).preg ptr + 32))] else [])

/-- WLD (R211, R212): the bank that is inactive in clk t; complete at the end of clk t + c. The fill reads 1 KiB in
each of its clk, the codes in order and then the zero points. -/
def execWld (t : Iss) (ptr laneBase chunksM : Nat) (zpSram : Bool) (zwImm : Nat) (s : State) :
    Host.Outcome State Fault Refusal :=
  let c := chunksM + 1 + if zpSram then 1 else 0
  s.issue (.wld t ptr laneBase chunksM zpSram zwImm) t 2 c fun s a =>
    let x := s.tile t.tile
    let base := x.preg ptr
    let b := 1 - x.active
    s.checked t.tile a [(base, 1024 * (chunksM + 1) + (if zpSram then 32 * (chunksM + 1) else 0), false)] [⟨0, 1024⟩]
      ((s.setTile t.tile { x with fillBank := b, fillDone := s.clk + c }).plan t.tile
        [s.pendAt a 0 0 (.rdFill b (32 * laneBase) base (chunksM + 1) 0 zpSram zwImm [])])

/-- WSWP (R213): the inactive bank becomes active from clk t + 1; early_swap while its WLD is not complete. -/
def execWswp (t : Iss) (s : State) : Host.Outcome State Fault Refusal :=
  s.issue (.wswp t) t 0 0 fun s a =>
    let x := s.tile t.tile
    if x.fillBank = 1 - x.active ∧ s.clk < x.fillDone then (s.noWrites t.tile).tileFault 2 2 t.tile a 0
    else s.plan t.tile [s.pendAt a 0 0 .swap]

/-- The dot products of every lane with the active bank, zero lanes left out (R125, R215). -/
def Tile.dots (x : Tile) (o : MacOps) (codes : List Nat) : SMap Int :=
  ((List.range 1024).map (fun u =>
    (u, dot o.k4 o.xSigned o.wSigned o.zx codes (mget zeroLane (x.bankOf x.active) u)))).filter (fun e => e.2 != 0)

/-- What MAC and CMAC do once they issue (R215): operands in clk t, destination in clk t + 4. -/
def State.macEffect (s : State) (t : Iss) (o : MacOps) (clear : Bool) (tag a : Nat) : State :=
  let x := s.tile t.tile
  s.actSource t.tile a o.src o.ptr 0 o.slice fun s' codes =>
    s'.plan t.tile ([s.pendAt a 0 4 (.mac o.dest clear (x.dots o codes) tag)]
      ++ (if o.src ≠ 0 then [s.pendAt a 0 0 (.latch codes)] else [])
      ++ if o.src = 1 ∧ o.postInc then [s.pendAt a 0 0 (.preg o.ptr (x.preg o.ptr + 32))] else [])

/-- MAC (R214, R215). -/
def execMac (t : Iss) (o : MacOps) (s : State) : Host.Outcome State Fault Refusal :=
  s.issue (.mac t o) t 1 1 fun s a => s.macEffect t o false 0 a

/-- CMAC (R214, R215): acc_exp is 0 and the tag is named by phase register and position (R130, R162). -/
def execCmac (t : Iss) (o : MacOps) (phaseReg position : Nat) (s : State) : Host.Outcome State Fault Refusal :=
  s.issue (.cmac t o phaseReg position) t 1 1 fun s a => s.macEffect t o true ((s.tile t.tile).tagFrom phaseReg position) a

end Sys2Proof.Machine
end

