-- ==== Sys2Proof/Machine/TileMove.lean ====
section
/-! DEFINITION. The mover (R237 to R243): rafter and slipway words, tide words and descriptors, and scale blocks. A
word that an instruction reads counts as read, whichever of its checks fails. -/

namespace Sys2Proof.Machine

/-- Post-increment of p[ptr] in clk t. -/
def State.incPend (s : State) (p a ptr n : Nat) (postInc : Bool) : List Pend :=
  if postInc then [s.pendAt a 2 0 (.preg ptr ((s.tile p).preg ptr + n))] else []

/-- Register and crossing class of a rafter input: 0 west, 1 north (R197, R237). -/
def rafterIn (dir : Nat) : Nat × Nat := if dir = 0 then (6, 5) else (7, 4)

/-- RSND (R238). -/
def execRsnd (t : Iss) (dir ptr lenM : Nat) (postInc : Bool) (s : State) : Host.Outcome State Fault Refusal :=
  s.issue (.rsnd t dir ptr lenM postInc) t 3 1 fun s a =>
    let len := 64 * (lenM + 1)
    let p := (s.tile t.tile).preg ptr
    s.checked t.tile a [(p, len, false)] [⟨0, 0⟩]
      (s.plan t.tile (s.pendAt a 2 0 (.rafter (dir == 1) (leNat (s.sram t.tile p len)))
        :: s.incPend t.tile a ptr len postInc))

/-- What RRCV and SRCV do with the word of their input (R238): empty_receive, no_tag in clk t, then the store of clk
t + 1 with its allocation check (R210). A word that is read counts as read whatever follows (R174). -/
def State.receive (s : State) (p a dir ptr lenM : Nat) (postInc tagEn : Bool) (sdst pdst : Nat) : State :=
  let rc := rafterIn dir
  let len := 64 * (lenM + 1)
  let base := (s.tile p).preg ptr
  match s.reg (regKey p rc.1) with
  | none => s.emptyReceive p a rc.2
  | some w =>
    let s := s.markRead (regKey p rc.1)
    let store := fun (more : List Pend) => s.checked p a [(base, len, true)] [⟨1, 0⟩]
      (s.plan p (s.pendAt a 2 1 (.sram base (leBytes len w.word)) :: s.incPend p a ptr len postInc ++ more))
    if tagEn then
      match w.tag with
      | none => s.tileFault 6 8 p a 0
      | some g => store [s.pendAt a 2 0 (.sreg sdst (g % 2 ^ 32)), s.pendAt a 2 0 (.pflag pdst (bit g 48))]
    else store []

/-- RRCV (R238). -/
def execRrcv (t : Iss) (dir ptr lenM : Nat) (postInc : Bool) (s : State) : Host.Outcome State Fault Refusal :=
  s.issue (.rrcv t dir ptr lenM postInc) t 3 1 fun s a => s.receive t.tile a dir ptr lenM postInc false 0 0

/-- SRCV (R238). -/
def execSrcv (t : Iss) (dir ptr lenM : Nat) (postInc tagEn : Bool) (sdst pdst : Nat) (s : State) :
    Host.Outcome State Fault Refusal :=
  s.issue (.srcv t dir ptr lenM postInc tagEn sdst pdst) t 3 1 fun s a => s.receive t.tile a dir ptr lenM postInc tagEn sdst pdst

/-- A 64-byte word into the router's local input register, with its sideband kind (R239, R263). -/
def State.tideSend (s : State) (p a ptr kind : Nat) (postInc : Bool) : State :=
  let base := (s.tile p).preg ptr
  s.checked p a [(base, 64, false)] [⟨0, 0⟩]
    (s.plan p (s.pendAt a 2 0 (.tide (leNat (s.sram p base 64)) kind) :: s.incPend p a ptr 64 postInc))

/-- TSND (R239). -/
def execTsnd (t : Iss) (ptr : Nat) (postInc : Bool) (s : State) : Host.Outcome State Fault Refusal :=
  s.issue (.tsnd t ptr postInc) t 3 1 fun s a => s.tideSend t.tile a ptr 0 postInc

/-- TDI: the word carries the descriptor flag (R239). -/
def execTdi (t : Iss) (ptr : Nat) (postInc : Bool) (s : State) : Host.Outcome State Fault Refusal :=
  s.issue (.tdi t ptr postInc) t 3 1 fun s a => s.tideSend t.tile a ptr 1 postInc

/-- TRCV (R239). -/
def execTrcv (t : Iss) (ptr : Nat) (postInc : Bool) (s : State) : Host.Outcome State Fault Refusal :=
  s.issue (.trcv t ptr postInc) t 3 1 fun s a =>
    let base := (s.tile t.tile).preg ptr
    match s.reg (regKey t.tile 5) with
    | none => s.emptyReceive t.tile a 4
    | some w =>
      let s := s.markRead (regKey t.tile 5)
      s.checked t.tile a [(base, 64, true)] [⟨1, 0⟩]
        (s.plan t.tile (s.pendAt a 2 1 (.sram base (leBytes 64 w.word)) :: s.incPend t.tile a ptr 64 postInc))

/-- The checks of a scale block's header (R243): bad_count and load_tag; `k` when both pass. -/
def State.headerCheck (s : State) (p a buf expected : Nat) (img : List Nat) (k : State) : State :=
  let h := leNat (img.take 4)
  if bits h 24 6 = 0 ∨ 32 < bits h 24 6 then s.scaleFault p a 5 buf 0 0 0
  else if bits h 8 16 ≠ expected then s.scaleFault p a 2 buf 0 expected (bits h 8 16)
  else k

/-- SLLD (R241, R243). -/
def execSlld (t : Iss) (buf ptr phaseReg position : Nat) (s : State) : Host.Outcome State Fault Refusal :=
  s.issue (.slld t buf ptr phaseReg position) t 3 1 fun s a =>
    let x := s.tile t.tile
    let img := s.sram t.tile (x.preg ptr) 68
    s.checked t.tile a [(x.preg ptr, 68, false)] [⟨0, 0⟩]
      (s.headerCheck t.tile a buf (x.tagFrom phaseReg position) img
        (s.plan t.tile [s.pendAt a 2 1 (sbLoadOf buf img)]))

/-- SLST (R241, R243). -/
def execSlst (t : Iss) (buf ptr : Nat) (s : State) : Host.Outcome State Fault Refusal :=
  s.issue (.slst t buf ptr) t 3 1 fun s a =>
    let x := s.tile t.tile
    match (x.sb buf).unwritten with
    | some i => s.scaleFault t.tile a 4 buf i 0 0
    | none =>
      s.checked t.tile a [(x.preg ptr, 68, true)] [⟨1, 0⟩]
        (s.plan t.tile [s.pendAt a 2 1 (.sram (x.preg ptr) (x.sb buf).image)])

/-- SLSND (R240, R242, R243): one rafter word, or two tide words in consecutive clk. -/
def execSlsnd (t : Iss) (buf port : Nat) (s : State) : Host.Outcome State Fault Refusal :=
  s.issue (.slsnd t buf port) t 3 (if port = 2 then 2 else 1) fun s a =>
    let x := s.tile t.tile
    let img := (x.sb buf).image
    match (x.sb buf).unwritten with
    | some i => s.scaleFault t.tile a 4 buf i 0 0
    | none =>
      if port = 2 then
        s.plan t.tile [s.pendAt a 2 0 (.tide (leNat (img.take 64)) 0), s.pendAt a 2 1 (.tide (leNat (img.drop 64)) 0)]
      else s.plan t.tile [s.pendAt a 2 0 (.rafter (port == 1) (leNat img))]

/-- SLRCV (R240, R242, R243): from the tide port, word 1 is read in clk t + 1 once word 0 passes its checks. -/
def execSlrcv (t : Iss) (buf port phaseReg position : Nat) (s : State) : Host.Outcome State Fault Refusal :=
  s.issue (.slrcv t buf port phaseReg position) t 3 (if port = 2 then 2 else 1) fun s a =>
    let expected := (s.tile t.tile).tagFrom phaseReg position
    if port = 2 then
      match s.reg (regKey t.tile 5) with
      | none => s.emptyReceive t.tile a 4
      | some w =>
        let img := leBytes 64 w.word
        let s := s.markRead (regKey t.tile 5)
        s.headerCheck t.tile a buf expected img (s.plan t.tile [s.pendAt a 2 1 (.rdTide2 buf img)])
    else
      let rc := rafterIn port
      match s.reg (regKey t.tile rc.1) with
      | none => s.emptyReceive t.tile a rc.2
      | some w =>
        let img := leBytes 68 w.word
        let s := s.markRead (regKey t.tile rc.1)
        s.headerCheck t.tile a buf expected img (s.plan t.tile [s.pendAt a 2 1 (sbLoadOf buf img)])

end Sys2Proof.Machine
end

