-- ==== Sys2Proof/Machine/TilePost.lean ====
section
/-! DEFINITION. The post unit (R218 to R228): BIAS, SCAN, SBTRK, SBOPN, RQ, LTLD, LUT, AADD, AMAX and GATH. A row has
n = 32 (n_m + 1) lanes in q chunks of 64; the clk of each read and write are those of R218. -/

namespace Sys2Proof.Machine

/-- Lanes of a row field (R132). -/
def lanesOf (nM : Nat) : Nat := 32 * (nM + 1)

/-- BIAS (R133, R219). -/
def execBias (t : Iss) (file nM ptr : Nat) (s : State) : Host.Outcome State Fault Refusal :=
  s.issue (.bias t file nM ptr) t 4 (chunks (lanesOf nM)) fun s a =>
    let base := (s.tile t.tile).preg ptr
    s.checked t.tile a [(base, 4 * lanesOf nM, false)] [⟨0, 256⟩]
      (s.plan t.tile [s.pendAt a 1 0 (.rdBias file (lanesOf nM) base 0)])

/-- SCAN (R134, R219): the largest magnitude, in the s register in clk t + q + 1. -/
def execScan (t : Iss) (file nM sdst : Nat) (s : State) : Host.Outcome State Fault Refusal :=
  s.issue (.scan t file nM sdst) t 4 (chunks (lanesOf nM)) fun s a => s.plan t.tile [s.pendAt a 1 0 (.rdScan file (lanesOf nM) sdst 0 0)]

/-- SBTRK (R220). -/
def execSbtrk (t : Iss) (buf ptr : Nat) (trackExp : Int) (kM frac : Nat) (s : State) :
    Host.Outcome State Fault Refusal :=
  s.issue (.sbtrk t buf ptr trackExp kM frac) t 4 1 fun s a =>
    s.plan t.tile [s.pendAt a 1 0 (.sbTrack buf ((s.tile t.tile).preg ptr) trackExp (kM + 1) frac)]

/-- SBOPN (R221, R222): the block context in clk t, the estimates in t + 2, the header in t + 3. -/
def execSbopn (t : Iss) (o : SbopnOps) (s : State) : Host.Outcome State Fault Refusal :=
  s.issue (.sbopn t o) t 4 4 fun s a =>
    let x := s.tile t.tile
    let tag := x.tagFrom o.phaseReg o.position
    let n := o.countM + 1
    let ctx := s.pendAt a 1 0 (.sbCtx o.buf o.src o.target o.h o.layer)
    if o.src = 0 then s.plan t.tile [ctx, s.pendAt a 1 3 (.sbOpen o.buf tag n none false [])]
    else
      s.checked t.tile a ((List.range n).map (fun i => ((x.sb o.buf).tbase + 4 * ((o.position + i) % 4096), 4, false)))
        (List.replicate n ⟨2, 0⟩)
        (s.plan t.tile [ctx, s.pendAt a 1 2 (.rdOpen o.buf tag n)])

/-- The input scale of an RQ (R224): mantissa and exponent, or the cause and slot of its fault. -/
def Tile.rqInput (x : Tile) (o : RqOps) : (Nat × Int) ⊕ (Nat × Nat) :=
  if o.inUnit then .inl (0, 0)
  else
    let b := x.sb (1 - o.dbuf)
    if b.count ≤ o.inSlot then .inr (3, o.inSlot)
    else if !b.has o.inSlot then .inr (4, o.inSlot)
    else .inl ((b.ent o.inSlot).mant, b.expOf o.inSlot)

/-- The tracking context of the block a buffer holds: of a block that SBOPN opened, as SBOPN read it (R222, R224); of
a loaded block, as SBTRK set it last (R243). Base, exponent, k and fraction. -/
def SBuf.ctx (b : SBuf) : Nat × Int × Nat × Nat :=
  if b.opened then (b.obase, b.oexp, b.ok, b.ofrac) else (b.tbase, b.texp, b.tk, b.frac)

/-- What an RQ captures in clk t (R224). DESIGN CHOICE (log entry 71): acc_exp of the file, and block_exp and
the contexts of the destination buffer, are captured in clk t with the row tag; R218 and R224 give no clk for them. A slot of
a loaded block for which no SBOPN has read an estimate has est 0 (DESIGN CHOICE, log entry 79). -/
def Tile.rqCap (x : Tile) (o : RqOps) (mIn : Nat) (eIn : Int) : RqCap :=
  let b := x.sb o.dbuf
  { file := o.file
    n := lanesOf o.nM
    dst := x.preg o.ptr
    dbuf := o.dbuf
    dslot := o.dslot
    fmul := (256 + mIn) * (256 + o.mK)
    fexp := eIn + o.eK
    aexp := (x.file o.file).exp
    src := b.src
    target := b.target
    head := b.head
    layer := b.layer
    bexp := b.bexp
    est := mget 0 b.est o.dslot
    texp := b.ctx.2.1
    tk := b.ctx.2.2.1
    frac := b.ctx.2.2.2
    taddr := b.ctx.1 + 4 * (b.tagOf o.dslot % 4096)
    track := b.src == 1 && !x.fvoid
    fmt := o.fmt
    zp := o.zp
    lutEn := o.lutEn
    lut := o.lut }

/-- RQ (R223, R224): a live row is scanned first and then requantised, 2 q + 3 clk; a tracked or frozen row takes its
scale from its estimate, q clk. -/
def execRq (t : Iss) (o : RqOps) (s : State) : Host.Outcome State Fault Refusal :=
  let q := chunks (lanesOf o.nM)
  let live := ((s.tile t.tile).sb o.dbuf).src == 0
  s.issue (.rq t o) t 4 (if live then 2 * q + 3 else q) fun s a =>
    let x := s.tile t.tile
    let b := x.sb o.dbuf
    let found := (x.file o.file).tag
    if b.count ≤ o.dslot then s.scaleFault t.tile a 3 o.dbuf o.dslot 0 0
    else if b.tagOf o.dslot ≠ found then s.scaleFault t.tile a 1 o.dbuf o.dslot (b.tagOf o.dslot) found
    else match x.rqInput o with
      | .inr e => s.scaleFault t.tile a e.1 (1 - o.dbuf) e.2 0 0
      | .inl m =>
        let c := x.rqCap o m.1 m.2
        let acc := [(c.dst, rowBytes c.fmt c.n, true)] ++ if c.track then [(c.taddr, 4, true)] else []
        let first := (if live then q + 7 else 4) + if o.lutEn then 1 else 0
        s.checked t.tile a acc [⟨first, rowBytes c.fmt 64⟩, ⟨q + 1, 0⟩]
          (if live then s.plan t.tile [s.pendAt a 1 0 (.rdRqScan c 0 0)]
           else
             let r := rowScale c 1
             s.plan t.tile [s.pendAt a 1 0 (.rdRqCode c r.mA r.eA false 4 0 0)])

/-- LTLD (R225). -/
def execLtld (t : Iss) (table ptr : Nat) (s : State) : Host.Outcome State Fault Refusal :=
  s.issue (.ltld t table ptr) t 4 2 fun s a =>
    let base := (s.tile t.tile).preg ptr
    s.checked t.tile a [(base, 256, false)] [⟨0, 0⟩]
      (s.plan t.tile [s.pendAt a 1 1 (.table table (s.sram t.tile base 256))])

/-- LUT (R136, R225). -/
def execLut (t : Iss) (src dst nM table inFmt outFmt : Nat) (s : State) : Host.Outcome State Fault Refusal :=
  s.issue (.lut t src dst nM table inFmt outFmt) t 4 (chunks (lanesOf nM)) fun s a =>
    let x := s.tile t.tile
    let n := lanesOf nM
    s.checked t.tile a [(x.preg src, rowBytes inFmt n, false), (x.preg dst, rowBytes outFmt n, true)]
      [⟨0, rowBytes inFmt 64⟩, ⟨2, rowBytes outFmt 64⟩]
      (s.plan t.tile [s.pendAt a 1 0 (.rdLut (x.preg src) (x.preg dst) n table inFmt outFmt 0)])

/-- The check of an operand of an aligned operation (R227): the cause of its fault, if any. -/
def Tile.alnFault (x : Tile) (o : AlnOp) : Option Nat :=
  if !o.row then none
  else if (x.sb o.buf).count ≤ o.slot then some 3
  else if !(x.sb o.buf).has o.slot then some 4
  else none

/-- What an aligned operation captures of an operand in clk t (R227). -/
def Tile.alnCap (x : Tile) (o : AlnOp) : AlnCap :=
  if o.row then
    { row := true
      file := 0
      addr := x.preg o.ptr
      fmt := o.fmt
      zp := o.zp
      m := ((x.sb o.buf).ent o.slot).mant
      e := (x.sb o.buf).expOf o.slot
      zero := ((x.sb o.buf).ent o.slot).zero }
  else
    { row := false, file := o.file, addr := 0, fmt := 0, zp := 0, m := 0, e := (x.file o.file).exp, zero := false }

/-- The tag of an operand (R162). -/
def Tile.alnTag (x : Tile) (o : AlnOp) : Nat := if o.row then (x.sb o.buf).tagOf o.slot else (x.file o.file).tag

/-- What AADD and AMAX do once they issue (R227). DESIGN CHOICE (log entry 71): the row_tag of op_x is read in clk t,
as the entries and acc_exp are. Where the checks of both rows fail, that of op_x is reported (DESIGN CHOICE, log entry 79). -/
def State.alignedEffect (s : State) (p dest nM : Nat) (mx : Bool) (ox oy : AlnOp) (a : Nat) : State :=
  let x := s.tile p
  let n := lanesOf nM
  match x.alnFault ox with
  | some c => s.scaleFault p a c ox.buf ox.slot 0 0
  | none => match x.alnFault oy with
    | some c => s.scaleFault p a c oy.buf oy.slot 0 0
    | none =>
      let acc := ([ox, oy].filter (fun o => o.row)).map (fun o => (x.preg o.ptr, rowBytes o.fmt n, false))
      s.checked p a acc (([ox, oy].filter (fun o => o.row)).map (fun o => ⟨0, rowBytes o.fmt 64⟩))
        (s.plan p [s.pendAt a 1 0 (.rdAln mx dest n (x.alnCap ox) (x.alnCap oy) (x.alnTag ox) 0)])

/-- AADD (R137, R226, R227). -/
def execAadd (t : Iss) (dest nM : Nat) (x y : AlnOp) (s : State) : Host.Outcome State Fault Refusal :=
  s.issue (.aadd t dest nM x y) t 4 (chunks (lanesOf nM)) fun s a => s.alignedEffect t.tile dest nM false x y a

/-- AMAX (R137, R226, R227). -/
def execAmax (t : Iss) (dest nM : Nat) (x y : AlnOp) (s : State) : Host.Outcome State Fault Refusal :=
  s.issue (.amax t dest nM x y) t 4 (chunks (lanesOf nM)) fun s a => s.alignedEffect t.tile dest nM true x y a

/-- GATH (R139, R228). -/
def execGath (t : Iss) (src idx dst nM nsrcM fmt zp : Nat) (s : State) : Host.Outcome State Fault Refusal :=
  let n := lanesOf nM
  let ns := lanesOf nsrcM
  s.issue (.gath t src idx dst nM nsrcM fmt zp) t 4 (chunks ns + chunks n) fun s a =>
    let x := s.tile t.tile
    s.checked t.tile a
      [(x.preg src, rowBytes fmt ns, false), (x.preg idx, 2 * n, false), (x.preg dst, rowBytes fmt n, true)]
      [⟨0, rowBytes fmt 64⟩, ⟨chunks ns, 128⟩, ⟨chunks ns + 3, rowBytes fmt 64⟩]
      (s.plan t.tile [s.pendAt a 1 0 (.rdGath (x.preg src) (x.preg idx) (x.preg dst) n ns fmt zp 0 [])])

end Sys2Proof.Machine
end

