-- ==== Sys2Proof/Machine/TileScalar.lean ====
section
/-! DEFINITION. The scalar unit (R233 to R236): wrapping 32-bit arithmetic, pointers of 25 bits, predicate flags, and
the scalar load and store. Sources are read in clk t. -/

namespace Sys2Proof.Machine

/-- A scalar instruction: `f` gives, from the tile in clk t, the write of clk t. -/
def State.scalar (s : State) (c : Instr) (t : Iss) (f : Tile → Act) : Host.Outcome State Fault Refusal :=
  s.issue c t 5 1 fun s a => s.plan t.tile [s.pendAt a 3 0 (f (s.tile t.tile))]

/-- ADD. -/
def execAdd (t : Iss) (sd sa sb : Nat) (s : State) : Host.Outcome State Fault Refusal :=
  s.scalar (.add t sd sa sb) t fun x => .sreg sd ((x.sreg sa + x.sreg sb) % 2 ^ 32)

/-- SUB. -/
def execSub (t : Iss) (sd sa sb : Nat) (s : State) : Host.Outcome State Fault Refusal :=
  s.scalar (.sub t sd sa sb) t fun x => .sreg sd (unsignedOf 32 ((x.sreg sa : Int) - x.sreg sb))

/-- AND. -/
def execAndR (t : Iss) (sd sa sb : Nat) (s : State) : Host.Outcome State Fault Refusal :=
  s.scalar (.andR t sd sa sb) t fun x => .sreg sd (x.sreg sa &&& x.sreg sb)

/-- OR. -/
def execOrR (t : Iss) (sd sa sb : Nat) (s : State) : Host.Outcome State Fault Refusal :=
  s.scalar (.orR t sd sa sb) t fun x => .sreg sd (x.sreg sa ||| x.sreg sb)

/-- XOR. -/
def execXorR (t : Iss) (sd sa sb : Nat) (s : State) : Host.Outcome State Fault Refusal :=
  s.scalar (.xorR t sd sa sb) t fun x => .sreg sd (x.sreg sa ^^^ x.sreg sb)

/-- SHL: the distance is the low five bits of the second source. -/
def execShl (t : Iss) (sd sa sb : Nat) (s : State) : Host.Outcome State Fault Refusal :=
  s.scalar (.shl t sd sa sb) t fun x => .sreg sd (x.sreg sa * 2 ^ (x.sreg sb % 32) % 2 ^ 32)

/-- SHR: zeros enter from the left. -/
def execShr (t : Iss) (sd sa sb : Nat) (s : State) : Host.Outcome State Fault Refusal :=
  s.scalar (.shr t sd sa sb) t fun x => .sreg sd (x.sreg sa / 2 ^ (x.sreg sb % 32))

/-- SRA: copies of the sign enter from the left. -/
def execSra (t : Iss) (sd sa sb : Nat) (s : State) : Host.Outcome State Fault Refusal :=
  s.scalar (.sra t sd sa sb) t fun x => .sreg sd (unsignedOf 32 (s32 (x.sreg sa) / 2 ^ (x.sreg sb % 32)))

/-- ADDI. -/
def execAddi (t : Iss) (sd sa imm : Nat) (s : State) : Host.Outcome State Fault Refusal :=
  s.scalar (.addi t sd sa imm) t fun x => .sreg sd ((x.sreg sa + imm) % 2 ^ 32)

/-- MOVI. -/
def execMovi (t : Iss) (sd imm : Nat) (s : State) : Host.Outcome State Fault Refusal :=
  s.scalar (.movi t sd imm) t fun _ => .sreg sd (imm % 2 ^ 32)

/-- CMP. -/
def execCmp (t : Iss) (pd c sa sb : Nat) (s : State) : Host.Outcome State Fault Refusal :=
  s.scalar (.cmp t pd c sa sb) t fun x => .pflag pd (cond c (x.sreg sa) (x.sreg sb))

/-- CMPI. -/
def execCmpi (t : Iss) (pd c sa imm : Nat) (s : State) : Host.Outcome State Fault Refusal :=
  s.scalar (.cmpi t pd c sa imm) t fun x => .pflag pd (cond c (x.sreg sa) (imm % 2 ^ 32))

/-- The operations of PFOP (R234). -/
def pfopOf (op : Nat) (a b : Bool) : Bool :=
  match op with
  | 0 => a && b
  | 1 => a || b
  | 2 => a != b
  | _ => a && !b

/-- PFOP. -/
def execPfop (t : Iss) (pd pa pb op : Nat) (s : State) : Host.Outcome State Fault Refusal :=
  s.scalar (.pfop t pd pa pb op) t fun x => .pflag pd (pfopOf op (x.flag pa) (x.flag pb))

/-- PSET. -/
def execPset (t : Iss) (pd imm : Nat) (s : State) : Host.Outcome State Fault Refusal :=
  s.scalar (.pset t pd imm) t fun _ => .preg pd (imm % 2 ^ 25)

/-- PADD. -/
def execPadd (t : Iss) (pd pa : Nat) (useReg : Bool) (sb imm : Nat) (s : State) : Host.Outcome State Fault Refusal :=
  s.scalar (.padd t pd pa useReg sb imm) t fun x => .preg pd ((x.preg pa + if useReg then x.sreg sb else imm) % 2 ^ 25)

/-- PMOV. -/
def execPmov (t : Iss) (toP : Bool) (sreg preg : Nat) (s : State) : Host.Outcome State Fault Refusal :=
  s.scalar (.pmov t toP sreg preg) t fun x => if toP then .preg preg (x.sreg sreg % 2 ^ 25) else .sreg sreg (x.preg preg)

/-- SLD: SRAM in clk t, the register in clk t + 2 (R235, R236). -/
def execSld (t : Iss) (sreg ptr offset : Nat) (s : State) : Host.Outcome State Fault Refusal :=
  s.issue (.sld t sreg ptr offset) t 5 1 fun s a =>
    let at_ := ((s.tile t.tile).preg ptr + offset) % 2 ^ 25
    s.checked t.tile a [(at_, 4, false)] [⟨0, 0⟩]
      (s.plan t.tile [s.pendAt a 3 2 (.sreg sreg (leNat (s.sram t.tile at_ 4)))])

/-- SST: the register in clk t, SRAM in clk t + 1 (R235, R236). -/
def execSst (t : Iss) (sreg ptr offset : Nat) (s : State) : Host.Outcome State Fault Refusal :=
  s.issue (.sst t sreg ptr offset) t 5 1 fun s a =>
    let at_ := ((s.tile t.tile).preg ptr + offset) % 2 ^ 25
    s.checked t.tile a [(at_, 4, true)] [⟨1, 0⟩]
      (s.plan t.tile [s.pendAt a 3 1 (.sram at_ (leBytes 4 ((s.tile t.tile).sreg sreg)))])

end Sys2Proof.Machine
end

