-- ==== Sys2Proof/Machine/Clk.lean ====
section
/-! DEFINITION. What happens in a clk by itself, up to its end (log entry 1): the grid runs its tables and programs, and what the spec times to
the clk has its effect (R13, R35, R183, R253). -/

namespace Sys2Proof.Machine

/-- What the block does by itself: a meaning's next state. -/
def State.acts (s : State) (f : State → Host.Outcome State Fault Refusal) : State :=
  match f s with
  | .next t => t
  | _ => s

/-- The meaning of a word of a tile's program; no other command is one. -/
def tileEffect (i : Instr) (s : State) : Host.Outcome State Fault Refusal :=
  match i with
  | .xld x0 x1 x2 x3 x4 x5 => execXld x0 x1 x2 x3 x4 x5 s
  | .wld x0 x1 x2 x3 x4 x5 => execWld x0 x1 x2 x3 x4 x5 s
  | .wswp x0 => execWswp x0 s
  | .mac x0 x1 => execMac x0 x1 s
  | .cmac x0 x1 x2 x3 => execCmac x0 x1 x2 x3 s
  | .bias x0 x1 x2 x3 => execBias x0 x1 x2 x3 s
  | .scan x0 x1 x2 x3 => execScan x0 x1 x2 x3 s
  | .sbtrk x0 x1 x2 x3 x4 x5 => execSbtrk x0 x1 x2 x3 x4 x5 s
  | .sbopn x0 x1 => execSbopn x0 x1 s
  | .rq x0 x1 => execRq x0 x1 s
  | .ltld x0 x1 x2 => execLtld x0 x1 x2 s
  | .lut x0 x1 x2 x3 x4 x5 x6 => execLut x0 x1 x2 x3 x4 x5 x6 s
  | .aadd x0 x1 x2 x3 x4 => execAadd x0 x1 x2 x3 x4 s
  | .amax x0 x1 x2 x3 x4 => execAmax x0 x1 x2 x3 x4 s
  | .gath x0 x1 x2 x3 x4 x5 x6 x7 => execGath x0 x1 x2 x3 x4 x5 x6 x7 s
  | .pad x0 x1 => execPad x0 x1 s
  | .fwait x0 x1 => execFwait x0 x1 s
  | .loop x0 x1 x2 => execLoop x0 x1 x2 s
  | .halt x0 => execHalt x0 s
  | .fsel x0 x1 x2 x3 x4 => execFsel x0 x1 x2 x3 x4 s
  | .mark x0 x1 => execMark x0 x1 s
  | .mchk x0 x1 x2 => execMchk x0 x1 x2 s
  | .add x0 x1 x2 x3 => execAdd x0 x1 x2 x3 s
  | .sub x0 x1 x2 x3 => execSub x0 x1 x2 x3 s
  | .andR x0 x1 x2 x3 => execAndR x0 x1 x2 x3 s
  | .orR x0 x1 x2 x3 => execOrR x0 x1 x2 x3 s
  | .xorR x0 x1 x2 x3 => execXorR x0 x1 x2 x3 s
  | .shl x0 x1 x2 x3 => execShl x0 x1 x2 x3 s
  | .shr x0 x1 x2 x3 => execShr x0 x1 x2 x3 s
  | .sra x0 x1 x2 x3 => execSra x0 x1 x2 x3 s
  | .addi x0 x1 x2 x3 => execAddi x0 x1 x2 x3 s
  | .movi x0 x1 x2 => execMovi x0 x1 x2 s
  | .cmp x0 x1 x2 x3 x4 => execCmp x0 x1 x2 x3 x4 s
  | .cmpi x0 x1 x2 x3 x4 => execCmpi x0 x1 x2 x3 x4 s
  | .pfop x0 x1 x2 x3 x4 => execPfop x0 x1 x2 x3 x4 s
  | .pset x0 x1 x2 => execPset x0 x1 x2 s
  | .padd x0 x1 x2 x3 x4 x5 => execPadd x0 x1 x2 x3 x4 x5 s
  | .pmov x0 x1 x2 x3 => execPmov x0 x1 x2 x3 s
  | .sld x0 x1 x2 x3 => execSld x0 x1 x2 x3 s
  | .sst x0 x1 x2 x3 => execSst x0 x1 x2 x3 s
  | .rsnd x0 x1 x2 x3 x4 => execRsnd x0 x1 x2 x3 x4 s
  | .rrcv x0 x1 x2 x3 x4 => execRrcv x0 x1 x2 x3 x4 s
  | .srcv x0 x1 x2 x3 x4 x5 x6 x7 => execSrcv x0 x1 x2 x3 x4 x5 x6 x7 s
  | .tsnd x0 x1 x2 => execTsnd x0 x1 x2 s
  | .trcv x0 x1 x2 => execTrcv x0 x1 x2 s
  | .tdi x0 x1 x2 => execTdi x0 x1 x2 s
  | .slld x0 x1 x2 x3 x4 => execSlld x0 x1 x2 x3 x4 s
  | .slst x0 x1 x2 => execSlst x0 x1 x2 s
  | .slsnd x0 x1 x2 => execSlsnd x0 x1 x2 s
  | .slrcv x0 x1 x2 x3 x4 => execSlrcv x0 x1 x2 x3 x4 s
  | _ => .next s

/-- Tile `p` issues the words that are due in this clk: one, and before it each LOOP that heads it, which takes no clk
(R246, R253); `n` bounds the LOOPs, of which a program nests four. -/
def State.runTile (s : State) (p : Nat) : Nat → State
  | 0 => s
  | n + 1 =>
    if s.mayIssue p then
      match decodeWord p (s.wordHere p) with
      | some c => (s.acts (tileEffect c)).runTile p n
      | none => s
    else s

/-- What the tables and programs do in this clk (R179, R183, R253, R265, R266, R273): results follow from the job
image, P and s0 alone (R35). -/
def State.runGrid (s : State) : State :=
  if s.gridRuns then
    let ports := (List.range 40).filter (eavesOk s.grade)
    let s := s.acts execTideSlot
    let s := ports.foldl (fun s k => s.acts (execEavesInboundWord k)) s
    let s := ports.foldl (fun s k => s.acts (execEavesSlot k)) s
    let s := (List.range 104).foldl (fun s p => s.acts (execTenderDataWord p)) s
    ((List.range 104).filter s.placed).foldl (fun s p => s.runTile p 8) s
  else s

/-- Tile `p` reads its program memory for what it issues in this clk: an uncorrectable word is a memory fault at its
address (R535, R536). -/
def State.readProg (s : State) (p : Nat) : State :=
  if s.mayIssue p then
    match (s.fetches p 5 (s.wordAt p)).find? (s.tabBad 0 p) with
    | some a => let y := s.syndrome; y.2.tileFault 9 2 p a (a + 2 ^ 64 * y.1)
    | none => s
  else s

/-- What the grid reads in this clk from its tables: the program memory of each tile that issues, and the entries of this
slot in the tide and eaves tables; an uncorrectable one is a memory fault (R535, R536). What it holds is used as it stands:
the job ends in this clk (log entry 75). -/
def State.readTables (s : State) : State :=
  if s.gridRuns && !s.tend.badTabs.isEmpty then
    let j := s.slotAt s.clk
    let s := ((List.range 104).filter s.placed).foldl (fun s p =>
      (if s.tabBad 1 p j then s.memFault 2 (loc 1 p) j (s.vrow p) (s.vcol p) else s).readProg p) s
    ((List.range 40).filter (eavesOk s.grade)).foldl (fun s k =>
      if s.tabBad 2 k j then s.memFault 2 (loc 9 k) j 0xFF 0xFF else s) s
  else s

/-- Where no schedule runs, background words move on in the reserved clk all the same (DESIGN CHOICE, log entry 44). -/
def State.idleBg (s : State) : State :=
  if !s.gridRuns && s.net.lastSlot != some s.clk && s.reservedClk then s.moveBg else s

/-- Tiles whose mark reaches the ridge (`window` false) or the capture logic in this clk. -/
def State.marksDue (s : State) (window : Bool) : List Nat :=
  ((s.dec.marks.filter (fun m => m.arrive == s.clk && m.window == window)).map (fun m => m.tile)).dedup

/-- What the berth and the harbour time to this clk: berth words delivered (R386), the combines closed (R389, R397), the
skew bounds fixed once every summary they wait for has come (R399). -/
def State.runBerth (s : State) : State :=
  if 1 < s.berthSize ∧ s.job.bound then
    let s := (s.berth.wordIn.map Prod.fst).foldl (State.deliverWord) s
    let s := ((s.acts execBerthCombineClose).acts execJettyCombineClose).acts execHarbourCombineClose
    if s.skewHeard then s.acts execHarbourCalibrationEnd else s
  else s

/-- The start of the schedule in the clk in which its first frame is ready (R103), the window slot bound in this clk,
which its tiles see at its start (R338, R340), and the slots whose release clk this is: what enters was ready in an
earlier clk (R104). -/
def State.runSlots (s : State) : State :=
  let s := (s.acts execScheduleBind).acts execWindowSlotBind
  if s.job.bound then s.slipQuays.foldl (fun s q => s.acts (execSlotRelease q)) s else s

/-- What the job's schedule times to this clk: calibration windows closed (R165), marks (R251, R341) and verdict clks
(R342), fragments that time out (R328), the evaluation (R295), the berth and the harbour. -/
def State.runJobTimed (s : State) : State :=
  let s := (s.job.layerWin.map Prod.fst).foldl (fun s c => s.acts (execCalWindowClose (c / 4) (c % 4))) s
  let s := (s.marksDue false).foldl (fun s p => s.acts (execMarkArrival p)) s
  let s := (s.marksDue true).foldl (fun s p => s.acts (execVerdictMark p)) s
  let s := (s.cap.slots.map Prod.fst).foldl (fun s z => s.acts (execVerdictDeadline z)) s
  let s := s.cap.reqs.foldl (fun s r => if r.stage = 1 then
    (List.range r.count).foldl (fun s k => s.acts (execFragmentTimeout r.seq k)) s else s) s
  (s.acts execRidgeEvaluate).runBerth

/-- The other effects that the spec times to this clk and no command brought: the main clock's tick (R409), the end of
holdover's lock (R423), timeline entries (R427), pulses that end (R305), release_hold (R301) and HOLDOFF (R308). -/
def State.runTimed (s : State) : State :=
  let s := (s.acts execMainClockTick).acts execHoldoverExpiry
  let s := s.enterEdges
  let s := s.time.held.foldl (fun s _ => s.acts execTimelineRelease) s
  let s := (List.range 12).foldl (fun s o => s.acts (execAcceptPulseEnd o)) s
  (s.acts execReleaseHoldEnd).acts execHoldoffRelease

/-- The records that leave the flashing in this clk, once every doubt of it has registered (R298, R302). -/
def State.runPin (s : State) : State :=
  let s := s.leaveFlashing
  (s.dec.pin.filter (fun r => r.out == s.clk)).foldl (fun s _ => (s.acts execPinRelease).leaveFlashing) s

/-- The job's part of a clk: a berth's report frames are over (R384), the schedule and its window slot are bound and
slots are released (R103, R104, R338), frames that became ready are settled (R97, R103), the grid and what the schedule
times run. An unload that registers in this clk finds it done (R13): logic sees the unload in the next clk. -/
def State.jobClk (s : State) : State :=
  let s := (if 1 < s.berthSize then s.acts execBerthReportFramesEnd else s).runSlots
  (s.settleAll s.clk).runGrid.runJobTimed

/-- The clk ends: the job's part, and what else is timed; the tiles do what they planned for the clk (R206), unread
words are discarded (R174), records leave the flashing (R302), the aborts of the clk have their effect (R346), the
faults of the clk are told (R533), a transmit stamp is read (R418), a vector that waited for notify_us is raised
(R451). -/
def State.endClk (s : State) : State :=
  let s := s.jobClk.idleBg.runTimed
  let s := s.tickTiles.clearRegs.runPin.runAborts
  let s := s.tellFaults.readStamp
  if s.time.tlDue then s.raiseTimeline else s

end Sys2Proof.Machine
end

