-- ==== Sys2Proof/Machine/Jobs.lean ====
section
/-! DEFINITION. The job commands (R364, R454 to R462): load, unload, arm, disarm, start, pause, resume, save, restore and
the events that complete them. A command that does not hold where it comes is refused and changes nothing, except that
an arming attempt forms menu_crc and a refused restore leaves its status. -/

namespace Sys2Proof.Machine

/-! ### What a job leaves (R455, R459, R533, R569) -/

/-- The layer_totals records of the job that ends, for every layer with a nonzero total (R569). -/
def State.layerRecords (s : State) : State :=
  (List.range 256).foldl (fun s l =>
    let n := fun (k : Nat) => min (mget 0 s.job.layerTot (4 * l + k)) (2 ^ 48 - 1)
    if n 1 = 0 ∧ n 2 = 0 ∧ n 3 = 0 then s
    else s.record 12 (l + 2 ^ 8 * s.ent (key 0x2C00 1)) (n 1 + 2 ^ 48 * n 2 + 2 ^ 96 * n 3)) s

/-- The schedule ends: waiting frames are held, closed windows raise their events (R166), marks, scores and windows of
it are gone. -/
def State.endSchedule (s : State) : State :=
  let s := s.flushWait.notePast.raiseAllCal.freeDropped
  { s with
    job := { s.job with
      bound := false
      pauseAt := none
      resumeAt := none
      heldFrom := none
      heldTo := none
      saving := 0
      parkedTiles := false
      resumeParked := false
      pauseOnStart := false
      restarting := false
      layerTot := []
      layerWin := []
      winNext := [] }
    land := { s.land with replay := [], released := [], sums := [], avgN := [], avgWait := [] }
    dec := { s.dec with marks := [], scores := [], voids := [], tags := [], nextEval := 0 }
    cap := { s.cap with slots := [], nextSlot := 0, verdicts := [], cards := [] }
    tend := { s.tend with compl := [] } }.withdrawTenders

/-- The flags of a job in its status word. -/
def State.clearJobFlags (s : State) : State :=
  ((((s.setFlag kJob jst_started false).setFlag kJob jst_pause_pending false).setFlag kJob jst_parked false).setFlag
    kJob jst_restored false)

/-- The doubts that last until the job is unloaded or restarted (R301). -/
def State.clearJobDoubts (s : State) : State := ((s.setDoubt 1 false).setDoubt 4 false).setDoubt 7 false

/-- What an image left in the dictionary returns to its default (R198, R315, R354, R373). -/
def State.clearImage (s : State) : State :=
  let s := ([1, 2, 3, 4, 5, 7].map (fun i => key 0x2C00 i) ++ [key 0x2C10 2, key 0x2C11 2, key 0x2600 1, kWslot]).foldl
    (fun s k => s.setEnt k (dflt s.grade s.stepping k)) s
  (s.setFld (key 0x2800 1) dec_latency_min 0).setFld (key 0x2800 1) dec_ridge_close 0

/-- No job: its tiles, tables and courses are gone and the state is EMPTY. -/
def State.empty (s : State) : State :=
  let s := s.clearGrid.clearImage.clearJobFlags
  let s := { s with
    job := { s.job with period := 0, fper := 0, partition := [], slips := [] }
    flt := { s.flt with active := false } }
  (s.setJob EMPTY).clearJobDoubts.refreshLaneDoubt.refreshHold

/-- The unload of a job (R347, R455, R459, R569), once what its schedule does in this clk is done (R13). -/
def State.unloadJob (s : State) : State :=
  ((s.jobClk.refreshTotals.layerRecords.registerAbort 0 true false).failSave 5).endSchedule.empty

/-! ### Load (R262, R364, R455, R488, R552) -/

/-- Pending SRAM row repairs: each row takes its group's spare; where that is in use the tile is marked for retirement
(R262, R546). -/
def State.repairRow (s : State) (p row : Nat) : State :=
  let used := mget [] s.tend.spareGroups p
  if used.contains (row / 512) then s.markRetire p
  else
    let s := { s with tend := { s.tend with spareGroups := mset [] s.tend.spareGroups p (row / 512 :: used) } }
    let k := key (0x2700 + p) 1
    (((s.setFld k tmem_spare_rows_used (used.length + 1)).persist k).record 4 (3 + 2 ^ 8 * loc 1 p) row).freshWords p (64 * row) 64

/-- Every pending row repair is made. -/
def State.repairRows (s : State) : State :=
  let s := s.tend.repairs.foldl (fun s e =>
    (e.2.foldl (fun s r => s.repairRow e.1 r) s).setFlag (key (0x2700 + e.1) 1) tmem_repair_pending false) s
  { s with tend := { s.tend with repairs := [] } }

/-- The repairs inside the stacks, between jobs (R281): a spare row or a spare lane takes over, is counted, recorded
and persists (R288, R435, R562). Which errors lead to one the spec leaves open (log entry 66). -/
def State.repairStacks (s : State) : State :=
  let s := s.tend.stackErrs.foldl (fun s e =>
    let k := key (0x27A0 + e.1) 1
    match Config.stackRepair e.1 e.2 % 3 with
    | 1 => ((s.bump k munit_spare_used).persist k).record 4 (4 + 2 ^ 8 * loc 5 e.1) e.2
    | 2 => ((s.bump k munit_lanes_repaired).persist k).record 4 (5 + 2 ^ 8 * loc 5 e.1) e.2
    | _ => s) s
  { s with tend := { s.tend with stackErrs := [] } }

/-- The quays an image's job will use, as far as R488 asks: those the image's last setting of the quay's word enables, and
of those it does not set, those enabled now. -/
def State.futureQuays (s : State) : List Nat :=
  let set := match s.locate with
    | .ok img => imageSettings img
    | .error _ => []
  (List.range 20).filter (fun q => quayOk s.grade q &&
    (match (set.filter (fun (w : Setting) => w.idx == 0x2200 + q && w.sub == 1)).getLast? with
     | some w => quay_land_enable.of w.val == 1
     | none => s.landOn q))

/-- The image names a job area of hub die `d`. -/
def State.futureArea (s : State) (d : Nat) : Bool :=
  match s.locate with
  | .ok img => imageArea img d != 0
  | .error _ => false

/-- The fault reports of the dictionary at their defaults (R552). -/
def State.clearReports (s : State) : State :=
  { (s.blankReports.setFld kFst fst_report_count 0).setFld kFst fst_last_family 0 with flt := { s.flt with recs := [] } }

/-- What a load does before the steps of R364: what was loaded is unloaded, reports and counts start again, repairs are
made. -/
def State.beforeLoad (s : State) : State :=
  let s := if s.jobState = EMPTY then s else s.unloadJob
  let s := s.clearReports.setFlag kRsts rsts_library_touched false
  let s := (s.setFld kRsts rsts_restart_state 0).setFld kRsts rsts_refusal 0
  let s := s.leaveFallback.repairRows.repairStacks
  let s := s.emptyQueue
  { s with cap := { s.cap with nextSeq := 0, cards := [] } }

/-- A load after its checks: the steps of R364 run. -/
def State.runLoad (s : State) : State :=
  let r := s.beforeLoad.loadSteps false
  let s := r.1.loadStatus r.2
  match r.2 with
  | none => s.setJob LOADED
  | some _ => s.empty

/-! ### The commands (R455) -/

/-- A save or a restore runs. -/
def State.copying (s : State) : Bool := s.fld kSvs svs_save_state == 1

/-- A fault registers in this clk: one has, or the end of the clk, as the block stands, brings one (R13, R455). -/
def State.faultsNow (s : State) : Bool := (s.flt.active && s.flt.clk == s.clk) || (s.active && s.endClk.jobState == FAULTED)

/-- No command registers in the clk of a fault, nor in recovery (R455, R483). -/
def State.jobOpen (s : State) : Bool := s.rst.available && !s.faultsNow && !s.flag kSst sst_recovery

/-- An accepted command in Job Status (R470). -/
def State.accepted (s : State) (code : Nat) : State :=
  (s.setFld kJob jst_last_command code).setFld kJob jst_commands (s.fld kJob jst_commands + 1)


/-- The smallest n whose boundary lies at or after clk c + 2. -/
def State.nextBoundary (s : State) (c : Nat) : Nat := (c + 2 - s.job.s0 + s.F - 1) / s.F


/-- The engine restarts the job: it reloads, restores or arms it (R555), or has started it and its schedule is not bound to
its first frame yet (R543, R545). -/
def State.restartRuns (s : State) : Bool :=
  let st := s.fld kRsts rsts_restart_state
  (decide (2 ≤ st) && decide (st ≤ 4)) || (s.jobState == ARMED && s.flag kJob jst_started && s.job.restarting)

/-- load; one that finds a restart under way cancels it (R545). -/
def State.cmdLoad (s : State) : State × Bool :=
  let st := s.jobState
  if (st == EMPTY || st == LOADED || st == FAULTED || s.restartRuns) && s.jobOpen && !s.copying &&
      !s.memoryRefuses s.futureQuays s.futureArea then (s.runLoad.accepted 1, true) else (s, false)

/-- unload; a restart it finds under way is cancelled (R545). -/
def State.cmdUnload (s : State) : State × Bool :=
  if s.jobState != EMPTY && s.jobOpen then
    (((s.unloadJob.setFld kRsts rsts_restart_state 0).setFld kRsts rsts_refusal 0).accepted 2, true)
  else (s, false)

/-- arm; refused while the engine restarts the job (R545). -/
def State.cmdArm (s : State) : State × Bool :=
  if s.jobState == LOADED && s.jobOpen && !s.restartRuns then
    let r := s.arm
    if r.2 then (r.1.accepted 3, true) else r
  else (s, false)

/-- disarm. -/
def State.cmdDisarm (s : State) : State × Bool :=
  if s.jobState == ARMED && s.jobOpen && !s.flag kJob jst_started then
    ((s.setJob LOADED).refreshLaneDoubt.refreshHold.accepted 4, true)
  else (s, false)

/-- Every frame the module has landed is earlier than `n` (R384). -/
def State.landedBefore (s : State) (n : Nat) : Bool :=
  s.landGroups.all (fun k => match (s.group (k / 4) (k % 4)).landed with | some f => later n f | none => true)

/-- Start registers: frames ready before it are held, and the binding waits (R103, R384). -/
def State.begin (s : State) : State :=
  let s := (s.settleAll (s.clk - 1)).beginBerth
  s.setFlag kJob jst_started true

/-- start. -/
def State.cmdStart (s : State) : State × Bool :=
  if s.jobState == ARMED && s.jobOpen && !s.flag kJob jst_started &&
      (decide (s.berthSize ≤ 1) || s.landedBefore (s.ent (key 0x2D00 4))) then (s.begin.accepted 5, true)
  else (s, false)

/-- A pause has registered and has not taken effect. -/
def State.pausing (s : State) : Bool := s.flag kJob jst_pause_pending || s.job.pauseAt.isSome

/-- pause (R456): pause_pending and hold_state follow from the next clk. -/
def State.cmdPause (s : State) : State × Bool :=
  if s.jobState == RUNNING && s.jobOpen && !s.pausing then
    let n := s.nextBoundary s.clk
    let s := { s with job := { s.job with
      heldFrom := some (Int.ofNat n)
      heldTo := none
      pauseAt := some (s.boundary n)
      resumeAt := none } }
    ((s.setEnt kPause ((s.job.n0 + n) % 2 ^ 48)).accepted 6, true)
  else (s, false)

/-- resume (R457, R462); one that finds a resume registered changes nothing more. A parked job starts with an empty
request queue (R347). -/
def State.cmdResume (s : State) : State × Bool :=
  if s.jobState == PAUSED && s.jobOpen && !s.copying then
    if s.job.resumeParked || s.job.resumeAt.isSome then (s.accepted 7, true)
    else if s.flag kJob jst_parked then
      let s := s.settleAll (s.clk - 1)
      let s := { s.flushWait.notePast with job := { s.job with resumeParked := true, bound := false } }.emptyQueue
      ((s.setFlag kJob jst_parked false).accepted 7, true)
    else
      let n := s.nextBoundary s.clk
      let s := { s with job := { s.job with heldTo := some (Int.ofNat n), resumeAt := some (s.boundary n) } }
      ((s.setEnt kResume ((s.job.n0 + n) % 2 ^ 48)).accepted 7, true)
  else (s, false)

/-- save (R459); `agreed` says whether the path's host agreed save_resume. One that finds a save running changes
nothing more. -/
def State.cmdSave (s : State) (agreed : Bool) : State × Bool :=
  if s.jobState == PAUSED && s.jobOpen && !s.flag kJob jst_parked && !s.job.resumeParked && agreed then
    let s := if s.copying then s else s.setSave 1 false 0 0
    ({ s with job := { s.job with saving := max 1 s.job.saving } }.accepted 8, true)
  else (s, false)

/-- restore (R462); a refusal for the image's sake leaves save_state failed with its cause. One that finds a restore
running changes nothing more, and a restart refuses it (R545). -/
def State.cmdRestore (s : State) (agreed : Bool) : State × Bool :=
  if s.jobState == LOADED && s.jobOpen && agreed && !s.restartRuns then
    if s.copying then (s.accepted 9, true)
    else match s.restoreRefusal with
    | some c => (s.setSave 3 true c 0, false)
    | none =>
      let s := s.setSave 1 true 0 0
      ({ s with job := { s.job with saving := 3 } }.accepted 9, true)
  else (s, false)

/-- save_resume is agreed (R453, R455). -/
def State.saveAgreed (s : State) : Bool := bit s.agreed 5

/-- LOAD (R364, R455). -/
def execLoad (s : State) : Host.Outcome State Fault Refusal := .next s.cmdLoad.1

/-- UNLOAD (R455). -/
def execUnload (s : State) : Host.Outcome State Fault Refusal := .next s.cmdUnload.1

/-- ARM (R455). -/
def execArm (s : State) : Host.Outcome State Fault Refusal := .next s.cmdArm.1

/-- DISARM (R455). -/
def execDisarm (s : State) : Host.Outcome State Fault Refusal := .next s.cmdDisarm.1

/-- START (R103, R384, R455). -/
def execStart (s : State) : Host.Outcome State Fault Refusal := .next s.cmdStart.1

/-- PAUSE (R456). -/
def execPause (s : State) : Host.Outcome State Fault Refusal := .next s.cmdPause.1

/-- RESUME (R457, R462). -/
def execResume (s : State) : Host.Outcome State Fault Refusal := .next s.cmdResume.1

/-- SAVE (R459). -/
def execSave (s : State) : Host.Outcome State Fault Refusal := .next (s.cmdSave s.saveAgreed).1

/-- RESTORE (R462). -/
def execRestore (s : State) : Host.Outcome State Fault Refusal := .next (s.cmdRestore s.saveAgreed).1

/-! ### What completes them -/

/-- A pause that registered in the clk before is pending, and hold_state holds (R308, R456). -/
def State.pausePends (s : State) : State :=
  if s.jobState = RUNNING ∧ s.job.pauseAt.isSome ∧ !s.flag kJob jst_pause_pending then
    (s.setFlag kJob jst_pause_pending true).refreshHold
  else s

/-- PAUSE_TAKES_EFFECT (R456): from clk b(n_p) the state reads PAUSED. -/
def execPauseTakesEffect (s : State) : Host.Outcome State Fault Refusal :=
  match s.job.pauseAt with
  | some c =>
    if s.jobState = RUNNING ∧ s.flag kJob jst_pause_pending ∧ c ≤ s.clk then
      .next ({ s with job := { s.job with pauseAt := none } }.setFlag kJob jst_pause_pending false |>.setJob PAUSED
        |>.refreshHold)
    else .next s
  | none => .next s

/-- RESUME_TAKES_EFFECT (R457): from clk b(n_r) the state reads RUNNING. -/
def execResumeTakesEffect (s : State) : Host.Outcome State Fault Refusal :=
  match s.job.resumeAt with
  | some c =>
    if s.jobState = PAUSED ∧ c ≤ s.clk then
      .next (({ s with job := { s.job with resumeAt := none } }.setJob RUNNING).refreshHold)
    else .next s
  | none => .next s

/-- Whole periods that began since b(n_p), one that begins there among them, in the clks before this one (R459). -/
def State.drained (s : State) : Nat :=
  match s.job.heldFrom with
  | some n =>
    if s.clk ≤ s.job.s0 then 0
    else (s.clk - 1 - s.job.s0) / s.P + 1 - (s.boundary n.toNat - s.job.s0 + s.P - 1) / s.P
  | none => 0

/-- No grid-tender descriptor is outstanding and no completion remains undelivered (R459). -/
def State.gridQuiet (s : State) : Bool :=
  (List.range 16).all (fun t => !bit (s.ent kGridT) t || (s.tender t).queue.isEmpty) &&
    s.tend.compl.all (fun e => e.2.isEmpty)

/-- SAVE_PARK (R459): the drain is over and a period begins: the grid parks. -/
def execSavePark (s : State) : Host.Outcome State Fault Refusal :=
  if s.job.saving = 1 ∧ s.jobState = PAUSED ∧ s.job.bound ∧ s.job.s0 ≤ s.clk ∧ (s.clk - s.job.s0) % s.P = 0 ∧
      s.ent (key 0x2F00 5) ≤ s.drained ∧ s.gridQuiet then
    .next { s with job := { s.job with saving := 2, parkedTiles := true } }
  else .next s

/-- SAVE_COPY_DONE (R459, R471): the copy ends; an image that does not fit the save partition ends it no_space, an
uncorrectable word (`cause` 2) memory. The job is parked either way. -/
def execSaveCopyDone (cause : Nat) (s : State) : Host.Outcome State Fault Refusal :=
  if s.job.saving = 2 then
    let img := s.saveImage
    let s := { s with job := { s.job with saving := 0 } }.setFlag kJob jst_parked true
    if !s.saveFits img.length then .next ((s.setSave 3 false 1 0).raise 6)
    else if cause = 2 then .next ((s.setSave 3 false 2 0).raise 6)
    else .next (((s.ddrWrite s.saveBase img).setSave 2 false 0 img.length).raise 6)
  else .next s

/-- RESTORE_DONE (R462, R471): the read ends; `cause` 2 is an uncorrectable word, as is one that patrol has found there. -/
def execRestoreDone (cause : Nat) (s : State) : Host.Outcome State Fault Refusal :=
  if s.job.saving = 3 then
    let s := { s with job := { s.job with saving := 0 } }
    if cause = 2 ∨ s.saveBad then .next ((s.noteBadRestore.setSave 3 true 2 0).raise 6)
    else
      let n := s.storedBytes
      .next (((s.readSave.setFlag kJob jst_restored true).setSave 2 true 0 n).raise 6)
  else .next s

end Sys2Proof.Machine
end

