-- ==== Sys2Proof/Machine/Restart.lean ====
section
/-! DEFINITION. The restart of a FAULTED job by the engine (R402, R541 to R545): what refuses it, the substitutions, and
its phases, one command each; the frame a berth restarts at. The phases' times are left out (log entry 15). -/

namespace Sys2Proof.Machine

/-- The fields of the first report that the repeat rule compares: family, cause, location, program address, slot
(R541). -/
def State.reportKey (s : State) : Nat :=
  let r := s.ent (key 0x3000 0x10)
  bits r 0 16 + 2 ^ 16 * bits r 32 16 + 2 ^ 32 * bits r 64 15 + 2 ^ 47 * bits r 80 16

/-- What R542 substitutes for one report: none, the tile it retires, or the tile and row it repairs. -/
inductive Subst where
  | nothing
  | retire (p : Nat)
  | repair (p row : Nat)
deriving DecidableEq, Repr

/-- Tile of a location, when it is one. -/
def tileOfLoc (l : Nat) : Option Nat := if l / 2 ^ 12 = 1 ∧ l % 2 ^ 12 < 104 then some (l % 2 ^ 12) else none

/-- The substitution of a report (R542): a spare row that a repair already planned takes is not free. -/
def State.substitution (s : State) (f : FaultRec) : Subst :=
  if f.family = 1 ∧ f.cause = 3 then
    if s.flag (key 0x2600 2) mctl_retire_on_slip ∧ f.island < 104 then .retire f.island else .nothing
  else if f.family = 10 then (if f.island < 104 then .retire f.island else .nothing)
  else if f.family = 9 ∧ f.cause = 1 then
    match tileOfLoc f.loc with
    | some p =>
      let row := f.detail % 2 ^ 25 / 64
      if (mget [] s.tend.spareGroups p).contains (row / 512) ∨
          (mget [] s.tend.repairs p).any (fun r => r != row && r / 512 == row / 512) then .retire p
      else .repair p row
    | none => .nothing
  else if f.family = 9 ∧ f.cause = 2 then (match tileOfLoc f.loc with | some p => .retire p | none => .nothing)
  else .nothing

/-- Tile `p` can be retired into its row's spare (R541). -/
def State.canRetire (s : State) (p : Nat) : Bool :=
  let k := kRow (p / 13)
  s.fld k row_retired_column == 15 && (!s.flag k row_retire_pending || s.fld k row_pending_column == p % 13) &&
    s.flag (kSpr (p / 13)) spr_spare_ok

/-- A row repair waits for the next load or restart (R262). -/
def State.planRepair (s : State) (p row : Nat) : State :=
  let rows := mget [] s.tend.repairs p
  if rows.contains row then s
  else { s with tend := { s.tend with repairs := mset [] s.tend.repairs p (rows ++ [row]) } }.setFlag
    (key (0x2700 + p) 1) tmem_repair_pending true

/-- The substitutions of some reports, in order; none when one of them has no substitute (R541, R542). -/
def State.substitute (s : State) : List FaultRec → Option State
  | [] => some s
  | f :: fs =>
    match s.substitution f with
    | .nothing => s.substitute fs
    | .retire p => if s.canRetire p then (s.markRetire p).substitute fs else none
    | .repair p row => (s.planRepair p row).substitute fs

/-- Every retirement that is pending, once the pending row repairs are made, has a spare (R541, R542). -/
def State.pendingOk (s : State) : Bool :=
  let t := s.repairRows
  (List.range 8).all (fun r => !t.flag (kRow r) row_retire_pending ||
    (t.fld (kRow r) row_retired_column == 15 && t.flag (kSpr r) spr_spare_ok))

/-- The substitutions of the fault's reports; none when something has no substitute (R541, R542). -/
def State.substituted (s : State) : Option State :=
  match s.substitute s.flt.recs with
  | some t => if t.pendingOk then some t else none
  | none => none

/-- Restarts that began within the last restart_window_s seconds. -/
def State.recentRestarts (s : State) : List Nat :=
  s.job.restarts.filter (fun c => decide (s.clk < c + s.fld (key 0x3000 2) rctl_restart_window_s * 1250000000))

/-- restart_state (R555). -/
def State.restartState (s : State) : Nat := s.fld kRsts rsts_restart_state

/-- The restart ends refused: the job stays FAULTED (R541, R543). -/
def State.refuseRestart (s : State) (code : Nat) : State :=
  let s := if s.jobState = FAULTED then s else (s.setJob FAULTED).setDoubt 1 true
  (s.setFld kRsts rsts_restart_state 6).setFld kRsts rsts_refusal code

/-- Frames of the lead of a berth restart: ceil(40,000,000 / (F × 0.8)) (R544). -/
def State.restartLead (s : State) : Nat := (50000000 + s.F - 1) / s.F

/-- The frame of clk `c` in the schedule. -/
def State.frameAt (s : State) (c : Nat) : Nat := (s.job.n0 + (c - s.job.s0) / s.F) % 2 ^ 48

/-- Every module of the berth restarts together (R402). -/
def State.together (s : State) : Bool := decide (1 < s.berthSize) && (s.moored || s.coupled)

/-- The start frame of a started job's restart in a berth: the agreed one, or the module's own (R544). -/
def State.restartFrame (s : State) : State :=
  if s.job.wasStarted ∧ 1 < s.berthSize then
    match s.berth.restartFrame with
    | some n => s.setEnt (key 0x2D00 4) n
    | none => s.setEnt (key 0x2D00 4) ((s.frameAt s.job.faultClk + s.restartLead) % 2 ^ 48)
  else s

/-! ### The phases (R543) -/

/-- Decide, when nothing refuses: the substitutions, the start frame of a berth; the restart has begun. -/
def State.restartDecide (s : State) : State :=
  let s := { s with job := { s.job with restarts := s.clk :: s.recentRestarts, lastReport := some s.reportKey } }
  (s.substituted.getD s).restartFrame.setFld kRsts rsts_restart_state 2

/-- The reload: repairs and retirements take effect and the image is placed again (R542, R543). -/
def State.reload (s : State) : State × Bool :=
  let s := s.refreshTotals.layerRecords.endSchedule.clearJobFlags
  let s := s.leaveFallback.repairRows
  let s := s.emptyQueue
  let s := { s with cap := { s.cap with nextSeq := 0 } }
  let r := s.loadSteps true
  let s := r.1.loadStatus r.2
  match r.2 with
  | none => ((s.setJob LOADED).clearJobDoubts, true)
  | some _ => (s, false)

/-- A restore is due: restart_from_save is 1 and a save of this image is at save_offset (R543). -/
def State.wantsRestore (s : State) : Bool := s.flag (key 0x3000 2) rctl_restart_from_save && s.restoreRefusal != some 3

/-- Reload: on to the restore when one is due, else to the arming checks. -/
def State.restartReload (s : State) : State :=
  let r := s.reload
  if r.2 then r.1.setFld kRsts rsts_restart_state (if r.1.wantsRestore then 3 else 4) else r.1.refuseRestart 5

/-- The restore of a restart (R462): it fails on a digest or an uncorrectable word. -/
def State.restartRead (s : State) : State × Bool :=
  match s.restoreRefusal with
  | some c => (s.setSave 3 true c 0, false)
  | none =>
    if s.saveBad then (s.noteBadRestore.setSave 3 true 2 0, false)
    else ((s.readSave.setFlag kJob jst_restored true).setSave 2 true 0 s.storedBytes, true)

/-- Restore. -/
def State.restartRestore (s : State) : State :=
  let r := s.restartRead
  if r.2 then r.1.setFld kRsts rsts_restart_state 4 else r.1.refuseRestart 5

/-- Start: as the job was when it faulted (R543). -/
def State.restartStart (s : State) (started paused : Bool) : State :=
  if started then
    let s := { s.begin with job := { s.begin.job with pauseOnStart := paused, restarting := true } }
    if paused then (s.setFlag kJob jst_pause_pending true).refreshHold else s
  else { s with job := { s.job with restarting := true } }

/-- Arm and start; a job that its arming faults stays as that fault leaves it (R7). -/
def State.restartArm (s : State) : State :=
  let r := s.arm
  if !r.2 then r.1.refuseRestart 5
  else if r.1.jobState = FAULTED then r.1
  else
    let s := r.1.restartStart s.job.wasStarted s.job.wasPaused
    (s.setFld kRsts rsts_restart_state 0).setFld kRsts rsts_refusal 0

/-! ### What refuses it (R541) -/

/-- A step of the load, the restore or an arming check would fail (R541, code 5). -/
def State.restartFails (s : State) : Bool :=
  let s := (s.substituted.getD s).restartFrame
  let r := s.reload
  if !r.2 then true
  else
    let q := if r.1.wantsRestore then r.1.restartRead else (r.1, true)
    !q.2 || !q.1.arm.2

/-- The lowest refusal code that holds (R541); 0 when none does. Code 5 alone shows in its phase; beside a higher code the
lowest is shown, so it is tried for. -/
def State.restartRefusal (s : State) : Nat :=
  if s.fld (key 0x3000 2) rctl_restart_limit ≤ s.recentRestarts.length then 1
  else if s.job.lastReport = some s.reportKey then 2
  else if s.substituted.isNone then 3
  else if s.flag kRsts rsts_library_touched then 4
  else
    let c := if s.tele.hold then 6 else if s.flt.recs.any (fun f => f.family == 11) then 7 else 0
    if c = 0 then 0 else if s.restartFails then 5 else c

/-- RESTART (R402, R541 to R543, R545, R555): once the fault is told, the phase that restart_state names is over: decide, by
which a berth that restarts together waits for the agreed frame; reload; restore; arm, with the start. -/
def execRestart (s : State) : Host.Outcome State Fault Refusal :=
  let st := s.restartState
  if s.jobState = FAULTED ∧ ¬ s.flt.active ∧ (st = 1 ∨ st = 5) then
    let c := s.restartRefusal
    if c ≠ 0 then .next (s.refuseRestart c)
    else if s.job.wasStarted ∧ s.together ∧ s.berth.restartFrame = none then .next (s.setFld kRsts rsts_restart_state 5)
    else .next s.restartDecide
  else if s.jobState = FAULTED ∧ st = 2 then .next s.restartReload
  else if s.jobState = LOADED ∧ st = 3 then .next s.restartRestore
  else if s.jobState = LOADED ∧ st = 4 then .next s.restartArm
  else .next s

/-- The earliest frame of a list. -/
def earliest : List Nat → Option Nat
  | [] => none
  | n :: ns => match earliest ns with
    | none => some n
    | some m => some (if later n m then m else n)

/-- BERTH_RESTART_FRAME (R544): the agreed frame once a faulted summary came from every position; without one by
N_first + ceil(1,024 / F) + 2 the restart is refused, with the lowest code that holds (R541). -/
def execBerthRestartFrame (s : State) : Host.Outcome State Fault Refusal :=
  let st := s.fld kRsts rsts_restart_state
  if s.jobState = FAULTED ∧ s.together ∧ (st = 1 ∨ st = 5) then
    let have_ := (List.range s.berthSize).filterMap (fun m => mget none s.berth.firstFaulted m)
    match earliest have_ with
    | none => .next s
    | some n =>
      if have_.length = s.berthSize then
        let nr := (n + s.restartLead) % 2 ^ 48
        .next ({ s with berth := { s.berth with restartFrame := some nr } }.setEnt (key 0x2D00 4) nr)
      else if later ((n + (1024 + s.F - 1) / s.F + 2) % 2 ^ 48) (s.frameAt s.clk) then .next s
      else .next (s.refuseRestart (if s.restartRefusal ≠ 0 then s.restartRefusal else if s.restartFails then 5 else 8))
  else .next s

end Sys2Proof.Machine
end

