-- ==== Sys2Proof/Machine/Background.lean ====
section
/-! DEFINITION. Background work and limits (R261, R262, R281, R520 to R528, R535, R536, R546, R549, R550): patrols, units
that leave service, self-tests, laser wear, supplies and temperatures. -/

namespace Sys2Proof.Machine

/-! ### Patrols (R261, R262, R535, R536, R550) -/

/-- SRAM rows of a tile. -/
def sramRows : Nat := 393216

/-- SRAM row `row` of tile `p` holds an uncorrectable word, which stays for any access to meet (R261); the patrol
names the row, so each of its eight words counts as such (log entry 75). -/
def State.rowUncorrectable (s : State) (p row : Nat) : State :=
  let bad := (List.range 8).map (fun i => 8 * row + i) ++ (mget [] s.tend.badWords p).filter (fun w => w / 8 != row)
  { s with tend := { s.tend with badWords := mset [] s.tend.badWords p bad } }

/-- An uncorrectable word of tile `p` at `addr` (R261, R534, R535): a fault of the job that uses the tile, or with no
job; in a tile that the job does not use it is recorded. -/
def State.tileUncorrectable (s : State) (p cause addr : Nat) : State :=
  if s.faultable ∧ !s.placed p then s.memRecord (loc 1 p) addr else s.memFault cause (loc 1 p) addr (s.vrow p) (s.vcol p)

/-- Next entry of table patrol `k`. -/
def State.tabPos (s : State) (k : Nat) : Nat := mget 0 s.tend.tabPos k

/-- Table patrol `k` passes its entry: it reads in this clk, and goes on behind it. -/
def State.passEntry (s : State) (k n : Nat) (bad : Bool) : State :=
  let i := s.tabPos k
  let s := { s with tend := { s.tend with
    tabPos := mset 0 s.tend.tabPos k (if i + 1 = n then 0 else i + 1)
    badTabs := if bad then s.tend.badTabs.filter (fun e => e != (k, i)) ++ [(k, i)] else s.tend.badTabs } }
  if i + 1 = n then s.bump kBgs bgs_table_passes else s

/-- A reserved clk in which patrol `k` has read nothing yet: the clk of slot j with j mod 64 = 63 while a schedule
runs, and 1 in 64 on a count of its own otherwise (R261, R550). -/
def State.patrolClk (s : State) (k : Nat) : Bool := s.reservedClk && decide (mget 0 s.tend.patrolled k ≤ s.clk)

/-- Patrol `k` reads in this clk. -/
def State.patrols (s : State) (k : Nat) : State :=
  { s with tend := { s.tend with patrolled := mset 0 s.tend.patrolled k (s.clk + 1) } }

/-- Next SRAM row of tile `p` to patrol. -/
def State.patrolRow (s : State) (p : Nat) : Nat := mget 0 s.tend.patrolRow p

/-- The patrol of tile `p` passes row `row`; `bad` says it corrected a word there. Two passes in a row mark it (R262). -/
def State.passRow (s : State) (p row : Nat) (bad : Bool) : State :=
  let s := if bad ∧ (mget [] s.tend.lastRows p).contains row then s.planRepair p row else s
  let this := if bad then mget [] s.tend.thisRows p ++ [row] else mget [] s.tend.thisRows p
  if row + 1 = sramRows then
    { s with tend := { s.tend with
      patrolRow := mset 0 s.tend.patrolRow p 0
      lastRows := mset [] s.tend.lastRows p this
      thisRows := mset [] s.tend.thisRows p [] } }.bump (key (0x2700 + p) 1) tmem_scrub_passes
  else { s with tend := { s.tend with
    patrolRow := mset 0 s.tend.patrolRow p (row + 1)
    thisRows := mset [] s.tend.thisRows p this } }

/-- SRAM_PATROL (R261, R262): the sentinel of tile `p` reads its next row; `corrected` words held one wrong bit,
`uncorrected` more. -/
def execSramPatrol (p row corrected uncorrected : Nat) (s : State) : Host.Outcome State Fault Refusal :=
  if tileOk s.grade p ∧ row < sramRows then
    if s.patrolClk p ∧ row = s.patrolRow p then
      let s := (s.patrols p).bumpBy (key (0x2700 + p) 1) tmem_sram_corrected corrected
      let s := s.passRow p row (decide (0 < corrected))
      .next (if 0 < uncorrected then (s.rowUncorrectable p row).tileUncorrectable p 1 (64 * row) else s)
    else .next s
  else .next s

/-- TABLE_PATROL (R534 to R536, R550): `kind` 0 program memory and 1 tide table of a tile, 2 table of an eaves port; one
entry in a reserved clk, in index order (DEDUCED, log entry 75). An uncorrectable entry stays so until its table is
written. -/
def execTablePatrol (kind unit idx : Nat) (corrected uncorrectable : Bool) (s : State) :
    Host.Outcome State Fault Refusal :=
  let n := if kind = 0 then 16384 else 65536
  if kind < 3 ∧ idx < n ∧ (if kind = 2 then eavesOk s.grade unit else tileOk s.grade unit) then
    let k := tabKey kind unit
    if s.patrolClk k ∧ idx = s.tabPos k then
      let s := (s.patrols k).passEntry k n uncorrectable
      let s := if corrected then s.bump kBgs bgs_table_corrected else s
      .next (if !uncorrectable then s
        else if kind < 2 then s.tileUncorrectable unit 2 idx else s.memFault 2 (loc 9 unit) idx 0xFF 0xFF)
    else .next s
  else .next s

/-- Memory unit status of stack `u` (kind 0) or DDR4 channel `u` (kind 1). -/
def kUnit (kind u : Nat) : Nat := key (if kind = 0 then 0x27A0 + u else 0x27B0 + u) 1

/-- Stack or channel `u` exists. -/
def unitOk (kind u : Nat) : Bool := if kind = 0 then decide (u < 10) else kind == 1 && decide (u < 12)

/-- Die-space address `a` of die `d` lies in the ring region (R277). -/
def State.inRing (s : State) (d a : Nat) : Bool :=
  decide (s.hbmMap d 1 ≤ a) && decide (a < s.hbmMap d 1 + s.hbmMap d 2)

/-- Address `a` lies in stack or channel `u` and in the space the engine addresses (R276, R282). -/
def State.unitHolds (s : State) (kind u a : Nat) : Bool :=
  if kind = 0 then (stackOf (u / 5) a).1 == u && decide ((stackOf (u / 5) a).2 < 24000000000)
  else decide (a < s.ddrBytes) && s.ddrChannels.getD (a / 4096 % max 1 s.ddrChannels.length) 12 == u

/-- MEMORY_PATROL (R281, R288, R534, R535): a word at die-space or module address `addr` of stack or channel `unit`; an
address that is not there is no event of it. An uncorrectable word is noted and stays so until it is written; in a ring
region of HBM or in DDR4 it is recorded, elsewhere it is a fault. An error of a stack may lead to a repair between jobs
(R281). -/
def execMemoryPatrol (kind unit addr corrected : Nat) (uncorrectable : Bool) (s : State) :
    Host.Outcome State Fault Refusal :=
  if unitOk kind unit then
    if !s.unitHolds kind unit addr then .next s else
    let k := kUnit kind unit
    let s := s.bumpBy k munit_corrected corrected
    let s := if kind = 0 ∧ (0 < corrected ∨ uncorrectable) then
      { s with tend := { s.tend with stackErrs := s.tend.stackErrs ++ [(unit, addr)] } } else s
    let l := loc (if kind = 0 then 5 else 6) unit
    .next (if !uncorrectable then s
      else
        let s := s.setFlag k munit_uncorrected_seen true
        let w := ((if kind = 0 then hbmBase (unit / 5) else ddrBase) + addr) / 64
        let s := { s with tend := { s.tend with badMem := w :: s.tend.badMem.filter (fun x => x != w) } }
        if kind = 0 ∧ !s.inRing (unit / 5) addr then s.memFault 3 l addr 0xFF 0xFF else s.memRecord l addr)
  else .next s

/-- The job uses hub die `d`: a quay it uses, landed or replayed, or its job area, is there (R38, R109, R488, R536). -/
def State.usesDie (s : State) (d : Nat) : Bool :=
  (List.range 20).any (fun q => quayOk s.grade q && (s.landOn q || s.jobQuays.contains q) && quayDie q == d) || s.ent (key (0x2C10 + d) 2) != 0

/-- UNIT_OUT_OF_SERVICE (R38, R288, R536): kind 0 an HBM stack, 1 a DDR4 channel; its fault is reported whatever the
job's state (R534). -/
def execUnitOutOfService (kind unit : Nat) (s : State) : Host.Outcome State Fault Refusal :=
  if unitOk kind unit then
    let k := kUnit kind unit
    if s.flag k munit_in_service then
      let s := s.setFlag k munit_in_service false
      let f := if kind = 0 then sst_hbm_in_service else sst_ddr_in_service
      let s := s.setFld kSst f (s.fld kSst f - 2 ^ unit)
      .next (if kind = 1 ∨ s.usesDie (unit / 5) then
          s.fault { family := 9, cause := 5 + kind, loc := loc (5 + kind) unit }
        else s)
    else .next s
  else .next s

/-! ### Self-tests (R546) -/

/-- SPARE_SELF_TEST (R546): a tile that holds no virtual tile passes or fails; 24 passes in a row of a retired tile since
its retirement set retired_ok. -/
def execSpareSelfTest (p : Nat) (ok : Bool) (s : State) : Host.Outcome State Fault Refusal :=
  if tileOk s.grade p then
    if s.placed p then .next s
    else
      let k := kSpr (p / 13)
      let n := if ok then mget 0 s.tele.streak p + 1 else 0
      let retired := decide (s.fld (kRow (p / 13)) row_retired_column = p % 13)
      let s := { s with tele := { s.tele with streak := mset 0 s.tele.streak p n } }
      let s := s.bump k (if ok then spr_tests_passed else spr_tests_failed)
      .next (if retired then (if !ok then s.setFlag k spr_retired_ok false
            else if 24 ≤ n then s.setFlag k spr_retired_ok true else s)
        else if p % 13 = spareCol s.grade then s.setFlag k spr_spare_ok ok else s)
  else .next s

/-! ### Laser wear (R42, R70, R77, R549, R557) -/

/-- Laser Wear Control. -/
def kLwc : Nat := key 0x3070 1

/-- Channels that source `src` of bank `i` of a link engine feeds (R42). -/
def linkChannels (i src : Nat) : List Nat :=
  let b := 17 * (i % 2)
  match src with
  | 0 => (List.range 6).map (b + ·)
  | 1 => (List.range 6).map (b + 6 + ·)
  | _ => (List.range 5).map (b + 12 + ·)

/-- Source `src` of bank `i` is lit: a channel it feeds is enabled, and the spare has not taken its place (R42, R70,
R77). The self-test loopback of an ingest bank has no entry of its own and counts as off (log entry 28). -/
def State.sourceLit (s : State) (i src : Nat) : Bool :=
  !s.tele.hold && s.feeds i src && !s.engineReset (i / 2) &&
    (if i < 40 then
      let k := kRch (i / 2)
      s.dec.driven && s.flag k rch_rc_enable && decide (src = s.fld k rch_rc_use_spare)
    else
      let e := i / 2 - 20
      (linkChannels i src).any (s.txLit (e + 20)))

/-- Wear field of a source. -/
def wearFld : Nat → Fld
  | 0 => las_wear_0
  | 1 => las_wear_1
  | _ => las_wear_2

/-- Sources of a bank that are due with no spare left are recorded, and the bank is exhausted (R549). -/
def State.exhaust (s : State) (bank : Nat) (l : List Nat) : State :=
  if l.isEmpty then s
  else l.foldl (fun s src => s.record 4 (7 + 2 ^ 8 * bank) src) (s.setFlag (kLas bank) las_exhausted true)

/-- LASER_WEAR_SAMPLE (R549, R557): a lit source's wear in 1/1,000; `weak` says its output fell below half at the largest
bias. A source becomes due once and stays so until the spare replaces it; one that falls due with no spare left is
recorded then and its bank is exhausted. -/
def execLaserWearSample (bank src wear : Nat) (weak : Bool) (s : State) : Host.Outcome State Fault Refusal :=
  if bankOk s.grade bank ∧ src < 3 then
    if s.sourceLit bank src then
      let k := kLas bank
      let s := s.setFld k (wearFld src) (min wear 4095)
      if (s.fld kLwc lwc_swap_ratio ≤ wear ∨ weak) ∧ !s.tele.due.contains (bank, src) then
        let s := { s with tele := { s.tele with due := s.tele.due ++ [(bank, src)] } }.setFlag k las_swap_due true
        .next (if s.fld k las_spare_state = 0 then s else s.exhaust bank [src])
      else .next s
    else .next s
  else .next s

/-- LASER_SWAP_DONE (R42, R549, R557): with no job armed, the first due source of the bank gives way to the spare, which
`ok` says works; the others of the bank find none and stay due. The optical switch stands where it was set (R437). -/
def execLaserSwapDone (bank : Nat) (ok : Bool) (s : State) : Host.Outcome State Fault Refusal :=
  if bankOk s.grade bank then
    let k := kLas bank
    let due := (s.tele.due.filter (fun e => e.1 == bank)).map Prod.snd
    match due with
    | [] => .next s
    | src :: more =>
      if !s.active ∧ s.flag kLwc lwc_swap_enable ∧ s.fld k las_spare_state = 0 then
        if ok then
          let s := { s with
            tele := { s.tele with due := s.tele.due.filter (fun e => e != (bank, src)) }
            rst := { s.rst with switches := mset 0 s.rst.switches bank (1 + src) } }.setFlag k las_swap_due !more.isEmpty
          let s := (((s.setFld k las_spare_state 1).setFld k las_replaced src).persist k).record 4 (6 + 2 ^ 8 * bank)
            (src + 2 ^ 8 * 3)
          .next (s.exhaust bank more)
        else .next (((s.setFld k las_spare_state 2).persist k).exhaust bank due)
      else .next s
  else .next s

/-! ### Supplies (R520) -/

/-- SUPPLY_DOUBT (R466, R520): a rail has been outside its window for 2 µs. -/
def execSupplyDoubt (rail reading : Nat) (s : State) : Host.Outcome State Fault Refusal :=
  if rail < 5 then
    if bit s.doubtMain 6 then .next s
    else .next (s.supplyDoubt rail reading)
  else .next s

/-- SUPPLY_DOUBT_CLEAR (R520): every rail has been inside its window for 100 µs. -/
def execSupplyDoubtClear (s : State) : Host.Outcome State Fault Refusal :=
  if bit s.doubtMain 6 then .next ((s.setDoubt 6 false).setFlag kTel tel_supply_doubt false) else .next s

/-! ### Telemetry (R523, R526 to R530) -/

/-- Thermal sensor `n` is one that is read (R526). -/
def sensorOk (g : Grade) (n : Nat) : Bool :=
  let c := n / 4096
  let i := n % 4096
  decide (1 ≤ c) && decide (c ≤ 6) && decide (i < classCount c) &&
    (if c = 4 then (decide (20 ≤ i) || quayOk g i) else if c = 5 then bankOk g i else true)

/-- A limit of sensor `n`, m°C. -/
def State.limit (s : State) (n : Nat) (f : Fld) : Int := 100 * signed 16 (s.fld (key (0x3301 + n / 4096) 1) f)

/-- A temperature reading: the entry, the interval's extremes, and the warning (R527). -/
def State.readSensor (s : State) (n : Nat) (t : Int) : State :=
  let s := s.setEnt (key (0x3308 + n / 4096) (1 + n % 4096)) (unsignedOf 32 t)
  let x := match mget none s.recd.sens n with
    | some x => (min x.1 t, max x.2 t)
    | none => (t, t)
  let s := { s with
    recd := { s.recd with sens := mset none s.recd.sens n (some x) }
    tele := { s.tele with sensors := mset none s.tele.sensors n (some t) } }
  let w := s.limit n lim_warn
  let warned := s.tele.warned.contains n
  if w ≤ t then
    let s := s.setFlag kTel tel_warn_seen true
    if warned then s
    else { s with tele := { s.tele with warned := n :: s.tele.warned } }.emcy 6 (n + 2 ^ 16 * unsignedOf 32 t)
  else if t < w - 3000 ∧ warned then
    { s with tele := { s.tele with warned := s.tele.warned.filter (fun m => m != n) } }
  else s

/-- A rail reading. -/
def State.readRail (s : State) (r uv ma : Nat) : State :=
  let x := match mget none s.recd.rails r with
    | some x => (min x.1 uv, max x.2.1 uv, max x.2.2 ma)
    | none => (uv, uv, ma)
  { s with recd := { s.recd with rails := mset none s.recd.rails r (some x) } }.setEnt (key (0x3310 + r) 1)
    (uv % 2 ^ 32 + 2 ^ 32 * (ma % 2 ^ 32))

/-- Module power in mW over the last ms (R523, R529): every ms above 1,500 W sends its EMCY message. -/
def State.readPower (s : State) (mw : Nat) : State :=
  let k := key 0x3300 2
  let s := (s.setFld k mpw_power mw).setFld k mpw_peak (max (s.fld k mpw_peak) mw)
  let s := { s with recd := { s.recd with power := max s.recd.power mw } }
  if 1500000 < mw then (s.setFlag kTel tel_power_over_seen true).emcy 7 (8 * 2 ^ 12 + 2 ^ 16 * (mw % 2 ^ 32)) else s

/-- The sensor with the highest reading relative to its doubt limit (R530), the first of equals. -/
def State.hottest (s : State) : List (Nat × Option Int) → Option (Nat × Int)
  | [] => none
  | (_, none) :: m => s.hottest m
  | (n, some t) :: m =>
    let d := t - s.limit n lim_doubt
    match s.hottest m with
    | some b => some (if d < b.2 then b else (n, d))
    | none => some (n, d)

/-- A coolant reading below -40 °C or above 150 °C (R527). -/
def sensorBroken (t : Int) : Bool := decide (t < -40000) || decide (150000 < t)

/-- Some reading is at or above its doubt limit less `margin`. -/
def State.anyHot (s : State) (margin : Int) : Bool :=
  s.tele.sensors.any (fun e => match e.2 with
    | some t => decide (s.limit e.1 lim_doubt - margin ≤ t)
    | none => false)

/-- The thermal doubt and the sensor fault follow the readings (R527). -/
def State.refreshThermal (s : State) : State :=
  let broken := match mget none s.tele.sensors (6 * 4096) with
    | some t => sensorBroken t
    | none => false
  let s := s.setFlag kTel tel_sensor_fault broken
  let has := bit s.doubtMain 5
  let on := broken || s.anyHot 0 || (has && s.anyHot 3000)
  let s := if on = has then s else s.setDoubt 5 on
  let s := s.setFlag kTel tel_thermal_doubt on
  match s.hottest s.tele.sensors with
  | some x => s.setFld kTel tel_hottest_sensor x.1
  | none => s

/-- A reading reached its trip limit: the job faults, every laser and landing island stops, and the thermal hold lasts
until a full reset (R528). With no job running the fault is reported once, when the hold begins (`was`: it held before
this sample; R534). -/
def State.trip (s : State) (was : Bool) (n : Nat) (t : Int) : State :=
  let s := { s with tele := { s.tele with hold := true } }.setFlag kTel tel_thermal_trip true
  if s.running ∨ !was then
    s.fault { family := 12, cause := 1, loc := loc 8 n, detail := n + 2 ^ 32 * unsignedOf 32 t }
  else s

/-- A sample is late when more than 1 ms has passed since the one before it (R551); after a reset the first never is. -/
def State.sampleTime (s : State) : State :=
  let late := match s.tele.lastSample with
    | some c => decide (c + 1250000 < s.clk)
    | none => false
  let s := { s with tele := { s.tele with lastSample := some s.clk } }
  if late then s.bump kBgs bgs_telemetry_late else s

/-- TELEMETRY_SAMPLE (R523, R526 to R528): the readings of one 1 ms sample, temperatures in m°C by sensor number, rails
in µV and mA, input power in mW. -/
def execTelemetrySample (temps : List (Nat × Int)) (rails : List (Nat × Nat × Nat)) (power : Nat) (s : State) :
    Host.Outcome State Fault Refusal :=
  if temps.all (fun e => sensorOk s.grade e.1) ∧ rails.all (fun r => decide (r.1 < 5)) then
    let s := temps.foldl (fun s e => s.readSensor e.1 e.2) s.sampleTime
    let s := rails.foldl (fun s r => s.readRail r.1 r.2.1 r.2.2) s
    let s := (s.readPower power).refreshThermal
    .next (temps.foldl (fun u e => if u.limit e.1 lim_trip ≤ e.2 then u.trip s.tele.hold e.1 e.2 else u) s)
  else .next s

end Sys2Proof.Machine
end

