-- ==== Sys2Proof/Machine/Security.lean ====
section
/-! DEFINITION. Security (R570 to R584): firmware slots and their update, signed messages, attestation, debug scopes.
A row that writes an entry acts once the dictionary is available, in recovery on the firmware entries alone (R484, R487).
Signatures, the identity key and the DRBG are free values (log entries 9 and 10). -/

namespace Sys2Proof.Machine

/-- Bytes of a signature. -/
def sigBytes : Nat := 7856

/-- `n` bytes of memory at `a`. -/
def State.bytesAt (s : State) (a n : Nat) : List Byte := (List.range n).map (fun i => readByte s.mem (a + i))

/-! ### OTP entries (R571, R572) -/

/-- Owner Slot k State. -/
def kOwn (k : Nat) : Nat := key (0x3120 + k) 1
/-- Owner Slot k Key. -/
def kOwnKey (k : Nat) : Nat := key (0x3120 + k) 2
/-- Rollback Floors. -/
def kFloor : Nat := key 0x3130 1
/-- Rollback Advances. -/
def kAdv : Nat := key 0x3130 2
/-- image_floor. -/
def flImage : Fld := { lo := 0, w := 32, acc := .ro }
/-- firmware_floor. -/
def flFirm : Fld := { lo := 32, w := 32, acc := .ro }

/-! ### Firmware slots (R573, R574) -/

/-- The maker's firmware key. -/
def firmwareKey : Nat := Config.makerKey 1

/-- The 64-byte firmware header at `a`. -/
def State.fwHeader (s : State) (a : Nat) : Nat := readNat s.mem a 64

/-- The image at `a` in `n` bytes of room verifies (R573); its security_version is not below firmware_floor. -/
def State.fwVerifies (s : State) (a n : Nat) : Bool :=
  let h := s.fwHeader a
  let body := bits h 64 32
  bits h 0 32 == 0x46574D31 && bits h 48 16 == 0 && bits h 128 384 == 0 && body % 64 == 0 &&
    decide (64 + body + sigBytes ≤ n) && decide (s.fld kFloor flFirm ≤ bits h 32 16) &&
    Config.signatureValid firmwareKey (toBytes (sha256 (readBytes s.mem a (64 + body)))) (s.bytesAt (a + 64 + body) sigBytes)

/-- Digest of the header and body of the firmware at `a`. -/
def State.fwDigestAt (s : State) (a : Nat) : Nat := sha256Nat (readBytes s.mem a (64 + bits (s.fwHeader a) 64 32))

/-- Bytes of a firmware slot. -/
def fwSlotBytes : Nat := 2 ^ 23

/-- Firmware slot `k` verifies. -/
def State.slotVerifies (s : State) (k : Nat) : Bool := s.fwVerifies (fwSlotBase k) fwSlotBytes

/-- Firmware Slots as it reads (R581). -/
def State.fwSlots (s : State) : Nat :=
  (if s.slotVerifies 0 then 1 else 0) + (if s.slotVerifies 1 then 2 else 0)
    + (if s.fld kSst sst_boot_used = 1 then 4 else 0) + 2 ^ 16 * bits (s.fwHeader (fwSlotBase 0)) 32 16
    + 2 ^ 32 * bits (s.fwHeader (fwSlotBase 1)) 32 16

/-- Firmware Update. -/
def kFwu : Nat := key 0x3140 2

/-- A flash write is under way. -/
def State.updating (s : State) : Bool := s.fld kFwu fwu_update_state == 1

/-- Empties the staging buffer; refused during a flash write (log entry 26). -/
def State.fwBegin (s : State) : Except Nat State :=
  if s.updating then .error abState
  else .ok ({ s with sec := { s.sec with staged := 0 } }.setFld kFwu fwu_staged_bytes 0)

/-- Appends 64 bytes to the staging buffer. -/
def State.fwData (s : State) (v : Nat) : Except Nat State :=
  if s.updating then .error abState
  else if fwSlotBytes < s.sec.staged + 64 then .error abRange
  else
    let n := s.sec.staged + 64
    let s := s.write (fwStageBase + s.sec.staged) (leBytes 64 v)
    .ok ({ s with sec := { s.sec with staged := n } }.setFld kFwu fwu_staged_bytes n)

/-- The slot that STRAP_SEL selects. -/
def State.strapSlot (s : State) : Nat := s.fld (key 0x3200 4) strp_boot_source

/-- Verifies the staged image and begins to write slot `t`, which fails verification until the write ends (R574). -/
def State.fwGo (s : State) (t : Nat) : Except Nat State :=
  if s.updating ∨ s.active ∨ (!s.flag kSst sst_recovery ∧ t = s.strapSlot ∧ !s.slotVerifies (1 - t)) then .error abState
  else
    let s := s.setFld kFwu fwu_target t
    if s.fwVerifies fwStageBase s.sec.staged then
      let s := (s.setFld kFwu fwu_update_state 1).setFlag kFwu fwu_verify_failed false
      .ok { s with sec := { s.sec with writing := some t }, mem := zeroRange s.mem (fwSlotBase t) fwSlotBytes }
    else .ok ((s.setFld kFwu fwu_update_state 3).setFlag kFwu fwu_verify_failed true)

/-- FIRMWARE_BEGIN (R574). -/
def execFirmwareBegin (s : State) : Host.Outcome State Fault Refusal :=
  if s.rst.available then orSame s s.fwBegin else .next s

/-- FIRMWARE_DATA (R574). -/
def execFirmwareData (v : Nat) (s : State) : Host.Outcome State Fault Refusal :=
  if s.rst.available then orSame s (s.fwData v) else .next s

/-- FIRMWARE_GO (R574): target 0 slot A, 1 slot B. -/
def execFirmwareGo (t : Nat) (s : State) : Host.Outcome State Fault Refusal :=
  if s.rst.available ∧ t < 2 then orSame s (s.fwGo t) else .next s

/-- FIRMWARE_WRITE_DONE (R574). -/
def execFirmwareWriteDone (s : State) : Host.Outcome State Fault Refusal :=
  match s.sec.writing with
  | none => .next s
  | some t =>
    let s := s.write (fwSlotBase t) (readBytes s.mem fwStageBase s.sec.staged)
    let s := { s with sec := { s.sec with writing := none } }.setFld kFwu fwu_update_state 2
    .next (s.record 17 (7 + 2 ^ 8 * t) (s.fwDigestAt (fwSlotBase t)))

/-! ### Signed messages (R575, R576, R583) -/

/-- Message Control. -/
def kMsg : Nat := key 0x3150 3

/-- Bits `lo` to `lo + w - 1` of the message body. -/
def State.msgFld (s : State) (lo w : Nat) : Nat := bits (readNat s.mem msgBase 128) lo w

/-- The Security Nonce (R575). -/
def State.nonce (s : State) : Nat := Config.drbg s.sec.draws % 2 ^ 256

/-- The signer prefix. -/
def State.signer (s : State) : Nat := readNat s.mem (msgBase + 128) 4

/-- State of owner slot `k`. -/
def State.owner (s : State) (k : Nat) : Nat := s.ent (kOwn k)

/-- Every owner slot is empty. -/
def State.unclaimed (s : State) : Bool := (List.range 4).all (fun k => s.owner k == 0)

/-- The one unsigned message that is accepted (R576). -/
def State.claims (s : State) : Bool :=
  s.signer == 0xFFFFFFFF && s.unclaimed && s.msgFld 32 8 == 1 && s.msgFld 40 8 == 0

/-- The message has the form of R575. -/
def State.msgForm (s : State) : Bool :=
  s.sec.msgLen == 8000 && s.msgFld 0 32 == 0x534D5347 && s.msgFld 48 16 == 0 && s.msgFld 640 384 == 0 &&
    decide (1 ≤ s.msgFld 32 8) && decide (s.msgFld 32 8 ≤ 5)

/-- The signature of the message is the signer's. -/
def State.msgSigned (s : State) : Bool :=
  Config.signatureValid (s.ent (kOwnKey s.signer)) (toBytes (sha256 (readBytes s.mem msgBase 128)))
    (s.bytesAt (msgBase + 132) sigBytes)

/-- Cause 6 of R583: the state of slot, floor counter or job refuses the message. -/
def State.msgState (s : State) (ty tgt : Nat) : Bool :=
  match ty with
  | 1 => decide (tgt < 4) && s.owner tgt != 0
  | 2 => decide (tgt < 4) && (s.owner tgt != 1 || !(List.range 4).any (fun k => k != tgt && s.owner k == 1))
  | 3 => s.fld kAdv radv_image_left == 0
  | 4 => s.fld kAdv radv_firmware_left == 0
  | _ => s.active

/-- Cause 7 of R583: a target or floor out of range. -/
def State.msgValue (s : State) (ty tgt v : Nat) : Bool :=
  match ty with
  | 1 => decide (4 ≤ tgt)
  | 2 => decide (4 ≤ tgt)
  | 3 => decide (v ≤ s.fld kFloor flImage)
  | 4 => decide (v ≤ s.fld kFloor flFirm) || decide (s.sec.fwVersion < v)
  | _ => tgt != 1 && tgt != 2

/-- The first cause of R583 that refuses the message in the buffer, 0 when none does. -/
def State.msgCause (s : State) : Nat :=
  let ty := s.msgFld 32 8
  let tgt := s.msgFld 40 8
  if !s.msgForm then 1
  else if !(s.claims || (decide (s.signer < 4) && s.owner s.signer == 1)) then 2
  else if !(s.claims || s.msgSigned) then 3
  else if s.msgFld 96 256 ≠ s.nonce then 4
  else if s.msgFld 64 32 ≠ s.ent (key 0x1018 4) then 5
  else if s.msgState ty tgt then 6
  else if s.msgValue ty tgt (s.msgFld 352 32) then 7
  else 0

/-- Debug Control. -/
def kDbg : Nat := key 0x3170 1

/-- What an accepted message does (R575). -/
def State.msgEffect (s : State) (ty tgt v keyv : Nat) : State :=
  match ty with
  | 1 => (s.setEnt (kOwn tgt) 1).setEnt (kOwnKey tgt) keyv
  | 2 => s.setEnt (kOwn tgt) 2
  | 3 => (s.setFld kFloor flImage v).setFld kAdv radv_image_left (s.fld kAdv radv_image_left - 1)
  | 4 => (s.setFld kFloor flFirm v).setFld kAdv radv_firmware_left (s.fld kAdv radv_firmware_left - 1)
  | _ => (s.setFld kDbg dbg_debug_scope tgt).bump kDbg dbg_opens

/-- The slot or scope of a security record of a message type (R562). -/
def msgUnit (ty tgt : Nat) : Nat := if ty = 3 ∨ ty = 4 then 0 else tgt

/-- go of Message Control (R576, R583): the message is executed or refused, and the nonce is renewed. -/
def State.msgGo (s : State) : State :=
  let ty := s.msgFld 32 8
  let tgt := s.msgFld 40 8
  let dig := sha256Nat (readBytes s.mem msgBase 128)
  let c := s.msgCause
  let s :=
    if c = 0 then
      ((s.msgEffect ty tgt (s.msgFld 352 32) (s.msgFld 384 256)).setFld kMsg msg_msg_state 2).record 17
        (ty + 2 ^ 8 * msgUnit ty tgt) dig
    else (s.setFld kMsg msg_msg_state 3).record 17 6 dig
  { s with sec := { s.sec with draws := s.sec.draws + 1 } }.setFld kMsg msg_cause c

/-- Empties Message Data. -/
def State.msgBegin (s : State) : State :=
  { s with mem := zeroRange s.mem msgBase s.sec.msgLen, sec := { s.sec with msgLen := 0 } }

/-- Appends 64 bytes to Message Data. -/
def State.msgAppend (s : State) (v : Nat) : State :=
  let a := msgBase + s.sec.msgLen
  { s.write a (leBytes 64 v) with sec := { s.sec with msgLen := s.sec.msgLen + 64 } }

/-- MESSAGE_BEGIN (R583). -/
def execMessageBegin (s : State) : Host.Outcome State Fault Refusal := .next (if s.dictOpen then s.msgBegin else s)

/-- MESSAGE_DATA (R581). -/
def execMessageData (v : Nat) (s : State) : Host.Outcome State Fault Refusal := .next (if s.dictOpen then s.msgAppend v else s)

/-- go on a message of type `ty` in the buffer; with another there, nothing (log entry 2). -/
def State.onMessage (s : State) (ty : Nat) : State := if s.dictOpen ∧ s.msgFld 32 8 = ty then s.msgGo else s

/-- KEY_INSTALL (R575). -/
def execKeyInstall (s : State) : Host.Outcome State Fault Refusal := .next (s.onMessage 1)

/-- KEY_REVOKE (R575). -/
def execKeyRevoke (s : State) : Host.Outcome State Fault Refusal := .next (s.onMessage 2)

/-- IMAGE_FLOOR (R575). -/
def execImageFloor (s : State) : Host.Outcome State Fault Refusal := .next (s.onMessage 3)

/-- FIRMWARE_FLOOR (R575). -/
def execFirmwareFloor (s : State) : Host.Outcome State Fault Refusal := .next (s.onMessage 4)

/-- DEBUG_OPEN (R575, R580). -/
def execDebugOpen (s : State) : Host.Outcome State Fault Refusal := .next (s.onMessage 5)

/-- close of Debug Control (R580, R584). -/
def State.dbgClose (s : State) : State := s.setFld kDbg dbg_debug_scope 0

/-- What can be shifted into the TAP's instruction register (R579, R580). -/
inductive TapInstr where
  | bypass | idcode | samplePreload | extest | debug
deriving DecidableEq, Repr

/-- The TAP executes the instruction: the scope that is open allows it (R579, R580). No command of the table brings an
instruction to the TAP, so what one does there is left out (log entry 80). -/
def State.tapRuns (s : State) (i : TapInstr) : Bool :=
  match i with
  | .bypass => true
  | .idcode => true
  | .samplePreload => decide (1 ≤ s.fld kDbg dbg_debug_scope)
  | .extest => decide (1 ≤ s.fld kDbg dbg_debug_scope)
  | .debug => decide (2 ≤ s.fld kDbg dbg_debug_scope)

/-- DEBUG_CLOSE (R584). -/
def execDebugClose (s : State) : Host.Outcome State Fault Refusal := .next (if s.dictOpen then s.dbgClose else s)

/-! ### Attestation (R578) -/

/-- SHA-256 of the valid header copy and every slot in order. -/
def State.recorderDigest (s : State) : Nat :=
  sha256Nat (leBytes 64 s.recHeader ++ (List.range recSlots).flatMap (fun k => leBytes 256 (s.slotWord k)))

/-- SHA-256 of the owner slots' states and keys. -/
def State.ownerDigest (s : State) : Nat :=
  sha256Nat ((List.range 4).flatMap (fun k => s.owner k :: leBytes 32 (s.ent (kOwnKey k))))

/-- The image digest of the loaded job, 0 with none. -/
def State.imageDigest (s : State) : Nat :=
  (List.range 4).foldl (fun v i => v + 2 ^ (64 * i) * s.ent (key 0x2C00 (2 + i))) 0

/-- The 256-byte body of an attestation report. -/
def State.attestBody (s : State) : Nat :=
  0x41545331 + 2 ^ 32 + 2 ^ 64 * s.ent (key 0x1018 4) + 2 ^ 96 * s.ent (key 0x1018 3) + 2 ^ 128 * s.ent (key 0x3160 1)
    + 2 ^ 384 * t64 s.now + (if s.flag kTime tsts_time_lock then 2 ^ 448 else 0) + 2 ^ 449 * s.fld kDbg dbg_debug_scope
    + 2 ^ 451 * s.jobState + 2 ^ 512 * s.sec.fwDigest + 2 ^ 768 * s.imageDigest + 2 ^ 1024 * s.ent (key 0x2C00 1)
    + 2 ^ 1088 * s.recorderDigest + 2 ^ 1344 * (s.recd.nextSeq % 2 ^ 64) + 2 ^ 1408 * s.recd.drops
    + 2 ^ 1440 * s.fld kFloor flImage + 2 ^ 1472 * s.fld kFloor flFirm + 2 ^ 1504 * s.ownerDigest

/-- go of Attestation Control: what the report says is as of this clk. -/
def State.attestGo (s : State) : Except Nat State :=
  if s.fld kAtt att_state = 1 then .error abState
  else
    let body := leBytes 256 s.attestBody
    let sig := (Config.identitySignature (toBytes body)).map (fun b => b.toNat)
    .ok ({ s with sec := { s.sec with making := body ++ sig.take sigBytes } }.setFld kAtt att_state 1)

/-- ATTESTATION_GO (R578). -/
def execAttestationGo (s : State) : Host.Outcome State Fault Refusal :=
  if s.dictOpen then orSame s s.attestGo else .next s

/-- ATTESTATION_READY (R578). -/
def execAttestationReady (s : State) : Host.Outcome State Fault Refusal :=
  if s.fld kAtt att_state = 1 then
    .next ({ s with sec := { s.sec with report := s.sec.making, making := [] } }.setFld kAtt att_state 2)
  else .next s

end Sys2Proof.Machine
end

