-- ==== Sys2Proof/Machine/Reset.lean ====
section
/-! DEFINITION. Reset and start-up (R474 to R499): what each reset clears, how resets meet, the sequence from a supply
ramp to a dictionary that answers, safe hold, and block resets. -/

namespace Sys2Proof.Machine

/-! ### What a full reset leaves of the dictionary (R435, R437, R475, R552, R553, R555, R584) -/

/-- Fields that no full reset clears: OTP and flash. -/
def otpFlds (k : Nat) : List Fld :=
  let i := k / 256
  if (0x3120 ≤ i ∧ i < 0x3124) ∨ i = 0x3130 then (match findEntry i (k % 256) entries with
    | some e => e.flds
    | none => [])
  else []

/-- Fields that only power-on clears: the time block, the always-on words, the fault reports, and what counts since
power-on (log entry 29). -/
def powerFlds (k : Nat) : List Fld :=
  let i := k / 256
  if (0x2E00 ≤ i ∧ i < 0x2F00) ∨ (i = 0x3000 ∧ 0x10 ≤ k % 256) ∨ k = key 0x3200 1 ∨ k = key 0x3200 4 then
    (match findEntry i (k % 256) entries with
     | some e => e.flds
     | none => [])
  else if k = kFst then [fst_job_faults, fst_last_family, fst_report_count]
  else if k = kRsts then [rsts_restarts]
  else if k = kDbg then [dbg_opens]
  else []

/-- Fields of entry `k` that outlast a full reset. -/
def keptFlds (power : Bool) (k : Nat) : List Fld := otpFlds k ++ (if power then [] else powerFlds k)

/-- The dictionary entries that outlast a full reset. -/
def State.keptDict (s : State) (power : Bool) : SMap Nat :=
  s.dict.filterMap (fun e =>
    let v := s.onlyFlds (keptFlds power e.1) e.1 e.2
    if v = dflt s.grade s.stepping e.1 then none else some (e.1, v))

/-- Entries written from a list, each with its saved fields; one with none is none of the store's. -/
def State.readStore (s : State) (m : SMap Nat) : State :=
  m.foldl (fun s e => if (savedFlds e.1).isEmpty then s else s.setEnt e.1 (s.onlyFlds (savedFlds e.1) e.1 e.2)) s

/-- Step 7 reads the persistence store; of an empty one the laser banks are read from their optical switches, and no
SRAM row counts as repaired (R437, R485). -/
def State.loadStore (s : State) : State :=
  if s.storeValid then s.readStore s.storeMap
  else s.rst.switches.foldl (fun s e =>
    (s.setFld (kLas e.1) las_spare_state 1).setFld (kLas e.1) las_replaced (e.2 - 1))
    { s with tend := { s.tend with spareGroups := [] } }

/-- The dictionary after a full reset, its S and A entries at their defaults until step 7; at power-on a mark has taken
effect (R436). -/
def State.resetDict (s : State) (power : Bool) : State :=
  let mark := power && s.ctl.storeMark
  let ctl : Ctl := { copy0 := if mark then none else s.ctl.copy0, copy1 := if mark then none else s.ctl.copy1,
                     storeMark := s.ctl.storeMark && !power, canStb := s.ctl.canStb || power }
  { s with dict := s.keptDict power, ctl := ctl }

/-! ### A full reset (R474 to R477, R528) -/

/-- Reset Cause. -/
def kRcs : Nat := key 0x3200 1

/-- Seen bit of cause 1 power-on, 2 RESET_N, 3 watchdog, 4 field network, 5 software. -/
def causeFld : Nat → Fld
  | 1 => rcs_por_seen
  | 2 => rcs_reset_n_seen
  | 3 => rcs_watchdog_seen
  | 4 => rcs_field_net_seen
  | _ => rcs_software_seen

/-- Full resets that registered in the present 25 MHz cycle, 50 clk (R477). -/
def State.sameCycle (s : State) : List (Nat × Nat) := s.rst.last.filter (fun e => e.1 / 50 == s.clk / 50)

/-- The reset cause word takes note of cause `c`: its seen bit, the count, and the lowest code of the cycle (R477,
R495). -/
def State.noteCause (s : State) (c : Nat) : State :=
  let l := s.sameCycle
  let s := if c = 1 then
      l.foldl (fun s e => (s.setFlag kRcs (causeFld e.2) true).bumpBy kRcs rcs_full_resets (if e.2 = 1 then 0 else 1))
        (s.setEnt kRcs (dflt s.grade s.stepping kRcs))
    else s.bump kRcs rcs_full_resets
  let s := (s.setFlag kRcs (causeFld c) true).setFld kRcs rcs_last_full_cause ((l.map Prod.snd).foldl min c)
  { s with rst := { s.rst with last := (s.clk, c) :: l } }

/-- Step 3 has not begun: a full reset other than power-on is absorbed (R477). -/
def State.beforeTrim (s : State) : Bool := decide (s.rst.step < 3) || (s.rst.step == 3 && s.rst.pinHeld)

/-- Some reading is at or above its warn limit (R528). -/
def State.warm (s : State) : Bool :=
  s.tele.sensors.any (fun e => match e.2 with
    | some t => decide (s.limit e.1 lim_warn ≤ t)
    | none => false)

/-- Everything but the dictionary that a full reset clears (R475). The outputs have been forced; but at power-on, pulses
that end within 6 clk do so, and the drivers release the pins 1 µs later (R476). DDR4 stays at a reset other than
power-on; after power-on its contents are not defined. The rows and lanes that wait for a repair inside a stack are
repaired at step 7 (R542, R548). -/
def State.clearBlock (s : State) (power : Bool) : State :=
  let hold := s.tele.hold && s.warm
  let mem := zeroRange (zeroRange (zeroRange s.mem 0 (104 * 2 ^ 25)) (hbmBase 0) (2 ^ 41)) fwStageBase (2 ^ 60 - fwStageBase)
  { s with
    mem := if power then zeroRange mem ddrBase (2 ^ 52) else mem
    tiles := []
    net := { retired := s.net.retired }
    tend := {
      spareGroups := s.tend.spareGroups
      stackErrs := if power then [] else s.tend.stackErrs
      badMem := if power then [] else s.tend.badMem.filter (fun w => decide (ddrBase / 64 ≤ w)) }
    land := if power then {} else { parsers := mmap ({} : Parser) (fun p => { hist := p.hist }) s.land.parsers }
    dec := if power then {} else { pulses := s.dec.pulses, driven := s.dec.driven }
    cap := {}
    job := {}
    berth := {}
    time := if power then { tickClk := s.clk - s.clk % 4, since := s.clk } else s.time
    recd := { s.recd.closed with snapCan := 0, snapBar := 0, offCan := 0, offBar := 0 }
    sec := { draws := s.sec.draws + 1 }
    tele := { hold := hold }
    flt := {}
    rst := {
      step := if power then 0 else 3
      pinHeld := s.rst.pinHeld
      perst := s.rst.perst
      fails := if power then 0 else s.rst.fails
      since := s.clk
      last := s.rst.last
      power := power
      trim := if power then 0 else s.rst.trim
      release := if power || !s.dec.driven then none else some (s.rst.release.getD (s.clk + 1250))
      soft := s.rst.soft.filter (fun c => c / 50 == s.clk / 50)
      ddrZero := s.rst.ddrZero && !power
      switches := s.rst.switches } }

/-- 1 µs after a full reset registered, the output drivers release the pins to their weak pull-ups (R476). -/
def State.releasePins (s : State) : State :=
  match s.rst.release with
  | some c => if c ≤ s.clk then { s with dec := { s.dec with driven := false }, rst := { s.rst with release := none } } else s
  | none => s

/-- Watchdog. -/
def kWd : Nat := key 0x3200 6

/-- The watchdog runs: from step 4 on with its fixed limit, once the dictionary is available as wd_enable sets, and not
while host-only boot waits (R499). -/
def State.watchdogOn (s : State) : Bool :=
  decide (4 ≤ s.rst.step) && !s.rst.waitHost && (!s.rst.available || s.flag kWd wd_wd_enable)

/-- CAN FD runs: the dictionary is available (R487). -/
def State.canUp (s : State) : Bool := s.rst.available && !s.rst.safeHold

/-- A full reset of cause `c` registers (R476, R477, R528). In safe hold only power-on does; one that comes before step 3,
or in the cycle of another, is only noted. A thermal hold goes on while a reading is at or above the warn limit in
force, and the time_lock doubt while the lock is missing (R423). -/
def State.fullReset (s : State) (c : Nat) : State :=
  if s.rst.safeHold ∧ c ≠ 1 then s
  else if c ≠ 1 ∧ (s.beforeTrim || !s.sameCycle.isEmpty) then s.noteCause c
  else
    let t := ((s.abortAll.setDoubt 0 true).tearRecorder.clearBlock (c == 1)).resetDict (c == 1)
    let t := if t.tele.hold then t.setFlag kTel tel_thermal_trip true else t
    ({ t with rst := { t.rst with wdRan := s.watchdogOn, canRan := s.canUp } }.noteCause c).refreshTimeDoubt

/-- A reset source that ran when the first full reset of this cycle registered (R477). -/
def State.ranThen (s : State) (ran : Bool) : Bool := !s.sameCycle.isEmpty && ran

/-- POWER_ON_RESET (R474, R520): it holds until its release. -/
def execPowerOnReset (s : State) : Host.Outcome State Fault Refusal := .next (s.fullReset 1)

/-- POWER_ON_RESET_RELEASE (R520): step 1 begins. -/
def execPowerOnResetRelease (s : State) : Host.Outcome State Fault Refusal :=
  if s.rst.step = 0 then .next { s with rst := { s.rst with step := 1, since := s.clk } } else .next s

/-- RESET_N (R474, R478): the filter takes a low pulse; it takes none while one holds the pin. -/
def execResetN (s : State) : Host.Outcome State Fault Refusal :=
  let t := s.fullReset 2
  .next (if s.rst.safeHold ∨ s.rst.pinHeld then s else { t with rst := { t.rst with pinHeld := true } })

/-- RESET_N_RELEASE (R478). -/
def execResetNRelease (s : State) : Host.Outcome State Fault Refusal :=
  .next { s with rst := { s.rst with pinHeld := false } }

/-- WATCHDOG_EXPIRY (R474, R477, R499). -/
def execWatchdogExpiry (s : State) : Host.Outcome State Fault Refusal :=
  if s.watchdogOn || s.ranThen s.rst.wdRan then .next (s.fullReset 3) else .next s

/-- A write of the Reset Command (R494): the reset registers 10 ms later, and nothing written meanwhile delays it. -/
def State.resetCommand (s : State) (v : Nat) : Except Nat State :=
  if v = 0x74657372 then .ok { s with rst := { s.rst with soft := some (s.rst.soft.getD (s.clk + 12500000)) } } else .error abRange

/-- SOFTWARE_RESET (R494). -/
def execSoftwareReset (v : Nat) (s : State) : Host.Outcome State Fault Refusal :=
  if s.rst.available then orSame s (s.resetCommand v) else .next s

/-- A software full reset whose 10 ms have passed registers. -/
def State.softDue (s : State) : State :=
  match s.rst.soft with
  | some c => if c ≤ s.clk then { s with rst := { s.rst with soft := none } }.fullReset 5 else s
  | none => s

/-! ### The host link (R475, R486) -/

/-- Host Link Status. -/
def kHls : Nat := key 0x2F20 2

/-- The host link clears: latch, agreed features, slots, vectors with their table, endpoint (R475). -/
def State.clearLink (s : State) : State :=
  let s := { s with ctl := { s.ctl with
    slotCmd := []
    slotStat := []
    slotData := []
    latched := false
    hotRefusal := 0
    vectors := []
    msix := [] } }
  (((s.setEnt (key 0x2F10 3) 0).setFld kHls hls_link_speed 0).setFld kHls hls_link_width 0)

/-- The link trains; the speed and width it reaches are free within R446 (log entry 30). -/
def State.trainLink (s : State) : State :=
  let a := s.fresh 3
  let b := a.2.fresh 2
  (b.2.setFld kHls hls_link_speed (1 + a.1 % 5)).setFld kHls hls_link_width ([1, 4, 8].getD (b.1 % 3) 1)

/-- PERST_ASSERT (R474, R475, R477): in safe hold it registers nothing; the link follows the pin's level after it. -/
def execPerstAssert (s : State) : Host.Outcome State Fault Refusal :=
  if s.rst.safeHold then .next { s with rst := { s.rst with perst := true } }
  else
    let s := s.clearLink.setFlag kRcs rcs_perst_seen true
    .next { s with rst := { s.rst with perst := true } }

/-- PERST_RELEASE (R486): the link trains once step 4 has ended. -/
def execPerstRelease (s : State) : Host.Outcome State Fault Refusal :=
  if s.rst.perst then
    let s := { s with rst := { s.rst with perst := false } }
    .next (if 4 < s.rst.step then s.trainLink else s)
  else .next s

/-! ### The sequence (R479 to R488) -/

/-- TRIM_ATTEMPT_DONE (R481, R482): an attempt that began after the latest reset completes. -/
def execTrimAttemptDone (ok : Bool) (s : State) : Host.Outcome State Fault Refusal :=
  if s.rst.step = 3 ∧ !s.rst.pinHeld ∧ !s.rst.safeHold then
    if ok then
      .next ({ s with rst := { s.rst with step := 4, fails := 0, trim := 1 } }.setFld kSst sst_trim_failures s.rst.seqFails)
    else
      let n := s.rst.fails + 1
      .next { s with rst := { s.rst with fails := n, seqFails := s.rst.seqFails + 1, safeHold := decide (3 ≤ n) } }
  else .next s

/-- Field Network Configuration. -/
def kCan : Nat := key 0x2F30 1
/-- Strap. -/
def kStrp : Nat := key 0x3200 4

/-- node-id and data rate by R442 and R480. -/
def State.applyNode (s : State) : State :=
  let f := s.fld kStrp strp_field_bits
  let id := (s.fld kCan can_node_id_cfg + 126 + 32 * f) % 127 + 1
  let rate := if s.flag kCan can_rate_source then s.fld kCan can_data_rate_cfg else if f < 2 then 2 else 0
  (s.setFld kCans cans_node_id id).setFld kCans cans_rate rate

/-- The dictionary becomes available, ready_ms by round_ta (R21): boot-up message, pre-operational, the reset record
(R442, R487, R498). -/
def State.makeAvailable (s : State) : State :=
  if s.rst.available then s
  else
    let ms := min (roundTa ((s.clk - s.rst.since : Nat) : Int) 1250000).toNat 65535
    let s := ({ s with rst := { s.rst with available := true }, ctl := { s.ctl with canStb := false } }.setFld kSst
      sst_ready_ms ms).applyNode
    let s := (s.setFld kCans cans_nmt_state 0).emit (.bootUp (s.cob 0x700))
    s.record 2 (s.ent kRcs % 2 ^ 11) (s.ent kRcs + 2 ^ 32 * s.ent kSst)

/-- Firmware runs from the image at `a`. -/
def State.runFirmware (s : State) (a : Nat) : State :=
  { s with sec := { s.sec with fwVersion := bits (s.fwHeader a) 32 16, fwDigest := s.fwDigestAt a } }

/-- A slot that fails at boot is recorded (R573). -/
def State.slotFailed (s : State) (k : Nat) : State := s.record 17 (8 + 2 ^ 8 * k) (s.fwDigestAt (fwSlotBase k))

/-- The engine enters recovery: the dictionary answers for what recovery serves (R484, R499). -/
def State.recover (s : State) : State :=
  let s := { s with rst := { s.rst with step := 6 } }
  ((s.setFlag kSst sst_recovery true).setFld kSst sst_boot_used 3).makeAvailable

/-- Step 5: the chosen slot is checked, then the other once (R484). -/
def State.bootSlot (s : State) (k : Nat) : State :=
  let go := fun (s : State) (j : Nat) =>
    { (s.runFirmware (fwSlotBase j)).setFld kSst sst_boot_used j with rst := { s.rst with step := 6 } }
  if s.slotVerifies k then go s k
  else if s.slotVerifies (1 - k) then (go (s.slotFailed k) (1 - k)).setFlag kSst sst_boot_fallback true
  else ((s.slotFailed k).slotFailed (1 - k)).recover

/-- The boot ROM has started: host-only boot waits for an image, recovery starts at once (R484, R486). -/
def State.bootRom (s : State) : State :=
  let s := if s.rst.perst then s else s.trainLink
  match s.strapSlot with
  | 2 => { s with rst := { s.rst with step := 5, waitHost := true } }
  | 3 => s.recover
  | _ => { s with rst := { s.rst with step := 5 } }

/-- Step 6 ends: the PLLs locked and the trim is distributed, or not (R481, R483). A thermal hold leaves the engine in this
step, with the dictionary available (R528). -/
def State.pllDone (s : State) (ok : Bool) : State :=
  if ok then
    let s := s.setFlag kSst sst_pll_failed false
    let s := { s with rst := { s.rst with trim := 2 }, time := { s.time with unlocked := [] } }
    if s.tele.hold then s.makeAvailable
    else { s with rst := { s.rst with step := if s.flag kSst sst_recovery then 8 else 7 } }
  else (s.setFlag kSst sst_pll_failed true).makeAvailable

/-- The engine supports a DDR4 population: all twelve channels or the even ones, of DIMMs that are alike and of a
supported capacity (R282). -/
def ddrSupported (alike : Bool) (mask : Nat) : Bool := alike && (mask == 0xFFF || mask == 0x555)

/-- Step 7 ends: the stacks and channels of the masks trained; `pop` are the populated channels and `alike` says that
their DIMMs are identical and of a supported capacity. A population that is not supported leaves DDR4 out of service
(R282, R437, R483, R485, R487, R488, R548, R564). -/
def State.memoryDone (s : State) (alike : Bool) (mask hbm ddr : Nat) : State :=
  let pop := ddrSupported alike mask
  let ddr := if pop then ddr &&& mask else 0
  let stored := s.storeValid
  let s := { s.loadStore with tend := { s.loadStore.tend with ddrPop := if pop then mask else 0 } }
  let s := (List.range 10).foldl (fun s u => s.setFlag (kUnit 0 u) munit_in_service (bit hbm u)) s
  let s := (List.range 12).foldl (fun s u => s.setFlag (kUnit 1 u) munit_in_service (bit ddr u)) s
  let s := ((s.setFld kSst sst_hbm_in_service hbm).setFld kSst sst_ddr_in_service ddr).setFlag kSst
    sst_ddr_population_ok pop
  let s := (s.setFlag kSst sst_ddr_ready (pop && (s.rst.ddrZero || !s.rst.power))).bootRecorder
  let s := if stored then s else (s.setFlag kSst sst_store_empty true).record 3 0 0
  let s := s.repairStacks
  { s.makeAvailable with rst := { s.makeAvailable.rst with step := 8 } }

/-- STARTUP_STEP_DONE (R483): the step under way completes. Step 2 gives the strap code `a`; step 5 checks the
firmware by R573; step 6 locks or not by `ok`; step 7 gives the stacks and channels that trained, and `a` the DDR4
population: bit 0 DIMMs that are alike and of a supported capacity, bits 12:1 the populated channels. Step 3 ends by
TRIM_ATTEMPT_DONE, the wait of host-only boot by BOOT_GO. -/
def execStartupStepDone (ok : Bool) (a hbmMask ddrMask : Nat) (s : State) : Host.Outcome State Fault Refusal :=
  if s.rst.safeHold then .next s
  else match s.rst.step with
    | 1 => .next { s with rst := { s.rst with step := 2 } }
    | 2 =>
      let c := a % 1024
      let s := s.setEnt kStrp (c + 2 ^ 10 * (c / 64) + 2 ^ 14 * (c / 64 % 4) + 2 ^ 16 * (c / 256))
      .next { s with rst := { s.rst with step := 3 } }
    | 4 => .next s.bootRom
    | 5 => .next (if s.rst.waitHost then s else s.bootSlot (s.strapSlot % 2))
    | 6 => .next (if s.flag kSst sst_pll_failed || (s.tele.hold && s.rst.trim == 2) then s else s.pllDone ok)
    | 7 => .next (s.memoryDone (a % 2 == 1) (a / 2 % 2 ^ 12) (hbmMask % 2 ^ 10) (ddrMask % 2 ^ 12))
    | _ => .next s

/-- PLL_RETRY (R483). -/
def execPllRetry (ok : Bool) (s : State) : Host.Outcome State Fault Refusal :=
  if s.rst.step = 6 ∧ s.flag kSst sst_pll_failed then .next (s.pllDone ok) else .next s

/-- boot_go: the image of `bytes` bytes that the host wrote is checked, and boots or is rejected (R484, R573). -/
def State.bootCheck (s : State) (bytes : Nat) : State :=
  if bytes ≤ fwSlotBytes ∧ s.fwVerifies bootBase bytes then
    let s := (s.runFirmware bootBase).setFld kSst sst_boot_used 2
    { s with rst := { s.rst with step := 6, waitHost := false, bootBytes := bytes % 2 ^ 24, bootRejected := false } }
  else { s with rst := { s.rst with bootBytes := bytes % 2 ^ 24, bootRejected := true } }

/-- BOOT_GO (R484, R573): the image the host wrote into BAR0 and the count it gave. -/
def execBootGo (bytes : Nat) (image : List Byte) (s : State) : Host.Outcome State Fault Refusal :=
  if s.rst.waitHost then
    let mem := writeBytes (zeroRange s.mem bootBase fwSlotBytes) bootBase ((image.take fwSlotBytes).map (fun b => b.toNat))
    .next (({ s with mem := mem } : State).bootCheck bytes)
  else .next s

/-- DDR_READY (R488): after power-on, every DDR4 byte has been written 0. -/
def execDdrReady (s : State) : Host.Outcome State Fault Refusal :=
  if s.rst.step = 8 ∧ s.rst.power ∧ !s.rst.ddrZero ∧ s.flag kSst sst_ddr_population_ok then
    .next ({ s with mem := zeroRange s.mem ddrBase (2 ^ 52), rst := { s.rst with ddrZero := true } }.setFlag kSst
      sst_ddr_ready true)
  else .next s

/-! ### Block resets (R491 to R493) -/

/-- Block Reset. -/
def kBlk : Nat := key 0x3200 3

/-- The block exists: kind 1 quay, 2 tender, 3 link engine, 4 tile. -/
def blockOk (g : Grade) (kind n : Nat) : Bool :=
  match kind with
  | 1 => quayOk g n
  | 2 => decide (n < 16)
  | 3 => decide (n < 4)
  | 4 => tileOk g n
  | _ => false

/-- The lanes of engine `e` go to sleep, whatever they were doing. -/
def State.sleepEngine (s : State) (e : Nat) : State :=
  let s := { s with land := { s.land with
    bringWait := s.land.bringWait.filter (fun g => g / 32 != e)
    bring := s.land.bring.filter (fun b => match b.2 with
      | some x => x.engine != e
      | none => true) } }
  (List.range 34).foldl (fun s c =>
    let x := s.chan e c
    let s := if s.fld (kLstat e c) lstat_bringup_state < 8 then s.setFld (kLstat e c) lstat_bringup_state 0 else s
    (s.setChan e c { x with request := none }).sleep e c) s

/-- A block fault of the running job (R493, R539). -/
def State.blockFault (s : State) (kind n l : Nat) : State :=
  s.fault {
    family := 11
    cause := kind
    loc := loc l n
    vrow := if kind = 4 then s.vrow n else 0xFF
    vcol := if kind = 4 then s.vcol n else 0xFF
    detail := n }

/-- Quay `q` is reset (R493). -/
def State.resetQuay (s : State) (q : Nat) : State :=
  let s := (List.range 32).foldl (fun s n => s.setParser q n { hist := (s.parser q n).hist }) (s.sleepEngine q)
  (List.range 4).foldl (fun s g => (s.setGroup q g { gone := (s.group q g).gone, past := (s.group q g).past }).setFld (kGst q g) gstat_align_state 0) s

/-- The copy of fragment `k` of a kept window that tender `t` held ends failed: it is issued once more, as R328 has it
for a fragment of a record; where that fails too the fragment is missing (DESIGN CHOICE, log entry 77). -/
def State.failWindowCopy (s : State) (r : Req) (k t : Nat) : State :=
  let r1 := { r with busy := r.busy.filter (fun e => e.1 != k) }
  let s := s.leaveTender t false
  if bit r.retry k then s.putReq { r1 with bits := withoutBit r.bits k }
  else (s.capCount 7).putReq { r1 with retry := withBit r.retry k, issued := withoutBit r.issued k, retried := true }

/-- The capture copies that tender `t` held end failed (R275, R328, R493); a window card is issued again (DESIGN
CHOICE, log entry 49). -/
def State.failCopies (s : State) (t : Nat) : State :=
  let cards := (s.tender t).queue.filterMap (fun d => d.card)
  let ids := (s.cap.reqs ++ s.cap.aborted).flatMap (fun r => (r.busy.filter (fun e => e.2 == t)).map (fun e => (r.id, e.1)))
  let s := ids.foldl (fun s e =>
    match (s.cap.reqs ++ s.cap.aborted).find? (fun r => r.id == e.1) with
    | some r => if r.stage = 4 ∧ s.cap.aborted.all (fun x => x.id != r.id) then s.failWindowCopy r e.2 t else s.endCopy r e.2 t false
    | none => s) s
  { s with cap := { s.cap with cards := cards ++ s.cap.cards } }

/-- What is outstanding at tender `t` ends (R492, R493), in its queue and in that of its management copies: tile-issued
descriptors fault the job, capture copies end failed, harbourmaster copies are refused back. -/
def State.drainTender (s : State) (t : Nat) : State :=
  let s := if s.faultable ∧ (s.tender t).queue.any (fun d => d.source == 0) then s.blockFault 2 t 3 else s
  let s := s.bumpBy (kTend t) tend_refusals (s.tender (t + 16)).queue.length
  let s := s.failCopies t
  let s := (s.setTender t { seq := (s.tender t).seq }).setTender (t + 16) {}
  s.setFld (kTend t) tend_outstanding 0

/-- Tile `p` is reset (R493). -/
def State.resetTile (s : State) (p : Nat) : State :=
  let s := { s.setTile p {} with
    mem := zeroRange s.mem (sramBase p) (2 ^ 25)
    tend := { s.tend with
      badWords := mset [] s.tend.badWords p []
      badTabs := s.tend.badTabs.filter (fun e => e.1 != 128 + p && e.1 != 256 + p) }
    net := { s.net with
      prog := s.net.prog.filter (fun e => e.1 / 16384 != p)
      plen := mset 0 s.net.plen p 0
      tide := s.net.tide.filter (fun e => e.1 / 65536 != p) } }
  (List.range 8).foldl (fun s c => s.setEnt (key (0x2610 + p) (0x10 + c)) 0) s

/-- What a block reset does to the job, and to what is outstanding at the block, in the clk in which it registers (R492 to
R494): an armed job with the quay enabled, or with a virtual tile on the tile, faults, and a LOADED job with one there is
unloaded. -/
def State.fenceBlock (s : State) (kind n : Nat) : State :=
  match kind with
  | 1 => if s.faultable ∧ s.landOn n then s.blockFault 1 n 2 else s
  | 2 => s.drainTender n
  | 3 => s
  | _ => if s.placed n then
      (if s.faultable then s.blockFault 4 n 1 else if s.jobState = LOADED then s.unloadJob else s) else s

/-- The logic of a block is held in reset (R493); of a tender nothing is left to clear. -/
def State.resetBlock (s : State) (kind n : Nat) : State :=
  match kind with
  | 1 => s.resetQuay n
  | 2 => s
  | 3 => s.sleepEngine (20 + n)
  | _ => s.resetTile n

/-- 64 clk after a block reset registered, its drain is over and the reset begins (R492). -/
def State.holdBlock (s : State) : State :=
  match s.rst.block with
  | some b => if b.2.2 + 64 = s.clk then s.resetBlock b.1 b.2.1 else s
  | none => s

/-- go of Block Reset, or its abort code (R491). -/
def State.blockGo (s : State) (kind n : Nat) : Except Nat State :=
  if s.flag kBlk blk_busy then .error abState
  else if !blockOk s.grade kind n then .error abRange
  else
    let s := ((s.setFld kBlk blk_block_kind kind).setFld kBlk blk_block_number n).setFlag kBlk blk_busy true
    let s := { s with rst := { s.rst with block := some (kind, n, s.clk) } }
    .ok (s.fenceBlock kind n)

/-- BLOCK_RESET (R491 to R493). -/
def execBlockReset (kind n : Nat) (s : State) : Host.Outcome State Fault Refusal :=
  if s.rst.available then orSame s (s.blockGo kind n) else .next s

/-- BLOCK_RESET_RELEASE (R492, R495): the block has its trim again; before its reset has begun this is no event of it. -/
def execBlockResetRelease (s : State) : Host.Outcome State Fault Refusal :=
  match s.rst.block with
  | some b => if s.clk < b.2.2 + 64 then .next s else
    .next (({ s with rst := { s.rst with block := none } }.setFlag kBlk blk_busy false).setFlag kRcs rcs_block_seen true)
  | none => .next s

end Sys2Proof.Machine
end

