-- ==== Sys2Proof/Machine/Link.lean ====
section
/-! DEFINITION. The paths to the dictionary (R433 to R452, R467, R487, R585): what an entry reads, what a write does, the
access slots and hot registers of BAR0, BAR2, the feature latch, and CAN FD. -/

namespace Sys2Proof.Machine

/-! ### Reading an entry (R440, R467, R551, R568, R581) -/

/-- 64 bytes of `l` at `off`, as a number. -/
def chunkAt (l : List Nat) (off : Nat) : Nat := leNat ((l.drop off).take 64)

/-- A lane status word as it reads: fom is 0 when the lane is not active (R73). -/
def laneStatusWord (w : Nat) : Nat := if lstat_power_state_now.of w = 0 then w else lstat_fom.put w 0

/-- A lane equaliser word as it reads: while the channel with status word `st` is awake, the gain code and the CDR
phase are what its loops hold in this clk, which the spec does not compute (R76; a free value, log entry 36). -/
def State.equaliserWord (s : State) (st k : Nat) : Nat :=
  let w := s.ent k
  if s.fld st lstat_power_state_now = 2 then w
  else leq_cdr_phase.put (leq_agc_gain.put w (Config.receiverCode 0 k s.clk % 256)) (Config.receiverCode 1 k s.clk % 256)

/-- The loaded job names layer `l`: an SBOPN word of its programs does (R164). DESIGN CHOICE (log entry 78): in EMPTY
no layer is named, so every calibration object reads 0. -/
def State.layerNamed (s : State) (l : Nat) : Bool :=
  s.jobState != EMPTY && s.net.prog.any (fun e => opcodeOf e.2 == 0x63 && bits e.2 18 8 == l)

/-- What object `sub` of layer `l` reads (R167): 0 for a layer that the job does not name; while PAUSED the totals
hold every clk that the grid has run. -/
def State.layerWord (s : State) (l sub : Nat) : Nat :=
  if !s.layerNamed l then 0
  else if s.jobState = PAUSED ∧ 4 ≤ sub ∧ sub ≤ 6 then min (mget 0 s.job.layerTot (4 * l + (sub - 3))) (2 ^ 48 - 1)
  else s.ent (key (0x2400 + l) sub)

/-- The 128-byte body of the certificate (R570). -/
def State.certBody (s : State) : Nat :=
  0x43455231 + 2 ^ 32 + 2 ^ 64 * s.ent (key 0x1018 4) + 2 ^ 96 * s.ent (key 0x1018 2) + 2 ^ 128 * s.ent (key 0x1018 3)
    + 2 ^ 160 * (Config.made % 2 ^ 64) + 2 ^ 224 * (Config.identityKey % 2 ^ 256) + 2 ^ 480 * (Config.issuer % 2 ^ 64)

/-- The certificate of the identity key: its body and the maker's signature over the body's digest (R570). -/
def State.certificate (s : State) : List Nat :=
  let body := leBytes 128 s.certBody
  body ++ ((Config.caSignature (toBytes (sha256 body))).map (fun b => b.toNat)).take 7856

/-- What entry `i`:`sub` reads on a path; entries that keep no word of their own are computed. -/
def State.readWord (s : State) (can : Bool) (i sub : Nat) : Nat :=
  if i = 0x1001 then s.errorRegister
  else if 0x2400 ≤ i ∧ i < 0x2500 then s.layerWord (i - 0x2400) sub
  else if (0x2120 ≤ i ∧ i < 0x2134) ∨ (0x21A4 ≤ i ∧ i < 0x21A8) then laneStatusWord (s.ent (key i sub))
  else if 0x2160 ≤ i ∧ i < 0x2174 then s.equaliserWord (key (i - 0x40) sub) (key i sub)
  else if 0x21AC ≤ i ∧ i < 0x21B0 then s.equaliserWord (key (i - 8) sub) (key i sub)
  else if 0x2780 ≤ i ∧ i < 0x2794 ∧ sub = 3 then s.courseSize (i - 0x2780)
  else if 0x2780 ≤ i ∧ i < 0x2794 ∧ sub = 6 then s.ent (key i 2) * s.job.fper
  else if 0x2D10 ≤ i ∧ i < 0x2D30 then s.roleWord (i - 0x2D10)
  else if i = 0x2E00 ∧ sub = 4 then t128 s.mainRead
  else if i = 0x2E01 ∧ sub = 5 then s.time.fbTicks % 2 ^ 64
  else if i = 0x2E40 ∧ sub = 4 then
    (mget ({ stamp := 0, source := 0, kind := 0, detail := 0 } : TlEnt) s.time.ring (s.ent kTlC % 4096)).bits
  else if i = 0x3100 ∧ sub = 1 then s.recHeader
  else if i = 0x3100 ∧ sub = 3 then (s.snapOf can).1
  else if i = 0x3100 ∧ sub = 5 then (s.snapOf can).2
  else if i = 0x3100 ∧ sub = 6 then chunkAt (leBytes 256 (s.snapOf can).1) (s.snapOf can).2
  else if i = 0x3110 ∧ sub = 1 then Config.identityKey % 2 ^ 256
  else if i = 0x3110 ∧ sub = 3 then chunkAt s.certificate (s.ent (key 0x3110 2))
  else if i = 0x3140 ∧ sub = 1 then s.fwSlots
  else if i = 0x3150 ∧ sub = 1 then s.nonce
  else if i = 0x3160 ∧ sub = 4 then chunkAt s.sec.report (s.ent (key 0x3160 3))
  else s.ent (key i sub)

/-- What a read leaves: recorder_backlog holds its largest value since the last read (R551). -/
def State.afterRead (s : State) (i sub : Nat) : State :=
  if i = 0x3080 ∧ sub = 1 then s.setFld kBgs bgs_recorder_backlog s.recd.backlog.length else s

/-- Entries that recovery serves (R484). -/
def recoveryServes (i : Nat) : Bool :=
  (decide (0x1000 ≤ i) && decide (i < 0x2000)) || (decide (0x3200 ≤ i) && decide (i < 0x3300)) || i == 0x3140

/-- An access in recovery to what it does not serve. -/
def State.unserved (s : State) (i : Nat) : Bool := s.flag kSst sst_recovery && !recoveryServes i

/-- Whether a path is an access slot. -/
def isSlot : Path → Bool
  | .slot _ => true
  | _ => false

/-- Whether a path is CAN FD. -/
def isCan : Path → Bool
  | .can => true
  | _ => false

/-- A read of an entry on a path, or its abort code (R438, R448). -/
def State.readEntry (s : State) (p : Path) (i sub : Nat) : Except Nat (Nat × State) :=
  match s.lookup i sub with
  | .error c => .error c
  | .ok e =>
    if isSlot p ∧ 64 < e.bytes then .error abUnsupported
    else if s.unserved i then .error abState
    else .ok (s.readWord (isCan p) i sub, s.afterRead i sub)

/-! ### Features (R452, R453) -/

/-- Index and subindex belong to feature bit. -/
def featureOf (i sub : Nat) : Option Nat :=
  if i = 0x2940 then some 1
  else if i = 0x2E40 then some 2
  else if i = 0x2F20 ∧ 3 ≤ sub then some 3
  else if (0x2D00 ≤ i ∧ i < 0x2D40) ∨ (0x2D50 ≤ i ∧ i < 0x2D78) then some 6
  else if 0x2D40 ≤ i ∧ i < 0x2D50 then some 7
  else if i = 0x2900 ∧ (sub = 6 ∨ sub = 7) then some 8
  else if 0x2980 ≤ i ∧ i < 0x2994 then some 9
  else none

/-- The feature a written value asks for. -/
def valueFeature (i sub v : Nat) : Option Nat :=
  if i = 0x2F20 ∧ sub = 1 ∧ hlc_aperture_target.of v = 1 then some 4
  else if i = 0x2F00 ∧ sub = 1 ∧ (v = 8 ∨ v = 9) then some 5
  else if i = 0x2900 ∧ sub = 1 ∧ (capc_ring_mode.of v = 1 ∨ capc_rearm.of v = 1) then some 10
  else if 0x2E18 ≤ i ∧ i < 0x2E1A ∧ sub = 1 ∧ port_serve_enable.of v = 1 then some 11
  else none

/-- The agreed set lacks a feature. -/
def State.lacks (s : State) : Option Nat → Bool
  | some b => !bit s.agreed b
  | none => false

/-- A BAR0 write that the features refuse: any through a slot before the latch; after it, one of a feature not agreed. -/
def State.featureRefuses (s : State) (p : Path) (i sub v : Nat) : Bool :=
  if isCan p then false
  else if !s.ctl.latched then isSlot p
  else !bit s.agreed 0 || s.lacks (featureOf i sub) || s.lacks (valueFeature i sub v)

/-! ### The persistence store (R436, R485) -/

/-- STORE_PARAMETERS (R436): `ok` says that the store verifies. -/
def execStoreParameters (k : Nat) (ok : Bool) (s : State) : Host.Outcome State Fault Refusal :=
  if s.rst.available then orSame s (s.storeAll k ok) else .next s

/-- RESTORE_DEFAULT_PARAMETERS (R436). -/
def execRestoreDefaultParameters (k : Nat) (s : State) : Host.Outcome State Fault Refusal :=
  if s.rst.available then orSame s (s.storeClear k) else .next s

/-! ### Writing an entry (R434, R440, R585) -/

/-- The result of a job command: refused, it leaves abort code state (R455). -/
def jobAnswer (r : State × Bool) : State × Option Nat := (r.1, if r.2 then none else some abState)

/-- A job command by its code (R455); CAN FD ignores the agreed set (R452). -/
def State.jobCommand (s : State) (p : Path) (v : Nat) : State × Option Nat :=
  let agreed := isCan p || s.saveAgreed
  match v with
  | 1 => jobAnswer s.cmdLoad
  | 2 => jobAnswer s.cmdUnload
  | 3 => jobAnswer s.cmdArm
  | 4 => jobAnswer s.cmdDisarm
  | 5 => jobAnswer s.cmdStart
  | 6 => jobAnswer s.cmdPause
  | 7 => jobAnswer s.cmdResume
  | 8 => jobAnswer (s.cmdSave agreed)
  | 9 => jobAnswer (s.cmdRestore agreed)
  | _ => (s, some abRange)

/-- Firmware Update: begin, then go (R582). -/
def State.firmwareWrite (s : State) (v : Nat) : Except Nat State :=
  let r : Except Nat State := if fwu_begin.of v = 1 then s.fwBegin else .ok s
  match r with
  | .error c => .error c
  | .ok s =>
    if fwu_go.of v = 1 then s.fwGo (fwu_target.of v) else .ok (s.setFld kFwu fwu_target (fwu_target.of v))

/-- Message Control: begin, then go (R583). -/
def State.messageWrite (s : State) (v : Nat) : State :=
  let s := if msg_begin.of v = 1 then s.msgBegin else s
  if msg_go.of v = 1 then s.msgGo else s

/-- What writing `v` to an entry does once its checks before have passed, with the refusal the effect itself finds: the
entries with an action of their own, then every other. -/
def State.entryEffect (s : State) (p : Path) (e : Entry) (i sub v : Nat) : State × Option Nat :=
  if i = 0x2F00 ∧ sub = 1 then s.jobCommand p v
  else if hasAction i sub then s.actionEffect e i sub v
  else if i = 0x3100 ∧ sub = 2 then (s.snapshot (isCan p) v, none)
  else if i = 0x3100 ∧ sub = 5 then (s.setChunk (isCan p) v, none)
  else if i = 0x3140 ∧ sub = 2 then answer s (s.firmwareWrite v)
  else if i = 0x3140 ∧ sub = 3 then answer s (s.fwData v)
  else if i = 0x3150 ∧ sub = 2 then (s.msgAppend v, none)
  else if i = 0x3150 ∧ sub = 3 then (s.messageWrite v, none)
  else if i = 0x3160 ∧ sub = 2 then (if att_go.of v = 1 then answer s s.attestGo else (s, none))
  else if i = 0x3170 then (if dbg_close.of v = 1 then s.dbgClose else s, none)
  else if i = 0x3200 ∧ sub = 2 then answer s (s.resetCommand v)
  else if i = 0x3200 ∧ sub = 3 then
    (if blk_go.of v = 1 then answer s (s.blockGo (blk_block_kind.of v) (blk_block_number.of v))
     else (s.applyWrite e i sub v, none))
  else (s.applyWrite e i sub v, none)

/-- A write of `len` bytes of `v` on a path: the checks of R585 in their order, then the effect. A refused write changes
nothing but what its own rule says a refusal leaves. -/
def State.writeEntry (s : State) (p : Path) (i sub len v : Nat) : State × Option Nat :=
  match s.lookup i sub with
  | .error c => (s, some c)
  | .ok e =>
    if isSlot p ∧ 64 < e.bytes then (s, some abUnsupported)
    else match s.accessCheck i sub len with
      | .error c => (s, some c)
      | .ok e =>
        if s.unserved i ∨ s.featureRefuses p i sub v ∨ s.plainState e i sub v false then (s, some abState)
        else
          let r := s.entryEffect p e i sub v
          if r.2 = some abState then r
          else if s.valueRefused e i sub v then (s, some abRange)
          else r

/-! ### CAN FD (R441 to R444, R467, R487) -/

/-- CAN FD serves accesses and sends messages: it is not stopped (R444). -/
def State.canServes (s : State) : Bool := s.canUp && s.fld kCans cans_nmt_state != 2

/-- A download over CAN FD: the answer carries the abort code, 0 when the write is taken. -/
def State.canWrite (s : State) (idx sub len value : Nat) : State :=
  if s.canServes then
    let r := s.writeEntry .can idx sub len value
    r.1.emit (.reply (s.cob 0x580) (r.2.getD 0) 0 0)
  else s

/-- USDO_DOWNLOAD (R443). -/
def execUsdoDownload (idx sub len value : Nat) (s : State) : Host.Outcome State Fault Refusal :=
  .next (s.canWrite idx sub len value)

/-- USDO_UPLOAD (R433, R443): the answer carries the value and its data type. -/
def execUsdoUpload (idx sub : Nat) (s : State) : Host.Outcome State Fault Refusal :=
  if s.canServes then
    match s.readEntry .can idx sub with
    | .ok r => .next (r.2.emit (.reply (s.cob 0x580) 0 r.1 (typeOf idx sub)))
    | .error c => .next (s.emit (.reply (s.cob 0x580) c 0 0))
  else .next s

/-- The NMT state becomes `n`: 0 pre-operational, 1 operational, 2 stopped. -/
def State.nmt (s : State) (n : Nat) : State := if s.canUp then s.setFld kCans cans_nmt_state n else s

/-- NMT_START (R444). -/
def execNmtStart (s : State) : Host.Outcome State Fault Refusal := .next (s.nmt 1)

/-- NMT_STOP (R444). -/
def execNmtStop (s : State) : Host.Outcome State Fault Refusal := .next (s.nmt 2)

/-- NMT_PRE_OPERATIONAL (R444). -/
def execNmtPreOperational (s : State) : Host.Outcome State Fault Refusal := .next (s.nmt 0)

/-- NMT_RESET_COMMUNICATION (R442, R444): the controller restarts as CiA 301 has it, with its boot-up message, in
pre-operational (log entry 31). -/
def execNmtResetCommunication (s : State) : Host.Outcome State Fault Refusal :=
  if s.canUp then
    (let t := (s.nmt 0).applyNode
     .next (t.emit (.bootUp (t.cob 0x700))))
  else .next s

/-- NMT_RESET_NODE (R444, R474, R477). -/
def execNmtResetNode (s : State) : Host.Outcome State Fault Refusal :=
  if s.canUp || s.ranThen s.rst.canRan then .next (s.fullReset 4) else .next s

/-- CLASSICAL_FRAME (R441). -/
def execClassicalFrame (s : State) : Host.Outcome State Fault Refusal :=
  if s.canUp then .next (s.bump kCans cans_classical_frames) else .next s

/-- HEARTBEAT (R443 to R445). -/
def execHeartbeat (s : State) : Host.Outcome State Fault Refusal :=
  if s.canUp ∧ s.ent (key 0x1017 0) ≠ 0 then .next (s.emit (.heartbeat (s.cob 0x700) (s.fld kCans cans_nmt_state))) else .next s

/-- Clks of the EMCY inhibit time. -/
def State.inhibit (s : State) : Nat := 125000 * s.ent (key 0x1015 0)

/-- EMCY_TRANSMIT (R444, R467): the oldest message leaves once the inhibit time has passed, and the loss, if any, is
told once. -/
def execEmcyTransmit (s : State) : Host.Outcome State Fault Refusal :=
  match s.ctl.canQ with
  | [] => .next s
  | b :: bs =>
    if s.canServes ∧ s.ctl.canNext ≤ s.clk then
      let s := { s with ctl := { s.ctl with canQ := bs, canNext := s.clk + s.inhibit } }.emit (.emcy (s.cob 0x080) b)
      let n := s.ctl.lostUnsent
      .next (if n = 0 then s else
        (let t := s.emcy 8 (n % 2 ^ 32)
         { t with ctl := { t.ctl with lostUnsent := 0 } }))
    else .next s

/-! ### The host link (R446 to R452, R487) -/

/-- latch is written (R452): device_features and driver_features agree; a second latch is ignored. -/
def State.latch (s : State) : State :=
  if s.rst.available ∧ !s.ctl.latched then
    let s := s.setEnt (key 0x2F10 3) (s.ent (key 0x2F10 1) &&& s.ent (key 0x2F10 2))
    { s with ctl := { s.ctl with latched := true } }
  else s

/-- FEATURE_LATCH (R452): driver_features written, then latch. -/
def execFeatureLatch (driver : Nat) (s : State) : Host.Outcome State Fault Refusal :=
  if s.rst.available ∧ !s.ctl.latched then .next (s.setEnt (key 0x2F10 2) (driver % 2 ^ 64)).latch
  else .next s

/-- The hot register at a BAR0 offset (R449). -/
def hotEntry : Nat → Option (Nat × Nat)
  | 0x1000 => some (0x2F00, 2)
  | 0x1008 => some (0x2940, 2)
  | 0x1010 => some (0x2940, 3)
  | 0x1018 => some (0x2E40, 2)
  | 0x1020 => some (0x2E40, 3)
  | 0x1028 => some (0x2F20, 3)
  | 0x1030 => some (0x2F20, 4)
  | 0x1038 => some (0x2800, 4)
  | 0x1040 => some (0x2E00, 2)
  | _ => none

/-- A write of an entry through its hot register: a refusal leaves its code in hot_refusal. -/
def State.hotWrite (s : State) (i sub len v : Nat) : State :=
  let r := s.writeEntry .hot i sub len v
  match r.2 with
  | some c => { r.1 with ctl := { r.1.ctl with hotRefusal := c } }
  | none => r.1

/-- Bytes of an entry. -/
def entryBytes (i sub : Nat) : Nat :=
  match findEntry i sub entries with
  | some e => e.bytes
  | none => 0


/-- Slot `n` ends with a state and abort code. -/
def State.slotEnd (s : State) (n st code : Nat) : State :=
  { s with ctl := { s.ctl with slotStat := mset 0 s.ctl.slotStat n (st + 2 ^ 32 * code) } }

/-- The data words of slot `n`, 64 bytes. -/
def State.slotBytes (s : State) (n : Nat) : Nat := mget 0 s.ctl.slotData n

/-- `s` with them replaced. -/
def State.setSlotBytes (s : State) (n v : Nat) : State :=
  { s with ctl := { s.ctl with slotData := mset 0 s.ctl.slotData n (v % 2 ^ 512) } }

/-- The access of `len` bytes that go starts in slot `n`, from or to its data (R448, R487): a read of fewer bytes than
the entry has leaves the first of them (log entry 60). -/
def State.slotServe (s : State) (n idx sub : Nat) (write : Bool) (len : Nat) : State :=
  if !s.rst.available then s.slotEnd n 3 abState
  else if write then
    let r := s.writeEntry (.slot n) idx sub len (s.slotBytes n % 2 ^ (8 * len))
    match r.2 with
    | none => r.1.slotEnd n 2 0
    | some c => r.1.slotEnd n 3 c
  else match s.readEntry (.slot n) idx sub with
    | .ok r => (r.2.setSlotBytes n (r.1 % 2 ^ (8 * len) + s.slotBytes n / 2 ^ (8 * len) * 2 ^ (8 * len))).slotEnd n 2 0
    | .error c => s.slotEnd n 3 c

/-- The command word of a slot (R448). -/
def slotCommand (idx sub : Nat) (write notify : Bool) (len : Nat) : Nat :=
  idx % 2 ^ 16 + 2 ^ 16 * (sub % 2 ^ 8) + (if write then 2 ^ 24 else 0) + (if notify then 2 ^ 25 else 0)
    + 2 ^ 32 * (len % 2 ^ 7)

/-- A command word with go, served in the clk in which it is written: a slot is never seen busy (log entry 32). -/
def State.slotGo (s : State) (slot idx sub : Nat) (write notify : Bool) (len : Nat) : State :=
  let s := { s with ctl := { s.ctl with slotCmd := mset 0 s.ctl.slotCmd slot (slotCommand idx sub write notify len) } }
  let s := s.slotServe slot idx sub write len
  if notify then s.raise 5 else s

/-- An access through a slot: a write's data, then the command word with go. -/
def State.slotRun (s : State) (slot idx sub : Nat) (write notify : Bool) (len value : Nat) : State :=
  (if write ∧ s.rst.available then s.setSlotBytes slot value else s).slotGo slot idx sub write notify len

/-- A command word with a reserved bit set: [31:27] or [63:39] (R448). -/
def slotReserved (v : Nat) : Bool := bits v 27 5 != 0 || bits v 39 25 != 0

/-- A write of the command word of slot `n`: its fields, and the access when go is 1 (R448); one that would set a
reserved bit is refused whole, no field changed (R18; log entry 79). -/
def State.slotCommandWrite (s : State) (n v : Nat) : State :=
  if slotReserved v then s.slotEnd n 3 (if s.rst.available then abRange else abState)
  else if bit v 26 then s.slotGo n (bits v 0 16) (bits v 16 8) (bit v 24) (bit v 25) (bits v 32 7)
  else { s with ctl := { s.ctl with
    slotCmd := mset 0 s.ctl.slotCmd n (slotCommand (bits v 0 16) (bits v 16 8) (bit v 24) (bit v 25) (bits v 32 7)) } }

/-- A BAR0 write of 8 bytes at an offset that is no hot register (R447, R448, R452): driver_features and the latch,
command and data words of the slots, the MSI-X table; every other is discarded. A latch word with more than bit 0 set
is refused whole (R18; log entry 79). -/
def State.bar0Write (s : State) (off v : Nat) : State :=
  if off = 0x0008 then (if s.rst.available ∧ !s.ctl.latched then s.setEnt (key 0x2F10 2) (v % 2 ^ 64) else s)
  else if off = 0x0018 then (if v % 2 ^ 64 = 1 then s.latch else s)
  else if 0x10000 ≤ off ∧ off < 0x14000 then
    let n := (off - 0x10000) / 256
    let o := off % 256
    if o = 0 then s.slotCommandWrite n v
    else if 64 ≤ o ∧ o < 128 ∧ o % 8 = 0 then
      let f : Fld := { lo := 8 * (o - 64), w := 64, acc := .rw }
      s.setSlotBytes n (f.put (s.slotBytes n) (v % 2 ^ 64))
    else s
  else if 0x80000 ≤ off ∧ off < 0x80400 ∧ off % 8 = 0 then
    { s with ctl := { s.ctl with msix := mset 0 s.ctl.msix ((off - 0x80000) / 8) (v % 2 ^ 64) } }
  else s

/-- The feature of a hot register (R453). -/
def hotFeature (off : Nat) : Nat := if 0x1008 ≤ off ∧ off ≤ 0x1010 then 1 else if 0x1018 ≤ off ∧ off ≤ 0x1020 then 2
  else if 0x1028 ≤ off ∧ off ≤ 0x1030 then 3 else 0

/-- Hot registers read: the dictionary is available, and after the latch the register's feature is agreed (R452, R487). -/
def State.hotReads (s : State) (off : Nat) : Bool :=
  s.rst.available && (!s.ctl.latched || (bit s.agreed 0 && bit s.agreed (hotFeature off)))

/-- HOT_REFUSAL_READ (R449, R452): reading clears it; it reads 0, and keeps its code, where hot registers do not read. -/
def execHotRefusalRead (s : State) : Host.Outcome State Fault Refusal :=
  if s.hotReads 0x1048 then .next ({ s with ctl := { s.ctl with hotRefusal := 0 } }.emit (.hotRead s.ctl.hotRefusal))
  else .next (s.emit (.hotRead 0))

/-- What a BAR0 read of the 8 bytes at an offset, a multiple of 8, returns (R447 to R449, R452, R467, R427, R484, R487); no
row of the table but HOT_REFUSAL_READ asks for one. No vector is ever held pending (log entry 60). -/
def State.bar0Read (s : State) (off : Nat) : Nat :=
  if s.rst.waitHost then (if off = 0x7FF000 then s.rst.bootBytes + (if s.rst.bootRejected then 2 ^ 25 else 0) else 0)
  else if off ≤ 0x0010 then (if s.rst.available then s.ent (key 0x2F10 (1 + off / 8)) else 0)
  else if off = 0x1048 then (if s.hotReads off then s.ctl.hotRefusal else 0)
  else if 0x1000 ≤ off ∧ off < 0x1048 then
    (match hotEntry off with
     | some e => if s.hotReads off then s.readWord false e.1 e.2 else 0
     | none => 0)
  else if 0x10000 ≤ off ∧ off < 0x14000 then
    let n := (off - 0x10000) / 256
    let o := off % 256
    if o = 0 then mget 0 s.ctl.slotCmd n
    else if o = 8 then mget 0 s.ctl.slotStat n
    else if 64 ≤ o ∧ o < 128 then s.slotBytes n / 2 ^ (8 * (o - 64)) % 2 ^ 64
    else 0
  else if 0x20000 ≤ off ∧ off < 0x24000 then mget 0 s.ctl.emcyLog ((off - 0x20000) / 64) / 2 ^ (8 * (off % 64)) % 2 ^ 64
  else if 0x30000 ≤ off ∧ off < 0x50000 then
    (match mfind s.time.ring ((off - 0x30000) / 32) with
     | some e => e.bits / 2 ^ (8 * (off % 32)) % 2 ^ 64
     | none => 0)
  else if 0x80000 ≤ off ∧ off < 0x80400 then mget 0 s.ctl.msix ((off - 0x80000) / 8)
  else 0

/-- A BAR0 write of 8 bytes while host-only boot waits for its image, in the boot layout (R484): the boot control word,
which a write with a reserved bit leaves (R18), and the image; every other is discarded. -/
def State.bootWrite (s : State) (off v : Nat) : State :=
  if off = 0x7FF000 then
    if bits v 26 38 ≠ 0 then s
    else if bit v 24 then s.bootCheck (v % 2 ^ 24)
    else { s with rst := { s.rst with bootBytes := v % 2 ^ 24 } }
  else if 0x800000 ≤ off ∧ off < 0x1000000 then s.write (bootBase + (off - 0x800000)) (leBytes 8 v)
  else s

/-- HOT_REGISTER_WRITE (R447 to R449, R452, R487): a write of a hot register is an access on its entry, discarded
before the dictionary is available; at another offset it is the BAR0 write it is. While host-only boot waits, BAR0 has
the boot layout (R484). -/
def execHotRegisterWrite (off value : Nat) (s : State) : Host.Outcome State Fault Refusal :=
  if s.rst.waitHost then .next (s.bootWrite off value) else
  match hotEntry off with
  | some e => .next (if s.rst.available then s.hotWrite e.1 e.2 (entryBytes e.1 e.2) value else s)
  | none => .next (s.bar0Write off value)

/-- SLOT_ACCESS (R448). -/
def execSlotAccess (slot idx sub : Nat) (write notify : Bool) (len value : Nat) (s : State) :
    Host.Outcome State Fault Refusal :=
  if slot < 64 then .next (s.slotRun slot idx sub write notify len value) else .next s

/-- REGISTER_WRITE (R434): an entry written on a path. -/
def execRegisterWrite (path : Path) (idx sub len value : Nat) (s : State) : Host.Outcome State Fault Refusal :=
  match path with
  | .can => .next (s.canWrite idx sub len value)
  | .slot n => if n < 64 then .next (s.slotRun n idx sub true false len value) else .next s
  | .hot =>
    if s.rst.available ∧ (List.range 9).any (fun k => hotEntry (0x1000 + 8 * k) == some (idx, sub)) then
      .next (s.hotWrite idx sub len value)
    else .next s

/-- RECORDER_SLOT (R568): Recorder Slot written on a path. -/
def execRecorderSlot (path : Path) (slot : Nat) (s : State) : Host.Outcome State Fault Refusal :=
  match path with
  | .hot => .next s
  | .can => .next (s.canWrite 0x3100 2 2 slot)
  | .slot n => if n < 64 then .next (s.slotRun n 0x3100 2 true false 2 slot) else .next s

/-- DDR4 Map entries of the library partition. -/
def State.library (s : State) : Nat × Nat := (s.ent (key 0x27E0 3), s.ent (key 0x27E0 4))

/-- BAR2_WRITE (R450, R487, R541): bytes at a BAR2 offset land in the library partition, and mark it touched; with the
staging target, or past the partition's end, they are discarded and counted. -/
def execBar2Write (off : Nat) (bytes : List Byte) (s : State) : Host.Outcome State Fault Refusal :=
  let x := s.fld kHlc hlc_bar2_offset * 2 ^ 36 + off
  if s.rst.available ∧ s.fld kHlc hlc_aperture_target = 1 ∧ x + bytes.length ≤ s.library.2 ∧ off + bytes.length ≤ 2 ^ 36 then
    .next ((s.ddrWrite (s.library.1 + x) (bytes.map (fun b => b.toNat))).setFlag kRsts rsts_library_touched true)
  else .next (s.bump kHls hls_bar2_discards)

/-- The partition that BAR2 maps (R283, R450): staging or library, base and size. -/
def State.aperture (s : State) : Nat × Nat :=
  if s.fld kHlc hlc_aperture_target = 1 then s.library else (s.ent (key 0x27E0 1), s.ent (key 0x27E0 2))

/-- What a BAR2 read of `n` bytes at an offset returns (R450, R487): 0 past the end of the partition, or before the
dictionary is available; no row of the table asks for one. -/
def State.bar2Read (s : State) (off n : Nat) : List Nat :=
  let x := s.fld kHlc hlc_bar2_offset * 2 ^ 36 + off
  let a := s.aperture
  (List.range n).map (fun i => if s.rst.available ∧ x + i < a.2 then (s.ddrRead (a.1 + x + i) 1).headD 0 else 0)

/-- A configuration request is answered; until the endpoint is ready it receives CRS (R446, R486). The endpoint is
ready at the end of step 6, when a lock that fails ends it as well (R483), or of step 4 in host-only boot and in
recovery, while PERST_N is high. -/
def State.configReady (s : State) : Bool :=
  !s.rst.perst && !s.rst.safeHold &&
    (decide (6 < s.rst.step) || (decide (4 < s.rst.step) && decide (2 ≤ s.strapSlot)) || (s.rst.step == 6 && s.rst.available))

end Sys2Proof.Machine
end

