-- ==== Sys2Proof/Machine/Dispatch.lean ====
section
/-! DEFINITION. The commands and their meanings: one arm for each constructor of Instr, in the order of the table. -/

namespace Sys2Proof.Machine

/-- The effect of a command on everything but the queue. -/
def exec (i : Instr) (s : State) : Host.Outcome State Fault Refusal :=
  match i with
  | .xld x0 x1 x2 x3 x4 x5 => Sys2Proof.Machine.execXld x0 x1 x2 x3 x4 x5 s
  | .wld x0 x1 x2 x3 x4 x5 => Sys2Proof.Machine.execWld x0 x1 x2 x3 x4 x5 s
  | .wswp x0 => Sys2Proof.Machine.execWswp x0 s
  | .mac x0 x1 => Sys2Proof.Machine.execMac x0 x1 s
  | .cmac x0 x1 x2 x3 => Sys2Proof.Machine.execCmac x0 x1 x2 x3 s
  | .bias x0 x1 x2 x3 => Sys2Proof.Machine.execBias x0 x1 x2 x3 s
  | .scan x0 x1 x2 x3 => Sys2Proof.Machine.execScan x0 x1 x2 x3 s
  | .sbtrk x0 x1 x2 x3 x4 x5 => Sys2Proof.Machine.execSbtrk x0 x1 x2 x3 x4 x5 s
  | .sbopn x0 x1 => Sys2Proof.Machine.execSbopn x0 x1 s
  | .rq x0 x1 => Sys2Proof.Machine.execRq x0 x1 s
  | .ltld x0 x1 x2 => Sys2Proof.Machine.execLtld x0 x1 x2 s
  | .lut x0 x1 x2 x3 x4 x5 x6 => Sys2Proof.Machine.execLut x0 x1 x2 x3 x4 x5 x6 s
  | .aadd x0 x1 x2 x3 x4 => Sys2Proof.Machine.execAadd x0 x1 x2 x3 x4 s
  | .amax x0 x1 x2 x3 x4 => Sys2Proof.Machine.execAmax x0 x1 x2 x3 x4 s
  | .gath x0 x1 x2 x3 x4 x5 x6 x7 => Sys2Proof.Machine.execGath x0 x1 x2 x3 x4 x5 x6 x7 s
  | .pad x0 x1 => Sys2Proof.Machine.execPad x0 x1 s
  | .fwait x0 x1 => Sys2Proof.Machine.execFwait x0 x1 s
  | .loop x0 x1 x2 => Sys2Proof.Machine.execLoop x0 x1 x2 s
  | .halt x0 => Sys2Proof.Machine.execHalt x0 s
  | .fsel x0 x1 x2 x3 x4 => Sys2Proof.Machine.execFsel x0 x1 x2 x3 x4 s
  | .mark x0 x1 => Sys2Proof.Machine.execMark x0 x1 s
  | .mchk x0 x1 x2 => Sys2Proof.Machine.execMchk x0 x1 x2 s
  | .add x0 x1 x2 x3 => Sys2Proof.Machine.execAdd x0 x1 x2 x3 s
  | .sub x0 x1 x2 x3 => Sys2Proof.Machine.execSub x0 x1 x2 x3 s
  | .andR x0 x1 x2 x3 => Sys2Proof.Machine.execAndR x0 x1 x2 x3 s
  | .orR x0 x1 x2 x3 => Sys2Proof.Machine.execOrR x0 x1 x2 x3 s
  | .xorR x0 x1 x2 x3 => Sys2Proof.Machine.execXorR x0 x1 x2 x3 s
  | .shl x0 x1 x2 x3 => Sys2Proof.Machine.execShl x0 x1 x2 x3 s
  | .shr x0 x1 x2 x3 => Sys2Proof.Machine.execShr x0 x1 x2 x3 s
  | .sra x0 x1 x2 x3 => Sys2Proof.Machine.execSra x0 x1 x2 x3 s
  | .addi x0 x1 x2 x3 => Sys2Proof.Machine.execAddi x0 x1 x2 x3 s
  | .movi x0 x1 x2 => Sys2Proof.Machine.execMovi x0 x1 x2 s
  | .cmp x0 x1 x2 x3 x4 => Sys2Proof.Machine.execCmp x0 x1 x2 x3 x4 s
  | .cmpi x0 x1 x2 x3 x4 => Sys2Proof.Machine.execCmpi x0 x1 x2 x3 x4 s
  | .pfop x0 x1 x2 x3 x4 => Sys2Proof.Machine.execPfop x0 x1 x2 x3 x4 s
  | .pset x0 x1 x2 => Sys2Proof.Machine.execPset x0 x1 x2 s
  | .padd x0 x1 x2 x3 x4 x5 => Sys2Proof.Machine.execPadd x0 x1 x2 x3 x4 x5 s
  | .pmov x0 x1 x2 x3 => Sys2Proof.Machine.execPmov x0 x1 x2 x3 s
  | .sld x0 x1 x2 x3 => Sys2Proof.Machine.execSld x0 x1 x2 x3 s
  | .sst x0 x1 x2 x3 => Sys2Proof.Machine.execSst x0 x1 x2 x3 s
  | .rsnd x0 x1 x2 x3 x4 => Sys2Proof.Machine.execRsnd x0 x1 x2 x3 x4 s
  | .rrcv x0 x1 x2 x3 x4 => Sys2Proof.Machine.execRrcv x0 x1 x2 x3 x4 s
  | .srcv x0 x1 x2 x3 x4 x5 x6 x7 => Sys2Proof.Machine.execSrcv x0 x1 x2 x3 x4 x5 x6 x7 s
  | .tsnd x0 x1 x2 => Sys2Proof.Machine.execTsnd x0 x1 x2 s
  | .trcv x0 x1 x2 => Sys2Proof.Machine.execTrcv x0 x1 x2 s
  | .tdi x0 x1 x2 => Sys2Proof.Machine.execTdi x0 x1 x2 s
  | .slld x0 x1 x2 x3 x4 => Sys2Proof.Machine.execSlld x0 x1 x2 x3 x4 s
  | .slst x0 x1 x2 => Sys2Proof.Machine.execSlst x0 x1 x2 s
  | .slsnd x0 x1 x2 => Sys2Proof.Machine.execSlsnd x0 x1 x2 s
  | .slrcv x0 x1 x2 x3 x4 => Sys2Proof.Machine.execSlrcv x0 x1 x2 x3 x4 s
  | .tideSlot => Sys2Proof.Machine.execTideSlot s
  | .crossingComplete x0 x1 x2 x3 => Sys2Proof.Machine.execCrossingComplete x0 x1 x2 x3 s
  | .eavesSlot x0 => Sys2Proof.Machine.execEavesSlot x0 s
  | .eavesInboundWord x0 => Sys2Proof.Machine.execEavesInboundWord x0 s
  | .descriptorIntake x0 x1 x2 => Sys2Proof.Machine.execDescriptorIntake x0 x1 x2 s
  | .tenderWord x0 x1 => Sys2Proof.Machine.execTenderWord x0 x1 s
  | .tenderCopyDone x0 => Sys2Proof.Machine.execTenderCopyDone x0 s
  | .tenderDataWord x0 => Sys2Proof.Machine.execTenderDataWord x0 s
  | .completionDelivery x0 => Sys2Proof.Machine.execCompletionDelivery x0 s
  | .signalDetectChange x0 x1 x2 => Sys2Proof.Machine.execSignalDetectChange x0 x1 x2 s
  | .dataBlock x0 x1 x2 => Sys2Proof.Machine.execDataBlock x0 x1 x2 s
  | .damagedBlock x0 x1 => Sys2Proof.Machine.execDamagedBlock x0 x1 s
  | .invalidControlBlock x0 x1 => Sys2Proof.Machine.execInvalidControlBlock x0 x1 s
  | .idleBlock x0 x1 => Sys2Proof.Machine.execIdleBlock x0 x1 s
  | .frameOpen x0 x1 x2 x3 => Sys2Proof.Machine.execFrameOpen x0 x1 x2 x3 s
  | .frameClose x0 x1 x2 => Sys2Proof.Machine.execFrameClose x0 x1 x2 s
  | .laneMarker x0 x1 x2 => Sys2Proof.Machine.execLaneMarker x0 x1 x2 s
  | .trainingBlock x0 x1 x2 => Sys2Proof.Machine.execTrainingBlock x0 x1 x2 s
  | .markerMissed x0 x1 => Sys2Proof.Machine.execMarkerMissed x0 x1 s
  | .skewOverrun x0 x1 => Sys2Proof.Machine.execSkewOverrun x0 x1 s
  | .blockLockSet x0 x1 => Sys2Proof.Machine.execBlockLockSet x0 x1 s
  | .blockLockLoss x0 x1 x2 => Sys2Proof.Machine.execBlockLockLoss x0 x1 x2 s
  | .relockDone x0 x1 x2 => Sys2Proof.Machine.execRelockDone x0 x1 x2 s
  | .blockLockSearchStep x0 x1 x2 => Sys2Proof.Machine.execBlockLockSearchStep x0 x1 x2 s
  | .dfeUpdate x0 x1 x2 x3 => Sys2Proof.Machine.execDfeUpdate x0 x1 x2 x3 s
  | .fomMeasure x0 x1 x2 x3 => Sys2Proof.Machine.execFomMeasure x0 x1 x2 x3 s
  | .ctleTrack x0 x1 x2 => Sys2Proof.Machine.execCtleTrack x0 x1 x2 s
  | .startBringup x0 x1 => Sys2Proof.Machine.execStartBringup x0 x1 s
  | .bringupStepDone x0 x1 => Sys2Proof.Machine.execBringupStepDone x0 x1 s
  | .bringupStateOverrun x0 => Sys2Proof.Machine.execBringupStateOverrun x0 s
  | .bringupTimeout x0 => Sys2Proof.Machine.execBringupTimeout x0 s
  | .powerStateWrite x0 x1 x2 => Sys2Proof.Machine.execPowerStateWrite x0 x1 x2 s
  | .powerStateReached x0 x1 => Sys2Proof.Machine.execPowerStateReached x0 x1 s
  | .slipWrite x0 x1 x2 => Sys2Proof.Machine.execSlipWrite x0 x1 x2 s
  | .laneMapWrite x0 x1 x2 x3 => Sys2Proof.Machine.execLaneMapWrite x0 x1 x2 x3 s
  | .scheduleBind => Sys2Proof.Machine.execScheduleBind s
  | .slotRelease x0 => Sys2Proof.Machine.execSlotRelease x0 s
  | .replayCourseRead x0 => Sys2Proof.Machine.execReplayCourseRead x0 s
  | .courseHeaderWrite x0 x1 => Sys2Proof.Machine.execCourseHeaderWrite x0 x1 s
  | .calWindowClose x0 x1 => Sys2Proof.Machine.execCalWindowClose x0 x1 s
  | .calibrationEvent => Sys2Proof.Machine.execCalibrationEvent s
  | .layerTotalsRefresh => Sys2Proof.Machine.execLayerTotalsRefresh s
  | .markArrival x0 => Sys2Proof.Machine.execMarkArrival x0 s
  | .ridgeEvaluate => Sys2Proof.Machine.execRidgeEvaluate s
  | .pinRelease => Sys2Proof.Machine.execPinRelease s
  | .acceptPulseEnd x0 => Sys2Proof.Machine.execAcceptPulseEnd x0 s
  | .menuCheck x0 => Sys2Proof.Machine.execMenuCheck x0 s
  | .doubtRegister x0 => Sys2Proof.Machine.execDoubtRegister x0 s
  | .releaseHoldEnd => Sys2Proof.Machine.execReleaseHoldEnd s
  | .holdoffRelease => Sys2Proof.Machine.execHoldoffRelease s
  | .hostCapture x0 x1 x2 x3 x4 => Sys2Proof.Machine.execHostCapture x0 x1 x2 x3 x4 s
  | .requestStart => Sys2Proof.Machine.execRequestStart s
  | .fragmentCopyDone x0 x1 x2 => Sys2Proof.Machine.execFragmentCopyDone x0 x1 x2 s
  | .fragmentRereadDone x0 x1 => Sys2Proof.Machine.execFragmentRereadDone x0 x1 s
  | .fragmentTimeout x0 x1 => Sys2Proof.Machine.execFragmentTimeout x0 x1 s
  | .recordPublish x0 => Sys2Proof.Machine.execRecordPublish x0 s
  | .hostRingNotify => Sys2Proof.Machine.execHostRingNotify s
  | .linkEgressRecord => Sys2Proof.Machine.execLinkEgressRecord s
  | .windowSlotBind => Sys2Proof.Machine.execWindowSlotBind s
  | .verdictMark x0 => Sys2Proof.Machine.execVerdictMark x0 s
  | .verdictDeadline x0 => Sys2Proof.Machine.execVerdictDeadline x0 s
  | .windowCopyDone x0 => Sys2Proof.Machine.execWindowCopyDone x0 s
  | .captureAbort x0 x1 => Sys2Proof.Machine.execCaptureAbort x0 x1 s
  | .rearm => Sys2Proof.Machine.execRearm s
  | .hostConsumerWrite x0 => Sys2Proof.Machine.execHostConsumerWrite x0 s
  | .berthCalibrationEnd => Sys2Proof.Machine.execBerthCalibrationEnd s
  | .calibrationReport x0 x1 x2 x3 x4 x5 => Sys2Proof.Machine.execCalibrationReport x0 x1 x2 x3 x4 x5 s
  | .berthReportFramesEnd => Sys2Proof.Machine.execBerthReportFramesEnd s
  | .summaryMessage x0 x1 => Sys2Proof.Machine.execSummaryMessage x0 x1 s
  | .berthCombineClose => Sys2Proof.Machine.execBerthCombineClose s
  | .berthWordSend x0 => Sys2Proof.Machine.execBerthWordSend x0 s
  | .berthWord x0 x1 x2 => Sys2Proof.Machine.execBerthWord x0 x1 x2 s
  | .berthWordDelivery x0 => Sys2Proof.Machine.execBerthWordDelivery x0 s
  | .relayMessage x0 x1 => Sys2Proof.Machine.execRelayMessage x0 x1 s
  | .uplinkSummary x0 x1 x2 => Sys2Proof.Machine.execUplinkSummary x0 x1 x2 s
  | .jettyCombineClose => Sys2Proof.Machine.execJettyCombineClose s
  | .harbourCombineClose => Sys2Proof.Machine.execHarbourCombineClose s
  | .harbourCombine x0 => Sys2Proof.Machine.execHarbourCombine x0 s
  | .harbourCalibrationEnd => Sys2Proof.Machine.execHarbourCalibrationEnd s
  | .mainIncrementWrite x0 => Sys2Proof.Machine.execMainIncrementWrite x0 s
  | .mainTime x0 => Sys2Proof.Machine.execMainTime x0 s
  | .timeAdjust x0 => Sys2Proof.Machine.execTimeAdjust x0 s
  | .fallbackCommit => Sys2Proof.Machine.execFallbackCommit s
  | .fallbackRefit => Sys2Proof.Machine.execFallbackRefit s
  | .clockFault x0 x1 => Sys2Proof.Machine.execClockFault x0 x1 s
  | .ptpFrameForward x0 x1 => Sys2Proof.Machine.execPtpFrameForward x0 x1 s
  | .ptpAnnounce x0 x1 x2 x3 x4 => Sys2Proof.Machine.execPtpAnnounce x0 x1 x2 x3 x4 s
  | .delayReqSend x0 => Sys2Proof.Machine.execDelayReqSend x0 s
  | .ptpExchange x0 x1 x2 x3 x4 => Sys2Proof.Machine.execPtpExchange x0 x1 x2 x3 x4 s
  | .domainTimeout x0 => Sys2Proof.Machine.execDomainTimeout x0 s
  | .holdoverExpiry => Sys2Proof.Machine.execHoldoverExpiry s
  | .serveSync x0 => Sys2Proof.Machine.execServeSync x0 s
  | .serveAnnounce x0 => Sys2Proof.Machine.execServeAnnounce x0 s
  | .serveDelayResp x0 x1 => Sys2Proof.Machine.execServeDelayResp x0 x1 s
  | .txStamp x0 x1 x2 x3 => Sys2Proof.Machine.execTxStamp x0 x1 x2 x3 s
  | .trigEdge x0 x1 x2 => Sys2Proof.Machine.execTrigEdge x0 x1 x2 s
  | .timelineRelease => Sys2Proof.Machine.execTimelineRelease s
  | .timelineConsumerWrite x0 => Sys2Proof.Machine.execTimelineConsumerWrite x0 s
  | .load => Sys2Proof.Machine.execLoad s
  | .unload => Sys2Proof.Machine.execUnload s
  | .arm => Sys2Proof.Machine.execArm s
  | .disarm => Sys2Proof.Machine.execDisarm s
  | .start => Sys2Proof.Machine.execStart s
  | .pause => Sys2Proof.Machine.execPause s
  | .pauseTakesEffect => Sys2Proof.Machine.execPauseTakesEffect s
  | .resume => Sys2Proof.Machine.execResume s
  | .resumeTakesEffect => Sys2Proof.Machine.execResumeTakesEffect s
  | .save => Sys2Proof.Machine.execSave s
  | .savePark => Sys2Proof.Machine.execSavePark s
  | .saveCopyDone x0 => Sys2Proof.Machine.execSaveCopyDone x0 s
  | .restore => Sys2Proof.Machine.execRestore s
  | .restart => Sys2Proof.Machine.execRestart s
  | .berthRestartFrame => Sys2Proof.Machine.execBerthRestartFrame s
  | .usdoDownload x0 x1 x2 x3 => Sys2Proof.Machine.execUsdoDownload x0 x1 x2 x3 s
  | .usdoUpload x0 x1 => Sys2Proof.Machine.execUsdoUpload x0 x1 s
  | .nmtStart => Sys2Proof.Machine.execNmtStart s
  | .nmtStop => Sys2Proof.Machine.execNmtStop s
  | .nmtPreOperational => Sys2Proof.Machine.execNmtPreOperational s
  | .nmtResetCommunication => Sys2Proof.Machine.execNmtResetCommunication s
  | .nmtResetNode => Sys2Proof.Machine.execNmtResetNode s
  | .classicalFrame => Sys2Proof.Machine.execClassicalFrame s
  | .heartbeat => Sys2Proof.Machine.execHeartbeat s
  | .emcyTransmit => Sys2Proof.Machine.execEmcyTransmit s
  | .slotAccess x0 x1 x2 x3 x4 x5 x6 => Sys2Proof.Machine.execSlotAccess x0 x1 x2 x3 x4 x5 x6 s
  | .hotRegisterWrite x0 x1 => Sys2Proof.Machine.execHotRegisterWrite x0 x1 s
  | .featureLatch x0 => Sys2Proof.Machine.execFeatureLatch x0 s
  | .bar2Write x0 x1 => Sys2Proof.Machine.execBar2Write x0 x1 s
  | .storeParameters x0 x1 => Sys2Proof.Machine.execStoreParameters x0 x1 s
  | .restoreDefaultParameters x0 => Sys2Proof.Machine.execRestoreDefaultParameters x0 s
  | .registerWrite x0 x1 x2 x3 x4 => Sys2Proof.Machine.execRegisterWrite x0 x1 x2 x3 x4 s
  | .powerOnReset => Sys2Proof.Machine.execPowerOnReset s
  | .resetN => Sys2Proof.Machine.execResetN s
  | .resetNRelease => Sys2Proof.Machine.execResetNRelease s
  | .watchdogExpiry => Sys2Proof.Machine.execWatchdogExpiry s
  | .softwareReset x0 => Sys2Proof.Machine.execSoftwareReset x0 s
  | .perstAssert => Sys2Proof.Machine.execPerstAssert s
  | .blockReset x0 x1 => Sys2Proof.Machine.execBlockReset x0 x1 s
  | .blockResetRelease => Sys2Proof.Machine.execBlockResetRelease s
  | .trimAttemptDone x0 => Sys2Proof.Machine.execTrimAttemptDone x0 s
  | .startupStepDone x0 x1 x2 x3 => Sys2Proof.Machine.execStartupStepDone x0 x1 x2 x3 s
  | .pllRetry x0 => Sys2Proof.Machine.execPllRetry x0 s
  | .bootGo x0 x1 => Sys2Proof.Machine.execBootGo x0 x1 s
  | .ddrReady => Sys2Proof.Machine.execDdrReady s
  | .supplyDoubt x0 x1 => Sys2Proof.Machine.execSupplyDoubt x0 x1 s
  | .supplyDoubtClear => Sys2Proof.Machine.execSupplyDoubtClear s
  | .telemetrySample x0 x1 x2 => Sys2Proof.Machine.execTelemetrySample x0 x1 x2 s
  | .sramPatrol x0 x1 x2 x3 => Sys2Proof.Machine.execSramPatrol x0 x1 x2 x3 s
  | .tablePatrol x0 x1 x2 x3 x4 => Sys2Proof.Machine.execTablePatrol x0 x1 x2 x3 x4 s
  | .memoryPatrol x0 x1 x2 x3 x4 => Sys2Proof.Machine.execMemoryPatrol x0 x1 x2 x3 x4 s
  | .spareSelfTest x0 x1 => Sys2Proof.Machine.execSpareSelfTest x0 x1 s
  | .laserWearSample x0 x1 x2 x3 => Sys2Proof.Machine.execLaserWearSample x0 x1 x2 x3 s
  | .laserSwapDone x0 x1 => Sys2Proof.Machine.execLaserSwapDone x0 x1 s
  | .recorderOperation => Sys2Proof.Machine.execRecorderOperation s
  | .summaryInterval => Sys2Proof.Machine.execSummaryInterval s
  | .recorderSlot x0 x1 => Sys2Proof.Machine.execRecorderSlot x0 x1 s
  | .firmwareBegin => Sys2Proof.Machine.execFirmwareBegin s
  | .firmwareData x0 => Sys2Proof.Machine.execFirmwareData x0 s
  | .firmwareGo x0 => Sys2Proof.Machine.execFirmwareGo x0 s
  | .firmwareWriteDone => Sys2Proof.Machine.execFirmwareWriteDone s
  | .messageBegin => Sys2Proof.Machine.execMessageBegin s
  | .messageData x0 => Sys2Proof.Machine.execMessageData x0 s
  | .keyInstall => Sys2Proof.Machine.execKeyInstall s
  | .keyRevoke => Sys2Proof.Machine.execKeyRevoke s
  | .imageFloor => Sys2Proof.Machine.execImageFloor s
  | .firmwareFloor => Sys2Proof.Machine.execFirmwareFloor s
  | .debugOpen => Sys2Proof.Machine.execDebugOpen s
  | .debugClose => Sys2Proof.Machine.execDebugClose s
  | .attestationGo => Sys2Proof.Machine.execAttestationGo s
  | .attestationReady => Sys2Proof.Machine.execAttestationReady s
  | .mainClockTick => Sys2Proof.Machine.execMainClockTick s
  | .powerOnResetRelease => Sys2Proof.Machine.execPowerOnResetRelease s
  | .perstRelease => Sys2Proof.Machine.execPerstRelease s
  | .ptpLinkChange x0 x1 => Sys2Proof.Machine.execPtpLinkChange x0 x1 s
  | .unitOutOfService x0 x1 => Sys2Proof.Machine.execUnitOutOfService x0 x1 s
  | .islandGeneratorLocked x0 => Sys2Proof.Machine.execIslandGeneratorLocked x0 s
  | .restoreDone x0 => Sys2Proof.Machine.execRestoreDone x0 s
  | .hotRefusalRead => Sys2Proof.Machine.execHotRefusalRead s

end Sys2Proof.Machine
end

