-- ==== Sys2Proof/Machine/Tick.lean ====
section
/-! DEFINITION. One clk passes: what a step does on an empty queue (log entry 1). The clk ends, and the next begins. -/

namespace Sys2Proof.Machine

/-- A started job begins to run in clk s0 when it has no berth (R103, R455); a parked job that resumes begins again
(R462). -/
def State.beginDue (s : State) : State :=
  if !(s.job.bound && s.job.s0 == s.clk) then s
  else if s.jobState = ARMED ∧ s.flag kJob jst_started ∧ s.berthSize ≤ 1 then s.beginRunning 0
  else if s.jobState = PAUSED ∧ s.job.resumeParked then
    (({ s with job := { s.job with resumeParked := false, parkedTiles := false } }.setJob RUNNING).refreshHold)
  else s

/-- The score deliveries scheduled for this clk whose crossing is not complete have slipped (R186, R197). -/
def State.markSlips (s : State) : State :=
  let late := s.dec.marks.filter (fun m => m.arrive == s.clk && !m.window && !m.crossed)
  late.foldl (fun s m => s.ridgeSlip m.tile)
    { s with dec := { s.dec with marks := s.dec.marks.filter (fun m => !(m.arrive == s.clk && !m.window && !m.crossed)) } }

/-- The records that enter the latency pin in this clk go out as module summaries (R388). -/
def State.summaries (s : State) : State :=
  (s.dec.decided.filter (fun r => r.out == s.clk)).foldl (fun s r => s.sendSummary r) s

/-- The clk begins: the drivers of a block that was reset release its pins (R476), a software reset whose time has come
(R494), a block whose drain is over is reset (R492), the start of the schedule, a pause, resume or park
that takes effect (R456, R457, R459), tokens enter their registers at the edge (R185), records that enter the pin
(R298), berth results (R389), capture copies that may now be issued (R327, R328), the tables as the grid reads them (R535). -/
def State.beginClk (s : State) : State :=
  let s := s.releasePins.softDue.holdBlock.beginDue.pausePends
  let s := ((s.acts execPauseTakesEffect).acts execResumeTakesEffect).acts execSavePark
  let s := s.arrivals.markSlips
  (s.summaries.tickPin.tickBerth).issueAll.readTables

/-- One clk. -/
def State.tick (s : State) : State :=
  let s := s.sendMarkers.endClk
  { s with clk := s.clk + 1 }.beginClk

end Sys2Proof.Machine
end

