-- ==== Sys2Proof/Safety.lean ====
section
/-! DEFINITION. The terms the statements use: the form every reachable state keeps, when an instruction issues, what a
tile does by itself in the clk that follow, and which part of the state an effect leaves alone. -/

namespace Sys2Proof.Machine

/-- The canonical forms: no dictionary entry is listed at its default, no memory byte at 0, keys strictly rising. -/
def State.canon (s : State) : Prop :=
  (s.dict.map Prod.fst).Pairwise (· < ·) ∧
  (∀ e ∈ s.dict, e.2 ≠ dflt s.grade s.stepping e.1) ∧
  Memory.wf s.mem = true

/-- An outcome. -/
abbrev Out := Host.Outcome State Fault Refusal

/-! ### Tiles -/

/-- Instruction `i` issues in this clk and takes effect (R202, R206, R207): its tile exists and may issue, resource `r`
is free (0 for an instruction that needs none) and its predicate is met. -/
def State.ready (s : State) (i : Iss) (r : Nat) : Prop :=
  tileOk s.grade i.tile = true ∧ s.mayIssue i.tile = true ∧ (r = 0 ∨ ((s.tile i.tile).res r).free ≤ s.clk) ∧
    (s.tile i.tile).met i = true

/-- Nothing of an earlier instruction is under way at tile `p`, and no overlap has stopped the writes of this clk or a later
one. -/
def State.quiet (s : State) (p : Nat) : Prop := (s.tile p).pend = [] ∧ ∀ c, (s.tile p).noWrite = some c → c < s.clk

/-- Tile `p` by itself from this clk to the clk `n` later: the reads and writes of each of these clk. -/
def State.run (s : State) (p : Nat) : Nat → State
  | 0 => (s.tickTile p).1
  | n + 1 =>
    let u := (s.tickTile p).1
    ({ u with clk := u.clk + 1 }).run p n

/-- `s` after an issue that occupies resource `r` for `occ` clk and plans the acts of the list, each with its unit and
the clk from now in which it is due. -/
def State.issued (s : State) (i : Iss) (r occ : Nat) (l : List (Nat × Nat × Act)) : State :=
  let t := ((s.begun (s.tile i.tile)).occupy r (s.clk + occ)).advance s.clk 1
  s.setTile i.tile { t with
    pend := t.pend ++ l.map (fun x => { due := s.clk + x.2.1, addr := s.wordAt i.tile, unit := x.1, act := x.2.2 }) }

/-- `u` is `s` but for its clk and tile `p`. -/
def onlyTile (s u : State) (p : Nat) : Prop :=
  { u with tiles := s.tiles, clk := s.clk } = s ∧ ∀ q, q ≠ p → u.tile q = s.tile q

/-- `u` is `s` but for its clk, tile `p` and the bytes of memory. -/
def onlyTileMem (s u : State) (p : Nat) : Prop :=
  { u with tiles := s.tiles, clk := s.clk, mem := s.mem } = s ∧ ∀ q, q ≠ p → u.tile q = s.tile q

/-- `u` is `s` but for its clk, tile `p` and the network's registers and flights. -/
def onlyTileNet (s u : State) (p : Nat) : Prop :=
  { u with tiles := s.tiles, clk := s.clk, net := s.net } = s ∧ ∀ q, q ≠ p → u.tile q = s.tile q

/-- Everything of a tile but its s, p and predicate registers is the same: banks, latch, files, tables, scale buffers,
frame context, completion marks. -/
def Tile.sameData (x y : Tile) : Prop :=
  x.w0 = y.w0 ∧ x.w1 = y.w1 ∧ x.active = y.active ∧ x.x = y.x ∧ x.a = y.a ∧ x.luts = y.luts ∧ x.sb0 = y.sb0 ∧
    x.sb1 = y.sb1 ∧ x.fnum = y.fnum ∧ x.fvoid = y.fvoid ∧ x.cm = y.cm

/-- The outcome writes s register `sd` with `v` in this clk, s0 discarding it, and nothing else (R205, R233). -/
def writesS (s : State) (p sd : Nat) (v : BitVec 32) (o : Out) : Prop :=
  ∃ t, o = .next t ∧ onlyTile s (t.run p 0) p ∧
    let x := s.tile p
    let y := (t.run p 0).tile p
    y.sreg sd = (if sd = 0 then 0 else v.toNat) ∧ (∀ r, r ≠ sd → y.sreg r = x.sreg r) ∧ y.p = x.p ∧ y.pf = x.pf ∧
      y.sameData x

/-- The outcome writes predicate flag `pd` with `v` in this clk, pf0 discarding it, and nothing else. -/
def writesF (s : State) (p pd : Nat) (v : Bool) (o : Out) : Prop :=
  ∃ t, o = .next t ∧ onlyTile s (t.run p 0) p ∧
    let x := s.tile p
    let y := (t.run p 0).tile p
    y.flag pd = (if pd = 0 then true else v) ∧ (∀ r, r ≠ pd → y.flag r = x.flag r) ∧ y.p = x.p ∧ y.s = x.s ∧
      y.sameData x

/-- The outcome writes p register `pd` with `v` in this clk and nothing else. -/
def writesP (s : State) (p pd : Nat) (v : BitVec 25) (o : Out) : Prop :=
  ∃ t, o = .next t ∧ onlyTile s (t.run p 0) p ∧
    let x := s.tile p
    let y := (t.run p 0).tile p
    y.preg pd = v.toNat ∧ (∀ r, r ≠ pd → y.preg r = x.preg r) ∧ y.s = x.s ∧ y.pf = x.pf ∧ y.sameData x

/-- Memory `m'` is `m` with the bytes `bs` stored at address `a`, and every other byte as it was. -/
def stores (m m' : List Host.Cell) (a : Nat) (bs : List Byte) : Prop :=
  (∀ i, (h : i < bs.length) → readByte m' (a + i) = bs[i]) ∧
    ∀ b, b < a ∨ a + bs.length ≤ b → readByte m' b = readByte m b

/-- The 32 bytes of an activation source (R214, R216), where the tile's allocation and the port allow it. -/
def State.sourceBytes (s : State) (p src ptr offset slice : Nat) : Option (List Nat) :=
  let port := fun (r : Nat) => (s.reg (regKey p r)).map (fun w => sliceOf w.word slice)
  match src with
  | 0 => some (s.tile p).x
  | 1 =>
    let a := (s.tile p).preg ptr + offset
    if s.alloc p [(a, 32, false)] = none then some (s.sram p a 32) else none
  | 2 => port 5
  | 3 => port 6
  | _ => port 7

/-- The register that an activation source reads, marked read (R174). -/
def readsOf (p src : Nat) : List Nat :=
  match src with
  | 0 => []
  | 1 => []
  | 2 => [regKey p 5]
  | 3 => [regKey p 6]
  | _ => [regKey p 7]

/-! ### The tide network and the tenders -/

/-- What router `p` sends on output `o` in the clk of slot `j` (R172, R177, R179): the word of the input its entry names, if that
input holds one. -/
def State.sends (s : State) (j p o : Nat) : Option Flight :=
  let k := mget 0 s.net.tide (65536 * p + j) / 2 ^ (3 * o) % 8
  if k = 0 ∨ 5 < k then none
  else (s.reg (regKey p (k - 1))).map (fun w =>
    if o = 4 then ⟨regKey p (if w.side % 4 = 2 then 8 else 5), s.clk + 1, w, none, p, true⟩
    else ⟨(s.hop p o).1, s.clk + (s.hop p o).2.1, w, some (s.hop p o).2.2, p, false⟩)

/-- Every placed tile. -/
def State.placedTiles (s : State) : List Nat := (List.range 104).filter s.placed

/-- `u` is `s` but for its dictionary, whose entry `k` alone may differ. -/
def onlyEntry (s u : State) (k : Nat) : Prop := { u with dict := s.dict } = s ∧ ∀ j, j ≠ k → u.ent j = s.ent j

/-! ### Lanes and landing -/

/-- A counter field after one more count: it saturates at its width. -/
def State.oneMore (s : State) (k : Nat) (f : Fld) : Nat := min (s.fld k f + 1) (2 ^ f.w - 1)

/-- What R62 and R66 make of the loss of block lock on channel `c` of engine `e`: the flag, the count, the relock when it is
automatic and no bring-up of the lane is under way, with the DFE's reconvergence where there is light, a failure code left in place; then what
follows for the lane's group. -/
def State.lost (s : State) (e c : Nat) : State :=
  let k := kLstat e c
  let v := ((s.setFld k lstat_block_lock 0).setFld k lstat_lock_lost_seen 1).setFld (kLcnt e c) lcnt_lock_losses
    (s.oneMore (kLcnt e c) lcnt_lock_losses)
  let w := (if s.failedCode e c then v else v.setFld k lstat_bringup_state 7).setChan e c { s.chan e c with relock := true }
  (if s.fld (kLctl e c) lctl_auto_relock = 1 ∧ s.settled e c = true then
    (if s.fld k lstat_signal_detect = 1 then w.reconverge e c else w)
   else v).afterUnlock e c

/-- What R62 and R64 make of block lock gained on channel `c` of engine `e`, which was not locked. -/
def State.gained (s : State) (e c : Nat) : State :=
  let k := kLstat e c
  (((s.setFld k lstat_block_lock 1).setFld k lstat_cdr_lock 1).setChan e c { s.chan e c with
    lastSlip := s.fld k lstat_slip_now
    search := none }).clearHeaders e c |>.afterLock e c

/-- The parser of lane `n` after a block: counted since its latest marker (R93), its header (`bad` 1 for an invalid one) in the window
of R62, its payload `w` through the descrambler (R46). -/
def State.counted (s : State) (e n bad w : Nat) : Parser :=
  let p := s.parser e n
  { p with
    total := p.total + 1
    mark := p.mark + 1
    hdr := (2 * p.hdr + bad) % 2 ^ 64
    hist := (scramble p.hist (payloadBits w)).2 }

/-- With one more header the latest 64 hold fewer than 16 invalid ones (R62). -/
def State.steady (s : State) (e n bad : Nat) : Prop := ones64 ((2 * (s.parser e n).hdr + bad) % 2 ^ 64) < 16

/-! ### The decision path -/

/-- Seed `d` fires for frame index `n` (R292): it is enabled and its comparisons combine to true. -/
def State.seedFires (s : State) (n d : Nat) : Prop :=
  s.flag (key (0x2A00 + d) 9) seed_seed_enable = true ∧
    combineSeed (s.fld (key (0x2A00 + d) 9) seed_combine) (s.compare d 1 n).1 (s.compare d 2 n).1 (s.compare d 3 n).1
      (s.compare d 4 n).1 = true

/-- Seed `d` accepts: it fires and its prescale count is reached with it. -/
def State.seedAccepts (s : State) (n d : Nat) : Prop :=
  s.seedFires n d ∧ s.ent (key (0x2A00 + d) 12) + 1 = s.fld (key (0x2A00 + d) 9) seed_prescale

/-- `u` is `s` but for its dictionary, its decision path and what it has put out. -/
def onlyDecision (s u : State) : Prop := { u with dict := s.dict, dec := s.dec, out := s.out } = s

/-! ### The dictionary -/

/-- The entries whose write is a command with an effect of its own; every other takes the written word. -/
def actsOnWrite (i sub : Nat) : Bool :=
  [key 0x2F00 1, key 0x2900 1, key 0x2900 3, key 0x2900 4, key 0x2940 3, key 0x2E00 3, key 0x2E00 4, key 0x2E00 5, key 0x2E01 4,
    key 0x2E40 3, key 0x2F20 4, key 0x3100 2, key 0x3100 5, key 0x3140 2, key 0x3140 3, key 0x3150 2, key 0x3150 3, key 0x3160 2,
    key 0x3200 2, key 0x3200 3].contains (key i sub) || i == 0x1010 || i == 0x1011 || i == 0x3170

/-! ### Tile commands -/

/-- The tile and predicate of a tile instruction; none of any other command. -/
def issueOf : Instr → Option Iss
  | .xld t _ _ _ _ _ => some t
  | .wld t _ _ _ _ _ => some t
  | .wswp t => some t
  | .mac t _ => some t
  | .cmac t _ _ _ => some t
  | .bias t _ _ _ => some t
  | .scan t _ _ _ => some t
  | .sbtrk t _ _ _ _ _ => some t
  | .sbopn t _ => some t
  | .rq t _ => some t
  | .ltld t _ _ => some t
  | .lut t _ _ _ _ _ _ => some t
  | .aadd t _ _ _ _ => some t
  | .amax t _ _ _ _ => some t
  | .gath t _ _ _ _ _ _ _ => some t
  | .pad t _ => some t
  | .fwait t _ => some t
  | .loop t _ _ => some t
  | .halt t => some t
  | .fsel t _ _ _ _ => some t
  | .mark t _ => some t
  | .mchk t _ _ => some t
  | .add t _ _ _ => some t
  | .sub t _ _ _ => some t
  | .andR t _ _ _ => some t
  | .orR t _ _ _ => some t
  | .xorR t _ _ _ => some t
  | .shl t _ _ _ => some t
  | .shr t _ _ _ => some t
  | .sra t _ _ _ => some t
  | .addi t _ _ _ => some t
  | .movi t _ _ => some t
  | .cmp t _ _ _ _ => some t
  | .cmpi t _ _ _ _ => some t
  | .pfop t _ _ _ _ => some t
  | .pset t _ _ => some t
  | .padd t _ _ _ _ _ => some t
  | .pmov t _ _ _ => some t
  | .sld t _ _ _ => some t
  | .sst t _ _ _ => some t
  | .rsnd t _ _ _ _ => some t
  | .rrcv t _ _ _ _ => some t
  | .srcv t _ _ _ _ _ _ _ => some t
  | .tsnd t _ _ => some t
  | .trcv t _ _ => some t
  | .tdi t _ _ => some t
  | .slld t _ _ _ _ => some t
  | .slst t _ _ => some t
  | .slsnd t _ _ => some t
  | .slrcv t _ _ _ _ => some t
  | _ => none

end Sys2Proof.Machine
end

