-- ==== Sys2Proof/Certificates/Slice0/Obligations.lean ====
section
/-! DEFINITION. The statements, one per group of commands or per rule of the whole block; they are made of the rules of
spec/ that each names. A statement holds of every state, reachable or not, unless it names `State.canon`. -/

open Sys2Proof Sys2Proof.Machine

/-- The model's step: with a command at the front of its queue a step is that command's effect on the state with the queue's rest
(the row's own rule for a block, log entry 1). -/
def Obligations.StepRunsTheFrontCommand : Prop :=
  ∀ (s : State) (c : Instr) (rest : List Instr), step { s with pending := c :: rest } = exec c { s with pending := rest }

/-- The model's choice of log entry 1: with no command waiting a step passes one clk. What a clk does by itself, in order: the
markers, the schedule's binding and releases (R103, R104), frames that became ready, the words of the grid that are due (R35, R253),
calibration windows, marks, verdicts, time-outs and the evaluation (R165, R251, R295, R328, R342), what else is timed to the clk (R301,
R305, R308, R409, R427), the tiles' due reads and writes (R206), the pin and the flashing (R298, R302), aborts, the telling of its
faults (R533); at the edge a software reset (R494), the pause, resume and park (R456, R459), tokens that enter their registers (R185)
and the slip of scores that did not (R186). `run` is what a command of the table does; that the block runs it in this clk is what its
row's rule times. -/
def Obligations.EmptyQueuePassesOneClk : Prop :=
  ∀ s : State, s.pending = [] → ∃ u, step s = .next u ∧ u.clk = s.clk + 1 ∧ u.pending = [] ∧ u.grade = s.grade ∧
    (s.flt.active = true → u.net.flights = [] ∧ ∀ p, (u.tile p).pend = []) ∧
    (∀ e es, s.time.txq = e :: es → u.time.txq = es) ∧
    (∀ c, s.rst.soft = some c → c ≤ s.clk + 1 → u.rst.soft = none) ∧
    let run := fun (c : Instr) (s : State) => s.acts (exec c)
    let a := s.sendMarkers
    let b := if 1 < a.berthSize then run .berthReportFramesEnd a else a
    let c := b.runSlots
    let d := ((c.settleAll c.clk).runGrid.runJobTimed.idleBg.runTimed.tickTiles.clearRegs.runPin.runAborts.tellFaults).readStamp
    let e := if d.time.tlDue then d.raiseTimeline else d
    let f := { e with clk := e.clk + 1 }.releasePins.softDue.holdBlock.beginDue.pausePends
    let g := run .savePark (run .resumeTakesEffect (run .pauseTakesEffect f))
    step s = .next (g.arrivals.markSlips.summaries.tickPin.tickBerth.issueAll.readTables) ∧
    (let w := run .windowSlotBind (run .scheduleBind b)
     (w.job.bound = true → b.runSlots = w.slipQuays.foldl (fun s q => run (.slotRelease q) s) w) ∧
     (w.job.bound = false → b.runSlots = w)) ∧
    (s.gridRuns = false → s.runGrid = s) ∧
    (∀ p n i t, s.mayIssue p = true → decodeWord p (s.wordHere p) = some i → issueOf i = some t →
      s.runTile p (n + 1) = (run i s).runTile p n) ∧
    (s.job.layerWin = [] → s.dec.marks = [] → s.cap.slots = [] → s.cap.reqs = [] → s.runJobTimed = (run .ridgeEvaluate s).runBerth) ∧
    (∀ p x, (s.tile p).pend.filter (fun y => y.due == s.clk) = [x] → x.act.isRead = false → (s.tile p).noWrite ≠ some s.clk →
      s.tickTile p =
        ((s.setTile p { s.tile p with pend := (s.tile p).pend.filter (fun y => y.due != s.clk) }).applyAct p x.act, [])) ∧
    (∀ p r v, (s.applyAct p (.sreg r v)).tile p = (s.tile p).setS r v ∧ ∀ o, o ≠ p → (s.applyAct p (.sreg r v)).tile o = s.tile o) ∧
    (∀ p at_ bs, (∀ x ∈ bs, x < 256) →
      (∀ i, i < bs.length → (readByte (s.applyAct p (.sram at_ bs)).mem (sramBase p + at_ + i)).toNat = bs.getD i 0) ∧
      ∀ j, j < sramBase p + at_ ∨ sramBase p + at_ + bs.length ≤ j → readByte (s.applyAct p (.sram at_ bs)).mem j = readByte s.mem j) ∧
    (let late := fun (x : MarkRec) => x.arrive == s.clk && !x.window && !x.crossed
     ∀ m, s.dec.marks.filter late = [m] →
      s.markSlips = { s with dec := { s.dec with marks := s.dec.marks.filter (fun y => !late y) } }.ridgeSlip m.tile) ∧
    ((∀ r ∈ s.dec.pin, r.out ≠ s.clk) → s.runPin = s.leaveFlashing) ∧
    (∀ r, s.dec.leaving = none → s.dec.pin = [r] → r.out = s.clk → s.runPin = (run .pinRelease s).leaveFlashing)

/-- What reset leaves: no job, the no_job doubt and its forcing (R301, R302), every lane off, every laser dark, every return channel
and transmit channel disabled and no pin driven (R475, R489), the main clock at 0 and not valid (R409), the cause word of a power-on
(R495), no spare in use (R191), no feature agreed (R452), memory and queue empty. -/
def Obligations.ResetLeavesTheBlockIdle : Prop :=
  let s := State.reset
  s.jobState = EMPTY ∧ s.rst.available = false ∧ s.rst.step = 0 ∧ s.time.main = 0 ∧ s.flag kTime tsts_main_valid = false ∧
    s.flag kRcs rcs_por_seen = true ∧ s.fld kRcs rcs_last_full_cause = 1 ∧ s.fld kRcs rcs_full_resets = 0 ∧ s.ctl.latched = false ∧
    s.agreed = 0 ∧ s.pending = [] ∧ s.mem = [] ∧ (∀ p, s.tile p = {}) ∧ s.out = [] ∧
    (∀ e c, e < 24 → c < 34 → s.fld (kLstat e c) lstat_power_state_now = 2 ∧ s.fld (kLstat e c) lstat_bringup_state = 0 ∧
      s.flag (kLstat e c) lstat_block_lock = false ∧ s.txLit e c = false ∧
      (20 ≤ e → s.flag (key (0x21B0 + (e - 20)) (1 + c)) txc_tx_enable = false)) ∧
    (∀ q, q < 20 → s.flag (kRch q) rch_rc_enable = false ∧ s.returnSends q = .dark) ∧ (∀ i src, s.sourceLit i src = false) ∧
    s.dec.driven = false ∧ s.time.portsOn = false ∧
    (∀ r, r < 8 → s.fld (kRow r) row_retired_column = 15) ∧ s.inc = 13743895347 ∧ s.doubtMain = 1 ∧
    s.flag kFlsh flsh_forcing = true

/-- The canonical forms hold after reset. -/
def Obligations.ResetIsCanonical : Prop :=
  State.reset.canon

/-- Every step keeps what holds of every reachable state: dictionary entries rise and none is listed at its default, memory is in
its canonical form, the part stays the part it is, and the queue only loses its front (tier 3; it holds of every state, reachable
or not). -/
def Obligations.EveryStepKeepsTheForm : Prop :=
  ∀ s t : State, step s = .next t →
    t.grade = s.grade ∧ t.stepping = s.stepping ∧ t.pending = s.pending.tail ∧ (s.canon → t.canon)

/-- R533, R534, R540: a fault of an armed, running or paused job makes it FAULTED at once, raises its doubt, counts, asks for a
restart and leads the log; another one of the same clk takes its place in the log's order, and a later one is only counted. -/
def Obligations.FaultsEndTheJob : Prop :=
  ∀ (s : State) (f g : FaultRec),
    let u := s.fault f
    (s.active = true → u.jobState = FAULTED ∧ bit u.doubtMain 1 = true ∧ u.fld kFst fst_job_faults = s.oneMore kFst fst_job_faults ∧
      u.fld kFst fst_report_count = 1 ∧ u.fld kFst fst_last_family = f.family % 2 ^ fst_last_family.w ∧
      u.fld kRsts rsts_restart_state = 1 ∧ u.flt.recs = [f] ∧ u.flt.active = true ∧ u.flt.clk = s.clk ∧ u.mem = s.mem ∧
      u.tiles = s.tiles ∧ u.clk = s.clk ∧
      (let v := u.fault g
       v.jobState = FAULTED ∧ v.flt.recs = (if g.before f = true then [g, f] else [f, g]) ∧
        v.fld kFst fst_report_count = 2 ∧ v.fld kFst fst_job_faults = u.fld kFst fst_job_faults)) ∧
    (s.jobState = FAULTED → s.flt.active = false → u.fld kFst fst_after_faults = s.oneMore kFst fst_after_faults ∧ onlyEntry s u kFst) ∧
    (s.jobState = EMPTY ∨ s.jobState = LOADED → u.jobState = s.jobState ∧ u.flag kFst fst_fault_seen = true ∧ u.flt = s.flt)

/-- R2, R3, R202, R264: every command answers a next state, none stops; one that names a tile, eaves port, bundle, PTP port, trigger
input or island that the grade does not have changes nothing (the model's choice, log entry 2), nor does an instruction of a tile that
may not issue in this clk. -/
def Obligations.EveryCommandAnswers : Prop :=
  ∀ (s : State) (p c n : Nat),
    (∀ i : Instr, ∃ t, exec i s = .next t) ∧
    (∀ (i : Instr) (t : Iss), issueOf i = some t → tileOk s.grade t.tile = false ∨ s.mayIssue t.tile = false → exec i s = .next s) ∧
    (tileOk s.grade p = false → (∀ ok, exec (.spareSelfTest p ok) s = .next s) ∧ exec (.sramPatrol p 0 c n) s = .next s) ∧
    (eavesOk s.grade p = false → exec (.berthWordSend p) s = .next s) ∧
    (32 ≤ p → (∀ m, exec (.summaryMessage p m) s = .next s) ∧ exec (.berthWord p c n) s = .next s) ∧
    (2 ≤ p → exec (.serveSync p) s = .next s ∧ exec (.delayReqSend p) s = .next s) ∧
    (16 ≤ p → ∀ up, exec (.trigEdge p up c) s = .next s) ∧
    (islandOk s.grade p = false → exec (.clockFault p c) s = .next s)

/-- R468: the error register as a USDO upload reads it. -/
def Obligations.ErrorRegisterShowsItsCauses : Prop :=
  ∀ s : State, s.canServes = true → ∃ e, exec (.usdoUpload 0x1001 0) s = .next { s with out := .reply (s.cob 0x580) 0 e 0x0005 :: s.out } ∧
    let supply := bit s.doubtMain 6 = true
    let thermal := bit s.doubtMain 5 = true
    let lost := s.ctl.lostUnsent ≠ 0 ∨ ∃ m ∈ s.ctl.canQ, bits m 24 8 = 8
    let faulted := s.jobState = FAULTED
    ∀ b, bit e b = true ↔ (b = 2 ∧ supply) ∨ (b = 3 ∧ thermal) ∨ (b = 4 ∧ lost) ∨ (b = 7 ∧ faulted) ∨
      (b = 0 ∧ (supply ∨ thermal ∨ lost ∨ faulted))

/-- R236, with R205 and R233 for s0 and pf0: what each scalar instruction writes, when, and that it writes nothing else, where the
tile's word spells it (R35, R253). `a` and `b` are its sources, read in clk t. SLD and SST reach the 4 bytes at p[ptr] + offset that
the allocation of R210 allows. -/
def Obligations.ScalarInstructionsCompute : Prop :=
  ∀ (s : State) (t : Iss) (sd sa sb imm ptr off : Nat), s.ready t 5 → s.quiet t.tile →
    let x := s.tile t.tile
    let a := BitVec.ofNat 32 (x.sreg sa)
    let b := BitVec.ofNat 32 (x.sreg sb)
    let i := BitVec.ofNat 32 imm
    let here := fun (c : Instr) => s.spells c t.tile = true
    let W := fun (v : BitVec 32) (c : Instr) => here c → writesS s t.tile sd v (exec c s)
    let F := fun (v : Bool) (c : Instr) => here c → writesF s t.tile sd v (exec c s)
    let P := fun (v : BitVec 25) (c : Instr) => here c → writesP s t.tile sd v (exec c s)
    let at_ := (x.preg ptr + off) % 2 ^ 25
    (W (a + b) (.add t sd sa sb) ∧ W (a - b) (.sub t sd sa sb) ∧
      W (a &&& b) (.andR t sd sa sb) ∧ W (a ||| b) (.orR t sd sa sb) ∧
      W (a ^^^ b) (.xorR t sd sa sb) ∧ W (a <<< (x.sreg sb % 32)) (.shl t sd sa sb) ∧
      W (a >>> (x.sreg sb % 32)) (.shr t sd sa sb) ∧
      W (a.sshiftRight (x.sreg sb % 32)) (.sra t sd sa sb) ∧
      W (a + i) (.addi t sd sa imm) ∧ W i (.movi t sd imm)) ∧
    (F (a == b) (.cmp t sd 0 sa sb) ∧ F (a != b) (.cmp t sd 1 sa sb) ∧
      F (a.slt b) (.cmp t sd 2 sa sb) ∧ F (b.sle a) (.cmp t sd 3 sa sb) ∧
      F (a.ult b) (.cmp t sd 4 sa sb) ∧ F (b.ule a) (.cmp t sd 5 sa sb) ∧
      F (a == i) (.cmpi t sd 0 sa imm) ∧ F (a != i) (.cmpi t sd 1 sa imm) ∧
      F (a.slt i) (.cmpi t sd 2 sa imm) ∧ F (i.sle a) (.cmpi t sd 3 sa imm) ∧
      F (a.ult i) (.cmpi t sd 4 sa imm) ∧ F (i.ule a) (.cmpi t sd 5 sa imm) ∧
      F (x.flag sa && x.flag sb) (.pfop t sd sa sb 0) ∧ F (x.flag sa || x.flag sb) (.pfop t sd sa sb 1) ∧
      F (x.flag sa != x.flag sb) (.pfop t sd sa sb 2) ∧
      F (x.flag sa && !x.flag sb) (.pfop t sd sa sb 3)) ∧
    (P (BitVec.ofNat 25 imm) (.pset t sd imm) ∧
      P (BitVec.ofNat 25 (x.preg sa + x.sreg sb)) (.padd t sd sa true sb imm) ∧
      P (BitVec.ofNat 25 (x.preg sa + imm)) (.padd t sd sa false sb imm) ∧
      P (BitVec.ofNat 25 (x.sreg sa)) (.pmov t true sa sd) ∧
      W (BitVec.ofNat 32 (x.preg sa)) (.pmov t false sd sa)) ∧
    (here (.sld t sd ptr off) → s.alloc t.tile [(at_, 4, false)] = none → ∃ u, exec (.sld t sd ptr off) s = .next u ∧
      let v := u.run t.tile 2
      let y := v.tile t.tile
      onlyTile s v t.tile ∧ y.sreg sd = (if sd = 0 then 0 else leNat (s.sram t.tile at_ 4)) ∧
        (∀ r, r ≠ sd → y.sreg r = x.sreg r) ∧ y.p = x.p ∧ y.pf = x.pf ∧ y.sameData x ∧
        ((u.run t.tile 1).tile t.tile).s = x.s) ∧
    (here (.sst t sa ptr off) → s.alloc t.tile [(at_, 4, true)] = none → ∃ u, exec (.sst t sa ptr off) s = .next u ∧
      let v := u.run t.tile 1
      let y := v.tile t.tile
      onlyTileMem s v t.tile ∧
        stores s.mem v.mem (sramBase t.tile + at_) [a.extractLsb' 0 8, a.extractLsb' 8 8, a.extractLsb' 16 8, a.extractLsb' 24 8] ∧
        y.s = x.s ∧ y.p = x.p ∧ y.pf = x.pf ∧ y.sameData x)

/-- R206: an instruction whose predicate is not met only occupies: the tile goes on to its next word, its resource is occupied, and
nothing else changes. It holds for every instruction of the scalar, post, array and mover units; the statement names one of each.
R207, R209, R128, R210: an instruction that issues to an occupied resource faults with cause busy, WSWP into a bank that is still
filling with cause early_swap, and an access that the allocation of R260 does not allow with its allocation cause, in the clk of the
access: clk t for a read of SLD, t + 1 for the store of SST; none of them has its effect, and after an overlap no write of the clk
takes effect at the tile. It rests on the model's log entries 11 (a row is the issue of the word at the pc), 42 (the writes that an
overlap stops) and 70. -/
def Obligations.IssueOccupiesFaultsOrIsPredicatedOff : Prop :=
  (∀ (s : State) (t : Iss) (o : MacOps) (sd sa sb table ptr : Nat) (inc : Bool),
     tileOk s.grade t.tile = true → s.mayIssue t.tile = true → (s.tile t.tile).met t = false →
     (∀ r, ((s.tile t.tile).res r).free ≤ s.clk) →
     let only := fun (c : Instr) (r occ : Nat) => s.spells c t.tile = true → exec c s = .next (s.issued t r occ [])
     only (.add t sd sa sb) 5 1 ∧ only (.ltld t table ptr) 4 2 ∧ only (.mac t o) 1 1 ∧ only (.trcv t ptr inc) 3 1 ∧
       only (.wswp t) 0 0) ∧
  (∀ (s : State) (t : Iss) (sd sa sb ptr off : Nat), tileOk s.grade t.tile = true → s.mayIssue t.tile = true →
     let p := t.tile
     let x := s.tile p
     let here := fun (c : Instr) => s.spells c p = true
     (here (.add t sd sa sb) → s.clk < x.alu.free → exec (.add t sd sa sb) s =
       .next (((s.setTile p ((s.begun x).advance s.clk 1)).noWrites p).tileFault 2 1 p (s.wordAt p) (5 + 2 ^ 16 * x.alu.holder))) ∧
     (here (.wswp t) → x.met t = true → x.fillBank = 1 - x.active → s.clk < x.fillDone →
       exec (.wswp t) s = .next (((s.issued t 0 0 []).noWrites p).tileFault 2 2 p (s.wordAt p) 0)) ∧
     (here (.sld t sd ptr off) → s.ready t 5 → ∀ e, s.allocGo p false 65 ((x.preg ptr + off) % 2 ^ 25) 4 = some e →
       exec (.sld t sd ptr off) s = .next ((s.issued t 5 1 []).allocFault p (s.wordAt p) e)) ∧
     (here (.sst t sa ptr off) → s.ready t 5 → ∀ e, s.alloc p [((x.preg ptr + off) % 2 ^ 25, 4, true)] = some e →
       let u := s.issued t 5 1 [(4, 1, .fail e.1 e.2)]
       exec (.sst t sa ptr off) s = .next u ∧ (p, s.wordAt p, e.1, e.2) ∈ ({ u with clk := s.clk + 1 } : State).failsDue))

/-- R245, R246, R247: PAD fills n_m + 1 clk, FWAIT issues again in the first later clk whose slot is off modulo F, LOOP takes no
clk of its own and puts its body on the loop stack, HALT issues nothing more; each where the tile's word spells it (R35, R253). Of the
tile only its place in the program changes, and nothing else of the block. R254: what issues next is a word of the program. R246: the
loop stack at the end of a body. While iterations remain the next word is the body's first; after the last one the word after the
body issues, unless it ends an outer body too. -/
def Obligations.ControlWordsSetTheIssueClk : Prop :=
  (∀ (s : State) (t : Iss) (n off l : Nat), s.ready t 0 →
     let p := t.tile
     let x := s.tile p
     let here := fun (c : Instr) => s.spells c p = true
     let place := fun (u : State) => onlyTile s u p ∧
       { u.tile p with pc := x.pc, next := x.next, loops := x.loops, period := x.period, halted := x.halted } = x
     let last := mget 0 s.net.plen p
     (here (.pad t n) → ∃ u, exec (.pad t n) s = .next u ∧ place u ∧ (u.tile p).next = s.clk + n + 1 ∧
       (u.tile p).halted = x.halted ∧
       (∀ c, s.clk ≤ c → c < s.clk + n + 1 → ({ u with clk := c }).mayIssue p = false) ∧
       let v := { u with clk := s.clk + n + 1 }
       v.mayIssue p = (v.gridRuns && decide (v.wordAt p < last))) ∧
     (here (.fwait t off) → off < s.F → ∃ u w, exec (.fwait t off) s = .next u ∧ place u ∧ (u.tile p).next = s.clk + w ∧
       (u.tile p).halted = x.halted ∧ 1 ≤ w ∧ w ≤ s.F ∧ (s.slotAt s.clk + w) % s.F = off ∧
       (∀ c, s.clk ≤ c → c < s.clk + w → ({ u with clk := c }).mayIssue p = false)) ∧
     (here (.loop t n l) → ∃ u, exec (.loop t n l) s = .next u ∧ place u ∧ u.mayIssue p = decide (s.wordAt p + 1 < last) ∧
       (u.tile p).pc = s.wordAt p + 1 ∧ (u.tile p).next = x.next ∧ (u.tile p).halted = x.halted ∧
       (u.tile p).loops = (s.wordAt p + 1, s.wordAt p + l + 2, n) :: (s.begun x).loops) ∧
     (here (.halt t) → ∃ u, exec (.halt t) s = .next u ∧ place u ∧ (u.tile p).halted = true ∧
       ∀ c, ({ u with clk := c }).mayIssue p = false)) ∧
  (∀ (st en rem pc : Nat) (ls : List (Nat × Nat × Nat)),
     loopStep ((st, en, rem + 1) :: ls) en = ((st, en, rem) :: ls, st) ∧
     loopStep ((st, en, 0) :: ls) en = loopStep ls en ∧
     (pc ≠ en → loopStep ((st, en, rem) :: ls) pc = ((st, en, rem) :: ls, pc)) ∧
     loopStep [] pc = ([], pc))

/-- R248, R251, R252: FSEL sets the frame context, its predicate flag and, with wr_s, an s register; MARK sends its score, which
arrives 20 clk later; MCHK clears a mark that is set and raises cmark_unset for one that is not; each where the tile's word spells
it (R35, R253). FSEL's values are stated first for a tile outside the window partition. R340: FSEL on a tile of the window
partition takes the window slot in which the clk falls, lag slots back. -/
def Obligations.FrameContextAndMarks : Prop :=
  (∀ (s : State) (t : Iss) (lag sd pd cm ptr off sreg zp score : Nat), s.ready t 0 → s.quiet t.tile →
     let p := t.tile
     let x := s.tile p
     let n : Int := ((s.clk : Int) - s.job.s0 - s.E - 8) / s.F - lag
     let void := decide (n < 0) || s.frameVoid n.toNat
     let a := (x.preg ptr + off) % 2 ^ 25
     let here := fun (c : Instr) => s.spells c p = true
     (s.windowTile p = false → ∀ wr : Bool, here (.fsel t lag wr sd pd) → (wr = false → sd = 0) →
       ∃ u, exec (.fsel t lag wr sd pd) s = .next u ∧
       let y := (u.run p 0).tile p
       onlyTile s (u.run p 0) p ∧ (y.fnum : Int) = ((s.job.n0 : Int) + n) % 2 ^ 48 ∧ y.fvoid = void ∧
         y.flag pd = (if pd = 0 then true else void) ∧ (∀ r, r ≠ pd → y.flag r = x.flag r) ∧
         (∀ r, r ≠ sd → y.sreg r = x.sreg r) ∧ y.sreg sd = (if sd = 0 then 0 else y.fnum % 2 ^ 32) ∧ y.p = x.p ∧
         y.a = x.a ∧ y.cm = x.cm) ∧
     (∀ (src fmt : Nat) (v : Int), here (.mark t ⟨src, ptr, off, sreg, fmt, score, zp⟩) →
       ((src = 1 ∧ fmt = 2 ∧ v = (BitVec.ofNat 16 (x.sreg sreg)).toInt) ∨
         (src = 0 ∧ fmt = 0 ∧ s.alloc p [(a, 1, false)] = none ∧ v = ((readByte s.mem (sramBase p + a)).toNat : Int) - zp) ∨
         (src = 0 ∧ fmt = 1 ∧ s.alloc p [(a, 1, false)] = none ∧ v = (readByte s.mem (sramBase p + a)).toInt) ∨
         (src = 0 ∧ fmt = 2 ∧ s.alloc p [(a, 2, false)] = none ∧
           v = (readByte s.mem (sramBase p + a + 1) ++ readByte s.mem (sramBase p + a)).toInt)) →
       ∃ u, exec (.mark t ⟨src, ptr, off, sreg, fmt, score, zp⟩) s = .next u ∧
         u.dec.marks = s.dec.marks ++
           [⟨s.clk + 20, p, s.wordAt p, x.fnum, score, v, s.windowTile p, false⟩] ∧
         { u with dec := { u.dec with marks := s.dec.marks }, tiles := s.tiles } = s) ∧
     (mget false x.cm cm = true →
       (here (.mchk t cm true) → ∃ u, exec (.mchk t cm true) s = .next u ∧ onlyTile s (u.run p 0) p ∧
         let y := (u.run p 0).tile p
         mget false y.cm cm = false ∧ (∀ c, c ≠ cm → mget false y.cm c = mget false x.cm c) ∧ y.s = x.s ∧ y.p = x.p ∧ y.pf = x.pf) ∧
       (here (.mchk t cm false) → exec (.mchk t cm false) s = .next (s.issued t 0 0 []))) ∧
     (mget false x.cm cm = false → ∀ clear, here (.mchk t cm clear) →
       exec (.mchk t cm clear) s = .next ((s.issued t 0 0 []).tileFault 6 9 p (s.wordAt p) 0))) ∧
  (∀ (s : State) (t : Iss) (lag pd : Nat), s.ready t 0 → s.quiet t.tile → s.windowTile t.tile = true →
     s.spells (.fsel t lag false 0 pd) t.tile = true →
     let z : Int := ((s.clk : Int) - s.job.s0 - s.fld kWslot wslot_window_offset) / max 1 (s.fld kWslot wslot_slot_length) - lag
     ∃ u, exec (.fsel t lag false 0 pd) s = .next u ∧
       let y := (u.run t.tile 0).tile t.tile
       onlyTile s (u.run t.tile 0) t.tile ∧ (y.fnum : Int) = z % 2 ^ 48 ∧
         y.fvoid = (decide (z < 0) || (mget none s.cap.slots z.toNat).isNone) ∧ y.s = (s.tile t.tile).s)

/-- Where the tile's word spells the instruction (R35, R253): R213, R215, R217: XLD puts the 32 bytes of its source in the
latch; WSWP makes the inactive bank active; CMAC writes the dot
products of all 1,024 lanes, acc_exp 0 and the tag it names, MAC adds them with saturation (a lane whose dot product is 0 keeps
its value), in clk t + 4. R212: WLD fills the lanes of the bank that is inactive in clk t, codes and zero points as the block at
p[ptr] has them, and it is complete at the end of clk t + c; the other lanes and the active bank keep their contents. -/
def Obligations.ArrayInstructionsCompute : Prop :=
  (∀ (s : State) (t : Iss) (o : MacOps) (bytes : List Nat) (ph pos src ptr off slice : Nat) (inc : Bool), s.quiet t.tile →
     let p := t.tile
     let x := s.tile p
     let lane := fun (u : Nat) => mget zeroLane (x.bankOf x.active) u
     let here := fun (c : Instr) => s.spells c p = true
     let d := fun (u : Nat) => dot o.k4 o.xSigned o.wSigned o.zx bytes (lane u)
     (here (.xld t src ptr inc slice off) → s.ready t 3 → 1 ≤ src → s.sourceBytes p src ptr off slice = some bytes →
       ∃ u, exec (.xld t src ptr inc slice off) s = .next u ∧
       let y := (u.run p 0).tile p
       onlyTileNet s (u.run p 0) p ∧ { u.net with read := s.net.read } = s.net ∧ u.net.read = readsOf p src ++ s.net.read ∧
         y.x = bytes ∧ y.preg ptr = (if src = 1 ∧ inc then (x.preg ptr + 32) % 2 ^ 25 else x.preg ptr) ∧
         (∀ r, r ≠ ptr → y.preg r = x.preg r) ∧ y.s = x.s ∧ y.a = x.a ∧ y.w0 = x.w0 ∧ y.w1 = x.w1) ∧
     (here (.wswp t) → s.ready t 0 → (x.fillBank ≠ 1 - x.active ∨ x.fillDone ≤ s.clk) → ∃ u, exec (.wswp t) s = .next u ∧
       let y := (u.run p 0).tile p
       onlyTile s (u.run p 0) p ∧ y.active = 1 - x.active ∧ y.w0 = x.w0 ∧ y.w1 = x.w1 ∧ y.x = x.x ∧ y.a = x.a) ∧
     (s.ready t 1 → s.sourceBytes p o.src o.ptr 0 o.slice = some bytes →
       (here (.cmac t o ph pos) → ∃ u, exec (.cmac t o ph pos) s = .next u ∧
         let y := (u.run p 4).tile p
         onlyTileNet s (u.run p 4) p ∧ u.net.read = readsOf p o.src ++ s.net.read ∧
           (∀ k, k < 1024 → mget 0 (y.file o.dest).vals k = d k) ∧ (y.file o.dest).exp = 0 ∧
           (y.file o.dest).tag = x.sreg ph % 16 * 4096 + pos % 4096 ∧ (∀ f, f ≠ o.dest → y.file f = x.file f) ∧
           (o.src ≠ 0 → y.x = bytes) ∧ y.w0 = x.w0 ∧ y.w1 = x.w1 ∧ y.s = x.s) ∧
       (here (.mac t o) → ∃ u, exec (.mac t o) s = .next u ∧
         let y := (u.run p 4).tile p
         (∀ k, k < 1024 → mget 0 (y.file o.dest).vals k =
           if d k = 0 then mget 0 (x.file o.dest).vals k
           else sat (mget 0 (x.file o.dest).vals k + d k) (-(2 ^ 31)) (2 ^ 31 - 1)) ∧
           (y.file o.dest).exp = (x.file o.dest).exp ∧ (y.file o.dest).tag = (x.file o.dest).tag ∧
           (∀ f, f ≠ o.dest → y.file f = x.file f) ∧ ((u.run p 3).tile p).a = x.a ∧ y.s = x.s))) ∧
  (∀ (s : State) (t : Iss) (ptr lb cm zw : Nat) (z : Bool), s.ready t 2 → s.quiet t.tile →
     let p := t.tile
     let x := s.tile p
     let base := x.preg ptr
     let n := 32 * (cm + 1)
     let c := cm + 1 + (if z then 1 else 0)
     s.spells (.wld t ptr lb cm z zw) p = true → s.alloc p [(base, 32 * n + (if z then n else 0), false)] = none →
     ∃ u, exec (.wld t ptr lb cm z zw) s = .next u ∧
       let y := (u.run p c).tile p
       onlyTile s (u.run p c) p ∧ (u.tile p).fillDone = s.clk + c ∧ (u.tile p).fillBank = 1 - x.active ∧
         (u.tile p).fill.free = s.clk + c ∧ y.active = x.active ∧ y.bankOf x.active = x.bankOf x.active ∧
         (∀ i, i < n → mget zeroLane (y.bankOf (1 - x.active)) (32 * lb + i) =
           { codes := s.sram p (base + 32 * i) 32
             zw := if z then (readByte s.mem (sramBase p + base + 32 * n + i)).toNat else zw }) ∧
         (∀ k, k < 32 * lb ∨ 32 * lb + n ≤ k →
           mget zeroLane (y.bankOf (1 - x.active)) k = mget zeroLane (x.bankOf (1 - x.active)) k) ∧
         ((u.run p (c - 1)).tile p).bankOf (1 - x.active) = x.bankOf (1 - x.active))

/-- R207, R218 to R228: what each post instruction occupies and plans in its issue clk once its checks pass, where the tile's word
spells it (R35, R253). The occupancy is that
of the post timing table; the acts are the reads of the table's clk, with everything the instruction captures in clk t. R133,
R134, R136: the results of BIAS, SCAN and LUT, and of LTLD, in the clk of R218: BIAS adds its row with saturation, SCAN finds the
largest magnitude, LUT maps every code of its row. -/
def Obligations.PostInstructionsIssueAndCompute : Prop :=
  (∀ (s : State) (t : Iss) (file nM ptr sd buf kM frac table src dst ns fmt zp fi fo : Nat) (e : Int) (o : SbopnOps), s.ready t 4 →
     let p := t.tile
     let x := s.tile p
     let n := 32 * (nM + 1)
     let m := 32 * (ns + 1)
     let q := (n + 63) / 64
     let tag := x.sreg o.phaseReg % 16 * 4096 + o.position % 4096
     let here := fun (c : Instr) => s.spells c p = true
     let ctx : Nat × Nat × Act := (1, 0, .sbCtx o.buf o.src o.target o.h o.layer)
     (here (.bias t file nM ptr) → s.alloc p [(x.preg ptr, 4 * n, false)] = none →
       exec (.bias t file nM ptr) s = .next (s.issued t 4 q [(1, 0, .rdBias file n (x.preg ptr) 0)])) ∧
     (here (.scan t file nM sd) → exec (.scan t file nM sd) s = .next (s.issued t 4 q [(1, 0, .rdScan file n sd 0 0)])) ∧
     (here (.sbtrk t buf ptr e kM frac) →
       exec (.sbtrk t buf ptr e kM frac) s = .next (s.issued t 4 1 [(1, 0, .sbTrack buf (x.preg ptr) e (kM + 1) frac)])) ∧
     (here (.sbopn t o) → o.src = 0 → exec (.sbopn t o) s = .next
       (s.issued t 4 4 [ctx, (1, 3, .sbOpen o.buf tag (o.countM + 1) none false [])])) ∧
     (here (.sbopn t o) → o.src ≠ 0 →
       s.alloc p ((List.range (o.countM + 1)).map (fun i => ((x.sb o.buf).tbase + 4 * ((o.position + i) % 4096), 4, false))) = none →
       exec (.sbopn t o) s = .next (s.issued t 4 4 [ctx, (1, 2, .rdOpen o.buf tag (o.countM + 1))])) ∧
     (here (.ltld t table ptr) → s.alloc p [(x.preg ptr, 256, false)] = none →
       exec (.ltld t table ptr) s = .next (s.issued t 4 2 [(1, 1, .table table (s.sram p (x.preg ptr) 256))])) ∧
     (here (.lut t src dst nM table fi fo) →
       s.alloc p [(x.preg src, rowBytes fi n, false), (x.preg dst, rowBytes fo n, true)] = none →
       exec (.lut t src dst nM table fi fo) s =
         .next (s.issued t 4 q [(1, 0, .rdLut (x.preg src) (x.preg dst) n table fi fo 0)])) ∧
     (here (.gath t src ptr dst nM ns fmt zp) →
       s.alloc p [(x.preg src, rowBytes fmt m, false), (x.preg ptr, 2 * n, false), (x.preg dst, rowBytes fmt n, true)] = none →
       exec (.gath t src ptr dst nM ns fmt zp) s =
         .next (s.issued t 4 ((m + 63) / 64 + q)
           [(1, 0, .rdGath (x.preg src) (x.preg ptr) (x.preg dst) n m fmt zp 0 [])]))) ∧
  (∀ (s : State) (t : Iss) (file nM ptr sd table dst : Nat), s.ready t 4 → s.quiet t.tile →
     let p := t.tile
     let x := s.tile p
     let n := 32 * (nM + 1)
     let q := (n + 63) / 64
     let here := fun (c : Instr) => s.spells c p = true
     let lane := fun (f k : Nat) => mget 0 (x.file f).vals k
     let byte := fun (a : Nat) => readByte s.mem (sramBase p + a)
     (here (.bias t file nM ptr) → s.alloc p [(x.preg ptr, 4 * n, false)] = none → ∃ u, exec (.bias t file nM ptr) s = .next u ∧
       let y := (u.run p (q + 1)).tile p
       let b := fun (k : Nat) => (byte (x.preg ptr + 4 * k + 3) ++ byte (x.preg ptr + 4 * k + 2) ++
         byte (x.preg ptr + 4 * k + 1) ++ byte (x.preg ptr + 4 * k)).toInt
       (∀ k, k < n → mget 0 (y.file file).vals k = sat (lane file k + b k) (-(2 ^ 31)) (2 ^ 31 - 1)) ∧
         (∀ k, n ≤ k → mget 0 (y.file file).vals k = lane file k) ∧ (∀ f, f ≠ file → y.file f = x.file f) ∧
         (y.file file).exp = (x.file file).exp ∧ (y.file file).tag = (x.file file).tag ∧ y.s = x.s) ∧
     (here (.scan t file nM sd) → ∃ u, exec (.scan t file nM sd) s = .next u ∧
       let y := (u.run p (q + 1)).tile p
       onlyTile s (u.run p (q + 1)) p ∧ y.a = x.a ∧
         (sd ≠ 0 → (∀ k, k < n → (lane file k).natAbs ≤ 2 ^ 31) →
           (∀ k, k < n → (lane file k).natAbs ≤ y.sreg sd) ∧ ∃ k, k < n ∧ (lane file k).natAbs = y.sreg sd)) ∧
     (here (.ltld t table ptr) → s.alloc p [(x.preg ptr, 256, false)] = none → ∃ u, exec (.ltld t table ptr) s = .next u ∧
       let y := (u.run p 1).tile p
       onlyTile s (u.run p 1) p ∧ (∀ i, i < 256 → y.lut table i = (byte (x.preg ptr + i)).toNat) ∧ y.a = x.a ∧ y.s = x.s) ∧
     (s.alloc p [(x.preg ptr, n, false), (x.preg dst, n, true)] = none → ∀ fi fo, fi < 2 → fo < 2 →
       here (.lut t ptr dst nM table fi fo) →
       ∃ u, exec (.lut t ptr dst nM table fi fo) s = .next u ∧
         (x.preg ptr + n ≤ x.preg dst ∨ x.preg dst + n ≤ x.preg ptr →
           stores s.mem (u.run p (q + 1)).mem (sramBase p + x.preg dst)
             ((List.range n).map (fun k => BitVec.ofNat 8 (x.lut table (byte (x.preg ptr + k)).toNat))))))

/-- R223, R224, R226, R227, where the tile's word spells the instruction (R35, R253): RQ, AADD and AMAX check their scale entries
first and raise the scale-lane fault of the first check that fails. Otherwise RQ stores the codes of its row in the clk of R218, made
with the scale of its row, looked up where lut_en is 1, and the entry of that scale in its slot; AADD and AMAX write the sum or the
larger of their aligned terms, saturated, with the common exponent and the tag of the first operand. `c` is what RQ captures: R147's
factor is (256 + m_in)(256 + m_k) with exponent e_in + e_k. The clk of a fused lookup and of the read of acc_exp are the model's
choice (log entry 71). -/
def Obligations.ScaledRowsCompute : Prop :=
  ∀ (s : State) (t : Iss) (o : RqOps) (dest nM : Nat) (ox oy : AlnOp), s.ready t 4 →
    let p := t.tile
    let x := s.tile p
    let b := x.sb o.dbuf
    let other := x.sb (1 - o.dbuf)
    let n := 32 * (o.nM + 1)
    let q := (n + 63) / 64
    let occ := if b.src = 0 then 2 * q + 3 else q
    let fits := fun (acc : List (Nat × Nat × Bool)) => s.alloc p acc = none
    let m := 32 * (nM + 1)
    let qa := (m + 63) / 64
    (s.spells (.rq t o) p = true →
      let bad := fun (cause buf slot want found : Nat) =>
        exec (.rq t o) s = .next ((s.issued t 4 occ []).scaleFault p (s.wordAt p) cause buf slot want found)
      let opened := o.dslot < b.count ∧ b.tagOf o.dslot = (x.file o.file).tag
      (b.count ≤ o.dslot → bad 3 o.dbuf o.dslot 0 0) ∧
      (o.dslot < b.count → b.tagOf o.dslot ≠ (x.file o.file).tag → bad 1 o.dbuf o.dslot (b.tagOf o.dslot) (x.file o.file).tag) ∧
      (opened → o.inUnit = false → other.count ≤ o.inSlot → bad 3 (1 - o.dbuf) o.inSlot 0 0) ∧
      (opened → o.inUnit = false → o.inSlot < other.count → other.has o.inSlot = false → bad 4 (1 - o.dbuf) o.inSlot 0 0) ∧
      (opened → s.quiet p → ∀ (mIn : Nat) (eIn : Int),
        ((o.inUnit = true ∧ mIn = 0 ∧ eIn = 0) ∨ (o.inUnit = false ∧ o.inSlot < other.count ∧ other.has o.inSlot = true ∧
          mIn = (other.ent o.inSlot).mant ∧ eIn = other.expOf o.inSlot)) →
        let c := x.rqCap o mIn eIn
        fits ([(x.preg o.ptr, rowBytes o.fmt n, true)] ++ (if b.src = 1 ∧ x.fvoid = false then [(c.taddr, 4, true)] else [])) →
        ∃ u, exec (.rq t o) s = .next u ∧ (u.tile p).pipe.free = s.clk + occ ∧
          c.fmul = (256 + mIn) * (256 + o.mK) ∧ c.fexp = eIn + o.eK ∧ c.taddr = b.ctx.1 + 4 * (b.tagOf o.dslot % 4096) ∧
          (c.track = true ↔ b.src = 1 ∧ x.fvoid = false) ∧
          let row := (x.file o.file).lanes 0 n
          let top := maxMag row
          let r := rowScale c (if b.src = 0 then top else 1)
          let zero := decide (b.src = 0) && r.ent.zero
          let raw := row.map (fun a => unsignedOf (fmtBits o.fmt) (requantise a (x.file o.file).exp r.mA r.eA zero o.fmt o.zp).1)
          let codes := if o.lutEn then raw.map (lookup (x.lut o.lut) (fmtK4 o.fmt)) else raw
          let v := u.run p ((if b.src = 0 then 2 * q + 6 else q + 3) + (if o.lutEn then 1 else 0))
          (c.track = false → stores s.mem v.mem (sramBase p + x.preg o.ptr) ((packCodes o.fmt codes).map (BitVec.ofNat 8))) ∧
          (c.track = true → c.taddr + 4 ≤ x.preg o.ptr ∨ x.preg o.ptr + rowBytes o.fmt n ≤ c.taddr →
            readBytes v.mem (sramBase p + c.taddr) 4 = leBytes 4 (trackerUpdate c top)) ∧
          ((v.tile p).sb o.dbuf).ent o.dslot = (rqEntry c top).1.ent ∧ ((v.tile p).sb o.dbuf).has o.dslot = true ∧
          (v.tile p).a = x.a ∧ (v.tile p).s = x.s ∧ (v.tile p).p = x.p)) ∧
    (∀ mx : Bool,
      let cmd : Instr := if mx then .amax t dest nM ox oy else .aadd t dest nM ox oy
      let bad := fun (cause : Nat) (z : AlnOp) =>
        exec cmd s = .next ((s.issued t 4 qa []).scaleFault p (s.wordAt p) cause z.buf z.slot 0 0)
      let cx := x.alnCap ox
      let cy := x.alnCap oy
      let e := alignExp cx cy
      s.spells cmd p = true →
      (x.alnFault ox = none → x.alnFault oy = none → s.quiet p →
        fits (([ox, oy].filter (fun z => z.row)).map (fun z => (x.preg z.ptr, rowBytes z.fmt m, false))) →
        ∃ u, exec cmd s = .next u ∧ (u.tile p).pipe.free = s.clk + qa ∧
          let y := (u.run p (qa + 2)).tile p
          let term := fun (z : AlnCap) (k : Nat) => alignTerm z ((s.alnVals p z 0 m).getD k 0) e
          (∀ k, k < m → mget 0 (y.file dest).vals k =
            sat (if mx then max (term cx k) (term cy k) else term cx k + term cy k) (-(2 ^ 31)) (2 ^ 31 - 1)) ∧
          (∀ k, m ≤ k → mget 0 (y.file dest).vals k = mget 0 (x.file dest).vals k) ∧
          (y.file dest).exp = e ∧ (y.file dest).tag = x.alnTag ox ∧ (∀ f, f ≠ dest → y.file f = x.file f) ∧
          (u.run p (qa + 2)).mem = s.mem ∧ y.s = x.s ∧ y.p = x.p) ∧
      (ox.row = true → (x.sb ox.buf).count ≤ ox.slot → bad 3 ox) ∧
      (ox.row = true → ox.slot < (x.sb ox.buf).count → (x.sb ox.buf).has ox.slot = false → bad 4 ox) ∧
      (x.alnFault ox = none → oy.row = true → (x.sb oy.buf).count ≤ oy.slot → bad 3 oy) ∧
      (x.alnFault ox = none → oy.row = true → oy.slot < (x.sb oy.buf).count → (x.sb oy.buf).has oy.slot = false → bad 4 oy))

/-- Where the tile's word spells the instruction (R35, R253): R238, R239: RRCV, SRCV and TRCV store the word of their input
register in clk t + 1, RSND, TSND and TDI put SRAM bytes on
their output in clk t, and post-increment moves the pointer. The rafter send is stated for a tile that has the neighbour. R240 to
R243: SLLD and SLRCV load a scale block whose header passes its checks, SLST and SLSND write out a block all of whose slots are
written, in the clk of R243. A failed check raises its scale-lane fault and nothing is written. -/
def Obligations.MoverMovesWordsAndScaleBlocks : Prop :=
  (∀ (s : State) (t : Iss) (dir ptr lenM sd pd : Nat) (inc : Bool) (w : Token), s.ready t 3 → s.quiet t.tile →
     let p := t.tile
     let x := s.tile p
     let a := x.preg ptr
     let len := 64 * (lenM + 1)
     let here := fun (c : Instr) => s.spells c p = true
     let rk := if dir = 0 then regKey p 6 else regKey p 7
     let bytesOf := fun (n v : Nat) => (List.range n).map (fun i => BitVec.ofNat 8 (v / 2 ^ (8 * i)))
     let moved := fun (n : Nat) (y : Tile) => y.preg ptr = (if inc then (a + n) % 2 ^ 25 else a) ∧
       ∀ r, r ≠ ptr → y.preg r = x.preg r
     let reads := fun (k : Nat) (u : State) => u.net.read = k :: s.net.read ∧ { u.net with read := s.net.read } = s.net
     (s.reg rk = some w → s.alloc p [(a, len, true)] = none →
       (here (.rrcv t dir ptr lenM inc) → ∃ u, exec (.rrcv t dir ptr lenM inc) s = .next u ∧ reads rk u ∧
         stores s.mem (u.run p 1).mem (sramBase p + a) (bytesOf len w.word) ∧ moved len ((u.run p 1).tile p) ∧
         ((u.run p 1).tile p).s = x.s) ∧
       (here (.srcv t dir ptr lenM inc false sd pd) → ∃ u, exec (.srcv t dir ptr lenM inc false sd pd) s = .next u ∧ reads rk u ∧
         stores s.mem (u.run p 1).mem (sramBase p + a) (bytesOf len w.word) ∧ moved len ((u.run p 1).tile p) ∧
         ((u.run p 1).tile p).s = x.s) ∧
       (∀ g, here (.srcv t dir ptr lenM inc true sd pd) → w.tag = some g →
         ∃ u, exec (.srcv t dir ptr lenM inc true sd pd) s = .next u ∧ reads rk u ∧
         stores s.mem (u.run p 1).mem (sramBase p + a) (bytesOf len w.word) ∧ moved len ((u.run p 1).tile p) ∧
         ((u.run p 1).tile p).sreg sd = (if sd = 0 then 0 else g % 2 ^ 32) ∧
         ((u.run p 1).tile p).flag pd = (if pd = 0 then true else g / 2 ^ 48 % 2 == 1))) ∧
     (here (.srcv t dir ptr lenM inc true sd pd) → s.reg rk = some w → w.tag = none → exec (.srcv t dir ptr lenM inc true sd pd) s =
       .next (((s.issued t 3 1 []).markRead rk).tileFault 6 8 p (s.wordAt p) 0)) ∧
     (here (.trcv t ptr inc) → s.reg (regKey p 5) = some w → s.alloc p [(a, 64, true)] = none →
       ∃ u, exec (.trcv t ptr inc) s = .next u ∧ reads (regKey p 5) u ∧
         stores s.mem (u.run p 1).mem (sramBase p + a) (bytesOf 64 w.word) ∧ moved 64 ((u.run p 1).tile p)) ∧
     (here (.rrcv t dir ptr lenM inc) → s.reg rk = none → exec (.rrcv t dir ptr lenM inc) s =
       .next ((s.issued t 3 1 []).emptyReceive p (s.wordAt p) (if dir = 0 then 5 else 4))) ∧
     (s.alloc p [(a, 64, false)] = none → ∀ (kind : Nat) (c : Instr),
       ((kind = 0 ∧ c = .tsnd t ptr inc) ∨ (kind = 1 ∧ c = .tdi t ptr inc)) → here c →
       ∃ u, exec c s = .next u ∧ onlyTileNet s (u.run p 0) p ∧ moved 64 ((u.run p 0).tile p) ∧
         (u.run p 0).net.flights = s.net.flights ++ [⟨regKey p 4, s.clk + 1, ⟨leNat (s.sram p a 64), kind, none⟩, none, p, true⟩]) ∧
     (s.alloc p [(a, len, false)] = none → ∀ rt, here (.rsnd t dir ptr lenM inc) → s.rafterTo p (dir == 1) = some rt →
       ∃ u, exec (.rsnd t dir ptr lenM inc) s = .next u ∧ onlyTileNet s (u.run p 0) p ∧ moved len ((u.run p 0).tile p) ∧
         (u.run p 0).net.flights = s.net.flights ++ [⟨rt, s.clk + 3, ⟨leNat (s.sram p a len), 0, none⟩,
           some (if dir = 1 then 4 else 5), p, false⟩])) ∧
  (∀ (s : State) (t : Iss) (buf ptr ph pos port : Nat) (w : Token), s.ready t 3 → s.quiet t.tile → buf < 2 →
     let p := t.tile
     let x := s.tile p
     let a := x.preg ptr
     let here := fun (c : Instr) => s.spells c p = true
     let want := x.sreg ph % 16 * 4096 + pos % 4096
     let loaded := fun (h : Nat) (y : Tile) => (y.sb buf).count = h / 2 ^ 24 % 64 ∧ (y.sb buf).tag = want ∧
       (y.sb buf).bexp = some ((BitVec.ofNat 6 h).toInt) ∧ (y.sb buf).clamped = (h / 2 ^ 30 % 2 == 1) ∧
       (∀ i, i < (y.sb buf).count → (y.sb buf).has i = true) ∧ y.sb (1 - buf) = x.sb (1 - buf) ∧
       (y.sb buf).src = (x.sb buf).src ∧ (y.sb buf).tbase = (x.sb buf).tbase ∧ y.a = x.a ∧ y.s = x.s
     let good := fun (h : Nat) => 1 ≤ h / 2 ^ 24 % 64 ∧ h / 2 ^ 24 % 64 ≤ 32 ∧ h / 2 ^ 8 % 2 ^ 16 = want
     let rk := if port = 0 then regKey p 6 else regKey p 7
     (here (.slld t buf ptr ph pos) → s.alloc p [(a, 68, false)] = none →
       let h := leNat (s.sram p a 4)
       (good h → ∃ u, exec (.slld t buf ptr ph pos) s = .next u ∧ loaded h ((u.run p 1).tile p) ∧ onlyTile s (u.run p 1) p) ∧
       (h / 2 ^ 24 % 64 = 0 ∨ 32 < h / 2 ^ 24 % 64 → exec (.slld t buf ptr ph pos) s =
         .next ((s.issued t 3 1 []).scaleFault p (s.wordAt p) 5 buf 0 0 0)) ∧
       (1 ≤ h / 2 ^ 24 % 64 → h / 2 ^ 24 % 64 ≤ 32 → h / 2 ^ 8 % 2 ^ 16 ≠ want → exec (.slld t buf ptr ph pos) s =
         .next ((s.issued t 3 1 []).scaleFault p (s.wordAt p) 2 buf 0 want (h / 2 ^ 8 % 2 ^ 16)))) ∧
     (here (.slrcv t buf port ph pos) → port < 2 → s.reg rk = some w → good w.word → ∃ u, exec (.slrcv t buf port ph pos) s = .next u ∧
       u.net.read = rk :: s.net.read ∧ loaded w.word ((u.run p 1).tile p)) ∧
     (here (.slrcv t buf 2 ph pos) → s.reg (regKey p 5) = some w → good w.word → exec (.slrcv t buf 2 ph pos) s =
       .next (State.markRead (s.issued t 3 2 [(2, 1, .rdTide2 buf (leBytes 64 w.word))]) (regKey p 5))) ∧
     ((x.sb buf).unwritten = none →
       (here (.slst t buf ptr) → s.alloc p [(a, 68, true)] = none →
         ∃ u, exec (.slst t buf ptr) s = .next u ∧ onlyTileMem s (u.run p 1) p ∧
         stores s.mem (u.run p 1).mem (sramBase p + a) ((x.sb buf).image.map (BitVec.ofNat 8)) ∧
         ((u.run p 1).tile p).s = x.s ∧ ((u.run p 1).tile p).sb buf = x.sb buf) ∧
       (here (.slsnd t buf 2) → exec (.slsnd t buf 2) s = .next (s.issued t 3 2 [(2, 0, .tide (leNat ((x.sb buf).image.take 64)) 0),
         (2, 1, .tide (leNat ((x.sb buf).image.drop 64)) 0)])) ∧
       (here (.slsnd t buf port) → port < 2 → exec (.slsnd t buf port) s = .next (s.issued t 3 1 [(2, 0, .rafter (port == 1) (leNat (x.sb buf).image))]))) ∧
     (∀ i, here (.slst t buf ptr) → (x.sb buf).unwritten = some i → exec (.slst t buf ptr) s =
         .next ((s.issued t 3 1 []).scaleFault p (s.wordAt p) 4 buf i 0 0)))

/-- R173, R179: in the clk of its slot every router sends, on each output, the word of the input that its table entry names, to
every output that names it; the tokens due in the clk enter their registers first. Stated where no crossing due is incomplete and
every input that holds a word is named (R181, R185 fault otherwise). R180: in a reserved slot the background words move first, in the
free directions of log entry 44. -/
def Obligations.RoutersForwardBySlotTable : Prop :=
  ∀ s : State, s.gridRuns = true → s.net.lastSlot ≠ some s.clk →
    let b := if s.slotAt s.clk % 64 = 63 then s.moveBg else s
    let due := b.net.flights.filter (fun f => f.due == b.clk)
    let v : State := { b with net := { b.net with
      lastSlot := some b.clk
      captured := b.net.captured.filter (fun x => decide (b.clk < x.2.2))
      flights := b.net.flights.filter (fun f => f.due != b.clk)
      regs := due.foldl (fun m f => mset none m f.reg (some f.tok)) b.net.regs } }
    let j := b.slotAt b.clk
    (∀ f ∈ due, f.cross = none ∨ f.done = true) →
    (∀ p ∈ b.placedTiles, ∀ k, k < 5 → v.reg (regKey p k) ≠ none →
      ∃ o, o < 5 ∧ mget 0 b.net.tide (65536 * p + j) / 2 ^ (3 * o) % 8 = k + 1) →
    exec .tideSlot s = .next { v with net := { v.net with
      flights := v.net.flights ++ b.placedTiles.flatMap (fun p => (List.range 5).filterMap (fun o => v.sends j p o)) } }

/-- R181, R185, R186: a word in an input that no output names is a tide fault with cause collision at its tile, and a token whose
crossing is not complete in its clk has slipped; in both the island's sticky flag is set. R185, R187: when a crossing completes
before the edge of its clk, its token waits in the ring, where its entry is free, and the margin is counted in the bin of its class
and lowers min_margin; one at or above the warning threshold raises nothing more, and one below counts, sets margin_warn_seen and
sends the island's report, a background word (R188), on which the harbourmaster writes a margin record and sends an EMCY message. A
link that carries no word is measured by its empty token, which holds a ring entry too, and class 7, the score deliveries, at the
ridge island (126). A completion that comes with or after that edge is a slip of the empty token or of the delivery (log entry 45).
The port number in a collision's detail is the model's choice (log entry 72). The route of the report is log entry 44. -/
def Obligations.CrossingsAreMeasuredOrFault : Prop :=
  (∀ (s : State) (p j k : Nat) (w : Token) (f : Flight) (c : Nat), p < 104 →
     let e := mget 0 s.net.tide (65536 * p + j)
     (s.reg (regKey p k) = some w → k < 5 → (∀ o, o < 5 → e / 2 ^ (3 * o) % 8 ≠ k + 1) →
       s.collide p e k = (s.setFlag (key (0x2610 + p) 1) tstat_collision_seen true).fault
         { family := 1, cause := 1, loc := 2 ^ 12 + p, vrow := s.vrow p, vcol := s.vcol p, detail := k }) ∧
     (f.cross = some c → f.done = false → f.reg = regKey p k → k < 16 →
       s.arrive f = (s.setFlag (key (0x2610 + p) 1) tstat_slip_seen true).fault
         { family := 1, cause := 3, loc := 2 ^ 12 + p, island := f.sender, vrow := s.vrow p, vcol := s.vcol p, detail := c })) ∧
  (∀ (s : State) (isl cls due margin src : Nat), isl < 127 → cls < 8 →
     let m := min margin 255
     let x := timingIdx isl
     let b : Fld := { lo := 32 * min 15 (m / 4), w := 32, acc := .ro }
     let counted := fun (u : State) =>
       u.fld (key x (16 + cls)) b = min (s.fld (key x (16 + cls)) b + 1) (2 ^ 32 - 1) ∧
         u.fld (key x 1) tstat_min_margin = min (s.fld (key x 1) tstat_min_margin) m ∧
         (∀ k, k ≠ key x (16 + cls) → k ≠ key x 1 → u.ent k = s.ent k)
     let complete : Instr := .crossingComplete isl ⟨cls, src⟩ due margin
     let noWord := ∀ g ∈ s.net.flights, g.crossing isl cls src due = false
     (∀ k, m < s.fld (key 0x2600 2) mctl_margin_warn →
       (s.margin isl cls margin k).fld (key x 1) tstat_margin_warns = s.oneMore (key x 1) tstat_margin_warns ∧
       (s.margin isl cls margin k).flag (key x 1) tstat_margin_warn_seen = true ∧
       (s.margin isl cls margin k).net = { s.net with
         bg := mset [] s.net.bg isl (mget [] s.net.bg isl ++ [k + 2 ^ 16 * cls + 2 ^ 24 * m + 2 ^ 32 * isl]) }) ∧
     (∀ k, k < 127 → s.flag (key 0x2600 2) mctl_retire_on_warn = false →
       s.warned (k + 2 ^ 16 * cls + 2 ^ 24 * m + 2 ^ 32 * isl) =
         (s.record 10 (k + 2 ^ 16 * cls) (m + 2 ^ 16 * isl)).emcy 4 (k + 2 ^ 8 * cls + 2 ^ 16 * m)) ∧
     (s.fld (key 0x2600 2) mctl_margin_warn ≤ m →
     (s.clk < due →
       (∀ (l r : List Flight) (f : Flight), s.net.flights = l ++ f :: r → (∀ g ∈ l, g.crossing isl cls src due = false) →
         f.crossing isl cls src due = true →
         (s.ringFree f = true → ∃ u, exec complete s = .next u ∧ counted u ∧
           u.net = { s.net with flights := l ++ { f with done := true } :: r } ∧ { u with net := s.net, dict := s.dict } = s) ∧
         (s.ringFree f = false → exec complete s = .next s)) ∧
       (∀ k, cls < 7 → noWord → s.crossSender isl cls src = some k → s.entryFree (s.crossReg isl cls k) cls k due = true →
         s.emptyDue isl cls k due = true → ∃ u, exec complete s = .next u ∧ counted u ∧
           u.net = { s.net with captured := s.net.captured ++ [(s.crossReg isl cls k, cls, due)] } ∧
           { u with net := s.net, dict := s.dict } = s) ∧
       (cls = 7 → isl = 126 → noWord → src < 104 → s.placed src = true → s.entryFree (s.crossReg isl cls src) cls src due = true →
         ∀ (l r : List MarkRec) (f : MarkRec), s.dec.marks = l ++ f :: r → (∀ g ∈ l, g.crossing src due = false) →
           f.crossing src due = true → ∃ u, exec complete s = .next u ∧ counted u ∧
             u.dec = { s.dec with marks := l ++ { f with crossed := true } :: r } ∧ { u with dec := s.dec, dict := s.dict } = s)) ∧
     (due ≤ s.clk → s.gridRuns = true → noWord → ∀ k, s.crossSender isl cls src = some k → s.slipTold isl cls k = false →
       (s.crossReg isl cls k, cls, due) ∉ s.net.captured → exec complete s = .next
       (if cls = 7 then s.ridgeSlip k else s.slipAt (s.crossReg isl cls k) k cls)) ∧
     (noWord → s.crossSender isl cls src = none → exec complete s = .next s)))

/-- R265, R266: an eaves port sends the head word of the queue its entry names, which reaches the edge router 8 clk later; of the
words that come in, a descriptor waits for its die's intake, a plain word joins the queue the entry names; with no queue it is a
collision and with a full one an inq_overflow. -/
def Obligations.EavesPortsMoveWords : Prop :=
  ∀ (s : State) (k : Nat) (w : Token) (ws : List Token), eavesOk s.grade k = true →
    let e := mget 0 s.net.eaves (65536 * k + s.slotAt s.clk)
    let t := s.eavesTarget k
    let taken : Net := { s.net with regs := mset none s.net.regs (16 * (104 + k)) none }
    let joined := fun (q : Nat) (x : Token) => Host.Outcome.next (ρ := Refusal) (φ := Fault) { s with
      net := { taken with inq := mset [] s.net.inq (16 * k + q) (mget [] s.net.inq (16 * k + q) ++ [x]) } }
    (s.gridRuns = true → e % 16 ≠ 0 → mget [] s.net.outq (16 * k + e % 16) = w :: ws →
      (∀ f ∈ s.net.flights, ¬ (f.reg = t.1 ∧ f.due = s.clk + 8)) →
      exec (.eavesSlot k) s = .next { s with net := { s.net with
        outq := mset [] s.net.outq (16 * k + e % 16) ws
        flights := s.net.flights ++ [⟨t.1, s.clk + 8, w, some t.2, 124 + eavesDie k, false⟩] } }) ∧
    (s.reg (16 * (104 + k)) = some w →
      (w.side % 4 = 1 → exec (.eavesInboundWord k) s = joined 0 { w with tag := some s.clk }) ∧
      (∀ q, w.side % 4 ≠ 1 → w.side % 4 ≠ 2 → q = e / 16 % 16 → q ≠ 0 → q ≠ 15 → (mget [] s.net.inq (16 * k + q)).length < 32 →
        exec (.eavesInboundWord k) s = joined q w) ∧
      (w.side % 4 ≠ 1 → w.side % 4 ≠ 2 → e / 16 % 16 = 15 → (mget [] s.net.inq (16 * k + 15)).length < 32 →
        exec (.eavesInboundWord k) s = joined 15 { w with tag := some ((s.clk - s.job.s0) % 2 ^ 24) }) ∧
      (w.side % 4 = 2 ∨ (w.side % 4 ≠ 1 ∧ e / 16 % 16 = 0) → exec (.eavesInboundWord k) s =
        .next ((({ s with net := taken } : State).setFlag (key (0x26A0 + eavesDie k) 1) tstat_collision_seen true).fault
          { family := 1, cause := 1, loc := 2 ^ 12 * 9 + k })) ∧
      (w.side % 4 ≠ 1 → w.side % 4 ≠ 2 → e / 16 % 16 ≠ 0 → 32 ≤ (mget [] s.net.inq (16 * k + e / 16 % 16)).length →
        exec (.eavesInboundWord k) s = .next (({ s with net := taken } : State).fault
          { family := 5, cause := 7, loc := 2 ^ 12 * 9 + k })))

/-- R268, R271: a descriptor that passes every check joins its tender's queue with the next intake sequence number and counts in
outstanding; of those that reached the die in one clk the ports come first, by increasing number, then the capture logic, then the
harbourmaster, whose copies stand in a queue of their own but in the one intake sequence (R26, R267, log entry 75); one that fails
its checks faults the job when it came from the tiles and counts in refusals otherwise; with 2,048 outstanding, or with eaves
descriptors that fill it, the capture logic and the harbourmaster wait. Which failure is told of several, and the field checks, are
log entry 43; a tender under a block reset is log entry 65. -/
def Obligations.DescriptorsEnterIntake : Prop :=
  ∀ (s : State) (die source d : Nat), die < 2 → source < 3 → s.tenderFenced (d % 16) = false →
    let t := d % 16
    let k := key (0x27C0 + t) 1
    let x := s.tender t
    let new := fun (rank : Nat) => (⟨0, d, source, s.clk, rank, none, none⟩ : DescRec)
    let n := s.fld k tend_outstanding
    (∀ r : DescRec,
      let u := s.enterDesc t r
      let own := if r.source = 2 then t + 16 else t
      let other := if r.source = 2 then t else t + 16
      let first := fun (y : DescRec) => y.clk < r.clk ∨ (y.clk = r.clk ∧ y.rank ≤ r.rank)
      let then_ := fun (y : DescRec) => r.clk < y.clk ∨ (y.clk = r.clk ∧ r.rank < y.rank)
      let waits := fun (z : Tender) (l : List DescRec) => (z.i = 0 ∧ z.w = 0) ∨ l ≠ []
      (u.tender t).seq = (x.seq + 1) % 2 ^ 32 ∧ (∀ k, k = t ∨ k = t + 16 → (u.tender k).i = (s.tender k).i ∧ (u.tender k).w = (s.tender k).w) ∧
      ((∀ y ∈ (s.tender own).queue, first y) → (∀ y ∈ (s.tender other).queue, first y) →
        (u.tender own).queue = (s.tender own).queue ++ [{ r with seq := x.seq % 2 ^ 32 }] ∧ (u.tender other).queue = (s.tender other).queue) ∧
      (∀ (l : List DescRec) (y : DescRec), (∀ z ∈ l, first z) → then_ y →
        ((s.tender own).queue = l ++ [y] → waits (s.tender own) l → (∀ z ∈ (s.tender other).queue, first z) →
          (u.tender own).queue = l ++ [{ r with seq := (x.seq + 2 ^ 32 - 1) % 2 ^ 32 }, { y with seq := (y.seq + 1) % 2 ^ 32 }] ∧
          (u.tender other).queue = (s.tender other).queue) ∧
        ((s.tender other).queue = l ++ [y] → waits (s.tender other) l → (∀ z ∈ (s.tender own).queue, first z) →
          (u.tender own).queue = (s.tender own).queue ++ [{ r with seq := (x.seq + 2 ^ 32 - 1) % 2 ^ 32 }] ∧
          (u.tender other).queue = l ++ [{ y with seq := (y.seq + 1) % 2 ^ 32 }]))) ∧
    (source ≠ 0 → n + s.eavesWaiting t < 2048 → s.descFault die source d = none →
      exec (.descriptorIntake die source d) s = .next ((s.enterDesc t (new (39 + source))).setFld k tend_outstanding (n + 1))) ∧
    (source ≠ 0 → n + s.eavesWaiting t < 2048 → s.descFault die source d ≠ none → ∃ u, exec (.descriptorIntake die source d) s = .next u ∧
      onlyEntry s u k ∧ u.fld k tend_refusals = min (s.fld k tend_refusals + 1) (2 ^ tend_refusals.w - 1)) ∧
    (source ≠ 0 → 2048 ≤ n + s.eavesWaiting t → exec (.descriptorIntake die source d) s = .next s) ∧
    (source = 0 → ∀ p, s.waitingDesc die d = some p →
      let v : State := { s with net := { s.net with inq := mset [] s.net.inq (16 * p) ((mget [] s.net.inq (16 * p)).drop 1) } }
      (n < 2048 → s.descFault die 0 d = none →
        ∀ c, (mget [] s.net.inq (16 * p)).head?.map (fun w => w.tag) = some (some c) → exec (.descriptorIntake die source d) s =
          .next ((v.enterDesc t { new p with clk := c }).setFld k tend_outstanding (n + 1))) ∧
      (2048 ≤ n → exec (.descriptorIntake die source d) s = .next (v.tenderFault t 1 x.seq)) ∧
      (∀ c, n < 2048 → s.descFault die 0 d = some c → exec (.descriptorIntake die source d) s = .next (v.tenderFault t c x.seq)))

/-- R272: one word of a tender's first descriptor: read at src_addr + i src_stride + 64 w or from its inbound queue, written at
dst_addr + i dst_stride + 64 w or pushed as a tender_data word; it waits while its inbound queue is empty or its outbound queue is
full. HBM is byte for byte; DDR4 is too once it has been zeroed since power-on (R488). R275: an uncorrectable word, or a stack or
channel out of service, ends the copy failed, with a tender fault when a tile issued it. R288: a corrected bit counts at its stack
or channel. R26, R267: a tender moves at most one word in a clk, and 1 clk in 64, whose place is the model's choice (log entry 75),
is a management copy's, of which each tender keeps a queue of its own and which overtakes no earlier descriptor; a capture copy's
words move as it commits (log entry 77); a window card (R339) is the one word of its descriptor. -/
def Obligations.TendersCopyWordByWord : Prop :=
  ∀ (s : State) (t : Nat) (r : DescRec) (rs : List DescRec), t < 16 →
    let l := if s.reservedClk = true then t + 16 else t
    (s.tender l).queue = r :: rs →
    let x := s.tender l
    let d := r.word
    let sp := d / 2 ^ 4 % 8
    let dp := d / 2 ^ 7 % 8
    let sa := ((d / 2 ^ 16 % 2 ^ 40 : Nat) : Int) + x.i * (BitVec.ofNat 32 (d / 2 ^ 128)).toInt + 64 * x.w
    let da := ((d / 2 ^ 56 % 2 ^ 40 : Nat) : Int) + x.i * (BitVec.ofNat 32 (d / 2 ^ 160)).toInt + 64 * x.w
    let elem := d / 2 ^ 96 % 2 ^ 16
    let count := d / 2 ^ 112 % 2 ^ 16
    let at_ := fun (space : Nat) (a : Nat) => if space = 1 then hbmBase (t / 8) + a else ddrBase + a
    let unit := fun (space : Nat) (a : Nat) => if space = 1 then key (0x27A0 + 5 * (t / 8) + a / 1024 % 5) 1
      else key (0x27B0 + s.ddrChannels.getD (a / 4096 % max 1 s.ddrChannels.length) 0) 1
    let up := fun (space : Nat) (a : Int) => s.fld (unit space a.toNat) munit_in_service = 1
    let ok := fun (space : Nat) (a : Int) => (space = 1 ∨ (space = 2 ∧ s.rst.ddrZero = true)) ∧ up space a
    let down := fun (space : Nat) (a : Int) => (space = 1 ∨ space = 2) ∧ ¬ up space a
    let waits := fun (q : List Token) (out : List Token) => (sp = 4 ∧ q = []) ∨ (dp = 3 ∧ r.card = none ∧ 32 ≤ out.length)
    let qi := 16 * (d / 2 ^ 16 % 2 ^ 40 % 64) + d / 2 ^ 16 % 2 ^ 40 / 64 % 16
    let qo := 16 * (d / 2 ^ 208 % 64) + d / 2 ^ 214 % 16
    let past : Tender := if x.w < elem then { x with w := x.w + 1, last := some s.clk }
      else { x with w := 0, i := x.i + 1, last := some s.clk }
    let moves := x.last ≠ some s.clk ∧ r.frag = none ∧ (r.source = 2 → ∀ y ∈ (s.tender t).queue, seqBefore y.seq r.seq = false)
    let good := fun (c : Ecc) => c ≠ .bad ∧ s.readsBad (t / 8) sp sa.toNat = false
    let counts := fun (c : Ecc) (u : State) =>
      (∀ k, c ≠ .corrected ∨ sp = 4 ∨ k ≠ unit sp sa.toNat → u.ent k = s.ent k) ∧
        (c = .corrected → sp ≠ 4 → u.fld (unit sp sa.toNat) munit_corrected = s.oneMore (unit sp sa.toNat) munit_corrected)
    let out := mget [] s.net.outq qo
    (¬ moves → ∀ c, exec (.tenderWord t c) s = .next s) ∧
    (moves → x.i ≤ count → ∀ v, r.card = some v → ¬ waits (mget [] s.net.inq qi) out → ∀ c, ∃ u, exec (.tenderWord t c) s = .next u ∧
      u.tender l = past ∧ u.mem = s.mem ∧ u.dict = s.dict ∧
      ∃ f : Flight, u.net = { s.net with flights := s.net.flights ++ [f] } ∧ f.tok.word = v ∧ s.clk < f.due) ∧
    (moves → r.card = none → x.i ≤ count → 0 ≤ sa - 64 * x.w → 0 ≤ da - 64 * x.w →
    (ok sp sa → ok dp da → ∀ c, good c → ∃ u, exec (.tenderWord t c) s = .next u ∧ u.tender l = past ∧ u.net = s.net ∧ counts c u ∧
      stores s.mem u.mem (at_ dp da.toNat) ((List.range 64).map (fun b => readByte s.mem (at_ sp sa.toNat + b)))) ∧
    (ok sp sa → dp = 3 → out.length < 32 → ∀ c, good c → ∃ u side, exec (.tenderWord t c) s = .next u ∧ u.tender l = past ∧ u.mem = s.mem ∧
      counts c u ∧
      u.net = { s.net with outq := mset [] s.net.outq qo (out ++ [⟨leNat (readBytes s.mem (at_ sp sa.toNat) 64), side, some r.seq⟩]) } ∧
      side % 4 = 2 ∧ (side / 4 % 2 = 1 ↔ x.i = count ∧ x.w = elem)) ∧
    (sp = 4 → ok dp da → ∀ (w : Token) (ws : List Token), mget [] s.net.inq qi = w :: ws →
      ∀ c, c ≠ .bad → ∃ u, exec (.tenderWord t c) s = .next u ∧ u.tender l = past ∧ u.dict = s.dict ∧ u.net = { s.net with inq := mset [] s.net.inq qi ws } ∧
        stores s.mem u.mem (at_ dp da.toNat) ((List.range 64).map (fun b => BitVec.ofNat 8 (w.word / 2 ^ (8 * b))))) ∧
    (waits (mget [] s.net.inq qi) out → ∀ c, exec (.tenderWord t c) s = .next s) ∧
    (¬ waits (mget [] s.net.inq qi) out → ∀ c, c = Ecc.bad ∨ s.readsBad (t / 8) sp sa.toNat = true ∨ down sp sa ∨ down dp da →
      ∃ v : State, v.tender l = { x with queue := rs, i := 0, w := 0 } ∧ v.mem = s.mem ∧ v.net = s.net ∧
        v.fld (kTend t) tend_outstanding = s.fld (kTend t) tend_outstanding - 1 ∧
        exec (.tenderWord t c) s = .next (if r.source = 0 then v.tenderFault t 8 r.seq else v)))

/-- R272, R274: once every word of the first descriptor has moved, the copy completes: it leaves the queue and the outstanding
count, completed counts it, and a destination other than SRAM with cm_en queues its completion in the tree of its die; the first of
the tree sets its mark, one in a clk for each tree, which is seen from the next clk. R273: a tender word whose row lies in a region
with its tag and tw, outside the region's lock window in the next slot, is written in the next clk, and with last and cm_en its
completion mark is set in that clk; otherwise the tile raises region_tag or region_lock and writes nothing. The window card's word
and its free delay are log entry 49. -/
def Obligations.CopiesCompleteAndReachTheTile : Prop :=
  (∀ (s : State) (t : Nat) (r : DescRec) (rs : List DescRec), t < 16 → (s.tender t).queue = r :: rs →
     r.word / 2 ^ 112 % 2 ^ 16 < (s.tender t).i → r.frag = none →
     let k := key (0x27C0 + t) 1
     let e := (r.word / 2 ^ 224 % 16, r.word / 2 ^ 228 % 16, r.word / 2 ^ 218 % 32)
     let old := mget [] s.tend.compl (t / 8)
     (∃ u, exec (.tenderCopyDone t) s = .next u ∧ u.tender t = { s.tender t with queue := rs, i := 0, w := 0 } ∧
       u.fld k tend_outstanding = (s.fld k tend_outstanding - 1) % 2 ^ tend_outstanding.w ∧
       u.fld k tend_completed = min (s.fld k tend_completed + 1) (2 ^ tend_completed.w - 1) ∧
       (∀ j, j ≠ k → u.ent j = s.ent j) ∧ { u with dict := s.dict, tend := s.tend } = s ∧
       mget [] u.tend.compl (t / 8) =
         (if r.word / 2 ^ 7 % 8 ≠ 3 ∧ r.word / 2 ^ 223 % 2 = 1 then old ++ [e] else old)) ∧
     ∀ (die row col cm : Nat) (l : List (Nat × Nat × Nat)), die < 2 → mget [] s.tend.compl die = (row, col, cm) :: l → row < 8 →
       col < vcols s.grade → s.quiet (s.ptile row col) →
       (s.clk < mget 0 s.tend.complAt die → exec (.completionDelivery die) s = .next s) ∧
       (mget 0 s.tend.complAt die ≤ s.clk → ∃ u, exec (.completionDelivery die) s = .next u ∧
         u.tend = { s.tend with compl := mset [] s.tend.compl die l, complAt := mset 0 s.tend.complAt die (s.clk + 1) } ∧
         let p := s.ptile row col
         let y := (u.run p 0).tile p
         mget false y.cm cm = true ∧ (∀ c, c ≠ cm → mget false y.cm c = mget false (s.tile p).cm c) ∧ y.s = (s.tile p).s ∧
           y.p = (s.tile p).p ∧ y.a = (s.tile p).a ∧ (u.run p 0).mem = s.mem ∧ (u.run p 0).dict = s.dict)) ∧
  (∀ (s : State) (p : Nat) (w : Token), tileOk s.grade p = true → s.reg (regKey p 8) = some w → s.tileFenced p = true →
     exec (.tenderDataWord p) s = .next { s with net := { s.net with regs := mset none s.net.regs (regKey p 8) none } }) ∧
  (∀ (s : State) (p : Nat) (w : Token), tileOk s.grade p = true → s.reg (regKey p 8) = some w → s.tileFenced p = false →
     let row := w.side / 2 ^ 17 % 2 ^ 19
     let tag := w.side / 2 ^ 9 % 256
     let cm := w.side / 2 ^ 4 % 32
     let j := s.slotAt (s.clk + 1)
     let holds := fun (r : Nat) => reg_size.of r ≠ 0 ∧ reg_tag.of r = tag ∧ reg_base.of r ≤ row ∧ row < reg_base.of r + reg_size.of r
     let inWin := fun (r : Nat) => if reg_lock_first.of r ≤ reg_lock_last.of r then reg_lock_first.of r ≤ j ∧ j ≤ reg_lock_last.of r
       else reg_lock_first.of r ≤ j ∨ j ≤ reg_lock_last.of r
     let fails := fun (c : Nat) => ∃ v : State, { v with dict := s.dict } =
         ({ s with net := { s.net with regs := mset none s.net.regs (regKey p 8) none } } : State) ∧ v.fld (key (0x2700 + p) 1) tmem_tender_fault_seen = 1 ∧
       exec (.tenderDataWord p) s = .next (v.tileFault 5 c p 0x7FFF
         (w.side / 2 ^ 36 % 16 + 2 ^ 32 * (w.tag.getD 0 % 2 ^ 32) + 2 ^ 64 * row))
     (∀ i, i < 64 → holds (s.region p i) → (∀ k, k < i → ¬ holds (s.region p k)) → reg_tw.of (s.region p i) ≠ 0 → s.quiet p →
       (reg_lock_en.of (s.region p i) ≠ 1 ∨ ¬ inWin (s.region p i)) →
       ∃ u, exec (.tenderDataWord p) s = .next u ∧
         stores s.mem (u.run p 1).mem (sramBase p + 64 * row) ((List.range 64).map (fun b => BitVec.ofNat 8 (w.word / 2 ^ (8 * b)))) ∧
         (∀ c, mget false ((u.run p 1).tile p).cm c =
           if c = cm ∧ w.side / 4 % 2 = 1 ∧ w.side / 8 % 2 = 1 then true else mget false (s.tile p).cm c) ∧
         ((u.run p 1).tile p).s = (s.tile p).s ∧ ((u.run p 1).tile p).a = (s.tile p).a ∧ (u.run p 1).dict = s.dict) ∧
     (∀ i, i < 64 → holds (s.region p i) → (∀ k, k < i → ¬ holds (s.region p k)) → reg_tw.of (s.region p i) ≠ 0 →
       reg_lock_en.of (s.region p i) = 1 → inWin (s.region p i) → fails 6) ∧
     (∀ i, i < 64 → holds (s.region p i) → (∀ k, k < i → ¬ holds (s.region p k)) → reg_tw.of (s.region p i) = 0 → fails 5) ∧
     ((∀ i, i < 64 → ¬ holds (s.region p i)) → fails 5))

/-- R55, R62 to R64, R66: when light, CDR lock or 16 bad headers end block lock, the loss is flagged and counted and, with
auto_relock and outside a bring-up, the lane relocks in bringup_state 7, from the DFE's reconvergence with light on; in the switch
state of a bring-up, with a countdown seen, it retunes. 64 good headers after the lock count restarted set it; a relock that ends on
a locked lane reads 8, one that fails 12 and then stays unlocked; a failure code stays in place. A running search steps through the
slips from the last locked one, 72 blocks at each, twice over all 66, and stays where it ends when both passes fail; it starts with
the first step after a reconvergence (log entry 36). R47 to R50, R52: 2^mu UI after the latest update, mu coarse while the DFE
converges (R55, R66), sign-sign LMS moves every tap in use by one step and saturates it, its error what the DFE leaves of the
sample; the level of a NRZ bit is read from the spec by inference (log entry 33). An eye's edge is the largest offset that passes,
the figure of merit the smallest eye opening; CTLE tracking keeps the code one step away when fom rises by at least 8. R51: every
figure measured enters the histogram, and a locked lane warns when it falls below fom_warn; so does, by the model's choice (log
entry 76), one whose first figure since it woke lies below it. What the analogue parts decide comes with the command (log entry 13);
relock outside a bring-up, and the fom rules, are log entry 36. -/
def Obligations.ReceiversLockAndAdapt : Prop :=
  (∀ (s : State) (e c : Nat), chanOk s.grade e c = true →
     let k := kLstat e c
     let x := s.chan e c
     let calm := ∀ b, s.bringAt e c = some b → b.state ≠ 5 ∨ x.cdown = false
     let dark := s.setFld k lstat_signal_detect 0
     let lit := s.setFld k lstat_signal_detect 1
     (s.fld k lstat_signal_detect = 0 →
       exec (.signalDetectChange e c true) s = .next (if x.relock = true then lit.reconverge e c else lit)) ∧
     (s.fld k lstat_signal_detect = 1 → s.fld k lstat_block_lock = 1 → calm →
       exec (.signalDetectChange e c false) s = .next (dark.lost e c)) ∧
     (s.fld k lstat_signal_detect = 1 → s.fld k lstat_block_lock = 0 → exec (.signalDetectChange e c false) s = .next dark) ∧
     (s.fld k lstat_block_lock = 1 → calm → exec (.blockLockLoss e c false) s = .next (s.lost e c) ∧
       exec (.blockLockLoss e c true) s = .next ((s.setFld k lstat_cdr_lock 0).lost e c)) ∧
     (s.fld k lstat_block_lock = 1 → ∀ b, s.bringAt e c = some b → b.state = 5 → x.cdown = true →
       exec (.blockLockLoss e c false) s = .next ((s.lost e c).tune e c b.rate)) ∧
     (s.fld k lstat_block_lock = 0 → x.dead = false → s.waited e c 64 = true → s.fld k lstat_power_state_now ≠ 2 ∨ x.search ≠ none →
       exec (.blockLockSet e c) s = .next (s.gained e c)) ∧
     (s.fld k lstat_block_lock = 1 ∨ x.dead = true ∨ s.waited e c 64 = false → exec (.blockLockSet e c) s = .next s) ∧
     (∀ i, x.search = some i → s.waited e c 72 = true →
       (s.fld k lstat_block_lock = 0 → exec (.blockLockSearchStep e c true) s = .next (s.gained e c)) ∧
       (s.fld k lstat_block_lock = 1 → exec (.blockLockSearchStep e c true) s =
         .next ((s.setChan e c { x with lastSlip := s.fld k lstat_slip_now, search := none }).afterLock e c)) ∧
       (i = 131 → exec (.blockLockSearchStep e c false) s = .next (s.setChan e c { x with search := none })) ∧
       (i < 131 → ∃ u, exec (.blockLockSearchStep e c false) s = .next u ∧
         u.fld k lstat_slip_now = (x.lastSlip + i + 1) % 66 ∧ u.fld (kLctl e c) lctl_slip = (x.lastSlip + i + 1) % 66 ∧
         u.chan e c = { x with search := some (i + 1), since := some s.clk } ∧ u.fld k lstat_block_lock = s.fld k lstat_block_lock)) ∧
     (x.search = none → ∀ ok, exec (.blockLockSearchStep e c ok) s = .next (if x.conv = true then s.startSearch e c else s)) ∧
     (x.search ≠ none → s.waited e c 72 = false → ∀ ok, exec (.blockLockSearchStep e c ok) s = .next s) ∧
     (x.relock = true → s.fld k lstat_signal_detect = 1 →
       (s.fld k lstat_block_lock = 1 → ∀ ok, exec (.relockDone e c ok) s =
         .next (((s.setChan e c { x with relock := false, conv := false, search := none }).relockState e c 8).afterLock e c)) ∧
       (s.fld k lstat_block_lock = 0 → exec (.relockDone e c false) s =
         .next (((s.setChan e c { x with relock := false, dead := true, conv := false, search := none }).relockState e c 12).afterLock e c) ∧
         exec (.relockDone e c true) s = .next s)) ∧
     (x.relock = false ∨ s.fld k lstat_signal_detect = 0 → ∀ ok, exec (.relockDone e c ok) s = .next s) ∧
     (∀ v, s.relockState e c v = (if 9 ≤ s.fld k lstat_bringup_state ∧ s.fld k lstat_bringup_state ≤ 14 then s
       else s.setFld k lstat_bringup_state v))) ∧
  (∀ (s : State) (e c : Nat), chanOk s.grade e c = true → s.fld (kLstat e c) lstat_power_state_now = 2 → (s.chan e c).conv = false →
     ∀ ui x, exec (.dfeUpdate e c ui x) s = .next s) ∧
  (∀ (s : State) (e c : Nat), chanOk s.grade e c = true → s.fld (kLstat e c) lstat_power_state_now ≠ 2 →
     let k := kLstat e c
     let q := kLeq e c
     let g := key 0x21F0 1
     let tap := fun (u : State) (i : Nat) => (BitVec.ofNat 8 (u.fld q (dfeTap i))).toInt
     let nrz := s.fld k lstat_rate_now < 2
     let taps := if nrz then 8 else 12
     let level := fun (d : Nat) => if nrz then (if d % 2 = 1 then 3 else -3) else ([-3, -1, 3, 1] : List Int).getD (d % 4) 0
     let coarse := (s.chan e c).conv = true ∨ ∃ b, s.bringAt e c = some b ∧ b.state = 2
     let mu := if ¬ coarse ∧ s.fld g lglb_fom_fine ≤ s.fld k lstat_fom then s.fld g lglb_mu_shift_fine else s.fld g lglb_mu_shift_coarse
     (s.fld (kLctl e c) lctl_dfe_freeze = 0 → ∀ (diff : Int) (syms : List Nat), taps ≤ syms.length →
       let err := (diff - ((List.range taps).map (fun i => tap s (i + 1) * level (syms.getD i 0))).sum).sign
       ∃ u, exec (.dfeUpdate e c (2 ^ mu) ⟨diff, syms⟩) s = .next u ∧ onlyEntry s u q ∧ u.fld q leq_ctle_code = s.fld q leq_ctle_code ∧
         ∀ i, 1 ≤ i → i ≤ 12 → tap u i =
           if i ≤ taps then max (-128) (min 127 (tap s i + err * (level (syms.getD (i - 1) 0)).sign)) else tap s i) ∧
     (∀ ui diff syms, s.fld (kLctl e c) lctl_dfe_freeze = 1 ∨ ui ≠ 2 ^ mu → exec (.dfeUpdate e c ui ⟨diff, syms⟩) s = .next s) ∧
     (∀ counts : List Nat, (∀ i j, i ≤ j → counts.getD i 65536 ≤ counts.getD j 65536) → eyeEdge counts ≤ 127 ∧
       (eyeEdge counts = 0 ∨ counts.getD (eyeEdge counts) 65536 ≤ 4) ∧
       (eyeEdge counts = 127 ∨ 4 < counts.getD (eyeEdge counts + 1) 65536)) ∧
     (∀ (ul : List (List Nat × List Nat)), ul ≠ [] →
       let x := s.chan e c
       let fom := fomOf ((ul.map Prod.fst).map eyeEdge) ((ul.map Prod.snd).map eyeEdge)
       let v := ((s.setFld k lstat_fom fom).fomHistogram e c fom).setChan e c { x with fomSeen := true }
       let warns := s.fld k lstat_block_lock = 1 ∧ fom < s.fld g lglb_fom_warn ∧
         (x.fomSeen = false ∨ s.fld g lglb_fom_warn ≤ s.fld k lstat_fom)
       (∀ y ∈ ul, fom ≤ min (eyeEdge y.1) 127 + min (eyeEdge y.2) 127) ∧
       (∃ y ∈ ul, fom = min (eyeEdge y.1) 127 + min (eyeEdge y.2) 127) ∧
       (¬ warns → exec (.fomMeasure e c (ul.map Prod.fst) (ul.map Prod.snd)) s = .next v) ∧
       (warns → exec (.fomMeasure e c (ul.map Prod.fst) (ul.map Prod.snd)) s =
         .next (((v.setFld k lstat_fom_warn_seen 1).record 9 (e + 2 ^ 8 * c) (fom + 2 ^ 8 * s.fld k lstat_rate_now)).emcy 3
           (e + 2 ^ 8 * c + 2 ^ 16 * fom)))) ∧
     (s.fld (kLctl e c) lctl_ctle_track = 1 → s.fld k lstat_bringup_state = 8 → ∀ new, new < 256 →
       let code := s.fld q leq_ctle_code
       let v := (s.setChan e c { s.chan e c with ctleUp := !(s.chan e c).ctleUp }).fomHistogram e c new
       let rises := s.fld k lstat_fom + 8 ≤ new
       (rises → (s.chan e c).ctleUp = true → code < 15 →
         exec (.ctleTrack e c new) s = .next ((v.setFld q leq_ctle_code (code + 1)).setFld k lstat_fom new)) ∧
       (rises → (s.chan e c).ctleUp = false → 0 < code →
         exec (.ctleTrack e c new) s = .next ((v.setFld q leq_ctle_code (code - 1)).setFld k lstat_fom new)) ∧
       (¬ rises ∨ ((s.chan e c).ctleUp = true ∧ 15 ≤ code) ∨ ((s.chan e c).ctleUp = false ∧ code = 0) →
         exec (.ctleTrack e c new) s = .next v)))

/-- R63, R67, R68, R71: a power state, slip value or lane map entry that may be written is, and takes its effect; one that may not
changes nothing. A slip written restarts the lock count. Sleep ends block lock without a loss, ends a relock and a search, and fom
reads 0; a lane that leaves it reconverges its DFE, before its search for block lock, unless its relock failed (R66; log entry 76).
The armed rate's reach and vacated channels are log entry 37. -/
def Obligations.LaneWritesTakeEffectOrAreRefused : Prop :=
  ∀ (s : State) (e c v n : Nat), chanOk s.grade e c = true → laneOk s.grade e n = true →
    let k := kLstat e c
    let x := s.chan e c
    let w := s.setFld (kLctl e c) lctl_power_state v
    ((v ≤ 2 → v = 0 ∨ s.fld (kLctl e c) lctl_power_state ≠ 0 ∨ s.armedLane e c = false →
        (s.laneOfChan e c ≠ none → exec (.powerStateWrite e c v) s = .next
          (if v ≠ 2 ∧ s.fld k lstat_power_state_now = 2 ∧ x.dead = false then (w.setChan e c { x with request := some v }).reconverge e c
           else w.setChan e c { x with request := some v })) ∧
        (s.laneOfChan e c = none → exec (.powerStateWrite e c v) s = .next w)) ∧
      (2 < v ∨ (v ≠ 0 ∧ s.fld (kLctl e c) lctl_power_state = 0 ∧ s.armedLane e c = true) → exec (.powerStateWrite e c v) s = .next s)) ∧
    (x.request = some 2 → exec (.powerStateReached e c) s =
      .next (((((s.setChan e c { x with request := none }).setFld k lstat_power_state_now 2).setFld k lstat_fom 0).setChan e c
        { x with request := none, relock := false, search := none, conv := false, fomSeen := false }).unlock e c)) ∧
    (x.request = some v → v < 2 → exec (.powerStateReached e c) s =
      .next ((s.setChan e c { x with request := none }).setFld k lstat_power_state_now v)) ∧
    ((v ≤ 65 → s.laneOfChan e c ≠ none →
        exec (.slipWrite e c v) s = .next (((s.setFld (kLctl e c) lctl_slip v).setFld k lstat_slip_now v).setChan e c
          { x with since := some s.clk })) ∧
      (v ≤ 65 → s.laneOfChan e c = none → exec (.slipWrite e c v) s = .next (s.setFld (kLctl e c) lctl_slip v)) ∧
      (65 < v → exec (.slipWrite e c v) s = .next s)) ∧
    (∀ tx : Bool, tx = false ∨ 20 ≤ e →
      let base := kLmap e 0 + (if tx then 32 else 0)
      let free := v ≤ 33 ∧ ∀ m, m < 32 → m ≠ n → s.ent (base + m) ≠ v
      (s.idle = true → free → tx = true → exec (.laneMapWrite e tx n v) s = .next (s.setEnt (base + n) v)) ∧
      (s.idle = true → free → tx = false →
        exec (.laneMapWrite e tx n v) s = .next ((s.setEnt (base + n) v).remapped e n (s.ent (base + n)) v)) ∧
      (s.idle = false ∨ ¬ free → exec (.laneMapWrite e tx n v) s = .next s))

/-- R54, R59, R74, R492: start_bringup, where the dictionary takes it and no reset holds the engine, clears the counters of every
lane of the unit, wakes them and reads bringup_state 1, and a negotiating group's return channel is enabled (log entry 34); with
another unit of its engine in bring-up it waits; lanes whose settings differ are refused. Stated, for the lanes' words, of lanes
that hold no block lock. R55, R56, R58, R60, R61: what ends each state of a bring-up, the rate chosen, the step-downs, and the
failures of a state that overruns its bound and of the whole. R43, R59, R69: a unit that negotiates sends training blocks, a
fixed-rate unit none, and a link bundle that has sent done waits for the other end's. What follows an end is stated with no other
unit waiting. That a rate no code meets fails with 10 is the model's choice (log entry 74). Read from the spec by inference: the
requested power states and the end of the exchange (log entry 35), the step-down the armed rate bars (log entry 37); that
start_bringup on a unit in bring-up starts anew and what the next lower rate is (log entry 74), and the unit of the lanes beside an
uplink (log entry 79), are the model's choices. -/
def Obligations.BringUpRunsThroughItsStates : Prop :=
  (∀ (s : State) (e c n : Nat), chanOk s.grade e c = true → s.laneOfChan e c = some n →
     let cs := s.chansOf e (s.unitLanes e n)
     let gk := s.unitKey e n
     let same := fun (f : Fld) => ∀ a ∈ cs, ∀ b ∈ cs, s.fld (kLctl e a) f = s.fld (kLctl e b) f
     let fixed := cs.any (fun a => s.fld (kLctl e a) lctl_fixed_rate == 1)
     let ok := s.dictOpen = true ∧ same lctl_rate_ceiling ∧ (fixed = true → same lctl_fixed_rate_code)
     (s.engineReset e = true → exec (.startBringup e c) s = .next s) ∧
     (ok → s.engineReset e = false → s.engineBusy e gk = false → (∀ a ∈ cs, s.fld (kLstat e a) lstat_block_lock = 0) → ∃ u, exec (.startBringup e c) s = .next u ∧
       (∃ b, u.bringOf gk = some b ∧ b.engine = e ∧ b.lanes = s.unitLanes e n ∧ b.state = 1 ∧ b.downs = 0 ∧
         b.fixed = fixed ∧ b.sent = false ∧ b.heard = false) ∧
       u.land.parsers = s.land.parsers ∧ u.mem = s.mem ∧ (e < 20 → fixed = false → u.fld (kRch e) rch_rc_enable = 1) ∧
       ∀ a ∈ cs, u.fld (kLstat e a) lstat_bringup_state = 1 ∧ u.fld (kLstat e a) lstat_power_state_now = 0 ∧
         u.fld (kLstat e a) lstat_trained = 0 ∧ u.fld (kLctl e a) lctl_power_state = 0 ∧ u.ent (kLcnt e a) = 0 ∧
         u.fld (kLstat e a) lstat_rate_now = (if fixed then s.fld (kLctl e a) lctl_fixed_rate_code else 0)) ∧
     (ok → s.engineReset e = false → s.engineBusy e gk = true → ∃ u, exec (.startBringup e c) s = .next u ∧ gk ∈ u.land.bringWait ∧
       u.land.bring = s.land.bring ∧ (∀ a ∈ cs, u.ent (kLcnt e a) = 0) ∧ ∀ k, (∀ a ∈ cs, k ≠ kLcnt e a) → u.ent k = s.ent k) ∧
     (¬ ok → exec (.startBringup e c) s = .next s)) ∧
  (∀ (s : State) (gk : Nat) (b : Bring) (foms : List (List Nat)), s.bringOf gk = some b →
     let e := b.engine
     let cs := s.chansOf e b.lanes
     let v := s.takeSweep e cs foms
     let low := ∃ c ∈ cs, v.fld (kLstat e c) lstat_fom < v.fld (key 0x21F0 1) lglb_fom_lock_min
     let done := exec (.bringupStepDone gk foms) s
     let locked := ∀ c ∈ cs, s.fld (kLstat e c) lstat_block_lock = 1
     let downs := v.fld (key 0x21F0 1) lglb_max_step_downs
     (b.state = 1 → done = .next ((s.onChans e cs lstat_cdr_lock 1).bringTo gk 2 b)) ∧
     (b.state = 2 → ¬ low → done = .next (v.bringSearch gk 3 b)) ∧
     (b.state = 2 → low → done = .next (v.failBringup gk 11 b)) ∧
     (b.state = 3 ∨ b.state = 7 → ¬ locked → done = .next s) ∧
     (b.state = 3 → locked → b.fixed = false → s.chooses b ≠ some (some 0) → done = .next (s.bringTo gk 4 b)) ∧
     (b.state = 3 → locked → b.fixed = true ∨ s.chooses b = some (some 0) → done = .next (s.finishBringup gk b)) ∧
     (b.state = 4 → s.chooses b = none → done = .next s) ∧
     (b.state = 4 → s.chooses b = some none → done = .next (s.failBringup gk 10 b)) ∧
     (b.state = 4 → ∀ r, s.chooses b = some (some r) →
       (∀ a, s.armedRate e b.lanes = some a → a ≠ r → done = .next (s.failBringup gk 13 { b with rate := r })) ∧
       (s.armedRate e b.lanes = none ∨ s.armedRate e b.lanes = some r →
         (0 < r → done = .next (s.bringSwitch gk { b with rate := r })) ∧
         (r = 0 → done = .next (s.finishBringup gk { b with rate := 0 })))) ∧
     (b.state = 5 → ((∀ c ∈ cs, s.fld (kLstat e c) lstat_rate_now = b.rate) → done = .next (s.bringTo gk 6 b)) ∧
       ((∃ c ∈ cs, s.fld (kLstat e c) lstat_rate_now ≠ b.rate) → done = .next s)) ∧
     (b.state = 6 → ¬ low → done = .next (v.bringSearch gk 7 b)) ∧
     (b.state = 6 → low → 0 < b.rate → b.downs < downs → (∃ a, v.armedRate e b.lanes = some a ∧ a ≠ b.rate - 1) →
       done = .next (v.failBringup gk 13 b)) ∧
     (b.state = 6 → low → 0 < b.rate → (∀ a, v.armedRate e b.lanes = some a → a = b.rate - 1) → b.downs < downs →
       done = .next (v.bringSwitch gk { b with rate := b.rate - 1, downs := b.downs + 1 })) ∧
     (b.state = 6 → low → b.rate = 0 ∨ downs ≤ b.downs → done = .next (v.failBringup gk 11 b)) ∧
     (b.state = 7 → locked → b.sent = false → done = .next (s.finishBringup gk b)) ∧
     (b.state = 7 → b.sent = true → done = .next s) ∧
     (1 ≤ b.state → b.state ≤ 7 → ∀ code, [9, 11, 12, 10, 10, 11, 12][b.state - 1]? = some code →
       exec (.bringupStateOverrun gk) s = .next (s.failBringup gk code b)) ∧
     exec (.bringupTimeout gk) s = .next (s.failBringup gk 14 b)) ∧
  (∀ (t : State) (gk : Nat) (b : Bring),
     let e := b.engine
     let cs := t.chansOf e b.lanes
     let ceiling := t.fld (kLctl e (cs.headD 0)) lctl_rate_ceiling
     ((∃ c ∈ cs, (t.chan e c).cap = none) → t.chooses b = none) ∧
     (∀ caps : List Nat, caps.length = cs.length → (∀ i, (h : i < cs.length) → (t.chan e cs[i]).cap = caps[i]?) →
       let meets := fun (r : Nat) => t.returnOn e b.lanes = true ∧ r ≤ ceiling ∧ r < 4 ∧ ∀ k ∈ caps, k / 2 ^ r % 2 = 1
       (∀ r, meets r → (∀ r', meets r' → r' ≤ r) → t.chooses b = some (some r)) ∧ ((∀ r, ¬ meets r) → t.chooses b = some none)) ∧
     (let u := t.bringSwitch gk b
      u.bringOf gk = some { b with state := 5 } ∧
        ∀ c ∈ cs, u.fld (kLstat e c) lstat_bringup_state = 5 ∧ (u.chan e c).cdown = false) ∧
     (∀ rate done, (b.fixed = true → t.sendTraining gk b rate done = t) ∧
       (b.fixed = false → e < 20 → t.dec.driven = true → t.fld (kRch e) rch_rc_enable = 1 → t.tele.hold = false → t.engineReset e = false →
         t.swapping (2 * e) (t.fld (kRch e) rch_rc_use_spare) = false → t.sendTraining gk b rate done = t.emit (.training e (gk % 32) (trainWord rate done (t.trainIdent e (gk % 32)))))) ∧
     (t.land.bringWait = [] →
       (∀ code, code < 16 → (∀ c ∈ cs, t.fld (kLstat e c) lstat_block_lock = 0) →
         let f := t.failBringup gk code b
         f.bringOf gk = none ∧ ∀ c ∈ cs, f.fld (kLstat e c) lstat_bringup_state = code ∧
           f.fld (kLstat e c) lstat_power_state_now = 2 ∧ f.fld (kLctl e c) lctl_power_state = 2 ∧ f.fld (kLstat e c) lstat_fom = 0) ∧
       (e < 20 ∨ b.fixed = true ∨ b.heard = true → (t.bringupDone gk b).bringOf gk = none)) ∧
     (20 ≤ e → b.fixed = false → b.heard = false → (t.bringupDone gk b).bringOf gk = some { b with sent := true }) ∧
     (t.armedRate e b.lanes = none → t.finishBringup gk b = t.bringupDone gk b) ∧
     (∀ a, t.armedRate e b.lanes = some a → t.finishBringup gk b =
       if a = b.rate then t.bringupDone gk b else t.failBringup gk 13 b))

/-- R46: what a descrambler makes of a scrambled stream is the stream, whatever its 58 bits, when the scrambler's are the same. R65,
R81, R88, R89: what each kind of block does in the parser of a lane of a group: stored with its CRC inside a frame, stray outside, one
too many ends the frame malformed; damaged and invalid blocks store zero and count; an idle cuts a frame; the frame-close compares
damage, blocks and CRC in this order. R62: the 16th invalid header of 64 ends block lock, after its block (log entry 76). R65, R75: a
locked lane that does not deliver counts its invalid headers; R90: a lane outside every group delivers nothing to landing; an unlocked
lane takes no block. `out` is the outcome with the header's `hb`, 1 for an invalid one. -/
def Obligations.BlocksPassTheParser : Prop :=
  (∀ (h : Nat) (bits : List Nat), (∀ b ∈ bits, b < 2) → descramble h (scramble h bits).1 = (bits, (scramble h bits).2)) ∧
  (∀ (s : State) (q n x crc : Nat), q < 20 → laneOk s.grade q n = true →
    let p := s.parser q n
    let c := s.chanOf q n
    let t := fun (hb w : Nat) => s.setParser q n (s.counted q n hb w)
    let quiet := fun (hb w : Nat) => s.setParser q n { p with hdr := (s.counted q n hb w).hdr, hist := (s.counted q n hb w).hist }
    let out := fun (hb : Nat) (u : State) => Host.Outcome.next (ρ := Refusal) (φ := Fault)
      (if 16 ≤ ones64 ((2 * p.hdr + hb) % 2 ^ 64) then u.lockLoss q c else u)
    let k := kLlc q n
    let sh := fun (u : State) => u.setFld (kLcnt q c) lcnt_sh_errors (s.oneMore (kLcnt q c) lcnt_sh_errors)
    let ctl := fun (u : State) => u.setFld k llc_ctl_errors (s.oneMore k llc_ctl_errors)
    let stray := fun (u : State) => u.setFld k llc_stray_blocks (s.oneMore k llc_stray_blocks)
    (∀ g, s.delivers q n = true → s.groupOf q n = some g →
      let stored := fun (u : State) (v : Nat) (bad : Bool) => u.setParser q n { u.parser q n with
        count := p.count + 1
        crc := crc24Block p.crc v
        data := v :: p.data
        damaged := p.damaged || bad }
      let inFrame := p.inside = true ∧ p.count < s.blocksPer q g
      let full := p.inside = true ∧ s.blocksPer q g ≤ p.count
      let cut := if p.damaged then 2 else 3
      (inFrame → exec (.dataBlock q n x) s = out 0 (stored (t 0 x) x false) ∧
        exec (.damagedBlock ⟨q, n⟩ x) s = out 1 (stored (sh (t 1 x)) 0 true) ∧
        exec (.invalidControlBlock ⟨q, n⟩ x) s = out 0 (stored (ctl (t 0 x)) 0 true)) ∧
      (p.inside = false → exec (.dataBlock q n x) s = out 0 (stray (t 0 x)) ∧
        exec (.damagedBlock ⟨q, n⟩ x) s = out 1 (sh (t 1 x)) ∧ exec (.invalidControlBlock ⟨q, n⟩ x) s = out 0 (ctl (t 0 x)) ∧
        exec (.idleBlock q n) s = out 0 (t 0 0x1E) ∧
        exec (.frameClose q n crc) s = out 0 (stray (t 0 (0x55 + 2 ^ 8 * crc)))) ∧
      (full → exec (.dataBlock q n x) s = out 0 ((t 0 x).endParser q g n cut none) ∧
        exec (.damagedBlock ⟨q, n⟩ x) s = out 1 ((sh (t 1 x)).endParser q g n cut none) ∧
        exec (.invalidControlBlock ⟨q, n⟩ x) s = out 0 ((ctl (t 0 x)).endParser q g n cut none)) ∧
      (p.inside = true → exec (.idleBlock q n) s = out 0 ((t 0 0x1E).endParser q g n cut none) ∧
        exec (.frameClose q n crc) s = out 0 (((t 0 (0x55 + 2 ^ 8 * crc)).tagClose q g n p.frame).endParser q g n
          (if p.damaged then 2 else if p.count < s.blocksPer q g then 3 else if p.crc ≠ crc then 1 else 0) (some (t64 s.now))))) ∧
    (s.delivers q n = true → s.groupOf q n = none → exec (.dataBlock q n x) s = out 0 (t 0 x) ∧
      exec (.damagedBlock ⟨q, n⟩ x) s = out 1 (sh (t 1 x)) ∧ exec (.invalidControlBlock ⟨q, n⟩ x) s = out 0 (t 0 x) ∧
      exec (.idleBlock q n) s = out 0 (t 0 0x1E) ∧ exec (.frameClose q n crc) s = out 0 (t 0 (0x55 + 2 ^ 8 * crc))) ∧
    (s.delivers q n = false → s.fld (kLstat q c) lstat_block_lock = 1 → exec (.damagedBlock ⟨q, n⟩ x) s = out 1 (sh (quiet 1 x)) ∧
      exec (.dataBlock q n x) s = out 0 (quiet 0 x)) ∧
    (s.fld (kLstat q c) lstat_block_lock = 0 → exec (.dataBlock q n x) s = .next s ∧ exec (.damagedBlock ⟨q, n⟩ x) s = .next s ∧
      exec (.invalidControlBlock ⟨q, n⟩ x) s = .next s ∧ exec (.idleBlock q n) s = .next s ∧ exec (.frameClose q n crc) s = .next s))

/-- R55, R81, R85, R86, R88, R91, R93, R94: a frame-open starts a frame in the lane's parser; a lane marker in phase with the expected
identity confirms the lane, one off its phase counts, and one of another identity costs the group, or a link lane's bundle (R377), its
alignment; each 16,384 blocks without a marker count once; a training block outside bring-up sets train_seen, up to
the exchange it carries the capability, and in switch the countdown, at whose 0 the lane is retuned; one with a reserved bit set is an
invalid control block; a skew overrun costs the group, or the bundle (R378), its alignment. A frame-open inside a frame ends that
frame malformed; one whose number is not later than the lane's previous costs the group its alignment; once the group waits for
frames, it ends the earlier frames this lane never opened, starts the group frame or joins it, and the lane that opens it last gives
its skew, above 64 blocks a loss of alignment (log entries 38, 55, 76). Frame-opens and markers are stated of a lane with fewer than
16 invalid headers in the latest 64. R91: the conditions on its lanes that move a lane group: off with no lanes, wait_lock while a lane is not in service, from there to wait_marker with every lane in
service, to wait_frame with every identity confirmed. -/
def Obligations.FramesMarkersAndAlignment : Prop :=
  (∀ (s : State) (q n g f fl ident x : Nat), q < 20 → laneOk s.grade q n = true → s.groupOf q n = some g →
     let p := s.parser q n
     let t := fun (w : Nat) => s.setParser q n (s.counted q n 0 w)
     let k := kLlc q n
     let c := s.chanOf q n
     (s.delivers q n = true → s.steady q n 0 → p.inside = false → (∀ f', p.prev = some f' → later f f' = true) →
       let w := t (0x4B + 2 ^ 8 * f + 2 ^ 56 * fl)
       let u := w.setParser q n { w.parser q n with
         inside := true
         count := 0
         crc := 0xFFFFFF
         damaged := false
         data := []
         frame := f
         flags := fl
         prev := some f }
       let v := (u.countUnaligned q g f).trimGone q g f
       (s.align q g < 2 → exec (.frameOpen q n f fl) s = .next v) ∧
       (2 ≤ s.align q g → (s.group q g).open_ = [] → 1 < s.laneCount q g →
         (∀ m ∈ s.groupLanes q g, m ≠ n → ∀ f', (s.parser q m).prev = some f' → later f f' = true) →
         exec (.frameOpen q n f fl) s = .next (v.setGroup q g { v.group q g with
           open_ := [{ frame := f, opened := [(n - s.fld (key (0x2200 + q) (2 + g)) grp_first_lane, p.total + 1)] }] }))) ∧
     (s.delivers q n = true → s.steady q n 0 →
       let w := t (0x4B + 2 ^ 8 * f + 2 ^ 56 * fl)
       let z := if p.inside = true then w.endParser q g n (if p.damaged then 2 else 3) none else w
       let y := match p.prev with
         | some f' => if later f f' = true then z else (z.loseAlign q g).renumber q g n f' f
         | none => z
       let u := y.setParser q n { y.parser q n with
         inside := true
         count := 0
         crc := 0xFFFFFF
         damaged := false
         data := []
         frame := f
         flags := fl
         prev := some f }
       let v := (u.countUnaligned q g f).trimGone q g f
       let i := n - s.fld (key (0x2200 + q) (2 + g)) grp_first_lane
       let o := (v.missEarlier q g i f).openGroupFrame q g i f
       let e := o.setGroup q g { o.group q g with open_ := (o.group q g).open_.map (fun h =>
         if h.frame = f then { h with opened := h.opened ++ [(i, p.total + 1)] } else h) }
       (v.align q g < 2 → exec (.frameOpen q n f fl) s = .next v) ∧
       (2 ≤ v.align q g → exec (.frameOpen q n f fl) s = .next (e.measureSkew q g f))) ∧
     (s.delivers q n = true → s.steady q n 0 →
       let w := t (0x66 + 2 ^ 8 * (ident % 2 ^ 12))
       let o := if p.hasMark = true ∧ p.mark + 1 ≠ 16384 then w.setFld k llc_marker_errors (s.oneMore k llc_marker_errors) else w
       let u := fun (good : Bool) => o.setParser q n { w.parser q n with mark := 0, missed := 0, hasMark := true, marked := good }
       (s.ent (key (0x2260 + q) (1 + n)) % 2 ^ 12 = ident % 2 ^ 12 →
         exec (.laneMarker q n ident) s = .next ((u true).refreshGroup q g)) ∧
       (s.ent (key (0x2260 + q) (1 + n)) % 2 ^ 12 ≠ ident % 2 ^ 12 →
         exec (.laneMarker q n ident) s = .next (((u false).setFld k llc_id_errors (s.oneMore k llc_id_errors)).loseAlign q g))) ∧
     (16384 * (p.missed + 1) ≤ p.mark →
       let u := (s.setParser q n { p with missed := p.missed + 1 }).setFld k llc_marker_errors (s.oneMore k llc_marker_errors)
       exec (.markerMissed q n) s = .next (if 1 ≤ p.missed then u.loseAlign q g else u)) ∧
     (x < 2 ^ 36 → s.fld (kLstat q c) lstat_block_lock = 1 →
       let h := s.hear q n false x
       let seen := h.setChan q c { s.chan q c with cdown := true }
       (s.bringOf (s.unitKey q n) = none → exec (.trainingBlock q n x) s = .next (h.setFld (kLstat q c) lstat_train_seen 1)) ∧
       ∀ b, s.bringOf (s.unitKey q n) = some b →
         (b.state ≤ 4 →
           exec (.trainingBlock q n x) s = .next (h.setChan q c { s.chan q c with cap := some (x / 2 ^ 8 % 16) })) ∧
         (b.state = 5 → x / 2 ^ 22 % 2 = 1 → exec (.trainingBlock q n x) s =
           .next (if x / 2 ^ 16 % 64 = 0 then seen.retune q c b.rate else seen)) ∧
         (b.state = 5 → x / 2 ^ 22 % 2 = 0 → exec (.trainingBlock q n x) s = .next h)) ∧
     (2 ^ 36 ≤ x → exec (.trainingBlock q n x) s = exec (.invalidControlBlock ⟨q, n⟩ x) s) ∧
     (s.overrun q g = true → exec (.skewOverrun q g) s = .next (s.loseAlign q g)) ∧
     (s.overrun q g = false → exec (.skewOverrun q g) s = .next s)) ∧
   (∀ (s : State) (e n ident : Nat), 20 ≤ e → laneOk s.grade e n = true → s.delivers e n = true → s.steady e n 0 →
     let p := s.parser e n
     let k := kLlc e n
     let w := s.setParser e n (s.counted e n 0 (0x66 + 2 ^ 8 * (ident % 2 ^ 12)))
     let o := if p.hasMark = true ∧ p.mark + 1 ≠ 16384 then w.setFld k llc_marker_errors (s.oneMore k llc_marker_errors) else w
     let u := fun (good : Bool) => o.setParser e n { w.parser e n with
       mark := 0
       missed := 0
       hasMark := true
       marked := good }
     (∀ m fl, exec (.frameOpen e n m fl) s = .next s) ∧
     (s.expectedId e n = none ∨ s.expectedId e n = some (ident % 2 ^ 12) → exec (.laneMarker e n ident) s = .next (u true)) ∧
     (∀ x, s.expectedId e n = some x → x ≠ ident % 2 ^ 12 → exec (.laneMarker e n ident) s =
       .next (((u p.marked).setFld k llc_id_errors (s.oneMore k llc_id_errors)).bundleDown e n)) ∧
     (∀ g, g < 8 → exec (.skewOverrun e g) s = .next (s.bundleDown e (4 * g)))) ∧
   (∀ (s : State) (q g f : Nat) (fr : GroupFrame), q < 20 → g < 4 →
     (s.group q g).open_.find? (fun h => h.frame == f) = some fr →
     let first := s.fld (key (0x2200 + q) (2 + g)) grp_first_lane
     let skew := (fr.opened.map (fun o => (s.parser q (first + o.1)).total - o.2)).foldl max 0
     let t := s.measureSkew q g f
     (fr.opened.length ≠ s.laneCount q g → t = s) ∧
     (fr.opened.length = s.laneCount q g → skew ≤ 64 → t.align q g = s.align q g ∧ t.fld (kGst q g) gstat_skew_now = skew ∧
       t.fld (kGst q g) gstat_skew_max = max (s.fld (kGst q g) gstat_skew_max) skew) ∧
     (fr.opened.length = s.laneCount q g → 64 < skew → t.align q g ≤ 2)) ∧
  (∀ (s : State) (q g : Nat), q < 20 → g < 4 →
     let lanes := s.groupLanes q g
     let up := ∀ n ∈ lanes, s.inService q n = true
     let next := (s.refreshGroup q g).align q g
     (s.laneCount q g = 0 → next = 0) ∧
     (s.laneCount q g ≠ 0 → s.align q g ≤ 1 → up → next = 2 ∧ ∀ n ∈ lanes, ((s.refreshGroup q g).parser q n).marked = false) ∧
     (s.laneCount q g ≠ 0 → s.align q g ≤ 1 → ¬ up → next = 1) ∧
     (s.laneCount q g ≠ 0 → s.align q g = 2 → ¬ up → next = 1) ∧
     (s.laneCount q g ≠ 0 → s.align q g = 2 → up → (∀ n ∈ lanes, (s.parser q n).marked = true) →
       next = 3 ∧ ((s.refreshGroup q g).group q g).good = 0 ∧ (s.refreshGroup q g).fld (kGst q g) gstat_skew_max = 0) ∧
     (s.laneCount q g ≠ 0 → s.align q g = 2 → up → (∃ n ∈ lanes, (s.parser q n).marked = false) → next = 2) ∧
     (s.laneCount q g ≠ 0 → s.align q g = 3 → ¬ up → next = 1) ∧
     (s.refreshGroup q g).mem = s.mem ∧ (s.refreshGroup q g).out = s.out)

/-- R103: in the clk in which a frame is ready on every group of the job, the schedule binds N0 to it and s0 to the smallest later
clk with s0 + entry_offset(q) ≥ ready(q, N0) + entry_margin on every quay. Stated for a job outside a moored berth whose void delay
is not negative (R299, R391 fault otherwise); a replaying job binds the first frame of its lowest quay (R109), in a berth its start
frame (R384; log entry 74). A frame that was ready before the job was armed gets its arrival tag then (R105). R102, R104, R249: in
its release clk a slot is entered when the job admits it and every group's frame is there without a reason: its beats leave, the
first with the frame tag; otherwise the slot is void with the lowest reason, its beats carry the zero-point code, and frame_void is
set. Stated outside a moored berth. R99, R100: a sample becomes round_ta((x - in_offset) / 2^in_shift) plus the zero point,
saturated to the quay's format; a beat holds the codes in order, position p at bit b p, and the zero-point code after the last.
R333, R334: once every slipway has released a frame that is not void, an averaging quay adds its samples to its sums; the frame that
fills the interval forms the request, of origin average, with each sum as sat(round_ta(sum 2^(wo - w) / 2^avg_log2)), counts what
saturated, and the sums start again from 0; the spec's worked example. -/
def Obligations.ScheduleBindsAndSlotsAreEntered : Prop :=
  (∀ (s : State), s.awaiting = true → s.moored = false →
     let margin := s.fld (key 0x22F0 1) lndg_entry_margin
     let l := s.fld (key 0x2800 1) dec_latency_l
     let close := s.fld (key 0x2800 1) dec_ridge_close
     (s.replaying = false → ∀ n0, s.bindFrame = some n0 →
       let ready := fun (q : Nat) => (s.readyOn ((s.usedGroups q).map (fun g => 4 * q + g)) n0).getD 0
       let tref : Int := match mget none s.tagAll.dec.tags n0 with | some t => t.2.1 | none => s.clk
       (∀ k ∈ s.jobGroups, ∃ r, s.readyAt k n0 = some r ∧ r ≤ s.clk) ∧
       (0 ≤ tref + l - (s.bindStart ready + close : Nat) - 22 →
         ∃ u, exec .scheduleBind s = .next u ∧ u.job.bound = true ∧ u.job.n0 = n0 ∧ s.clk < u.job.s0 ∧
           (∀ q ∈ s.slipQuays, ready q + margin ≤ u.job.s0 + s.entryOffset q) ∧
           (u.job.s0 = s.clk + 1 ∨ ∃ q ∈ s.slipQuays, u.job.s0 + s.entryOffset q = ready q + margin) ∧
           u.land.released = [] ∧ u.dec.voids = [])) ∧
     (s.replaying = true → s.slipQuays ≠ [] → (∀ q ∈ s.slipQuays, 0 < (s.replay q).reads) →
       let read := fun (q : Nat) => (((s.replay q).read.find? (fun e => e.1 == 0)).map (fun e => e.2)).getD s.clk
       let first := (s.slipQuays.map s.entryOffset).foldl min 65535
       0 ≤ ((s.bindStart read + first : Nat) : Int) - (margin + 16 : Nat) - 22 + l - (s.bindStart read + close : Nat) - 22 →
       ∃ u q0, exec .scheduleBind s = .next u ∧ q0 ∈ s.slipQuays ∧ (∀ q ∈ s.slipQuays, q0 ≤ q) ∧ u.job.bound = true ∧
         u.job.n0 = (if s.berthSize ≤ 1 then leNat (readBytes s.mem (s.replayPtr q0 0) 6) else s.ent (key 0x2D00 4) % 2 ^ 48) ∧ s.clk < u.job.s0 ∧
         ∀ q ∈ s.slipQuays, read q + margin ≤ u.job.s0 + s.entryOffset q)) ∧
  (∀ (s : State) (q n : Nat), quayOk s.grade q = true → s.job.bound = true → q ∈ s.slipQuays →
     s.clk = s.job.s0 + s.entryOffset q + n * s.F → s.released q ≤ n → s.replaying = false → s.gridRuns = true →
     s.moored = false →
     let frame := (s.job.n0 + n) % 2 ^ 48
     let gs := (s.usedGroups q).map (s.slotGroup q frame)
     let reason := lowReason ((if s.admits n then 0 else 10) :: gs.map (fun g => g.reason))
     let codes := gs.flatMap (fun g => (s.groupSamples q g.group g.data).map (fun x => (s.convert q g.group x).1))
     let beats := fun (cs : List Nat) (tag : Nat) =>
       (beatWords (fmtBits (s.quayFmt q)) (s.quayZp q) (s.beatCodes q) (s.beats q) cs).zipIdx.map (fun e =>
         (⟨(s.entryPort q).1, s.clk + 6 + e.2, ⟨e.1, 0, if e.2 = 0 then some tag else none⟩, some (s.entryPort q).2, 104 + q, false⟩ :
           Flight))
     ∃ u, exec (.slotRelease q) s = .next u ∧ u.released q = n + 1 ∧
       (reason = 0 → mget none u.dec.voids n = some (mget none s.dec.voids n == some true) ∧
         u.net.flights = s.net.flights ++ beats codes frame) ∧
       (reason ≠ 0 → mget none u.dec.voids n = some true ∧
         u.net.flights = s.net.flights ++ beats [] (frame + 2 ^ 48 + 2 ^ 49 * reason))) ∧
  (∀ (s : State) (q g : Nat) (x : Int) (b zp c k : Nat) (codes : List Nat),
     let f := s.quayFmt q
     let v := roundTa (x - (BitVec.ofNat 16 (s.fld (kConv q g) conv_in_offset)).toInt) (2 ^ s.fld (kConv q g) conv_in_shift) + s.quayZp q
     let r := fmtRange f
     ((r.1 ≤ v → v ≤ r.2 → codeOf f (s.convert q g x).1 = v ∧ (s.convert q g x).2 = false) ∧
       (v < r.1 → codeOf f (s.convert q g x).1 = r.1 ∧ (s.convert q g x).2 = true) ∧
       (r.2 < v → codeOf f (s.convert q g x).1 = r.2 ∧ (s.convert q g x).2 = true)) ∧
     (k < c → (∀ y ∈ codes, y < 2 ^ b) → zp < 2 ^ b → beatWord b zp c codes / 2 ^ (b * k) % 2 ^ b = codes.getD k zp)) ∧
  (∀ (s : State) (q frame : Nat) (samples : List Int),
     let u := s.average q frame samples
     let lg := s.fld (kAvg q) avg_avg_log2
     let wo := [8, 12, 16].getD (s.fld (kAvg q) avg_avg_width) 16
     let at_ := fun (i : Nat) => 2 ^ 24 * q + i
     let sum := fun (i : Nat) => mget 0 s.land.sums (at_ i) + samples.getD i 0
     let n := mget 0 s.land.avgN q + 1
     let pos := (List.range 4).flatMap (fun g => List.replicate (s.laneCount q g * s.blocksPer q g * (64 / s.sampleWidth q g)) g)
     let outs := pos.zipIdx.map (fun e => avgOut (sum e.2) (s.sampleWidth q e.1) wo lg (s.flag (kConv q e.1) conv_sample_signed))
     let k := key (0x2980 + q) 2
     (s.flag (kAvg q) avg_avg_enable = false → u = s) ∧
     (s.flag (kAvg q) avg_avg_enable = true → n < 2 ^ lg → u.cap = s.cap ∧ u.dict = s.dict ∧ mget 0 u.land.avgN q = n ∧
       ∀ i, mget 0 u.land.sums (at_ i) = sum i) ∧
     (s.flag (kAvg q) avg_avg_enable = true → 2 ^ lg ≤ n → mget 0 u.land.avgN q = 0 ∧ (∀ i, i < 2 ^ 24 → mget 0 u.land.sums (at_ i) = 0) ∧
       u.fld k cnt48 = min (s.fld k cnt48 + (outs.filter (fun o => o.2)).length) (2 ^ 48 - 1) ∧
       (s.cap.reqs.length < 256 → ∃ r, u.cap.reqs = s.cap.reqs ++ [r] ∧ r.origin = 2 ∧ r.frame = frame ∧ r.mask = 2 ^ q ∧
         r.window = false ∧ r.link = s.flag (kAvg q) avg_avg_destination ∧ r.avgLog2 = lg ∧
         r.data = outs.flatMap (fun o => avgBytesOf wo o.1)))) ∧
  (∀ (sum : Int) (w wo lg : Nat),
     let v := roundTa (sum * 2 ^ wo) (2 ^ w * 2 ^ lg)
     let h : Int := 2 ^ (wo - 1)
     (0 ≤ v → v < 2 ^ wo → avgOut sum w wo lg false = (v, false)) ∧ (2 ^ wo ≤ v → avgOut sum w wo lg false = (2 ^ wo - 1, true)) ∧
     (-h ≤ v → v < h → avgOut sum w wo lg true = (v, false)) ∧ (h ≤ v → avgOut sum w wo lg true = (h - 1, true)) ∧
     (v < -h → avgOut sum w wo lg true = (-h, true))) ∧
  (avgOut 4003 12 16 2 false = (16012, false) ∧ avgOut 4003 12 12 2 false = (1001, false) ∧ avgOut 4002 12 12 2 false = (1001, false) ∧
    avgOut (-10) 12 12 2 true = (-3, false) ∧ avgOut 131068 16 8 2 true = (127, true)) ∧
  (∀ (s : State) (n : Nat),
     let all := ∀ q ∈ s.slipQuays, n < s.released q
     let v : State := { s with land := { s.land with avgWait := s.land.avgWait.filter (fun w => w.n != n) } }
     (¬ all → s.averageDue n = s) ∧ (all → s.frameVoid n = true → s.averageDue n = v) ∧
     (all → s.frameVoid n = false → ∀ w, s.land.avgWait.filter (fun w => w.n == n) = [w] → w.q < 20 →
       s.averageDue n = v.average w.q ((s.job.n0 + n) % 2 ^ 48) w.samples))

/-- R279, R280: once the close of a course has come, its 128-byte header is written: frame number, quay, time stamp, payload bytes,
one entry per group, and the CRC of the first 124 bytes; a used group that did not land reads zero. R109: the replay unit reads the
courses of a quay's segment in order; a course whose slot has passed is written to the ring as late. A course that no frame-close
stamped has a free stamp (log entry 48); what a replayed course between two slots does is log entry 40; an amended header keeps its
stamp (log entry 79). -/
def Obligations.CoursesAreWrittenAndReplayed : Prop :=
  (∀ (s : State) (q frame : Nat) (c : Course), quayOk s.grade q = true → s.ringOn q = true →
     (s.courses q).find? (fun c => c.frame == frame) = some c → s.courseClosed q c = true →
     ∀ t, c.stamp = some t →
     let v := (s.zeroMissing q c).write c.addr (s.courseHeader q c t)
     let w : State := { v with land := { v.land with
       courses := mset [] s.land.courses q ((s.courses q).filter (fun x => x.frame != frame))
       written := mset [] s.land.written q ((frame, c.addr) ::
         (mget [] s.land.written q).filter (fun e => e.1 != frame && e.2 != c.addr)) } }
     exec (.courseHeaderWrite q frame) s = .next w ∧
       (frame < 2 ^ 48 → q < 20 →
         leNat (readBytes w.mem c.addr 6) = frame ∧ (readByte w.mem (c.addr + 6)).toNat % 32 = q ∧
         (t < 2 ^ 64 → leNat (readBytes w.mem (c.addr + 8) 8) = t)) ∧
       leNat (readBytes w.mem (c.addr + 124) 4) = crc32c (readBytes w.mem c.addr 124) ∧
       (∀ g ∈ s.usedGroups q, (∀ e ∈ c.groups, e.1 ≠ g) → ∀ i, i < s.laneCount q g * s.blocksPer q g * 8 →
         readByte w.mem (c.addr + s.groupOffset q g + i) = 0)) ∧
  (∀ (s : State) (q : Nat), quayOk s.grade q = true → s.replaying = true → q ∈ s.slipQuays → s.active = true →
     let r := s.replay q
     (r.reads < s.replayCount q ∨ s.flag (key 0x22F0 1) lndg_replay_loop = true) →
     let at_ := s.replayPtr q (r.reads % max 1 (s.replayCount q))
     (s.firstBad at_ (s.courseSize q) = none → (∀ e ∈ r.late, e.1 ≠ r.reads) → exec (.replayCourseRead q) s =
       .next (s.setReplay q { r with reads := r.reads + 1, read := r.read ++ [(r.reads, s.clk)] })) ∧
     (∀ w, s.firstBad at_ (s.courseSize q) = some w → (∀ e ∈ r.late, e.1 ≠ r.reads) →
       ∃ u, exec (.replayCourseRead q) s = .next u ∧ u.jobState = FAULTED ∧ u.mem = s.mem ∧
         ∃ f ∈ u.flt.recs, f.family = 9 ∧ f.cause = 3 ∧ f.detail % 2 ^ 64 = (w - hbmBase (quayDie q)) % 2 ^ 64) ∧
     (s.firstBad at_ (s.courseSize q) = none → ∀ f, r.late = [(r.reads, f)] → ∃ t, exec (.replayCourseRead q) s =
       .next ((s.setReplay q { r with reads := r.reads + 1, late := [] }).landReplay q f (r.reads % max 1 (s.replayCount q))
         (some 7) t)))

/-- R165, R166, R167, R169: the count of a layer's window that ends is compared with its threshold and starts again at 0; a count
at the threshold waits as an event; the event raised sets the layer's seen flag and counts, and goes out with its window, first
frame, count and threshold, each at the bits of log entries 24 and 73; the totals show what the tiles counted, each saturated. -/
def Obligations.CalibrationWindowsAndEvents : Prop :=
  ∀ (s : State) (layer kind : Nat), layer < 256 → 1 ≤ kind → kind ≤ 3 →
    let k := key (0x2400 + layer) kind
    let len := s.fld k cwin_window * s.F
    let c := 4 * layer + kind
    let n := mget 0 s.job.layerWin c
    let th := s.fld k cwin_threshold
    (∀ j, s.job.bound = true → 1 ≤ s.fld k cwin_window → s.clk = s.job.s0 + (j + 1) * len → mget 0 s.job.winNext c ≤ j →
      let v : State := { s with job := { s.job with
        layerWin := mset 0 s.job.layerWin c 0
        winNext := mset 0 s.job.winNext c (j + 1) } }
      (s.flag (key 0x2500 1) cglb_cal_events_enable = true → th ≠ 0 → th ≤ n → exec (.calWindowClose layer kind) s =
        .next { v with job := { v.job with
          calQ := s.job.calQ ++ [⟨layer, kind, j, (s.job.n0 + j * s.fld k cwin_window) % 2 ^ 48, n, th⟩] } }) ∧
      (s.flag (key 0x2500 1) cglb_cal_events_enable = false ∨ th = 0 ∨ n < th → exec (.calWindowClose layer kind) s = .next v)) ∧
    (∀ (e : CalEvent) (es : List CalEvent), s.job.calQ = e :: es → e.layer = layer → e.kind = kind →
      let a := key (0x2400 + layer) 7
      let seen := [cstat_saturation_seen, cstat_underuse_seen, cstat_floor_seen].getD (kind - 1) cstat_floor_seen
      let cnt := [cstat_saturation_events, cstat_underuse_events, cstat_floor_events].getD (kind - 1) cstat_floor_events
      let j := e.window % 2 ^ 32
      ∃ u : State, u.job = { s.job with calQ := es } ∧ u.fld a seen = 1 ∧ u.fld a cnt = s.oneMore a cnt ∧
        (∀ b, b ≠ a → u.ent b = s.ent b) ∧
        exec .calibrationEvent s = .next ((u.emcy 2 (layer + 2 ^ 8 * kind + 2 ^ 32 * j + 2 ^ 64 * e.frame +
          2 ^ 128 * (e.count % 2 ^ 32) + 2 ^ 160 * e.threshold)).record 11 (layer + 2 ^ 8 * kind)
            (j + 2 ^ 32 * e.frame + 2 ^ 96 * (e.count % 2 ^ 32) + 2 ^ 128 * (e.threshold % 2 ^ 32) + 2 ^ 160 * j))) ∧
    (s.job.calQ = [] → exec .calibrationEvent s = .next s) ∧
    ((s.job.layerTot.map Prod.fst).Pairwise (· < ·) → ∃ u, exec .layerTotalsRefresh s = .next u ∧ { u with dict := s.dict } = s ∧
      (∀ v, (c, v) ∈ s.job.layerTot → u.ent (key (0x2400 + layer) (3 + kind)) = min v (2 ^ 48 - 1)) ∧
      ∀ b, (∀ x ∈ s.job.layerTot, b ≠ key (0x2400 + x.1 / 4) (3 + x.1 % 4)) → u.ent b = s.ent b)

/-- R251, R290: a mark that reaches the ridge is discarded, faults or is written by the first row of the table that applies; two
marks for one score in one clk are mark_clash at the lower tile and neither takes effect. R292, R295, R298: in clk e0(n) the
ridge evaluates every seed:
class c is accepted when some seed with c in its mask fires and reaches its prescale, and raw when one fires; the decision enters
the pin 12 clk later with the pin delay that puts its accept edge at t_ref + L; a void frame sends a void record and counts
nothing else. Where mark_clash is located is log entry 79. -/
def Obligations.MarksAreSortedAndTheRidgeEvaluates : Prop :=
  (∀ (s : State) (p : Nat) (m : MarkRec), tileOk s.grade p = true →
     s.dec.marks.find? (fun x => s.markDue x && x.tile == p) = some m →
     let v : State := { s with dec := { s.dec with marks := s.dec.marks.filter (fun x => x != m) } }
     let i := frameIndex s.job.n0 m.frame
     let n := i.toNat
     let e0 := s.job.s0 + n * s.F + s.fld (key 0x2800 1) dec_ridge_close
     let key_ := 1024 * n + m.score
     let done := exec (.markArrival p) s
     (∀ x, s.dec.marks.filter (fun y => s.markDue y && y.score == m.score && y.tile != p) = [x] →
       let low := if x.tile < p then x else m
       let high := if x.tile < p then p else x.tile
       let w : State := { s with dec := { s.dec with marks := s.dec.marks.filter (fun y => !(s.markDue y && y.score == m.score)) } }
       done = .next (w.tileFault 6 10 low.tile low.addr (loc 1 high + 2 ^ 16 * m.score))) ∧
     ((∀ x ∈ s.dec.marks, ¬ (s.markDue x = true ∧ x.tile ≠ p ∧ x.score = m.score)) →
       (s.job.bound = false ∨ s.running = false ∨ i < 0 → done = .next v) ∧
       (s.job.bound = true → s.running = true → 0 ≤ i →
         (s.frameVoid n = true → s.job.s0 + n * s.F + s.E + 7 ≤ s.clk → done = .next v) ∧
         (s.frameVoid n = false → e0 ≤ s.clk → done = .next (v.markFault 1 m)) ∧
         (s.clk < s.job.s0 + n * s.F + s.E + 7 ∨ s.frameVoid n = false → s.clk < e0 → s.nextFrame + 64 ≤ n →
           done = .next (v.markFault 2 m)) ∧
         (s.clk < s.job.s0 + n * s.F + s.E + 7 ∨ s.frameVoid n = false → s.clk < e0 → n < s.nextFrame + 64 →
           (∀ y, mget none s.dec.scores key_ = some y → done = .next (v.markFault 3 m)) ∧
           (mget none s.dec.scores key_ = none → done = .next { v with dec := { v.dec with
             scores := mset none s.dec.scores key_ (some m.value) } }))))) ∧
  (∀ (s : State) (n : Nat), s.job.bound = true → s.clk = s.job.s0 + s.fld (key 0x2800 1) dec_ridge_close + n * s.F →
     s.dec.nextEval ≤ n →
     let frame := (s.job.n0 + n) % 2 ^ 48
     let l := s.fld (key 0x2800 1) dec_latency_l
     let tag := mget none s.dec.tags frame
     (s.frameVoid n = true ∨ s.running = false ∨ tag = none →
       ∃ u, exec .ridgeEvaluate s = .next u ∧ onlyEntry s { u with dec := s.dec } (key 0x2800 6) ∧ u.dec.nextEval = n + 1 ∧
         u.dec.decided = s.dec.decided ++ [⟨n, frame, s.clk + 12, s.dec.dNom, 0, 0, true, 0⟩]) ∧
     (s.frameVoid n = false → s.running = true → ∀ t, tag = some t →
       ∃ u r, exec .ridgeEvaluate s = .next u ∧ { u with dict := s.dict, dec := s.dec } = s ∧ u.dec.nextEval = n + 1 ∧
         u.dec.decided = s.dec.decided ++ [r] ∧ r.n = (n : Int) ∧ r.frame = frame ∧ r.void = false ∧ r.out = s.clk + 12 ∧
         (r.out : Int) + r.d + 6 + 4 = t.2.1 + l ∧
         (∀ c, c < 8 → (bit r.accept c = true ↔
           ∃ d, d < 256 ∧ s.seedAccepts n d ∧ bit (s.fld (key (0x2A00 + d) 9) seed_class_mask) c = true)) ∧
         (∀ c, c < 8 → (bit r.raw c = true ↔
           ∃ d, d < 256 ∧ s.seedFires n d ∧ bit (s.fld (key (0x2A00 + d) 9) seed_class_mask) c = true)) ∧
         (∀ d, d < 256 → u.ent (key (0x2A00 + d) 10) = s.ent (key (0x2A00 + d) 10) ∨ s.seedFires n d) ∧
         (∀ d, d < 256 → s.seedAccepts n d → u.ent (key (0x2A00 + d) 12) = 0) ∧
         (∀ d, d < 256 → ¬ s.seedFires n d → u.ent (key (0x2A00 + d) 12) = s.ent (key (0x2A00 + d) 12)) ∧
         (∀ c, c < 8 → (bit r.accept c = true → u.fld (key (0x2810 + c) 1) cnt48 = s.oneMore (key (0x2810 + c) 1) cnt48) ∧
           (bit r.accept c = false → u.ent (key (0x2810 + c) 1) = s.ent (key (0x2810 + c) 1)))))

/-- R298, R299, R302, R305, R306, R309, R321, R382, R388, R390: a decision that enters the pin forms a capture request from its
accept, unless it is void, no capturing class is in it, the ring is frozen, or the berth captures, in which case the berth's result
forms it; in a berth its summary leaves on lane 3 of every berth bundle; one with a negative delay is latency_unmet and is discarded.
A decision waits d clk in the pin; the record whose clk has come leaves the flashing as that
clk ends, once every doubt of it has registered: it pulses the outputs of its classes and marks for accept_width clk, merging with a
pulse that is still low, unless the flashing forces, which counts it as flashed; the accept message follows the layout of R309
and goes on the egress bundles that carry accept messages. That an accept after the fault clk forms no request is log entry 50. -/
def Obligations.DecisionsLeaveThroughPinAndFlashing : Prop :=
  ∀ (s : State) (r : PinRec),
    (0 ≤ r.d → (s.enterPin r).dec.pin = s.dec.pin ++ [{ r with out := r.out + 6 + r.d.toNat }]) ∧
    (let word := fun (c : Nat) (f : Fld) => s.fld (key (0x2910 + c) 1) f
     let classes := (List.range 8).filter (fun c => bit r.accept c && s.flag (key (0x2910 + c) 1) ccap_capture_enable)
     let berthTakes := s.flag (key 0x2D00 1) bctl_berth_capture = true ∧ 1 < s.berthSize
     let own := r.void = false ∧ s.running = true ∧ ¬ berthTakes
     let u := s.enterPin r
     (r.d < 0 → r.void = true → u = s) ∧
     (r.d < 0 → r.void = false → s.active = true → u.dec.pin = s.dec.pin ∧ u.jobState = FAULTED ∧
       ∃ x ∈ u.flt.recs, x.family = 7 ∧ x.cause = 4 ∧ x.frame = r.frame) ∧
     (0 ≤ r.d → r.void = true → u.dict = s.dict) ∧
     (0 ≤ r.d → r.void = false → u.fld (key 0x2800 2) pin_d_min = min (s.fld (key 0x2800 2) pin_d_min) r.d.toNat) ∧
     (0 ≤ r.d → ¬ own ∨ classes = [] ∨ s.flag (key 0x2900 2) caps_frozen = true → u.cap = s.cap) ∧
     (0 ≤ r.d → own → s.flag (key 0x2900 2) caps_frozen = false → ∀ c0 cs, classes = c0 :: cs →
       (256 ≤ s.cap.reqs.length → u.cap.reqs = s.cap.reqs ∧ u.fld (key 0x2908 2) cnt48 = s.oneMore (key 0x2908 2) cnt48) ∧
       (s.cap.reqs.length < 256 → u.fld (key 0x2908 1) cnt48 = s.oneMore (key 0x2908 1) cnt48 ∧
         u.cap.nextSeq = (s.cap.nextSeq + 1) % 2 ^ 32 ∧
         ∃ q, u.cap.reqs = s.cap.reqs ++ [q] ∧ q.seq = s.cap.nextSeq ∧ q.origin = 0 ∧ q.frame = r.frame ∧ q.accept = r.accept ∧
           q.raw = r.raw ∧ (q.link = true ↔ word c0 ccap_destination = 1) ∧ (q.window = true ↔ word c0 ccap_to_window = 1) ∧
           (∀ c ∈ classes, word c ccap_pre_count ≤ q.pre ∧ word c ccap_post_count ≤ q.post) ∧
           (∃ c ∈ classes, q.pre = word c ccap_pre_count) ∧ (∃ c ∈ classes, q.post = word c ccap_post_count) ∧
           ∀ i, bit q.mask i = true ↔ ∃ c ∈ classes, bit (word c ccap_quay_mask) i = true)) ∧
     (∀ x : SummRec, s.inHarbour = false →
       (berthTakes → x.m.void = false → s.running = true → s.berthResult x = s.acceptRequest 0 x.m.frame x.m.accept x.m.raw) ∧
       (s.flag (key 0x2D00 1) bctl_berth_capture = false ∨ x.m.void = true ∨ s.running = false → s.berthResult x = s)) ∧
     (s.berthSize ≤ 1 → s.sendSummary r = s) ∧
     (1 < s.berthSize →
       let m : Summ := {
         frame := r.frame
         accept := r.accept
         raw := r.raw
         void := r.void
         faulted := decide (s.jobState = FAULTED) || !s.flag kTime tsts_time_lock
         module := s.moduleNumber
         excluded := 0
         included := 0
         tail := s.frameStamp r.frame }
       let v := s.sendSummary r
       v.dict = s.dict ∧ v.mem = s.mem ∧ v.berth.peers = s.berth.peers ++ [⟨s.position, s.clk, m⟩] ∧
         ∀ k, k < 31 → s.berthBundle k = true → ∃ leave wait, Output.link k [3] leave wait (summBlocks 0 m) ∈ v.out) ∧
     (∀ x, s.dec.decided.filter (fun y => y.out == s.clk) = [x] →
       s.tickPin = ({ s with dec := { s.dec with decided := s.dec.decided.filter (fun y => y.out != s.clk) } } : State).enterPin x ∧
       s.summaries = s.sendSummary x) ∧
     ((∀ x ∈ s.dec.decided, x.out ≠ s.clk) → s.tickPin = s ∧ s.summaries = s) ∧
     (∀ x, s.berth.result.filter (fun y => decide (y.clk ≤ s.clk)) = [x] →
       s.tickBerth = ({ s with berth := { s.berth with
         result := s.berth.result.filter (fun y => !decide (y.clk ≤ s.clk)) } } : State).berthResult x)) ∧
    (s.dec.pin.find? (fun r => r.out == s.clk) = some r →
      (s.dec.leaving = none → exec .pinRelease s = .next { s with dec := { s.dec with
        pin := s.dec.pin.filter (fun x => x.n != r.n), leaving := some r } }) ∧
      (s.dec.leaving ≠ none → exec .pinRelease s = .next s)) ∧
    (s.dec.leaving = none → s.leaveFlashing = s) ∧
    (s.dec.leaving = some r →
      let flashed := s.flag kFlsh flsh_forcing || decide (r.out < s.dec.forceEnd + 6)
      let w := s.fld (key 0x2800 3) outc_accept_width
      let pulsed := fun (o : Nat) => (o < 8 ∧ bit r.accept o = true) ∨ (8 ≤ o ∧ o < 12 ∧ bit r.marks (o - 8) = true)
      let u := s.leaveFlashing
      u.dec.leaving = none ∧ u.dec.pin = s.dec.pin ∧ u.mem = s.mem ∧ u.job = s.job ∧
        (flashed = true → u.dec.pulses = s.dec.pulses ∧
          ∀ c, c < 8 → bit r.accept c = true → u.fld (key (0x2810 + c) 2) cnt48 = s.oneMore (key (0x2810 + c) 2) cnt48) ∧
        (flashed = false → ∀ o, (pulsed o → mget none u.dec.pulses o = some
            (match mget none s.dec.pulses o with
             | some p => (if s.clk + 4 < p.2 then p.1 else s.clk + 4)
             | none => s.clk + 4, s.clk + 4 + w)) ∧
          (¬ pulsed o → mget none u.dec.pulses o = mget none s.dec.pulses o)) ∧
        (s.flag (key 0x2800 3) outc_accept_msg_enable = true → s.jobState = RUNNING ∨ s.jobState = PAUSED →
          r.frame < 2 ^ 48 → r.accept < 2 ^ 8 → r.raw < 2 ^ 8 →
          ∃ m, (∀ k ∈ s.acceptBundles, ∃ leave wait, Output.link k [3] leave wait [0x2D + 2 ^ 8 * r.frame + 2 ^ 56 * 4, m % 2 ^ 64, m / 2 ^ 64] ∈ u.out) ∧
            m % 2 ^ 48 = r.frame ∧
            m / 2 ^ 48 % 2 ^ 8 = (if r.void = true ∨ flashed = true then 0 else r.accept) ∧
            m / 2 ^ 56 % 2 ^ 8 = (if r.void = true ∨ flashed = true then 0 else r.raw) ∧
            (m / 2 ^ 64 % 2 = 1 ↔ r.void = true) ∧ (m / 2 ^ 65 % 2 = 1 ↔ flashed = true) ∧
            m / 2 ^ 67 % 2 ^ 13 = s.moduleNumber ∧ m / 2 ^ 80 % 2 ^ 16 = s.ent (key 0x2B00 1) % 2 ^ 16 ∧
            m / 2 ^ 96 % 2 ^ 10 = r.d.toNat % 2 ^ 10)) ∧
    (∀ o p, o < 12 → mget none s.dec.pulses o = some p → p.2 ≤ s.clk → exec (.acceptPulseEnd o) s =
      .next (({ s with dec := { s.dec with pulses := mset none s.dec.pulses o none } } : State).emit (.pulseEnd o p.2)))

/-- R301, R302, R307: a doubt source that holds registers (a menu check that fails also faults the job): it forces the outputs,
raises FAULT and cuts pulses at clk + 6; once every other source has cleared and release_hold has ended, the outputs are released
and FAULT goes low. R308: HOLDOFF rises with its first cause and falls once every cause has stayed clear for holdoff_release clk.
doubt_seen is log entry 67; that the end of release_hold is fixed when it starts is log entry 79. -/
def Obligations.DoubtAndHoldoffFollowTheirCauses : Prop :=
  (∀ (s : State) (k : Nat), k < 8 →
     let d := s.fld kFlsh flsh_doubt % 256
     (k = 2 ∨ k = 3 ∨ k = 5 ∨ k = 6 → s.doubtHolds k = true) ∧
     (s.doubtHolds k = false → exec (.doubtRegister k) s = .next s) ∧
     (s.doubtHolds 4 = true → bit s.doubtMain 4 = false →
       exec (.doubtRegister 4) s = .next ((s.ridgeFault 5 0 0).setDoubt 4 true)) ∧
     (s.doubtHolds k = true → (k = 4 → bit s.doubtMain 4 = true) →
       ∃ u, exec (.doubtRegister k) s = .next u ∧ onlyDecision s u ∧ (∀ j, j ≠ kFlsh → u.ent j = s.ent j) ∧
       u.fld kFlsh flsh_forcing = 1 ∧ u.fld kFlsh flsh_doubt = (if d / 2 ^ k % 2 = 1 then d else d + 2 ^ k) ∧
       u.dec.holdEnd = none ∧ u.dec.pin = s.dec.pin ∧ u.dec.decided = s.dec.decided ∧
       (s.fld kFlsh flsh_forcing = 0 → u.dec.faultHigh = true ∧ u.fld kFlsh flsh_doubt_seen = 1 ∧
         (∀ e ∈ u.dec.pulses, ∀ p, e.2 = some p → p.2 ≤ s.clk + 6) ∧
         (s.dec.driven = true → .pinFault true (s.clk + 6) ∈ u.out))) ∧
     (d / 2 ^ k % 2 = 1 → d ≠ 2 ^ k → (s.setDoubt k false).fld kFlsh flsh_doubt = d - 2 ^ k ∧
       (s.setDoubt k false).dec.holdEnd = s.dec.holdEnd) ∧
     (d = 2 ^ k → (s.setDoubt k false).dec.holdEnd = some (s.clk + s.fld (key 0x2800 3) outc_release_frames * s.F) ∧
       (s.setDoubt k false).fld kFlsh flsh_forcing = s.fld kFlsh flsh_forcing) ∧
     (∀ e, s.dec.holdEnd = some e → e ≤ s.clk → d = 0 → ∃ u, exec .releaseHoldEnd s = .next u ∧ onlyDecision s u ∧
       (∀ j, j ≠ kFlsh → u.ent j = s.ent j) ∧ u.fld kFlsh flsh_forcing = 0 ∧ u.fld kFlsh flsh_doubt = 0 ∧
       u.dec.faultHigh = false ∧ u.dec.holdEnd = none ∧ (s.dec.driven = true → .pinFault false s.clk ∈ u.out)) ∧
     (∀ e, s.dec.holdEnd = some e → s.clk < e ∨ d ≠ 0 → exec .releaseHoldEnd s = .next s)) ∧
  (∀ s : State,
     let u := s.refreshHold
     let hold := s.jobState ≠ RUNNING ∨ s.fld kJob jst_pause_pending = 1 ∨ s.fld kFlsh flsh_forcing = 1 ∨
       s.fld (key 0x2900 2) caps_hold_capture = 1 ∨ s.fld (key 0x2800 3) outc_holdoff_force = 1
     (hold → u.fld kFlsh flsh_holdoff_now = 1 ∧ u.dec.holdClear = none) ∧
     (¬ hold → u.fld kFlsh flsh_holdoff_now = s.fld kFlsh flsh_holdoff_now ∧ (s.dec.holdClear = none → u.dec.holdClear = some s.clk)) ∧
     (∀ c, s.dec.holdClear = some c → ¬ hold → s.fld kFlsh flsh_holdoff_now = 1 →
       (c + s.fld (key 0x2800 3) outc_holdoff_release ≤ s.clk → ∃ v, exec .holdoffRelease s = .next v ∧
         v.fld kFlsh flsh_holdoff_now = 0 ∧ (∀ j, j ≠ kFlsh → v.ent j = s.ent j) ∧ { v with dict := s.dict, out := s.out } = s) ∧
       (s.clk < c + s.fld (key 0x2800 3) outc_holdoff_release → exec .holdoffRelease s = .next s)))

/-- R294, R301: while a job is ARMED, RUNNING or PAUSED a menu check that finds the CRC it loaded and no uncorrectable word
changes nothing; one that does not raises the ridge fault menu and doubt source 4. The frame of its fault is log entry 51. -/
def Obligations.MenuChecksGuardTheMenu : Prop :=
  ∀ s : State, s.active = true →
    (crc32c s.menuImage = s.ent (key 0x2B00 3) → exec (.menuCheck false) s = .next s) ∧
    (crc32c s.menuImage ≠ s.ent (key 0x2B00 3) → ∀ b, exec (.menuCheck b) s = .next ((s.ridgeFault 5 0 0).setDoubt 4 true)) ∧
    exec (.menuCheck true) s = .next ((s.ridgeFault 5 0 0).setDoubt 4 true) ∧
    (∀ t : State, (t.setDoubt 4 true).fld kFlsh flsh_forcing = 1 ∧ (t.setDoubt 4 true).fld kFlsh flsh_doubt / 2 ^ 4 % 2 = 1)

/-- R320 to R323: a host request is formed, after the averages of its clk, while the job runs or is paused, every quay of its mask
lands on a die with a tender for capture, and the queue has room: it joins the queue with the next record_seq and counts; refused,
it changes nothing, but a full queue counts it. R326, R346, R347, R353: an abort names one request or all that are not terminal, and
has its effect as its clk ends, so that a record that completes in it wins; its reply says whether there was one. A request without
copies is gone or delivered as ABORTED at once; copies that have not started are withdrawn, those that have run on first. Rearm
leaves the freeze. That a full queue counts a host request whatever else refuses it, and which windows an abort does not name, are
log entry 50. -/
def Obligations.HostCapturesAbortsAndRearm : Prop :=
  (∀ (s : State) (f pre post mask dest : Nat),
     let t := s.releaseSlots
     let run := t.jobState = RUNNING ∨ t.jobState = PAUSED
     let lands := ∀ q, q < 20 → mask / 2 ^ q % 2 = 1 → t.landOn q = true
     let free := ∀ q, q < 20 → mask / 2 ^ q % 2 = 1 → t.dieAllGrid (quayDie q) = false
     let room := t.cap.reqs.length < 256
     let done := exec (.hostCapture f pre post mask dest) s
     ((∀ q ∈ s.slipQuays, s.releaseSlot q = s) → t = s) ∧
     (run → lands → free → room → ∃ u r, done = .next u ∧ u.cap.reqs = t.cap.reqs ++ [r] ∧
       r.seq = t.cap.nextSeq ∧ u.cap.nextSeq = (t.cap.nextSeq + 1) % 2 ^ 32 ∧ r.origin = 1 ∧ r.frame = f ∧ r.pre = pre ∧
       r.post = post ∧ r.mask = mask ∧ (r.link = true ↔ dest = 1) ∧ r.window = false ∧ r.stage = 0 ∧
       (r.doubt = true ↔ t.fld kFlsh flsh_forcing = 1) ∧ u.mem = t.mem ∧
       u.fld (key 0x2908 1) cnt48 = t.oneMore (key 0x2908 1) cnt48 ∧
       u.fld kCaps caps_queue_used = (t.cap.reqs.length + 1) % 2 ^ caps_queue_used.w) ∧
     (room → ¬ run ∨ ¬ lands ∨ ¬ free → done = .next t) ∧
     (¬ room → ∃ u, done = .next u ∧ onlyEntry t u (key 0x2908 2) ∧
       u.fld (key 0x2908 2) cnt48 = t.oneMore (key 0x2908 2) cnt48)) ∧
  (∀ (s : State) (q : Nat) (all : Bool),
     let k := key 0x2900 5
     let named := s.cap.reqs.filter (fun r => (all || r.seq == q) && r.stage != 5 && !(r.stage == 4 && r.result == 3))
     let v := named.foldl (fun s r => s.abortReq r) s
     let gone := fun (r : Req) => (s.capCount 5).dropReq r.seq
     let off := fun (r : Req) => ({ r with busy := [], reread := [], again := 0, stage := 6 } : Req)
     exec (.captureAbort q all) s = .next (s.registerAbort q all true) ∧
     (∀ a, s.cap.aborts = [a] → s.runAborts = ({ s with cap := { s.cap with aborts := [] } } : State).runAbort a) ∧
     s.runAbort (q, all, true) = (v.setFld k abs_record_seq q).setFld k abs_reply (if named.isEmpty then 2 else 1) ∧
     s.runAbort (q, all, false) = v ∧
     (∀ r, r.offset = none → r.busy = [] → s.abortReq r = gone r) ∧
     (∀ r o, r.offset = some o → r.busy = [] → s.abortReq r = (gone r).termReq (off r) 3) ∧
     (∀ r, r.busy ≠ [] → r.stage ≠ 4 → (∀ e ∈ r.busy, s.copyStarted r.id e.1 e.2 = true) →
       ∃ u, s.abortReq r = u ∧ u.cap.aborted = s.cap.aborted ++ [{ off r with busy := r.busy }] ∧
         u.cap.reqs = s.cap.reqs.filter (fun x => x.seq != r.seq) ∧ u.mem = s.mem ∧ u.cap.host = s.cap.host ∧ u.cap.link = s.cap.link) ∧
     (∀ r i t, r.busy = [(i, t)] → s.copyStarted r.id i t = false →
       s.abortReq r = (s.withdrawFrag r.id i t).abortReq { r with busy := [] }) ∧
     (∃ u, exec .rearm s = .next u ∧ u.fld kCaps caps_frozen = 0 ∧ u.fld kCaps caps_freeze_frame = 0 ∧ u.cap.frozenSeen = false ∧
       u.cap.reqs = s.cap.reqs ∧ (∀ j, j ≠ kCaps → u.ent j = s.ent j) ∧ u.mem = s.mem))

/-- R267, R268, R327, R328, R337, R344: the first waiting request starts once its space is reserved (a window takes a free buffer
instead), and its fragments queue at a tender of their die; a copy ends at its tender's head: committed, the course's bytes are in
place, and its reread follows from the next clk; the reread finds it whole, has it retried once, or makes it missing; a stack or
channel out of service fails it (R275), and a tender that refuses it (R271); a fragment without a header by r(q, N) + 64 F is
missing. The last copy of an aborted request delivers it (R347). A request without fragments is whole at once. That a copy's words
are in place when it commits, that a refused copy has failed, and which word was uncorrectable are log entry 77; the fence of a
block reset is log entry 65; what the payload of an aborted record holds is free (log entry 8). -/
def Obligations.FragmentsAreCopiedAndReread : Prop :=
  ∀ (s : State) (r : Req) (k : Nat),
    (s.cap.reqs.find? (fun r => r.stage == 0) = some r →
      let res := s.reserveFor r
      (r.window = false → (s.ringOf r.link).fits (s.recordBytes r) = true → r.offset = none →
        ∃ off, res.2 = { r with offset := some off } ∧
          (0 < r.count → exec .requestStart s = .next ((res.1.putReq { r with stage := 1, offset := some off }).issueReq r.seq)) ∧
          (r.count = 0 → exec .requestStart s = .next (res.1.finishReq res.2 1))) ∧
      (r.window = false → (s.ringOf r.link).fits (s.recordBytes r) = false → r.offset = none → exec .requestStart s = .next s) ∧
      (r.window = true → ∀ b, s.freeBuffer = some b →
        let r' := { r with stage := 1, buffer := some b }
        (0 < r.count → exec .requestStart s = .next ((s.putReq r').issueReq r.seq)) ∧
        (r.count = 0 → exec .requestStart s = .next (s.settleReq r'))) ∧
      (r.window = true → s.freeBuffer = none → exec .requestStart s = .next s)) ∧
    (∀ t, s.nextTender (quayDie (r.fragment k).2) = some t →
      (s.tenderFull t = false → s.copyRefused t (s.fragDesc r k t) = false →
        (s.issueFrag r k).1.tender t = (s.enterDesc t ⟨0, s.fragDesc r k t, 1, s.clk, 40, some (r.id, k), none⟩).tender t ∧
        (s.issueFrag r k).2.busy = r.busy ++ [(k, t)] ∧ bit (s.issueFrag r k).2.issued k = true ∧ (s.issueFrag r k).1.mem = s.mem) ∧
      (s.tenderFull t = false → s.copyRefused t (s.fragDesc r k t) = true →
        (s.issueFrag r k).1.tender t = s.tender t ∧ (s.issueFrag r k).2.busy = r.busy ∧
        (s.issueFrag r k).2.reread = r.reread ++ [(k, false, s.clk)] ∧
        (s.issueFrag r k).1.fld (kTend t) tend_refusals = min (s.fld (kTend t) tend_refusals + 1) (2 ^ tend_refusals.w - 1)) ∧
      (s.tenderFull t = true → s.issueFrag r k = (s, r))) ∧
    (∀ t ok,
      let here := fun (x : Req) (e : Nat × Nat) => e.1 == k && s.copyStarted x.id k e.2
      (s.cap.reqs ++ s.cap.aborted).find? (fun x => x.seq == r.seq && x.stage != 4 && x.busy.any (here x)) = some r → r.busy.find? (here r) = some (k, t) →
      let f := r.fragment k
      let fine := ok && !s.copyDown r k
      let v := (if fine then s else s.noteBadCopy r k).leaveTender t fine
      let bytes := if r.origin = 2 then r.data ++ List.replicate (r.avgBytes - r.data.length) 0
        else readBytes v.mem (v.slotPtr f.2 f.1) (v.courseSize f.2)
      let w := if fine then v.putFrag r k bytes else v
      let r' := { r with busy := r.busy.filter (fun e => e.1 != k) }
      let aborted := ∃ x ∈ s.cap.aborted, x.id = r.id
      let done := exec (.fragmentCopyDone r.seq k ok) s
      (¬ aborted → r.origin ≠ 2 → fine = true ∨ bit r.retry k = false →
        done = .next (w.putReq { r' with reread := r.reread ++ [(k, fine, s.clk)] })) ∧
      (¬ aborted → r.origin = 2 ∨ (fine = false ∧ bit r.retry k = true) → done = .next (w.resolveFrag r' k fine)) ∧
      (aborted → r'.busy = [] → done = .next (w.endAborted r'))) ∧
    (∀ ok c, s.findReq r.seq = some r → r.reread.find? (fun e => e.1 == k && decide (e.2.2 < s.clk)) = some (k, ok, c) →
      let f := r.fragment k
      let a := s.slotPtr f.2 f.1
      let valid := s.headerAt a = some f.1
      let whole := ok = true ∧ readBytes s.mem a 128 = s.copiedHeader r k
      let done := exec (.fragmentRereadDone r.seq k) s
      (valid → whole → done = .next (s.resolveFrag r k true)) ∧
      (valid → ¬ whole → bit r.retry k = false → done = .next ((s.capCount 7).putReq { r with
        reread := r.reread.filter (fun e => e.1 != k)
        retry := r.retry + 2 ^ k
        again := if bit r.again k then r.again else r.again + 2 ^ k
        retried := true })) ∧
      (¬ valid ∨ (¬ whole ∧ bit r.retry k = true) → done = .next (s.resolveFrag r k false))) ∧
    (s.findReq r.seq = some r → (∀ e ∈ r.reread, e.1 = k → s.clk ≤ e.2.2) → exec (.fragmentRereadDone r.seq k) s = .next s) ∧
    (s.findReq r.seq = some r → r.stage = 1 → k < r.count → bit r.issued k = false → s.job.bound = true →
      let f := r.fragment k
      (s.job.s0 : Int) + s.entryOffset f.2 + (frameIndex s.job.n0 f.1 + 64) * s.F ≤ s.clk → r.origin ≠ 2 →
      s.fragReady f.1 f.2 = false → exec (.fragmentTimeout r.seq k) s = .next (s.resolveFrag r k false)) ∧
    (∀ st, (s.finishReq r st).cap.reqs = s.cap.reqs.filter (fun x => x.seq != r.seq) ∧
      (s.finishReq r st).fld (key 0x2908 (2 + st)) cnt48 = s.oneMore (key 0x2908 (2 + st)) cnt48 ∧ (s.finishReq r st).mem = s.mem)

/-- R344, R345, R383, R463, R464: a record reserves its bytes after the reservation before it, or from offset 0 behind a pad, which
is written when 256 bytes or more are left (pad and record are reserved together, log entry 79), and waits while it does not fit. A
terminal record's header and bitmap are written to its ring, and what is finished at the head, pads with it, is published in the order
of reservation: host_producer advances; behind an unfinished head nothing is. The host is told by vector 2 and frees space with
host_consumer; a record of the link ring leaves whole, with its bytes, on an egress bundle in service (log entry 65), and pads are
passed over. Of a record that ended ABORTED the payload bytes are open (R347). -/
def Obligations.EgressRingsDeliverRecords : Prop :=
  ∀ (s : State) (e : Resv) (v : Nat),
    let g := s.cap.host
    let l := s.cap.link
    (∀ h b n, g.resv = [e] → e.term = some (h, b, n) → e.done = false → e.seq ≠ none → s.rst.ddrZero = true →
      ∃ u, exec (.recordPublish false) s = .next u ∧ u.cap.host.resv = [] ∧
        u.cap.host.producer = (e.off + e.len) % max 1 g.size ∧ u.ent (key 0x2940 2) = (e.off + e.len) % max 1 g.size ∧
        (∀ i, i < 256 → (readByte u.mem (ddrBase + g.base + e.off + i)).toNat = h / 2 ^ (8 * i) % 256) ∧
        (∀ i, i < n → (readByte u.mem (ddrBase + g.base + e.off + 256 + i)).toNat = b / 2 ^ (8 * i) % 256) ∧
        (let top := if headerStatus h = 3 then max (256 + n) e.len else 256 + n
         ∀ a, a < ddrBase + g.base + e.off ∨ ddrBase + g.base + e.off + top ≤ a → readByte u.mem a = readByte s.mem a) ∧
        u.cap.notified = s.cap.notified + e.len ∧ u.cap.firstUnnotified = some (s.cap.firstUnnotified.getD s.clk)) ∧
    (∀ h b n, l.resv = [e] → e.term = some (h, b, n) → e.done = false → ∃ u, exec (.recordPublish true) s = .next u ∧
      u.cap.link.resv = [] ∧ u.cap.link.unsent = l.unsent ++ [{ e with done := true }] ∧ u.dict = s.dict) ∧
    (∀ c, s.cap.firstUnnotified = some c →
      (s.fld (key 0x2F20 1) hlc_notify_bytes ≤ s.cap.notified ∨ c + s.fld (key 0x2F20 1) hlc_notify_us * 1250 ≤ s.clk →
        exec .hostRingNotify s = .next (({ s with cap := { s.cap with notified := 0, firstUnnotified := none } } : State).raise 2)) ∧
      (s.cap.notified < s.fld (key 0x2F20 1) hlc_notify_bytes → s.clk < c + s.fld (key 0x2F20 1) hlc_notify_us * 1250 →
        exec .hostRingNotify s = .next s)) ∧
    (∀ (link : Bool) (pre post : List Resv) (x : Resv), (s.ringOf link).resv = pre ++ x :: post → (∀ y ∈ pre, y.done = true) →
      x.done = false → (∀ y ∈ x :: post, y.term = none ∨ y.done = true) →
      (pre = [] → exec (.recordPublish link) s = .next s) ∧
      (∀ ps y, pre = ps ++ [y] → ∃ u, exec (.recordPublish link) s = .next u ∧ (u.ringOf link).resv = x :: post ∧ u.mem = s.mem ∧
        (link = true → u.cap.link.unsent = l.unsent ++ pre ∧ u.dict = s.dict) ∧
        (link = false → u.cap.host.producer = (y.off + y.len) % max 1 g.size ∧ u.ent (key 0x2940 2) = (y.off + y.len) % max 1 g.size ∧
          u.cap.notified = s.cap.notified + (pre.map (fun p => p.len)).sum ∧ ∀ j, j ≠ key 0x2940 2 → u.ent j = s.ent j))) ∧
    (∀ x h b n, g.resv = [x, e] → x.term = none → x.done = false → x.off ≠ e.off → e.term = some (h, b, n) → e.done = false →
      ∃ u, exec (.recordPublish false) s = .next u ∧ u.cap.host = { g with resv := [x, { e with done := true }] } ∧
        u.dict = s.dict ∧ u.cap.notified = s.cap.notified) ∧
    (∀ r : Req, r.offset = none →
      let y := s.ringOf r.link
      let n := s.recordBytes r
      let left := y.size - y.next
      let at_ := fun (o : Nat) (pads : List Resv) => { y with
        next := (o + n) % max 1 y.size
        resv := y.resv ++ pads ++ [{ off := o, len := n, seq := some r.seq, id := r.id }] }
      (y.fits n = false → s.reserveFor r = (s, r)) ∧
      (y.fits n = true → n ≤ left → s.reserveFor r = (s.setRing r.link (at_ y.next []), { r with offset := some y.next })) ∧
      (y.fits n = true → left < n → left < 256 → s.reserveFor r = (s.setRing r.link (at_ 0 []), { r with offset := some 0 })) ∧
      (y.fits n = true → left < n → 256 ≤ left → s.rst.ddrZero = true →
        (s.reserveFor r).2 = { r with offset := some 0 } ∧
        (s.reserveFor r).1.ringOf r.link = at_ 0 [{ off := y.next, len := left, seq := none, done := true }] ∧
        ∀ i, i < 256 → (readByte (s.reserveFor r).1.mem (ddrBase + y.base + y.next + i)).toNat = padHeader left / 2 ^ (8 * i) % 256)) ∧
    (∀ (q : Nat) (pads es : List Resv), (∀ p ∈ pads, p.seq = none) → e.seq = some q → l.unsent = pads ++ e :: es → s.egressBundles ≠ [] →
      ∃ u k leave wait, exec .linkEgressRecord s = .next u ∧ k ∈ s.egressBundles ∧ u.cap.link.unsent = es ∧
        u.cap.link.consumer = (e.off + e.len) % max 1 l.size ∧
        u.out = .link k (s.recordLanes k) leave wait (recordBlocks s.moduleNumber q (s.ddrRead (l.base + e.off) e.len)) :: s.out ∧
        u.dict = s.dict ∧ u.mem = s.mem) ∧
    (∀ ok : Prop, (ok ↔ v % 64 = 0 ∧ v < max 1 g.size ∧
        (v + g.size - g.consumer) % max 1 g.size ≤ (g.producer + g.size - g.consumer) % max 1 g.size) →
      (ok → exec (.hostConsumerWrite v) s =
        .next (({ s with cap := { s.cap with host := { g with consumer := v } } } : State).setEnt (key 0x2940 3) v)) ∧
      (¬ ok → exec (.hostConsumerWrite v) s = .next s))

/-- R273, R338, R339, R341, R342: a window slot binds the oldest window, when it is whole, and its card enters a tender as a capture
descriptor of one word with card_cm as its completion mark, or waits for a free entry; a verdict keeps a window whose score is above
0 and drops the others; the deadline frees what was dropped and keeps what had no verdict; a kept window's copies move it to its
record once their tenders have come to them (R267). The card's tag and tender are log entry 49, a failed copy of a kept window log
entry 77, which counter a verdict takes and a slot before the binding log entry 79. -/
def Obligations.WindowSlotsBindAndJudge : Prop :=
  ∀ (s : State) (z : Nat),
    let len := s.fld kWslot wslot_slot_length
    let from_ := s.job.s0 + s.fld kWslot wslot_window_offset
    let card := fun (u : State) (v : Nat) =>
      let t := (s.nextTender 0).getD 0
      (s.cap.cards = [] → s.tenderFull t = true → u.cap.cards = [v]) ∧
      (s.cap.cards = [] → s.tenderFull t = false → s.tenderFenced t = false → 393216 ≤ s.fld kWslot wslot_card_row →
        u.cap.cards = [] ∧ u.tender t = s.tender t ∧
        u.fld (kTend t) tend_refusals = min (s.fld (kTend t) tend_refusals + 1) (2 ^ tend_refusals.w - 1)) ∧
      (s.cap.cards = [] → s.tenderFull t = false → s.tenderFenced t = false → s.fld kWslot wslot_card_row < 393216 →
        u.cap.cards = [] ∧ ∃ d : DescRec, u.tender t = (s.enterDesc t d).tender t ∧ d.card = some v ∧ d.source = 1 ∧
          d.clk = s.clk ∧ d.word / 2 ^ 218 % 32 = s.fld kWslot wslot_card_cm ∧ d.word / 2 ^ 223 % 2 = 1 ∧
          d.word / 2 ^ 62 % 2 ^ 19 = s.fld kWslot wslot_card_row)
    (∀ r : Req, s.job.bound = true → s.active = true → 0 < len → s.clk + s.fld kWslot wslot_window_lead = from_ + z * len →
      s.cap.nextSlot ≤ z → s.cap.reqs.find? (fun r => r.window && decide (r.stage < 3)) = some r →
      (r.stage = 2 → ∃ u, exec .windowSlotBind s = .next u ∧ mget none u.cap.slots z = some r.seq ∧ u.cap.nextSlot = z + 1 ∧
        u.cap.reqs = s.cap.reqs.map (fun x => if x.seq = r.seq then { r with stage := 3, slot := z } else x) ∧
        u.net = s.net ∧ u.mem = s.mem ∧ card u (s.windowCard z (some r))) ∧
      (r.stage ≠ 2 → ∃ u, exec .windowSlotBind s = .next u ∧ mget none u.cap.slots z = none ∧ u.cap.nextSlot = z + 1 ∧
        u.cap.reqs = s.cap.reqs ∧ u.net = s.net ∧ u.mem = s.mem ∧ card u (s.windowCard z none))) ∧
    (∀ (p : Nat) (m : MarkRec) (q : Nat) (r : Req), tileOk s.grade p = true →
      s.dec.marks.find? (fun m => m.arrive == s.clk && m.window && m.tile == p) = some m → m.frame = z →
      mget none s.cap.slots z = some q → s.findReq q = some r →
      let v : State := { s with dec := { s.dec with marks := s.dec.marks.filter (fun x => x != m) } }
      let w : State := { v with cap := { s.cap with verdicts := z :: s.cap.verdicts } }
      (z ∉ s.cap.verdicts → s.clk ≤ s.verdictClk z → r.stage = 3 →
        (0 < m.value → exec (.verdictMark p) s = .next (w.keepWindow { r with result := 1, score := m.value })) ∧
        (m.value ≤ 0 → exec (.verdictMark p) s = .next (w.putReq { r with stage := 5, score := m.value }))) ∧
      (z ∈ s.cap.verdicts → exec (.verdictMark p) s = .next (v.capCount 10)) ∧
      (z ∉ s.cap.verdicts → s.verdictClk z < s.clk → exec (.verdictMark p) s = .next (v.capCount 9))) ∧
    (∀ (q : Nat) (r : Req), mget none s.cap.slots z = some q → s.findReq q = some r → r.slot = z → s.verdictClk z ≤ s.clk →
      s.verdictComes z = false →
      (r.stage = 5 → exec (.verdictDeadline z) s = .next ((s.capCount 6).dropReq q)) ∧
      (r.stage = 3 → exec (.verdictDeadline z) s = .next (s.keepWindow { r with result := 2 }))) ∧
    (∀ r : Req, s.findReq r.seq = some r → r.stage = 4 →
      (s.windowStarted r = true → exec (.windowCopyDone r.seq) s = .next (((s.moveWindow r).leaveWindow r).finishReq
        { r with bits := s.windowBits r } (if popCount r.count (s.windowBits r) = r.count then 1 else 2))) ∧
      (s.windowStarted r = false → exec (.windowCopyDone r.seq) s = .next s)) ∧
    (∀ r : Req, s.findReq r.seq = none → s.cap.aborted.find? (fun x => x.seq == r.seq && x.stage == 4) = some r →
      exec (.windowCopyDone r.seq) s = .next ((s.leaveWindow r).endAborted r)) ∧
    (∀ q, mget none s.cap.slots z = some q → s.verdictComes z = true → exec (.verdictDeadline z) s = .next s)

/-- R385: each calibration summary moves its bundle's d_min and d_max; at the end of the calibration frames the largest of both,
and whether a bundle is unstable, go to every peer; from the reports of the whole berth the module fixes d_b and its job runs, or
the calibration fails with a berth fault. R377, R378: a bundle that is not aligned brings nothing. R389, R392: after the calibration
a summary joins those of its peer; one that does not follow on marks a peer of an unmoored berth as restarted (log entry 55), whose
report lets it back in or fails its rejoin. A summary from another berth number than this module's breaks R384 and faults the job (R7,
log entry 55). -/
def Obligations.BerthCalibrationFixesTheDeadline : Prop :=
  ∀ (s : State) (k : Nat), k < 32 →
    let p := s.facing k
    let toD := fun (n : Nat) => (s.clk : Int) - (s.job.s0 + (n * s.F + s.C + 12) : Nat)
    let came := fun (u : State) (m : Summ) => u.berth.peers = s.berth.peers ++ [{ src := p, clk := s.clk, m := m }] ∧
      mget none u.berth.nextOf p = some ((m.frame + 1) % 2 ^ 48) ∧
      mget none u.berth.firstFaulted p = (match mget none s.berth.firstFaulted p with
        | some x => some x
        | none => if m.faulted = true then some m.frame else none)
    (∀ (m : Summ) (n : Nat), s.hears k = true → s.job.bound = true → s.fld kBsts bsts_cal_state = 1 →
      frameIndex s.job.n0 m.frame = n → n < s.calFrames → m.module / 32 = s.berthNo →
      ∃ u, exec (.summaryMessage k m) s = .next u ∧ came u m ∧
        (let d := toD n
         u.fld (kBun k) bun_d_min = min (s.fld (kBun k) bun_d_min) d.toNat ∧
          u.fld (kBun k) bun_d_max = max (s.fld (kBun k) bun_d_max) (min 1023 d.toNat) ∧
          mget 0 u.berth.dHi k = (if mget 0 s.berth.got k = 0 then d else max (mget 0 s.berth.dHi k) d) ∧
          mget 0 u.berth.dLo k = (if mget 0 s.berth.got k = 0 then d else min (mget 0 s.berth.dLo k) d) ∧
          mget 0 u.berth.got k = mget 0 s.berth.got k + 1) ∧
        (∀ j, j ≠ kBun k → u.ent j = s.ent j) ∧ u.mem = s.mem ∧ u.out = s.out) ∧
    (∀ m : Summ, s.hears k = true → s.job.bound = true → s.fld kBsts bsts_cal_state ≠ 1 → s.active = false ∨ m.module / 32 = s.berthNo →
      ∃ u, exec (.summaryMessage k m) s = .next u ∧ came u m ∧ u.mem = s.mem ∧ u.out = s.out ∧
        (s.moored = true ∨ mget none s.berth.nextOf p = none ∨ mget none s.berth.nextOf p = some m.frame → mget none s.berth.out p = none →
          u.berth.out = s.berth.out ∧ u.dict = s.dict) ∧
        (∀ l, s.moored = false → mget none s.berth.nextOf p = some l → l ≠ m.frame → 0 < s.calFrames →
          let d := toD (frameIndex s.job.n0 m.frame).toNat
          mget none u.berth.out p = some { start := some m.frame, dMax := d, ok := false, told := false, failed := false } ∧
            u.fld (kBun k) bun_d_min = min 1023 d.toNat ∧ u.fld (kBun k) bun_d_max = min 1023 d.toNat)) ∧
    (∀ m : Summ, s.hears k = true → s.active = true → m.module / 32 ≠ s.berthNo → ∃ u, exec (.summaryMessage k m) s = .next u ∧
      u.jobState = FAULTED ∧ u.berth = s.berth) ∧
    (∀ (m : Summ) (hi lo w sent : Nat) (un mo pa : Bool), s.berthBundle k = false ∨ s.bundleAligned k = false →
      ∀ c ∈ [Instr.summaryMessage k m, .calibrationReport k hi lo un mo pa, .berthWord k w sent],
        ∃ u, exec c s = .next u ∧ u.berth = s.berth ∧ u.dict = s.dict ∧ u.out = s.out ∧ u.mem = s.mem) ∧
    (s.fld kBsts bsts_cal_state = 1 → s.job.bound = true → s.job.s0 + s.calFrames * s.F ≤ s.clk →
      mget none s.berth.reports s.position = none →
      ∃ u r, exec .berthCalibrationEnd s = .next u ∧ mget none u.berth.reports s.position = some r ∧
        (∀ b, s.berthBundle b = true → mget 0 s.berth.dHi b ≤ r.dMax ∧ mget 0 s.berth.dLo b ≤ r.dMin ∧
          (u.flag (kBun b) bun_unstable = true ↔
            mget 0 s.berth.dLo b + 16 < mget 0 s.berth.dHi b ∨ mget 0 s.berth.got b < s.calFrames)) ∧
        ((∃ b, s.berthBundle b = true) → (∃ b, s.berthBundle b = true ∧ mget 0 s.berth.dHi b = r.dMax) ∧
          ∃ b, s.berthBundle b = true ∧ mget 0 s.berth.dLo b = r.dMin) ∧
        (r.unstable = true ↔ ∃ b, s.berthBundle b = true ∧ u.flag (kBun b) bun_unstable = true) ∧
        r.moored = s.flag (key 0x2D00 1) bctl_moored ∧ r.patient = s.flag kHctl hctl_patient ∧
        (∀ b, s.berthBundle b = true → ∃ leave wait, Output.link b [3] leave wait (reportBlocks s.moduleNumber r) ∈ u.out)) ∧
    (∀ hi lo un mo pa, s.hears k = true → s.fld kBsts bsts_cal_state = 1 →
      ∃ u r, exec (.calibrationReport k hi lo un mo pa) s = .next u ∧ mget none u.berth.reports p = some r ∧
        r.dMax = hi ∧ r.dMin = lo ∧ r.unstable = un ∧ r.moored = mo ∧ r.patient = pa ∧ u.dict = s.dict ∧ u.out = s.out) ∧
    (∀ hi lo un mo pa x, s.hears k = true → s.fld kBsts bsts_cal_state ≠ 1 → mget none s.berth.out p = some x → x.failed = false →
      let within := hi ≤ s.fld kBsts bsts_d_b ∧ x.dMax ≤ s.fld kBsts bsts_d_b ∧ un = false
      ∃ u, exec (.calibrationReport k hi lo un mo pa) s = .next u ∧
        (within → mget none u.berth.out p = some { x with ok := true } ∧ u.dict = s.dict) ∧
        (¬ within → mget none u.berth.out p = some { x with ok := false, failed := true } ∧ u.fld (kBun k) bun_rejoin_failed = 1 ∧
          ∀ j, j ≠ kBun k → u.ent j = s.ent j)) ∧
    (∀ rep : Nat → CalRep, (∀ p, p < s.berthSize → mget none s.berth.reports p = some (rep p)) →
      s.fld kBsts bsts_cal_state = 1 → s.job.bound = true → s.jobState = ARMED → s.job.s0 + s.berthFrames * s.F ≤ s.clk →
      ∀ w lo : Int, (∀ p, p < s.berthSize → (rep p).dMax ≤ w ∧ (rep p).dMin ≤ lo) →
      (∃ p q, p < s.berthSize ∧ (rep p).dMax = w ∧ q < s.berthSize ∧ (rep q).dMin = lo) →
      let moored := s.flag (key 0x2D00 1) bctl_moored
      let dl := s.fld (key 0x2D00 1) bctl_berth_deadline
      let d : Int := if moored = true then w + 32 else if dl ≠ 0 then dl else w
      let good := (∀ p, p < s.berthSize → (rep p).unstable = false ∧ (rep p).moored = moored ∧
        (rep p).patient = s.flag kHctl hctl_patient) ∧ d ≤ 1023 ∧ lo ≤ d
      (good → s.job.pauseOnStart = false → ∃ u, exec .berthReportFramesEnd s = .next u ∧ u.fld kBsts bsts_d_b = d.toNat ∧
        u.fld kBsts bsts_w_cal = min 1023 w.toNat ∧ u.fld kBsts bsts_w_lo = min 1023 lo.toNat ∧ u.fld kBsts bsts_cal_state = 2 ∧
        u.jobState = RUNNING) ∧
      (¬ good → ∃ u, exec .berthReportFramesEnd s = .next u ∧ u.fld kBsts bsts_cal_state = 3 ∧ u.jobState = FAULTED))

/-- R388, R389, R391: the combine of frame N0 + n closes in count nF + C + 12 + d_b. The included bitmap names this module and each
peer whose summary was complete in the clk before with faulted 0, and that is not out after a restart (R392); the others count as
exclusions, which a moored module makes a berth fault instead; the result is readable two clk later. R392: a rejoin that has not
succeeded by the end of its report frames has failed. R386: the head of inbound queue 15 of a bound port sets out in order, the next
word no sooner than the gap of the bundle's rate; a word complete by its delivery count waits for it and joins outbound queue 15; a
later one, one that is not complete by then, or one the queue cannot take, is a berth fault. When a peer is out and comes back is
log entry 55. -/
def Obligations.BerthCombineAndWords : Prop :=
  (∀ (s : State) (own : SummRec),
     let n := s.berth.nextClose
     let f := (s.job.n0 + n) % 2 ^ 48
     let c := s.job.s0 + n * s.F + s.C + 12 + s.fld kBsts bsts_d_b
     let here := fun (p : Nat) (r : SummRec) => s.berth.peers.find? (fun x => x.src == p && x.m.frame == f && decide (x.clk < c)) = some r
     let isOver := fun (st : Nat) => (s.berthFrames : Int) ≤ frameIndex st f
     let counts := fun (p : Nat) (x : SummRec) => p = s.position ∨
       (x.m.faulted = false ∧ ∀ r, mget none s.berth.out p = some r → r.ok = true ∧ ∃ st, r.start = some st ∧ isOver st)
     s.fld kBsts bsts_cal_state = 2 → s.job.bound = true → here s.position own →
     (c ≤ s.clk → s.moored = false → s.position < s.berthSize → s.berthSize ≤ 32 →
       ∃ u r, exec .berthCombineClose s = .next u ∧ u.berth.result = s.berth.result ++ [r] ∧ r.clk = c + 2 ∧ u.berth.nextClose = n + 1 ∧
         r.m.frame = f ∧ r.m.module = s.moduleNumber ∧
         (∀ p, p < s.berthSize → (bit (u.fld kBsts bsts_included) p = true ↔ ∃ x, here p x ∧ counts p x)) ∧
         (∀ b, bit r.m.accept b = true ↔ ∃ p x, p < s.berthSize ∧ here p x ∧ counts p x ∧ bit x.m.accept b = true) ∧
         (∀ b, bit r.m.raw b = true ↔ ∃ p x, p < s.berthSize ∧ here p x ∧ counts p x ∧ bit x.m.raw b = true) ∧
         (r.m.void = true ↔ ∀ p x, p < s.berthSize → here p x → counts p x → x.m.void = true) ∧
         u.fld (key 0x2D00 3) cnt48 = min (s.fld (key 0x2D00 3) cnt48 +
           ((List.range s.berthSize).filter (fun p => decide (bit (u.fld kBsts bsts_included) p = false))).length) (2 ^ 48 - 1) ∧
         (∀ p r st, p < s.berthSize → p ≠ s.position → mget none s.berth.out p = some r → r.start = some st → r.ok = false →
           r.failed = false → isOver st → u.fld (kBun (s.bundleTo p)) bun_rejoin_failed = 1) ∧
         (∀ j, j ≠ kBsts → j ≠ key 0x2D00 3 → (∀ b, b < 32 → j ≠ kBun b) → u.ent j = s.ent j) ∧
         ((∀ p, mget none s.berth.out p = none) → ∀ j, j ≠ kBsts → j ≠ key 0x2D00 3 → u.ent j = s.ent j) ∧
         u.mem = s.mem ∧ u.out = s.out) ∧
     (c ≤ s.clk → s.moored = true → s.active = true → (∃ p, p < s.berthSize ∧ p ≠ s.position ∧ ∀ x, here p x → x.m.faulted = true) →
       ∃ u, exec .berthCombineClose s = .next u ∧ u.jobState = FAULTED ∧ u.fld (key 0x2D00 3) cnt48 = s.fld (key 0x2D00 3) cnt48) ∧
     (s.clk < c → exec .berthCombineClose s = .next s)) ∧
  (∀ (s : State) (port k : Nat),
     (∀ (w : Token) (ws : List Token), eavesOk s.grade port = true → s.fld (kPeer port) peer_bundle = k →
       mget [] s.net.inq (16 * port + 15) = w :: ws →
       (s.flag (kPeer port) peer_enable = true → s.berthBundle k = true → mget 0 s.berth.wordNext k ≤ s.clk →
         ∃ u, exec (.berthWordSend port) s = .next u ∧ mget [] u.net.inq (16 * port + 15) = ws ∧
           mget 0 u.berth.wordNext k = s.clk + wordGap (s.bundleRate k) ∧ u.out = .link k [0, 1, 2] (s.clk + dTx (s.bundleRate k)) (s.markerDue (4 * k)) (wordBlocks (w.tag.getD 0) w.word) :: s.out ∧
           (∀ q, q ≠ 16 * port + 15 → mget [] u.net.inq q = mget [] s.net.inq q) ∧ u.dict = s.dict ∧ u.mem = s.mem) ∧
       (s.clk < mget 0 s.berth.wordNext k → exec (.berthWordSend port) s = .next s)) ∧
     (∀ word sent : Nat, k < 32 → s.hears k = true → s.job.bound = true →
       let delta := (s.clk - s.job.s0 + 2 ^ 24 - sent % 2 ^ 24) % 2 ^ 24
       (delta ≤ s.fld kBsts bsts_d_b → ∃ u, exec (.berthWord k word sent) s = .next u ∧
         mget [] u.berth.wordIn k = mget [] s.berth.wordIn k ++ [(s.clk + (s.fld kBsts bsts_d_b - delta), word)] ∧
         (∀ q, q ≠ k → mget [] u.berth.wordIn q = mget [] s.berth.wordIn q) ∧ u.dict = s.dict ∧ u.net = s.net) ∧
       (s.fld kBsts bsts_d_b < delta → s.active = true →
         ∃ u, exec (.berthWord k word sent) s = .next u ∧ u.jobState = FAULTED ∧ u.berth.wordIn = s.berth.wordIn)) ∧
     (s.berthBundle k = true → s.job.bound = true → s.active = true → mget [] s.berth.wordIn k = [] →
       ∃ u, exec (.berthWordDelivery k) s = .next u ∧ u.jobState = FAULTED ∧ u.net.outq = s.net.outq ∧
         ∃ x ∈ u.flt.recs, x.family = 8 ∧ x.cause = 5) ∧
     (s.berthBundle k = false ∨ s.job.bound = false → exec (.berthWordDelivery k) s = .next s) ∧
     (∀ (c word p : Nat) (es : List (Nat × Nat)), s.berthBundle k = true → s.job.bound = true →
       mget [] s.berth.wordIn k = (c, word) :: es → s.boundPort k = some p →
       (c ≤ s.clk → (mget [] s.net.outq (16 * p + 15)).length < 32 →
         ∃ u, exec (.berthWordDelivery k) s = .next u ∧ mget [] u.berth.wordIn k = es ∧
           mget [] u.net.outq (16 * p + 15) = mget [] s.net.outq (16 * p + 15) ++ [{ word := word }] ∧
           (∀ q, q ≠ 16 * p + 15 → mget [] u.net.outq q = mget [] s.net.outq q) ∧ u.dict = s.dict ∧ u.mem = s.mem) ∧
       (c ≤ s.clk → 32 ≤ (mget [] s.net.outq (16 * p + 15)).length → s.active = true →
         ∃ u, exec (.berthWordDelivery k) s = .next u ∧ u.jobState = FAULTED ∧ u.net.outq = s.net.outq) ∧
       (s.clk < c → exec (.berthWordDelivery k) s = .next s)))

/-- R380: the blocks of a summary of any kind say back its kind and every field. R396 to R400: position 0 is sent what an uplink
brings; a head keeps the summaries of the level below, measures how late they come, and faults the job on one that its wiring cannot
bring (R7, R394, log entry 55); at τ(N) + D it sends the OR of those included with their exclusions summed and one for each
contributor that is not, whether or not its own has come; without time lock only its own; patient, it marks those left out. The
harbour's combine goes to every peer and is taken into harbour_choices, and with harbour_capture forms a request of origin host
after the requests of the slots of this clk; the skew bounds are the largest lateness plus harbour_guard, once the closes of their
frames are past. -/
def Obligations.HarbourCombinesReachEveryModule : Prop :=
  ∀ (s : State) (m : Summ) (src : Nat),
    let n := s.berth.jettyNext
    let f := (s.job.n0 + n) % 2 ^ 48
    let h := (s.job.n0 + s.berth.harbourNext) % 2 ^ 48
    let lock := s.flag kTime tsts_time_lock
    let formed := fun (kind : Nat) => s.active = false ∨ m.module = (if kind = 1 then 32 * (s.berthNo + src) else 32 * (16 * src))
    let skew := fun (old : Nat) => if s.skewFrame m.frame = true then max old (s.lateNs m.frame) else old
    let pick := fun (l : List SummRec) (marked : List Nat) (at_ close p : Nat) =>
      if p = 0 ∨ (lock = true ∧ p ∉ marked) then
        l.find? (fun x => x.src == p && x.m.frame == at_ && (p == 0 || (decide (s.globalTime x.clk ≤ close) && !x.m.faulted)))
      else none
    let sums := fun (size : Nat) (get : Nat → Option SummRec) (at_ : Nat) (r : Summ) =>
      r.frame = at_ ∧ r.module = s.moduleNumber ∧ (r.faulted = true ↔ s.jobState = FAULTED ∨ lock = false) ∧
      (∀ b, bit r.accept b = true ↔ ∃ p x, p < size ∧ get p = some x ∧ bit x.m.accept b = true) ∧
      (∀ b, bit r.raw b = true ↔ ∃ p x, p < size ∧ get p = some x ∧ bit x.m.raw b = true) ∧
      (r.void = true ↔ ∀ p x, p < size → get p = some x → x.m.void = true) ∧
      r.excluded = min ((List.range size).map (fun p => match get p with
        | some x => x.m.excluded
        | none => 1)).sum 65535 ∧
      r.included = ((List.range size).filter (fun p => (get p).isSome)).length
    let left := fun (size : Nat) (get : Nat → Option SummRec) (old new : List Nat) => ∀ p, p < size →
      (p ∈ new ↔ p ∈ old ∨ (s.patient = true ∧ lock = true ∧ get p = none))
    (∀ kind, kind < 16 → m.wf = true → readSumm (summBlocks kind m) = some (kind, m)) ∧
    (∀ kind, s.inHarbour = true → s.position ≠ 0 → s.fld (kBun 31) bun_role = 3 →
      ∃ u leave wait, exec (.relayMessage m kind) s = .next u ∧ u.out = .link (s.bundleTo 0) [if s.bundleTo 0 = 31 then 0 else 3] leave wait
        (summBlocks 6 { m with tail := m.tail % 2 ^ 60 + 2 ^ 60 * kind }) :: s.out ∧ u.dict = s.dict ∧ u.mem = s.mem ∧ u.berth = s.berth) ∧
    (s.job.bound = true → s.jettyHead = true → s.hears (s.bundleTo src) = true → formed 1 → ∃ u, exec (.uplinkSummary m 1 src) s = .next u ∧
      u.berth.jetty = s.berth.jetty ++ [{ src := src, clk := s.clk, m := m }] ∧ u.berth.harbour = s.berth.harbour ∧
      u.berth.jettySkew = skew s.berth.jettySkew ∧ u.dict = s.dict ∧ u.out = s.out) ∧
    (s.job.bound = true → s.harbourHead = true → s.hears (s.bundleTo (16 + src)) = true → formed 2 → ∃ u, exec (.uplinkSummary m 2 src) s = .next u ∧
      u.berth.harbour = s.berth.harbour ++ [{ src := src, clk := s.clk, m := m }] ∧ u.berth.jetty = s.berth.jetty ∧
      u.berth.harbourSkew = skew s.berth.harbourSkew ∧ u.dict = s.dict ∧ u.out = s.out) ∧
    (s.job.bound = true → s.jettyHead = true → s.hears (s.bundleTo src) = true → ¬ formed 1 →
      ∃ u, exec (.uplinkSummary m 1 src) s = .next u ∧ u.jobState = FAULTED ∧ u.berth = s.berth) ∧
    (s.jettyHead = true → s.job.bound = true → s.fld kBsts bsts_cal_state = 2 →
      let get := pick s.berth.jetty s.berth.jettyMarked f (s.tau f + s.deadline true * 2 ^ 32)
      (s.tau f + s.deadline true * 2 ^ 32 ≤ s.now → ∃ u r, exec .jettyCombineClose s = .next u ∧ u.berth.jettyNext = n + 1 ∧
        sums s.jettySize get f r ∧ left s.jettySize get s.berth.jettyMarked u.berth.jettyMarked ∧ u.dict = s.dict ∧ u.mem = s.mem ∧
        (s.harbourHead = false → ∃ leave wait, u.out =
          if s.fld (kBun 31) bun_role = 3 then .link 31 [0] leave wait (summBlocks 2 r) :: s.out else s.out) ∧
        (s.harbourHead = true → u.berth.harbour = s.berth.harbour ++ [{ src := 0, clk := s.clk, m := r }] ∧ u.out = s.out)) ∧
      (s.now < s.tau f + s.deadline true * 2 ^ 32 → exec .jettyCombineClose s = .next s)) ∧
    (s.harbourHead = true → s.job.bound = true → s.fld kBsts bsts_cal_state = 2 →
      let get := pick s.berth.harbour s.berth.harbourMarked h (s.tau h + s.deadline false * 2 ^ 32)
      (s.tau h + s.deadline false * 2 ^ 32 ≤ s.now → ∃ u v r, exec .harbourCombineClose s = .next u ∧ sums s.jetties get h r ∧
        (∀ k, s.berthBundle k = true → ∃ leave wait, Output.link k [3] leave wait (summBlocks 3 r) ∈ v.out) ∧
        v.berth.harbourNext = s.berth.harbourNext + 1 ∧ left s.jetties get s.berth.harbourMarked v.berth.harbourMarked ∧
        v.fld (key 0x2D40 4) cnt48 = min (s.fld (key 0x2D40 4) cnt48 + r.excluded) (2 ^ 48 - 1) ∧ v.cap = s.cap ∧
        u = if s.flag kHctl hctl_harbour_capture = true ∧ s.active = true then v.releaseSlots.acceptRequest 1 r.frame r.accept r.raw else v) ∧
      (s.now < s.tau h + s.deadline false * 2 ^ 32 → exec .harbourCombineClose s = .next s)) ∧
    (s.inHarbour = true → s.position = 0 ∨ s.hears (s.bundleTo 0) = true → ∃ u v, exec (.harbourCombine m) s = .next u ∧
      v.fld (key 0x2D40 4) cnt48 = min (s.fld (key 0x2D40 4) cnt48 + m.excluded) (2 ^ 48 - 1) ∧
      (∀ c, c < 8 → v.fld (key (0x2D48 + c) 1) cnt48 =
        if bit m.accept c = true then s.oneMore (key (0x2D48 + c) 1) cnt48 else s.fld (key (0x2D48 + c) 1) cnt48) ∧
      (s.position = 0 → ∀ k, s.berthBundle k = true → ∃ leave wait, Output.link k [3] leave wait (summBlocks 3 m) ∈ v.out) ∧
      (s.position ≠ 0 → s.fld (kBun 31) bun_role = 3 → ∃ leave wait, v.out = .link 31 [0] leave wait (summBlocks 3 m) :: s.out) ∧
      v.mem = s.mem ∧ v.cap = s.cap ∧
      u = if s.flag kHctl hctl_harbour_capture = true ∧ s.active = true then v.releaseSlots.acceptRequest 1 m.frame m.accept m.raw else v) ∧
    (s.jettyHead = true → s.job.bound = true → s.berth.skewDone = false → s.fld kBsts bsts_cal_state = 2 →
      let past := s.berthFrames + s.calFrames ≤ s.berth.jettyNext ∧
        (s.harbourHead = true → s.berthFrames + s.calFrames ≤ s.berth.harbourNext)
      (past → ∃ u, exec .harbourCalibrationEnd s = .next u ∧ u.berth.skewDone = true ∧
        u.fld kSkb skb_s_jetty = min (s.berth.jettySkew + s.fld kHctl hctl_harbour_guard) (2 ^ 32 - 1) ∧
        u.fld kSkb skb_s_harbour = (if s.harbourHead = true then
          min (s.berth.harbourSkew + s.fld kHctl hctl_harbour_guard) (2 ^ 32 - 1) else s.fld kSkb skb_s_harbour) ∧
        (∀ j, j ≠ kSkb → u.ent j = s.ent j) ∧ u.out = s.out ∧ u.mem = s.mem) ∧
      (¬ past → exec .harbourCalibrationEnd s = .next s))

/-- R409, R410: a tick adds exactly inc to the main clock, a pending increment first; what a write of Main Time or Time Adjust left
pending is a step: it sets main_valid and counts in steps. Increments outside ±1,000 ppm or under the servo, and steps of an active
job, are refused. R184, R411 to R413: a commit applies the three fall-back words at the next tick; a refit takes M as fb_base and,
with round_ta (R21), the rate that leads from the refit before; a clock fault raises the clock doubt, and one of the ridge island
puts global time on the fall-back clock from the next tick; a tick changes no earlier clk's global time. Global time of clk before
and after a tick is log entry 46, the order of a pending set and adjust log entry 56, a rate beyond its register log entry 21. -/
def Obligations.MainAndFallbackClocks : Prop :=
  (∀ (s : State) (v : Nat) (d : Int),
     let t := s.time
     let inc := match t.incNext with | some i => i % 2 ^ 36 | none => s.inc
     (s.clk % 4 = 0 → t.tickClk < s.clk → s.rst.safeHold = false →
       (t.setNext = none → t.adjNext = none → ∃ u, exec .mainClockTick s = .next u ∧ u.time.main = t.main + inc ∧ u.inc = inc ∧
         u.time.tickClk = s.clk ∧ u.time.fbTicks = t.fbTicks + 1 ∧ u.time.incNext = none ∧ u.time.fbCommit = false ∧
         (∀ j, j ≠ kInc → u.ent j = s.ent j) ∧ u.mem = s.mem ∧ u.out = s.out) ∧
       (t.setNext = some v → t.adjNext = none → ∃ u, exec .mainClockTick s = .next u ∧ u.time.main = v ∧ u.time.setNext = none ∧
         u.time.fbTicks = t.fbTicks + 1 ∧ u.flag kTime tsts_main_valid = true ∧ u.fld kTime tsts_steps = s.oneMore kTime tsts_steps) ∧
       (t.setNext = none → t.adjNext = some d → ∃ u, exec .mainClockTick s = .next u ∧
         u.time.main = ((t.main + inc : Nat) + d).toNat ∧ u.time.adjNext = none ∧ u.time.fbTicks = t.fbTicks + 1 ∧
         u.flag kTime tsts_main_valid = true ∧ u.fld kTime tsts_steps = s.oneMore kTime tsts_steps)) ∧
     (s.clk % 4 ≠ 0 ∨ s.rst.safeHold = true → exec .mainClockTick s = .next s) ∧
     (let accepted := s.flag (key 0x2E00 1) tctl_servo_enable = false ∧ 31968 * 2 ^ 32 ≤ v * 10000 ∧ v * 10000 ≤ 32032 * 2 ^ 32
      (s.dictOpen = false → exec (.mainIncrementWrite v) s = .next s ∧ exec (.mainTime v) s = .next s ∧ exec (.timeAdjust d) s = .next s) ∧
       (accepted → s.dictOpen = true → exec (.mainIncrementWrite v) s = .next { s with time := { t with incNext := some v } }) ∧
       (¬ accepted → exec (.mainIncrementWrite v) s = .next s)) ∧
     (let accepted := s.active = false ∧ v / 2 ^ 32 % 2 ^ 32 ≤ 999999999
      (accepted → s.dictOpen = true → exec (.mainTime v) s = .next { s with time := { t with setNext := some (ofT128 v) } }) ∧
       (¬ accepted → exec (.mainTime v) s = .next s)) ∧
     (s.active = false → s.dictOpen = true → exec (.timeAdjust d) s =
       .next { s with time := { t with adjNext := some (t.adjNext.getD 0 + d * 2 ^ 32) } }) ∧
     (s.active = true → exec (.timeAdjust d) s = .next s)) ∧
  (∀ (s : State) (i c : Nat),
     let t := s.time
     exec .fallbackCommit s = .next (if s.dictOpen = true then { s with time := { t with fbCommit := true } } else s) ∧
     (s.clk % 4 = 0 → t.tickClk < s.clk → s.rst.safeHold = false → t.fbCommit = true → ∃ u, exec .mainClockTick s = .next u ∧
       u.time.fbBase = ofT128 (s.ent (key 0x2E01 1)) ∧ u.time.fbTick = s.ent (key 0x2E01 2) ∧
       u.time.fbRate = signed 32 (s.ent (key 0x2E01 3))) ∧
     (s.flag (key 0x2E00 1) tctl_fb_auto = true → s.flag kTime tsts_main_valid = true → s.flag kTime tsts_on_fallback = false →
       (t.fbPrev = none → ∃ u, exec .fallbackRefit s = .next u ∧ u.time.fbBase = t.main ∧ u.time.fbTick = t.fbTicks ∧
         u.time.fbPrev = some (t.fbTicks, t.main) ∧ u.ent (key 0x2E01 1) = t128 t.main ∧ u.ent (key 0x2E01 2) = t.fbTicks ∧
         u.time.main = t.main ∧ u.mem = s.mem) ∧
       (∀ pt pm : Nat, t.fbPrev = some (pt, pm) → pt + 312500000 ≤ t.fbTicks →
         let dt : Nat := (t.fbTicks - pt) * 68719476736
         let num : Int := (5 * ((t.main : Int) - pm) - dt) * 2 ^ 40
         ∃ u, exec .fallbackRefit s = .next u ∧
           u.time.fbBase = t.main ∧ u.time.fbTick = t.fbTicks ∧ u.time.fbPrev = some (t.fbTicks, t.main) ∧
           u.time.fbRate = sat (roundTa num dt) (-(2 ^ 31)) (2 ^ 31 - 1)) ∧
       (∀ pt pm : Nat, t.fbPrev = some (pt, pm) → t.fbTicks < pt + 312500000 → exec .fallbackRefit s = .next s)) ∧
     (islandOk s.grade i = true → ∃ u, exec (.clockFault i c) s = .next u ∧ i ∈ u.time.unlocked ∧ bit u.doubtMain 7 = true ∧
       (s.active = true → u.jobState = FAULTED) ∧ (i = 126 → u.flag kTime tsts_on_fallback = true) ∧
       (i ≠ 126 → u.flag kTime tsts_on_fallback = s.flag kTime tsts_on_fallback)) ∧
     (islandOk s.grade i = true → ∃ u, exec (.islandGeneratorLocked i) s = .next u ∧ i ∉ u.time.unlocked ∧
       (∀ j, j ≠ i → (j ∈ u.time.unlocked ↔ j ∈ t.unlocked)) ∧ { u with time := t } = s) ∧
     (s.clk % 4 = 0 → t.tickClk < s.clk → t.since ≤ s.clk → ∃ u, exec .mainClockTick s = .next u ∧
       (∀ k : Nat, s.clk ≤ k → u.globalTime k =
         ((if s.flag kTime tsts_on_fallback then (fallbackAt s.fitNow (t.fbTicks + 1 + (k - s.clk) / 4 : Nat) : Int)
           else (u.time.main + (k - s.clk) / 4 * u.inc : Nat)) + (k % 4 * u.inc / 4 : Nat)).toNat) ∧
       (t.fbLive = false → t.tickClk % 4 = 0 → ∀ k : Nat, k < s.clk → t.since ≤ k → u.globalTime k = s.globalTime k)))

/-- R416, R418 to R421, R423, R431: the selected master's Announce and each completed exchange enter the words of their domain; the
exchange needs the transmit stamp of its Delay_Req, moves base by the drift it shows against the mean adjustment and, where its
domain is active and the servo enabled, sets the increment of the next tick; a healthy domain takes over from one that is not at its
exchange; a domain without Sync or Announce in time is not healthy, and the clock is in holdover, which keeps time lock (log entry
56). The offset's formula and the choice of the best master, an operand, are the standard's (log entry 14); a base beyond its
register is log entry 21. -/
def Obligations.DomainsDisciplineTheClock : Prop :=
  ∀ (s : State) (d : Nat), d < 2 → s.rst.available = true → s.flag (kDom d) dom_domain_enable = true →
    (∀ (port master : Nat) (utc : Int), port < 2 → s.portUp port = true →
      let changed := (s.domain d).master ≠ some master
      ∃ u, exec (.ptpAnnounce d port master true utc) s = .next u ∧ u.flag (kDoms d) doms_master_seen = true ∧
        u.fld (kDoms d) doms_upstream_port = port ∧ u.ent (key (0x2E10 + d) 5) = master ∧
        u.ent (key (0x2E10 + d) 6) = unsignedOf 16 utc ∧ (u.domain d).annOk = true ∧
        (u.domain d).master = some master ∧
        (changed → (u.domain d).same = 0) ∧ (¬ changed → (u.domain d).same = (s.domain d).same) ∧
        u.fld (kDoms d) doms_master_changes = (if (s.domain d).master ≠ none ∧ (s.domain d).master ≠ some master then
          s.oneMore (kDoms d) doms_master_changes else s.fld (kDoms d) doms_master_changes) ∧
        u.flag (kDoms d) doms_healthy = u.domainHealthy d ∧ u.time.main = s.time.main ∧ u.mem = s.mem) ∧
    (s.tracks d = true →
      let q := s.fld (kDoms d) doms_upstream_port
      let n := mget 0 s.time.serveSeq (16 * q + 1)
      ∃ u, exec (.delayReqSend d) s = .next u ∧ u.out = .ptp q 1 n (s.fld (kDom d) dom_domain_number) :: s.out ∧
        mget 0 u.time.serveSeq (16 * q + 1) = (n + 1) % 65536 ∧
        (∀ j, j ≠ 16 * q + 1 → mget 0 u.time.serveSeq j = mget 0 s.time.serveSeq j) ∧
        (u.domain d).asked = some (q, n) ∧ (u.domain d).sent = none ∧ u.awaits q 1 n = true ∧
        (∀ m, s.awaits q 1 m = true → u.awaits q 1 m = true) ∧ u.dict = s.dict) ∧
    (∀ (x : Exch) (logSync : Int) (sNs n : Nat), s.tracks d = true →
      (s.domain d).sent = none ∨ (s.domain d).asked ≠ some (s.fld (kDoms d) doms_upstream_port, n) →
      ∃ u, exec (.ptpExchange d x sNs n logSync) s = .next u ∧ (u.domain d).syncOk = true ∧ (u.domain d).syncAt = s.clk ∧
        u.offset d = s.offset d ∧ u.baseRate d = s.baseRate d ∧ (u.domain d).same = (s.domain d).same ∧
        u.fld (kDoms d) doms_exchanges = s.fld (kDoms d) doms_exchanges ∧ u.time.main = s.time.main) ∧
    (∀ (x : Exch) (logSync : Int) (sNs n t3 : Nat), s.tracks d = true → (s.domain d).sent = some t3 →
      (s.domain d).asked = some (s.fld (kDoms d) doms_upstream_port, n) →
      let t2 := s.rxStamp (s.fld (kDoms d) doms_upstream_port) x.t2
      let o := roundTa (((t2 : Int) - x.t1 - x.corrSync * 2 ^ 16) - ((x.t4 : Int) - t3 - x.corrResp * 2 ^ 16)) (2 ^ 17)
      o < 2 ^ 63 → -(2 ^ 63) ≤ o →
      ∃ u, exec (.ptpExchange d x sNs n logSync) s = .next u ∧ u.offset d = o ∧
        u.fld (kDoms d) doms_exchanges = s.oneMore (kDoms d) doms_exchanges ∧ (u.domain d).same = (s.domain d).same + 1 ∧
        (u.domain d).syncOk = true ∧ (u.domain d).asked = none ∧
        ((s.domain d).started = true → 0 < sNs →
          let a := s.meanAdj d
          let den : Nat := 256 * sNs * a.2 * 2 ^ s.fld (kDom d) dom_ki_shift
          let num : Int := s.baseRate d * den + (256 * a.1 - s.baseRate d * a.2) * (256 * sNs : Nat) -
            (o - s.offset d) * 1000000000 * a.2
          u.baseRate d = sat (roundTa num den) (-(2 ^ 31)) (2 ^ 31 - 1)) ∧
        (s.activeDomain = 1 - d → s.domainHealthy (1 - d) = false → s.domainHealthy d = true → u.activeDomain = d ∧
          u.flag kTime tsts_holdover = false ∧ u.flag kTime tsts_active_valid = true ∧
          u.fld kTime tsts_switches = s.oneMore kTime tsts_switches ∧ u.flag kTime tsts_switch_seen = true) ∧
        (s.activeDomain = d → s.domainHealthy d = true → s.flag (key 0x2E00 1) tctl_revert = false →
          u.activeDomain = d ∧ u.flag kTime tsts_holdover = false ∧
          (o.natAbs ≤ 65536 * s.fld (key 0x2E00 1) tctl_lock_window → u.flag kTime tsts_time_lock = true) ∧
          ((s.domain d).started = true → 0 < sNs → s.flag (key 0x2E00 1) tctl_servo_enable = true →
            let den : Nat := 2 ^ 24 * sNs * 2 ^ s.fld (kDom d) dom_kp_shift
            let lim : Int := 1000 * s.fld (key 0x2E00 1) tctl_slew_max * den
            let adj := sat (u.baseRate d * (den / 256 : Nat) - sat (o * 256000000000) (-lim) lim) (-(1000000 * den)) (1000000 * den)
            u.time.incNext = some (roundTa (68719476736 * ((den : Int) * 1000000000 + adj)) (5 * den * 1000000000)).toNat)) ∧
        u.time.main = s.time.main) ∧
    (let sync := (s.domain d).syncOk = true ∧ s.syncOver d = true
     (s.rst.available = false → exec (.domainTimeout d) s = .next s) ∧
     (s.rst.available = true → ∃ u, exec (.domainTimeout d) s = .next u ∧ u.flag (kDoms d) doms_healthy = false ∧ u.activeDomain = s.activeDomain ∧
      (sync → (u.domain d).syncOk = false ∧ (u.domain d).annOk = (s.domain d).annOk) ∧
      (¬ sync → (u.domain d).annOk = false ∧ u.flag (kDoms d) doms_master_seen = false ∧
        (u.domain d).syncOk = (s.domain d).syncOk) ∧
      (s.activeDomain = d → s.flag kTime tsts_active_valid = true → s.flag kTime tsts_holdover = false →
        u.flag kTime tsts_holdover = true ∧ u.flag kTime tsts_active_valid = false ∧
        (s.flag kTime tsts_time_lock = true → u.flag kTime tsts_time_lock = true)) ∧ u.time.main = s.time.main)) ∧
    (s.flag kTime tsts_holdover = true → s.flag kTime tsts_time_lock = true →
      (s.holdoverKeeps = false → ∃ u, exec .holdoverExpiry s = .next u ∧ u.flag kTime tsts_time_lock = false ∧
        u.flag kTime tsts_lock_lost_seen = true ∧ u.time.main = s.time.main) ∧
      (s.holdoverKeeps = true → exec .holdoverExpiry s = .next s))

/-- R414, R415, R417, R418: what a port receives it forwards with the residence time added to an event message, or counts; stamps
have a resolution of 1/16 ns, the port's asymmetry added; a port that serves sends Sync, Announce and Delay_Resp; the transmit stamp
of an own message joins a queue of 64, or is lost and counted. The message types are the standard's (log entry 14); one stamp is
read in each clk (log entry 22); a port sends nothing before the first arming since power-on (log entry 81). -/
def Obligations.PortsForwardServeAndStamp : Prop :=
  ∀ (s : State) (p : Nat), p < 2 →
    (∀ up, ∃ u, exec (.ptpLinkChange p up) s = .next u ∧ (u.flag (kPst p) pst_link_up = true ↔ up = true) ∧
      onlyEntry s u (kPst p)) ∧
    (∀ f : PtpFrame, s.portUp p = false → exec (.ptpFrameForward p f) s = .next s) ∧
    (∀ f : PtpFrame, s.flag (kPort p) port_port_enable = true → s.flag (kPst p) pst_link_up = true → s.rst.safeHold = false →
      let ownResp := f.msgType = 9 ∧ (f.etherType = 0x88F7 ∨ f.etherType = 0x0800) ∧ f.toOwn = true
      let event := f.msgType < 4 ∧ ((f.etherType = 0x88F7 ∧ f.vlanTags ≤ 1) ∨ (f.etherType = 0x0800 ∧ f.udpPort = some 319))
      (1522 < f.bytes ∨ f.fcsOk = false → ∃ u, exec (.ptpFrameForward p f) s = .next u ∧ onlyEntry s u (kPst p) ∧
        u.fld (kPst p) pst_rx_errors = s.oneMore (kPst p) pst_rx_errors) ∧
      (f.bytes ≤ 1522 → f.fcsOk = true → ¬ ownResp → s.flag (key 0x2E00 1) tctl_tc_enable = true →
        (s.portSends (1 - p) = true → ∃ g : PtpFrame, exec (.ptpFrameForward p f) s = .next { s with out := .frame (1 - p) g :: s.out } ∧
          (¬ event → g = f) ∧
          (event → { g with correction := f.correction, checksum := f.checksum } = f ∧
            (f.etherType = 0x0800 → g.checksum = 0) ∧ (f.etherType ≠ 0x0800 → g.checksum = f.checksum) ∧
            (g.correction - f.correction) * 2 ^ 16 = (s.txStamp (1 - p) f.egress : Int) - s.rxStamp p f.ingress)) ∧
        (s.portSends (1 - p) = false → ∃ u, exec (.ptpFrameForward p f) s = .next u ∧ onlyEntry s u (kPst p) ∧
          u.fld (kPst p) pst_dropped = s.oneMore (kPst p) pst_dropped)) ∧
      (f.bytes ≤ 1522 → f.fcsOk = true → ownResp ∨ s.flag (key 0x2E00 1) tctl_tc_enable = false →
        exec (.ptpFrameForward p f) s = .next s)) ∧
    (∀ t : Nat,
      let exact := 1000 * (t : Int) + signed 16 (s.fld (kPort p) port_rx_asym) * 2 ^ 32
      0 ≤ exact → s.rxStamp p t % 2 ^ 28 = 0 ∧ (1000 * (s.rxStamp p t : Int) - exact).natAbs ≤ 500 * 2 ^ 28) ∧
    (s.serves p = true →
      (∃ u, exec (.serveSync p) s = .next u ∧
        u.out = .ptp p 0 (mget 0 s.time.serveSeq (16 * p)) (s.fld (kPort p) port_serve_domain) :: s.out ∧
        mget 0 u.time.serveSeq (16 * p) = (mget 0 s.time.serveSeq (16 * p) + 1) % 65536 ∧
        u.awaits p 0 (mget 0 s.time.serveSeq (16 * p)) = true ∧ u.dict = s.dict) ∧
      (∃ u n, exec (.serveAnnounce p) s = .next u ∧ u.out = .ptp p 11 n (s.clockClass + 32768 + 8388608 : Nat) :: s.out ∧
        u.dict = s.dict) ∧
      (s.clockClass = if s.flag kTime tsts_time_lock = true then 6 else if s.flag kTime tsts_holdover = true then 7 else 248) ∧
      (∀ r, ∃ f : Nat, f ≤ s.inc / 4 ∧ exec (.serveDelayResp p r) s = .next { s with
        free := s.free + 1, out := .ptp p 9 r (s.rxStamp p (s.mainTimeNow + s.clk % 4 * s.inc / 4 + f)) :: s.out })) ∧
    (s.portSends p = true ↔ s.portUp p = true ∧ s.time.portsOn = true) ∧ (s.time.portsOn = false → s.ptpTxDis p = true) ∧
    (∀ typ ident stamp : Nat, s.awaits p typ ident = false → exec (.txStamp p typ ident stamp) s = .next s) ∧
    (∀ typ ident stamp : Nat, typ < 2 → ident < 2 ^ 16 → s.awaits p typ ident = true →
      (s.time.txq.length < 64 → ∃ u e, exec (.txStamp p typ ident stamp) s = .next u ∧ u.time.txq = s.time.txq ++ [e] ∧
        e % 2 ^ 16 = ident ∧ e / 2 ^ 16 % 2 = p ∧ e / 2 ^ 17 % 16 = typ ∧ e / 2 ^ 64 = t128 (s.txStamp p (ofT128 stamp)) % 2 ^ 128 ∧
        u.fld kTxq txq_unread = s.time.txq.length + 1 ∧ (∀ j, j ≠ kTxq → u.ent j = s.ent j)) ∧
      (64 ≤ s.time.txq.length → ∃ u, exec (.txStamp p typ ident stamp) s = .next u ∧ u.time.txq = s.time.txq ∧
        u.flag kTime tsts_txq_overflow = true ∧ u.fld kTxq txq_txq_overflows = s.oneMore kTxq txq_txq_overflows ∧
        u.awaits p typ ident = false))

/-- R424, R426, R427, R428: an edge the input's word selects is stamped, counted and, where it asks, entered into the timeline, but
one within 6.4 ns of the last taken is lost; an accept edge enters with the time of its edge. An entry that comes before the last
released one is released at once, out of order and counted; any other is held, and the first held entry leaves the hold once global
time has passed its stamp plus merge_hold, for the ring or, with 4,096 unconsumed, for the drop count; the consumer never passes the
producer. -/
def Obligations.TriggersEnterTheTimeline : Prop :=
  ∀ (s : State) (i bin v : Nat) (rising : Bool),
    let k := key (0x2E28 + i) 1
    let pos := 1024 * (s.clk / 4) + 10 * bin
    let free := ∀ q, mget none s.time.trigLast i = some q → q + 2048 ≤ pos
    let stamp := ((s.mainTimeNow : Int) + ((bin : Int) - signed 16 (s.fld k trig_in_delay)) * 2 ^ 27).toNat
    let chosen := s.fld k trig_edge = 3 ∨ (s.fld k trig_edge = 1 ∧ rising = true) ∨ (s.fld k trig_edge = 2 ∧ rising = false)
    (i < 16 → s.rst.safeHold = false → chosen → free → ∃ u, exec (.trigEdge i rising bin) s = .next u ∧
      u.fld (key (0x2E28 + i) 2) cnt48 = s.oneMore (key (0x2E28 + i) 2) cnt48 ∧ u.ent (key (0x2E28 + i) 4) = t128 stamp ∧
      mget none u.time.trigLast i = some pos ∧
      (s.flag k trig_to_timeline = false → u.time.held = s.time.held ∧ u.mem = s.mem ∧
        ∀ j, j ≠ key (0x2E28 + i) 2 → j ≠ key (0x2E28 + i) 4 → u.ent j = s.ent j) ∧
      (let e : TlEnt := ⟨stamp, s.source 0 i, if rising then 1 else 2, min 65535 (mget 0 s.time.trigLost i), false⟩
       let late := ∃ r, s.time.lastRel = some r ∧ tlBefore (stamp, s.source 0 i) r = true
       (s.flag k trig_to_timeline = true → ¬ late → u.time.held = s.time.held ++ [e] ∧ u.time.ring = s.time.ring ∧
         u.ent kTlP = s.ent kTlP) ∧
       (s.flag k trig_to_timeline = true → late → u.time.held = s.time.held ∧ u.time.lastRel = s.time.lastRel ∧
         u.fld (key 0x2E40 5) tlk_out_of_order = s.oneMore (key 0x2E40 5) tlk_out_of_order ∧
         ((s.ent kTlP + 2 ^ 32 - s.ent kTlC) % 2 ^ 32 < 4096 → u.ent kTlP = (s.ent kTlP + 1) % 2 ^ 32 ∧
           mfind u.time.ring (s.ent kTlP % 4096) = some { e with ooo := true })))) ∧
    (∀ stamp src kind detail,
      let e : TlEnt := ⟨stamp, src, kind, detail, false⟩
      let u := s.timelineEnter stamp src kind detail
      (s.time.lastRel = none → u = { s with time := { s.time with held := s.time.held ++ [e] } }) ∧
      ∀ r, s.time.lastRel = some r →
        (tlBefore (stamp, src) r = false → u = { s with time := { s.time with held := s.time.held ++ [e] } }) ∧
        (tlBefore (stamp, src) r = true → u.time.held = s.time.held ∧ u.time.lastRel = s.time.lastRel ∧
          u.fld (key 0x2E40 5) tlk_out_of_order = s.oneMore (key 0x2E40 5) tlk_out_of_order)) ∧
    (∀ a es, s.dec.edges = a :: es → (∀ x ∈ es, x.1 ≠ s.clk) → a.1 = s.clk →
      s.enterEdges = ({ s with dec := { s.dec with edges := es } } : State).timelineEnter s.now (s.source 1 a.2.1) 3 a.2.2) ∧
    (i < 16 → s.rst.safeHold = false → chosen → ¬ free → ∃ u, exec (.trigEdge i rising bin) s = .next u ∧ u.time.held = s.time.held ∧
      u.fld (key (0x2E28 + i) 3) cnt32 = s.oneMore (key (0x2E28 + i) 3) cnt32 ∧ (∀ j, j ≠ key (0x2E28 + i) 3 → u.ent j = s.ent j)) ∧
    (i < 16 → ¬ chosen → exec (.trigEdge i rising bin) s = .next s) ∧
    (∀ e : TlEnt, firstHeld s.time.held = some e →
      (∀ x ∈ s.time.held, tlBefore (x.stamp, x.source) (e.stamp, e.source) = false) ∧
      (e.stamp + s.fld kTlc tlc_merge_hold * 1000 * 2 ^ 32 < s.now → e.ooo = false →
        let full := 4096 ≤ (s.ent kTlP + 2 ^ 32 - s.ent kTlC) % 2 ^ 32
        ∃ u, exec .timelineRelease s = .next u ∧ u.time.held = s.time.held.erase e ∧ u.time.lastRel = some (e.stamp, e.source) ∧
          (full → u.fld (key 0x2E40 5) tlk_drops = s.oneMore (key 0x2E40 5) tlk_drops ∧ u.ent kTlP = s.ent kTlP ∧
            u.time.ring = s.time.ring) ∧
          (¬ full → u.ent kTlP = (s.ent kTlP + 1) % 2 ^ 32 ∧ mfind u.time.ring (s.ent kTlP % 4096) = some e ∧
            ∀ j, j ≠ kTlP → u.ent j = s.ent j)) ∧
      (s.now ≤ e.stamp + s.fld kTlc tlc_merge_hold * 1000 * 2 ^ 32 → exec .timelineRelease s = .next s)) ∧
    (let ahead := (s.ent kTlP + 2 ^ 32 - s.ent kTlC) % 2 ^ 32 < (v + 2 ^ 32 - s.ent kTlC) % 2 ^ 32
     (¬ ahead → s.dictOpen = true → exec (.timelineConsumerWrite v) s = .next (s.setEnt kTlC v)) ∧ (ahead ∨ s.dictOpen = false → exec (.timelineConsumerWrite v) s = .next s))

/-- R364, R455: load, unload, arm, disarm and start move the job as the command table gives, each from its own states and while
nothing refuses it: a load ends LOADED, or EMPTY with its cause and step where a step failed; refused, a command changes nothing,
but an arming forms menu_crc. R358, R359, R366: a load that ends LOADED has taken P, F, T_e, the image_id and the digest of its image, and
its program, tide and scalar sections stand in the physical tiles their virtual tiles map to (stated of an image without patches, of
the one section of its type there). R7: an arming whose words break the harbour's requirement R394 faults the job with family 13 (log entry 69). menu_crc at a
refused arming is log entry 51, the quays an arming checks log entry 52, what a failed load leaves log entry 58, a load or unload
while a restart runs log entry 54. -/
def Obligations.JobCommandsMoveTheState : Prop :=
  ∀ s : State,
    let last := fun (u : State) (c : Nat) => u.fld kJob jst_last_command = c
    let from_ := fun (l : List Nat) => s.jobState ∈ l ∧ s.jobOpen = true
    let idle := (from_ [EMPTY, LOADED, FAULTED] ∨ (s.restartRuns = true ∧ s.jobOpen = true)) ∧ s.copying = false ∧
      s.memoryRefuses s.futureQuays s.futureArea = false
    let v := s.setEnt kMenuCrc (crc32c s.menuImage)
    let b := s.beforeLoad
    let end_ := (b.loadSteps false).2
    (idle → ∃ u, exec .load s = .next u ∧ last u 1 ∧ u.fld kRsts rsts_restart_state = 0 ∧
      (u.flag (key 0x2C00 6) lds_load_done = true ↔ end_ = none) ∧ (end_ ≠ none → u.jobState = EMPTY) ∧
      (∀ e, b.locate = .error e → u.jobState = EMPTY ∧ u.fld (key 0x2C00 6) lds_load_cause = 3 ∧ u.fld (key 0x2C00 6) lds_load_step = 1) ∧
      (∀ c st se d, end_ = some (.image c st se d) → u.fld (key 0x2C00 6) lds_load_cause = c % 16 ∧
        u.fld (key 0x2C00 6) lds_load_step = st % 16) ∧
      (∀ f, end_ = some (.table f) → u.fld (key 0x2C00 6) lds_load_cause = 0 ∧ u.fld (key 0x2C00 6) lds_load_step = 7) ∧
      (end_ = none → u.jobState = LOADED ∧ ∃ img, b.locate = .ok img ∧ u.P = imageP img ∧ u.F = imageF img ∧
        u.ent kGridT = natAt img 24 2 ∧ u.ent (key 0x2C00 1) = natAt img 32 8 ∧
        (∀ i, i < 4 → u.ent (key 0x2C00 (2 + i)) = imageDigest img / 2 ^ (64 * i) % 2 ^ 64) ∧
        ∀ x ∈ sectionsOf img, (∀ y ∈ sectionsOf img, y.typ = x.typ → u.ptile y.vrow y.vcol = u.ptile x.vrow x.vcol → y = x) →
          imagePatches img = [] →
          let t := u.ptile x.vrow x.vcol
          let w := x.bytes img
          (x.typ = 1 → mget 0 u.net.plen t = x.len / 8 ∧
            ∀ i, i < x.len / 8 → mget 0 u.net.prog (16384 * t + i) = natAt w (8 * i) 8) ∧
          (x.typ = 2 → ∀ j, j < imageP img →
            let i := (j + imageP img - natAt w 0 2) % imageP img
            mget 0 u.net.tide (65536 * t + j) =
              if i < natAt w 2 2 + 1 then natAt w (4 + 2 * i) 2 else if j % 64 = 63 then 0x8000 else 0) ∧
          (x.typ = 6 → ∀ i, i < 31 → mget 0 (u.tile t).s (i + 1) = natAt w (4 * i) 4 % 2 ^ 32))) ∧
    (¬ idle → exec .load s = .next s) ∧
    (from_ [LOADED, ARMED, RUNNING, PAUSED, FAULTED] → ∃ u, exec .unload s = .next u ∧ last u 2 ∧ u.jobState = EMPTY ∧
      (∀ p, u.tile p = {}) ∧ u.flag kJob jst_started = false ∧ u.flag kJob jst_parked = false ∧ u.job.bound = false ∧
      u.fld kRsts rsts_restart_state = 0) ∧
    (s.jobState = EMPTY ∨ s.jobOpen = false → exec .unload s = .next s) ∧
    (from_ [LOADED] → s.restartRuns = false → v.armRefused = false → v.harbourBroken = true → ∃ u, exec .arm s = .next u ∧ u.jobState = FAULTED ∧
      u.fld kFst fst_last_family = 13) ∧
    (from_ [LOADED] → s.restartRuns = false → v.armRefused = false → v.harbourBroken = false → ∃ u, exec .arm s = .next u ∧ last u 3 ∧ u.jobState = ARMED ∧
      u.flag kJob jst_started = false ∧ u.job.bound = false ∧ u.dec.driven = true ∧ u.ent kMenuCrc = crc32c s.menuImage ∧
      u.tiles = s.tiles) ∧
    (from_ [LOADED] → s.restartRuns = false → v.armRefused = true → exec .arm s = .next v) ∧
    (¬ from_ [LOADED] ∨ s.restartRuns = true → exec .arm s = .next s) ∧
    (from_ [ARMED] → s.flag kJob jst_started = false → ∃ u, exec .disarm s = .next u ∧ last u 4 ∧ u.jobState = LOADED ∧
      u.tiles = s.tiles ∧ u.mem = s.mem) ∧
    (¬ from_ [ARMED] ∨ s.flag kJob jst_started = true → exec .disarm s = .next s ∧ exec .start s = .next s) ∧
    (from_ [ARMED] → s.flag kJob jst_started = false → s.job.bound = false →
      s.berthSize ≤ 1 ∨ s.landedBefore (s.ent (key 0x2D00 4)) = true →
      ∃ u, exec .start s = .next u ∧ last u 5 ∧ u.jobState = ARMED ∧ u.flag kJob jst_started = true ∧
        (1 < s.berthSize → u.fld kBsts bsts_cal_state = 1 ∧ u.berth.nextClose = s.berthFrames))

/-- R456, R457, R462: a pause is pending from the next clk and takes effect at the first frame whose boundary lies at least two clk
later; from then on the state reads PAUSED, and a resume takes effect by the same rule; a parked job that resumes waits to be bound
anew. -/
def Obligations.PauseAndResumeAtFrameBoundaries : Prop :=
  ∀ (s : State) (n : Nat),
    let b := fun (k : Nat) => s.job.s0 + k * s.F
    let first := s.clk + 2 ≤ b n ∧ ∀ m, m < n → b m < s.clk + 2
    (s.jobState = RUNNING → s.jobOpen = true → s.flag kJob jst_pause_pending = false → s.job.pauseAt = none → first →
      ∃ u, exec .pause s = .next u ∧ u.fld kJob jst_last_command = 6 ∧ u.flag kJob jst_pause_pending = false ∧ u.jobState = RUNNING ∧
        u.ent kPause = (s.job.n0 + n) % 2 ^ 48 ∧
        u.job = { s.job with heldFrom := some (Int.ofNat n), heldTo := none, pauseAt := some (b n), resumeAt := none } ∧
        u.pausePends.flag kJob jst_pause_pending = true ∧ u.pausePends.flag kFlsh flsh_holdoff_now = true ∧
        u.pausePends.job = u.job ∧ u.tiles = s.tiles ∧ u.mem = s.mem) ∧
    (s.jobState ≠ RUNNING ∨ s.jobOpen = false ∨ s.flag kJob jst_pause_pending = true ∨ s.job.pauseAt ≠ none → exec .pause s = .next s) ∧
    (∀ c, s.job.pauseAt = some c → s.jobState = RUNNING → s.flag kJob jst_pause_pending = true →
      (c ≤ s.clk → ∃ u, exec .pauseTakesEffect s = .next u ∧ u.jobState = PAUSED ∧ u.flag kJob jst_pause_pending = false ∧
        u.job = { s.job with pauseAt := none } ∧ u.tiles = s.tiles ∧ u.mem = s.mem) ∧
      (s.clk < c → exec .pauseTakesEffect s = .next s)) ∧
    (s.jobState = PAUSED → s.jobOpen = true → s.copying = false → s.job.resumeParked = false → s.job.resumeAt = none →
      (s.flag kJob jst_parked = false → first → ∃ u, exec .resume s = .next u ∧ u.fld kJob jst_last_command = 7 ∧
        u.jobState = PAUSED ∧ u.ent kResume = (s.job.n0 + n) % 2 ^ 48 ∧
        u.job = { s.job with heldTo := some (Int.ofNat n), resumeAt := some (b n) } ∧ u.tiles = s.tiles ∧ u.mem = s.mem) ∧
      (s.flag kJob jst_parked = true → s.moored = false → ∃ u, exec .resume s = .next u ∧ u.jobState = PAUSED ∧
        u.flag kJob jst_parked = false ∧ u.job.resumeParked = true ∧ u.job.bound = false ∧ u.tiles = s.tiles)) ∧
    (s.jobState ≠ PAUSED ∨ s.jobOpen = false ∨ s.copying = true → exec .resume s = .next s) ∧
    (∀ c, s.job.resumeAt = some c → s.jobState = PAUSED →
      (c ≤ s.clk → ∃ u, exec .resumeTakesEffect s = .next u ∧ u.jobState = RUNNING ∧ u.job = { s.job with resumeAt := none } ∧
        u.tiles = s.tiles ∧ u.mem = s.mem) ∧
      (s.clk < c → exec .resumeTakesEffect s = .next s))

/-- R459, R462, R471: a save of a paused job drains, parks the grid at a period boundary and copies the image to save_offset, or
fails where it does not fit or a word is uncorrectable; a restore is refused for another job's image, and ends restored. The bytes
inside a part of a save image are the model's (log entry 20); a second save while one runs is log entry 53; an image of another
magic or version is image_mismatch (log entry 79); which word of a restore was uncorrectable is free (log entry 77). -/
def Obligations.SavesParkCopyAndRestore : Prop :=
  ∀ (s : State) (c : Nat),
    let may := s.jobOpen = true ∧ s.saveAgreed = true
    let open_ := may ∧ s.copying = false
    let status := fun (u : State) (st op cause bytes : Nat) => u.fld kSvs svs_save_state = st ∧ u.fld kSvs svs_restore_op = op ∧
      u.fld kSvs svs_cause = cause ∧
      u.fld kSvs svs_save_bytes = (if bytes = 0 then s.fld kSvs svs_save_bytes else bytes % 2 ^ 48)
    let stored := fun (u : State) (i : Nat) => readByte u.mem (ddrBase + s.saveBase + i)
    (s.jobState = PAUSED → open_ → s.flag kJob jst_parked = false → s.job.resumeParked = false →
      ∃ u, exec .save s = .next u ∧ u.fld kJob jst_last_command = 8 ∧ u.jobState = PAUSED ∧ status u 1 0 0 0 ∧ u.job.saving = 1 ∧
        (∀ j, j ≠ kSvs → j ≠ kJob → u.ent j = s.ent j) ∧ u.mem = s.mem) ∧
    (s.jobState ≠ PAUSED ∨ ¬ may ∨ s.flag kJob jst_parked = true → exec .save s = .next s) ∧
    (s.jobState = PAUSED → may → s.copying = true → s.job.saving ∈ [1, 2] → s.flag kJob jst_parked = false → s.job.resumeParked = false →
      exec .save s = .next (s.accepted 8)) ∧
    (s.jobState = LOADED → may → s.restartRuns = false → s.copying = true → exec .restore s = .next (s.accepted 9)) ∧
    (s.job.saving = 1 → s.jobState = PAUSED → s.job.bound = true → s.job.s0 ≤ s.clk → (s.clk - s.job.s0) % s.P = 0 →
      (s.ent (key 0x2F00 5) ≤ s.drained → s.gridQuiet = true →
        exec .savePark s = .next { s with job := { s.job with saving := 2, parkedTiles := true } }) ∧
      (s.drained < s.ent (key 0x2F00 5) ∨ s.gridQuiet = false → exec .savePark s = .next s)) ∧
    (s.job.saving = 2 →
      let img := s.saveImage
      (s.saveFits img.length = true → c ≠ 2 → s.rst.ddrZero = true → ∃ u, exec (.saveCopyDone c) s = .next u ∧
        status u 2 0 0 img.length ∧ u.flag kJob jst_parked = true ∧ u.job.saving = 0 ∧
        (∀ i, i < img.length → stored u i = BitVec.ofNat 8 (img.getD i 0)) ∧
        (∀ a, a < ddrBase + s.saveBase ∨ ddrBase + s.saveBase + img.length ≤ a → readByte u.mem a = readByte s.mem a)) ∧
      (s.saveFits img.length = false → ∃ u, exec (.saveCopyDone c) s = .next u ∧ status u 3 0 1 0 ∧
        u.flag kJob jst_parked = true ∧ u.mem = s.mem) ∧
      (s.saveFits img.length = true → c = 2 → ∃ u, exec (.saveCopyDone c) s = .next u ∧ status u 3 0 2 0 ∧
        u.flag kJob jst_parked = true ∧ u.mem = s.mem)) ∧
    (s.jobState = LOADED → open_ → s.restartRuns = false →
      (s.restoreRefusal = none → ∃ u, exec .restore s = .next u ∧ u.fld kJob jst_last_command = 9 ∧ status u 1 1 0 0 ∧
        u.job.saving = 3 ∧ (∀ j, j ≠ kSvs → j ≠ kJob → u.ent j = s.ent j) ∧ u.mem = s.mem) ∧
      (∀ r, s.restoreRefusal = some r → ∃ u, exec .restore s = .next u ∧ status u 3 1 r 0 ∧ onlyEntry s u kSvs)) ∧
    (s.jobState ≠ LOADED ∨ ¬ may ∨ s.restartRuns = true → exec .restore s = .next s) ∧
    (s.job.saving = 3 → s.jobState = LOADED →
      (c ≠ 2 → s.saveBad = false → ∃ u, exec (.restoreDone c) s = .next u ∧ status u 2 1 0 s.storedBytes ∧ u.flag kJob jst_restored = true ∧
        let body := s.ddrRead (s.saveBase + 128) (s.storedBytes - 128)
        let from_ := fun (x : SaveItem) (v : Nat) => ∃ pre post, s.saveItems = pre ++ x :: post ∧
          v = leNat ((body.drop (pre.map (fun y => y.bytes)).sum).take x.bytes)
        (∀ p ∈ s.virtualTiles,
          (∀ i, i < 31 → from_ (tileItem p 4 (fun t => mget 0 t.s (i + 1)) (fun t v => t.setS (i + 1) v)) (mget 0 (u.tile p).s (i + 1))) ∧
          from_ (tileItem p 1 (fun t => t.active) (fun t v => { t with active := v })) (u.tile p).active) ∧
        ∀ d, d < 256 → from_ (entItem (key (0x2A00 + d) 12) 4) (u.ent (key (0x2A00 + d) 12))) ∧
      (c = 2 ∨ s.saveBad = true → ∃ u, exec (.restoreDone c) s = .next u ∧ status u 3 1 2 0 ∧ u.tiles = s.tiles ∧ u.mem = s.mem ∧
        u.flag kFst fst_fault_seen = true))

/-- R541, R543, R544: a faulted job that was told restarts unless a condition refuses it, the lowest code first; one that restarts
comes back ARMED, started as it was, or is refused load_refused, or its arming faults it anew (R7); a berth that restarts together
waits for its frame, N_first plus the lead, and one that comes too late is refused with the lowest code that holds. One phase is one
RESTART command, and the corners of the refusals, are log entry 54. -/
def Obligations.RestartsTakeTheJobBack : Prop :=
  ∀ s : State,
    let st := s.fld kRsts rsts_restart_state
    let waits := st = 1 ∨ st = 5
    let refused := fun (u : State) (c : Nat) => u.jobState = FAULTED ∧ u.fld kRsts rsts_restart_state = 6 ∧ u.fld kRsts rsts_refusal = c
    let goesOn := fun (u : State) (n : Nat) => u.fld kRsts rsts_restart_state = n
    let v := s.setEnt kMenuCrc (crc32c s.menuImage)
    let j := s.job
    (s.jobState = FAULTED → s.flt.active = false → waits →
      (s.restartRefusal ≠ 0 → ∃ u, exec .restart s = .next u ∧ refused u s.restartRefusal ∧ ∀ j, j ≠ kRsts → u.ent j = s.ent j) ∧
      (s.restartRefusal = 0 → j.wasStarted = true → s.together = true → s.berth.restartFrame = none →
        ∃ u, exec .restart s = .next u ∧ goesOn u 5 ∧ onlyEntry s u kRsts) ∧
      (s.restartRefusal = 0 → j.wasStarted = false ∨ s.together = false ∨ s.berth.restartFrame ≠ none →
        ∃ u, exec .restart s = .next u ∧ u.jobState = FAULTED ∧ goesOn u 2 ∧ u.job.restarts = s.clk :: s.recentRestarts ∧
          u.job.lastReport = some s.reportKey ∧ u.mem = s.mem ∧
          ∀ f ∈ s.flt.recs, ∀ p, p < 104 → s.substitution f = .retire p →
            u.flag (kRow (p / 13)) row_retire_pending = true ∧ u.fld (kRow (p / 13)) row_pending_column = p % 13)) ∧
    (s.jobState = FAULTED → st = 2 →
      (s.reload.2 = true → ∃ u, exec .restart s = .next u ∧ u.jobState = LOADED ∧ goesOn u (if s.reload.1.wantsRestore then 3 else 4) ∧
        (∀ p, u.tile p = s.reload.1.tile p) ∧ u.net = s.reload.1.net ∧ u.mem = s.reload.1.mem) ∧
      (s.reload.2 = false → ∃ u, exec .restart s = .next u ∧ refused u 5)) ∧
    (s.jobState = LOADED → st = 3 →
      (s.restoreRefusal = none → s.saveBad = false → ∃ u, exec .restart s = .next u ∧ u.jobState = LOADED ∧ goesOn u 4 ∧
        u.flag kJob jst_restored = true ∧ ∀ p, u.tile p = s.readSave.tile p) ∧
      (s.restoreRefusal ≠ none ∨ s.saveBad = true → ∃ u, exec .restart s = .next u ∧ refused u 5)) ∧
    (s.jobState = LOADED → st = 4 →
      (v.armRefused = true → ∃ u, exec .restart s = .next u ∧ refused u 5) ∧
      (v.armRefused = false → v.harbourBroken = true → ∃ u, exec .restart s = .next u ∧ u.jobState = FAULTED) ∧
      (v.armRefused = false → v.harbourBroken = false → ∃ u, exec .restart s = .next u ∧ u.jobState = ARMED ∧ goesOn u 0 ∧
        u.fld kRsts rsts_refusal = 0 ∧ u.flag kJob jst_started = j.wasStarted ∧ u.job.restarting = true ∧
        (j.wasStarted = true → j.wasPaused = true → u.flag kJob jst_pause_pending = true))) ∧
    (let is := fun (c : Nat) => s.restartRefusal = c
     let limit := s.fld (key 0x3000 2) rctl_restart_limit ≤ s.recentRestarts.length
     let again := j.lastReport = some s.reportKey
     let touched := s.fld kRsts rsts_library_touched = 1
     let hot := s.tele.hold = true
     let host := ∃ f ∈ s.flt.recs, f.family = 11
     (limit → is 1) ∧ (¬ limit → again → is 2) ∧ (¬ limit → ¬ again → s.substituted = none → is 3) ∧
       (¬ limit → ¬ again → s.substituted ≠ none → touched → is 4) ∧
       (¬ limit → ¬ again → s.substituted ≠ none → ¬ touched →
         (hot ∨ host → s.restartFails = true → is 5) ∧ (hot → s.restartFails = false → is 6) ∧
         (¬ hot → host → s.restartFails = false → is 7) ∧ (¬ hot → ¬ host → is 0))) ∧
    (∀ f p, p < 104 → s.flt.recs = [f] → s.substitution f = .retire p →
      s.fld (kRow (p / 13)) row_retired_column ≠ 15 ∨ s.fld (kSpr (p / 13)) spr_spare_ok = 0 → s.substituted = none) ∧
    (∀ f p, s.flt.recs = [f] → p < 104 → f.loc = 2 ^ 12 + p → f.family = 9 →
      (f.cause = 2 → s.substitution f = .retire p) ∧
      (f.cause = 1 → let row := f.detail % 2 ^ 25 / 64
        let used := row / 512 ∈ mget [] s.tend.spareGroups p ∨ ∃ r ∈ mget [] s.tend.repairs p, r ≠ row ∧ r / 512 = row / 512
        (used → s.substitution f = .retire p) ∧ (¬ used → s.substitution f = .repair p row))) ∧
    (((s.jobState ≠ FAULTED ∨ s.flt.active = true ∨ ¬ waits) ∧ (s.jobState ≠ FAULTED ∨ st ≠ 2) ∧
      (s.jobState ≠ LOADED ∨ (st ≠ 3 ∧ st ≠ 4))) → exec .restart s = .next s) ∧
    (s.jobState = FAULTED → s.together = true → waits →
      (∀ rep : Nat → Nat, (∀ m, m < s.berthSize → mget none s.berth.firstFaulted m = some (rep m)) →
        ∃ u m, exec .berthRestartFrame s = .next u ∧ m < s.berthSize ∧
          ((∀ k, k < s.berthSize → rep k < 2 ^ 47) → ∀ k, k < s.berthSize → rep m ≤ rep k) ∧
          u.ent (key 0x2D00 4) = (rep m + (50000000 + s.F - 1) / s.F) % 2 ^ 48 ∧
          u.berth.restartFrame = some ((rep m + (50000000 + s.F - 1) / s.F) % 2 ^ 48) ∧
          ∀ j, j ≠ key 0x2D00 4 → u.ent j = s.ent j) ∧
      (∀ m f : Nat, m < s.berthSize → mget none s.berth.firstFaulted m = none →
        earliest ((List.range s.berthSize).filterMap (fun m => mget none s.berth.firstFaulted m)) = some f →
        (later ((f + (1024 + s.F - 1) / s.F + 2) % 2 ^ 48) (s.frameAt s.clk) = true → exec .berthRestartFrame s = .next s) ∧
        (later ((f + (1024 + s.F - 1) / s.F + 2) % 2 ^ 48) (s.frameAt s.clk) = false →
          ∃ u, exec .berthRestartFrame s = .next u ∧ refused u (if s.restartRefusal ≠ 0 then s.restartRefusal else if s.restartFails = true then 5 else 8))))

/-- R434, R438, R439, R585: an access is checked in one order and the first check that fails gives its abort code and changes
nothing; an entry without an action of its own takes the written word field by field; a USDO answer carries the code, or the value
read. What recovery refuses, and a write-only entry that is read, are log entry 60; a flash write in progress is log entry 26. -/
def Obligations.DictionaryAccessesAreChecked : Prop :=
  ∀ (s : State) (p : Path) (i sub len v : Nat),
    let r := s.writeEntry p i sub len v
    let present := hasIndex i = true ∧ indexOk s.grade i = true
    let refused := fun (c : Nat) => r = (s, some c)
    (¬ present → refused 0x06020000) ∧
    (present → findEntry i sub entries = none ∨ subOk s.grade i sub = false → refused 0x06090011) ∧
    (∀ e : Entry, present → findEntry i sub entries = some e → subOk s.grade i sub = true →
      let writable := ∃ f ∈ e.flds, f.acc ≠ Acc.ro
      let state := s.unserved i = true ∨ s.featureRefuses p i sub v = true ∨ s.plainState e i sub v false = true
      (isSlot p = true → 64 < e.bytes → refused 0x06010000) ∧
      (isSlot p = false ∨ e.bytes ≤ 64 →
        (¬ writable → refused 0x06010002) ∧
        (writable → len ≠ e.bytes → refused 0x06070010) ∧
        (writable → len = e.bytes → state → refused 0x08000022) ∧
        (writable → len = e.bytes → ¬ state → actsOnWrite i sub = false → s.valueRefused e i sub v = true → refused 0x06090030) ∧
        (writable → len = e.bytes → ¬ state → actsOnWrite i sub = false → s.valueRefused e i sub v = false →
          r.2 = none ∧ (laneEntry i sub = none → r.1.ent (key i sub) = mergeWord e.flds (s.ent (key i sub)) v)))) ∧
    (s.canServes = true →
      let w := s.writeEntry .can i sub len v
      exec (.usdoDownload i sub len v) s = .next { w.1 with out := .reply (s.cob 0x580) (w.2.getD 0) 0 0 :: w.1.out } ∧
      exec (.registerWrite .can i sub len v) s = .next { w.1 with out := .reply (s.cob 0x580) (w.2.getD 0) 0 0 :: w.1.out } ∧
      (∀ e : Entry, present → findEntry i sub entries = some e → subOk s.grade i sub = true →
        (s.unserved i = false → exec (.usdoUpload i sub) s =
          .next { s.afterRead i sub with out := .reply (s.cob 0x580) 0 (s.readWord true i sub) (dataType e i sub) :: (s.afterRead i sub).out }) ∧
        (s.unserved i = true → exec (.usdoUpload i sub) s = .next { s with out := .reply (s.cob 0x580) 0x08000022 0 0 :: s.out }))) ∧
    (s.canServes = false → exec (.usdoDownload i sub len v) s = .next s ∧ exec (.usdoUpload i sub) s = .next s)

/-- R447 to R450, R452, R484: an access slot takes its command and ends done or refused with its code, a command word with a
reserved bit set refused whole (R18; how it shows is the model's choice, log entry 79); a hot register writes its entry and keeps
the refusal until it is read, and reads 0 for a feature not agreed; in host-only boot BAR0 holds the boot control word and the
image; features are agreed once, by the first latch; BAR2 bytes land in the library partition and mark it. Slots are never seen busy
(log entry 32). The mirror of driver_features is log entry 17; writes past a partition, hot writes before the latch and a masked
vector are log entry 60. -/
def Obligations.HostLinkReachesTheDictionary : Prop :=
  ∀ (s : State) (n i sub len v : Nat) (notify : Bool),
    let took := fun (w : Bool) => ({ s with ctl := { s.ctl with
      slotCmd := mset 0 s.ctl.slotCmd n (slotCommand i sub w notify len) } } : State)
    let ended := fun (t : State) (st c : Nat) => ({ t with ctl := { t.ctl with slotStat := mset 0 t.ctl.slotStat n (st + 2 ^ 32 * c) } } : State)
    let done := fun (t : State) (st c : Nat) => if notify = true then (ended t st c).raise 5 else ended t st c
    (n < 64 → s.rst.available = true →
      (let t : State := { took true with ctl := { (took true).ctl with slotData := mset 0 s.ctl.slotData n (v % 2 ^ 512) } }
       let r := t.writeEntry (.slot n) i sub len (v % 2 ^ 512 % 2 ^ (8 * len))
       (r.2 = none → exec (.slotAccess n i sub true notify len v) s = .next (done r.1 2 0)) ∧
        ∀ c, r.2 = some c → exec (.slotAccess n i sub true notify len v) s = .next (done r.1 3 c)) ∧
      (∀ e : Entry, (took false).lookup i sub = .ok e → e.bytes ≤ 64 → s.unserved i = false →
        let a := (took false).afterRead i sub
        let x := (took false).readWord false i sub
        exec (.slotAccess n i sub false notify len v) s =
          .next (done (a.setSlotBytes n (x % 2 ^ (8 * len) + a.slotBytes n / 2 ^ (8 * len) * 2 ^ (8 * len))) 2 0)) ∧
      (notify = false → exec (.registerWrite (.slot n) i sub len v) s = exec (.slotAccess n i sub true false len v) s)) ∧
    (n < 64 → s.rst.available = false → ∀ w, exec (.slotAccess n i sub w notify len v) s = .next (done (took w) 3 0x08000022)) ∧
    (∀ off j k : Nat, hotEntry off = some (j, k) → s.rst.available = true → s.rst.waitHost = false →
      let r := s.writeEntry .hot j k (entryBytes j k) v
      (r.2 = none → exec (.hotRegisterWrite off v) s = .next r.1) ∧
      (∀ c, r.2 = some c → exec (.hotRegisterWrite off v) s = .next { r.1 with ctl := { r.1.ctl with hotRefusal := c } }) ∧
      exec (.registerWrite .hot j k (entryBytes j k) v) s = exec (.hotRegisterWrite off v) s) ∧
    (∀ off, hotEntry off = none → s.rst.waitHost = false →
      (off = 0x18 → exec (.hotRegisterWrite off v) s = .next (if v % 2 ^ 64 = 1 then s.latch else s)) ∧
      (off = 0x10000 + 256 * n → n < 64 → slotReserved v = true → exec (.hotRegisterWrite off v) s =
        .next (ended s 3 (if s.rst.available = true then 0x06090030 else 0x08000022))) ∧
      (off = 0x10000 + 256 * n → n < 64 → slotReserved v = false → v / 2 ^ 26 % 2 = 0 → ∃ u, exec (.hotRegisterWrite off v) s = .next u ∧
        mget 0 u.ctl.slotCmd n = v % 2 ^ 26 + v / 2 ^ 32 % 2 ^ 7 * 2 ^ 32 ∧
        { u with ctl := { u.ctl with slotCmd := s.ctl.slotCmd } } = s) ∧
      (off = 0x80000 + 8 * n → n < 128 → ∃ u, exec (.hotRegisterWrite off v) s = .next u ∧
        mget 0 u.ctl.msix n = v % 2 ^ 64 ∧ { u with ctl := { u.ctl with msix := s.ctl.msix } } = s) ∧
      (0x18 < off → off < 0x10000 ∨ 0x80400 ≤ off → exec (.hotRegisterWrite off v) s = .next s)) ∧
    (s.rst.waitHost = true →
      (v / 2 ^ 24 % 2 = 0 → bits v 26 38 = 0 → exec (.hotRegisterWrite 0x7FF000 v) s =
        .next { s with rst := { s.rst with bootBytes := v % 2 ^ 24 } }) ∧
      s.bar0Read 0x7FF000 = s.rst.bootBytes + (if s.rst.bootRejected = true then 2 ^ 25 else 0) ∧
      (∀ off, 0x800000 ≤ off → off < 0x1000000 → ∃ u, exec (.hotRegisterWrite off v) s = .next u ∧ { u with mem := s.mem } = s ∧
        (∀ i, i < 8 → (readByte u.mem (bootBase + (off - 0x800000) + i)).toNat = v / 2 ^ (8 * i) % 256) ∧
        ∀ a, a < bootBase + (off - 0x800000) ∨ bootBase + (off - 0x800000) + 8 ≤ a → readByte u.mem a = readByte s.mem a) ∧
      (∀ off, off ≠ 0x7FF000 → off < 0x800000 ∨ 0x1000000 ≤ off → exec (.hotRegisterWrite off v) s = .next s)) ∧
    (∀ k, k < 9 → s.rst.waitHost = false → s.bar0Read (0x1000 + 8 * k) = if s.rst.available = true ∧
        (s.ctl.latched = true → bit s.agreed 0 = true ∧ bit s.agreed (hotFeature (0x1000 + 8 * k)) = true) then
      (match hotEntry (0x1000 + 8 * k) with | some e => s.readWord false e.1 e.2 | none => 0) else 0) ∧
    exec .hotRefusalRead s = .next (if s.hotReads 0x1048 = true then
      { s with ctl := { s.ctl with hotRefusal := 0 }, out := .hotRead s.ctl.hotRefusal :: s.out }
      else { s with out := .hotRead 0 :: s.out }) ∧
    (s.rst.available = true → s.ctl.latched = false → ∃ u, exec (.featureLatch v) s = .next u ∧ u.ctl = { s.ctl with latched := true } ∧
      u.ent (key 0x2F10 2) = v % 2 ^ 64 ∧ u.ent (key 0x2F10 3) = (s.ent (key 0x2F10 1) &&& v % 2 ^ 64) ∧
      (∀ j, j ≠ key 0x2F10 2 → j ≠ key 0x2F10 3 → u.ent j = s.ent j) ∧ u.mem = s.mem) ∧
    (s.ctl.latched = true → exec (.featureLatch v) s = .next s) ∧
    (∀ (off : Nat) (bytes : List Byte),
      let x := s.fld kHlc hlc_bar2_offset * 2 ^ 36 + off
      let lands := s.rst.available = true ∧ s.fld kHlc hlc_aperture_target = 1 ∧ x + bytes.length ≤ s.ent (key 0x27E0 4) ∧
        off + bytes.length ≤ 2 ^ 36
      (lands → s.rst.ddrZero = true → ∃ u, exec (.bar2Write off bytes) s = .next u ∧
        stores s.mem u.mem (ddrBase + (s.ent (key 0x27E0 3) + x)) bytes ∧ u.flag kRsts rsts_library_touched = true ∧
        (∀ j, j ≠ kRsts → u.ent j = s.ent j) ∧ u.tiles = s.tiles) ∧
      (¬ lands → ∃ u, exec (.bar2Write off bytes) s = .next u ∧ onlyEntry s u kHls ∧
        u.fld kHls hls_bar2_discards = s.oneMore kHls hls_bar2_discards))

/-- R436, R441 to R445, R467: an NMT command moves the NMT state and nothing else; a heartbeat gives it; a queued EMCY message
leaves once the inhibit time has passed, and a count of lost ones is queued behind it; Store Parameters keeps the stored entries,
Restore Default Parameters marks the store. What reset communication sends is taken from CiA 301 (log entry 31); the copies of the
store and the mark are log entry 62, the fields it keeps log entry 23. -/
def Obligations.FieldNetworkNodeFollowsCommands : Prop :=
  ∀ (s : State) (b : Nat) (bs : List Nat),
    (s.canUp = true →
      (∃ u, exec .nmtStart s = .next u ∧ u.fld kCans cans_nmt_state = 1 ∧ onlyEntry s u kCans) ∧
      (∃ u, exec .nmtStop s = .next u ∧ u.fld kCans cans_nmt_state = 2 ∧ onlyEntry s u kCans) ∧
      (∃ u, exec .nmtPreOperational s = .next u ∧ u.fld kCans cans_nmt_state = 0 ∧ onlyEntry s u kCans) ∧
      (∃ u, exec .nmtResetCommunication s = .next u ∧ u.fld kCans cans_nmt_state = 0 ∧ u.out = .bootUp (u.cob 0x700) :: s.out ∧
        u.fld kCans cans_node_id = ((s.fld kCan can_node_id_cfg + 126 + 32 * s.fld kStrp strp_field_bits) % 127 + 1) % 2 ^ 7 ∧
        ∀ j, j ≠ kCans → u.ent j = s.ent j) ∧
      (∃ u, exec .classicalFrame s = .next u ∧ u.fld kCans cans_classical_frames = s.oneMore kCans cans_classical_frames ∧
        onlyEntry s u kCans) ∧
      (s.ent (key 0x1017 0) ≠ 0 → exec .heartbeat s = .next { s with out := .heartbeat (s.cob 0x700) (s.fld kCans cans_nmt_state) :: s.out }) ∧
      (s.ent (key 0x1017 0) = 0 → exec .heartbeat s = .next s)) ∧
    (s.ctl.canQ = b :: bs →
      (s.canServes = true → s.ctl.canNext ≤ s.clk → s.ctl.lostUnsent = 0 → exec .emcyTransmit s = .next { s with
        ctl := { s.ctl with canQ := bs, canNext := s.clk + 125000 * s.ent (key 0x1015 0) }, out := .emcy (s.cob 0x080) b :: s.out }) ∧
      (s.canServes = true → s.ctl.canNext ≤ s.clk → 0 < s.ctl.lostUnsent → bs.length < 32 → ∃ u m, exec .emcyTransmit s = .next u ∧
        u.ctl.canQ = bs ++ [m] ∧ bits m 24 8 = 8 ∧ bits m 128 32 = s.ctl.lostUnsent % 2 ^ 32 ∧ u.ctl.lostUnsent = 0 ∧ u.mem = s.mem) ∧
      (s.canServes = false ∨ s.clk < s.ctl.canNext → exec .emcyTransmit s = .next s)) ∧
    (s.rst.available = true →
      (∃ u, exec (.storeParameters 0x65766173 true) s = .next u ∧ u.storeValid = true ∧ u.ctl.storeMark = false ∧ u.dict = s.dict ∧
        (∀ k, isStored k = true → mget (dflt s.grade s.stepping k) u.storeMap k = s.onlyFlds (savedFlds k) k (s.ent k)) ∧
        (∀ k, isStored k = false → mget (dflt s.grade s.stepping k) u.storeMap k =
          mget (dflt s.grade s.stepping k) (s.storeMap.filter (fun e => isAlways e.1)) k)) ∧
      exec (.storeParameters 0x65766173 false) s = .next s ∧
      exec (.restoreDefaultParameters 0x64616F6C) s = .next { s with ctl := { s.ctl with storeMark := true } } ∧
      (∀ k, k ≠ 0x65766173 → exec (.storeParameters k true) s = .next s) ∧
      (∀ k, k ≠ 0x64616F6C → exec (.restoreDefaultParameters k) s = .next s))

/-- R474 to R478, R494, R495, R528: a full reset ends any job, clears the block but for what each source keeps, sets its cause's
seen bit and restarts the sequence, at step 1 after power-on, at step 3 otherwise; before step 3, or in the cycle of another, it is
only recorded, and in safe hold nothing but power-on registers. But at power-on the outputs end within 6 clk and the drivers release
the pins 1 µs later, the descramblers stay as they are (R46), and a thermal hold goes on where a reading is at its warn limit.
PERST_N clears the host link alone. Resets of one cycle, and what outlasts one, are log entries 29 and 59; a torn recorder write is
log entry 25. -/
def Obligations.FullResetsClearTheBlock : Prop :=
  ∀ (s : State) (v : Nat),
    let cleared := fun (u : State) => u.jobState = EMPTY ∧ u.tiles = [] ∧ u.rst.available = false ∧ u.cap = {} ∧ u.recd.openAt = none ∧
      u.tele.hold = (s.tele.hold && s.warm) ∧ (u.tele.hold = true → u.flag kTel tel_thermal_trip = true) ∧ u.job = {} ∧ u.net = { retired := s.net.retired } ∧
      (∀ a, a < 104 * 2 ^ 25 ∨ (hbmBase 0 ≤ a ∧ a < hbmBase 0 + 2 ^ 41) → readByte u.mem a = 0)
    let released := fun (u : State) => u.dec = { pulses := u.dec.pulses, driven := s.dec.driven } ∧
      (s.flag kFlsh flsh_forcing = false → (∀ e ∈ u.dec.pulses, ∀ p, e.2 = some p → e ∈ s.dec.pulses ∧ p.2 ≤ s.clk + 6)) ∧
      (s.dec.driven = true → s.rst.release = none → u.rst.release = some (s.clk + 1250))
    let kept := fun (u : State) (cause : Nat) => cleared u ∧ released u ∧ u.rst.step = 3 ∧ u.time = s.time ∧ u.rst.ddrZero = s.rst.ddrZero ∧
      u.land = { parsers := mmap ({} : Parser) (fun p => { hist := p.hist }) s.land.parsers } ∧
      (∀ a, ddrBase ≤ a → a < fwStageBase → readByte u.mem a = readByte s.mem a) ∧ u.flag kRcs (causeFld cause) = true ∧
      u.fld kRcs rcs_full_resets = s.oneMore kRcs rcs_full_resets ∧ u.fld kRcs rcs_last_full_cause = cause
    let absorbed := fun (u : State) (cause : Nat) => u.flag kRcs (causeFld cause) = true ∧
      u.fld kRcs rcs_full_resets = s.oneMore kRcs rcs_full_resets ∧ (∀ j, j ≠ kRcs → u.ent j = s.ent j) ∧ u.rst.step = s.rst.step ∧
      u.tiles = s.tiles ∧ u.mem = s.mem ∧ u.time = s.time ∧
      u.fld kRcs rcs_last_full_cause = (s.sameCycle.map Prod.snd).foldl min cause
    let restarts := s.canon ∧ s.rst.safeHold = false ∧ s.beforeTrim = false ∧ s.sameCycle = []
    (∃ u, exec .powerOnReset s = .next u ∧ cleared u ∧ u.dec = {} ∧ u.land = {} ∧ u.rst.step = 0 ∧ u.rst.ddrZero = false ∧ u.time = { tickClk := s.clk - s.clk % 4, since := s.clk } ∧
      u.rst.safeHold = false ∧ u.flag kRcs rcs_por_seen = true ∧ (s.sameCycle = [] → u.fld kRcs rcs_last_full_cause = 1)) ∧
    (restarts →
      (s.rst.pinHeld = false → ∃ u, exec .resetN s = .next u ∧ kept u 2 ∧ u.rst.pinHeld = true) ∧
      (s.watchdogOn = true → ∃ u, exec .watchdogExpiry s = .next u ∧ kept u 3) ∧
      (s.canUp = true → ∃ u, exec .nmtResetNode s = .next u ∧ kept u 4) ∧
      kept (s.fullReset 5) 5) ∧
    (s.rst.safeHold = false → s.beforeTrim = true ∨ s.sameCycle ≠ [] →
      (s.rst.pinHeld = false → ∃ u, exec .resetN s = .next u ∧ absorbed u 2 ∧ u.rst.pinHeld = true) ∧
      (s.sameCycle ≠ [] → s.rst.wdRan = true → ∃ u, exec .watchdogExpiry s = .next u ∧ absorbed u 3) ∧
      (s.sameCycle ≠ [] → s.rst.canRan = true → ∃ u, exec .nmtResetNode s = .next u ∧ absorbed u 4) ∧ absorbed (s.fullReset 5) 5) ∧
    (s.rst.pinHeld = true → exec .resetN s = .next s) ∧
    (∀ c, s.rst.release = some c → c ≤ s.clk → s.releasePins = { s with
      dec := { s.dec with driven := false }, rst := { s.rst with release := none } }) ∧
    (s.rst.safeHold = true → exec .resetN s = .next s ∧ exec .watchdogExpiry s = .next s ∧
      exec .perstAssert s = .next { s with rst := { s.rst with perst := true } }) ∧
    exec .resetNRelease s = .next { s with rst := { s.rst with pinHeld := false } } ∧
    (s.rst.available = true →
      exec (.softwareReset 0x74657372) s = .next { s with rst := { s.rst with soft := some (s.rst.soft.getD (s.clk + 12500000)) } } ∧
      (v ≠ 0x74657372 → exec (.softwareReset v) s = .next s)) ∧
    (s.rst.safeHold = false → ∃ u, exec .perstAssert s = .next u ∧ u.rst.perst = true ∧ u.ctl.latched = false ∧ u.ctl.vectors = [] ∧
      u.ctl.slotStat = [] ∧ u.ent (key 0x2F10 3) = 0 ∧ u.fld kHls hls_link_width = 0 ∧ u.flag kRcs rcs_perst_seen = true ∧
      (∀ j, j ≠ kRcs → j ≠ kHls → j ≠ key 0x2F10 3 → u.ent j = s.ent j) ∧ u.mem = s.mem ∧ u.tiles = s.tiles ∧ u.job = s.job) ∧
    (s.rst.perst = true →
      (s.rst.step ≤ 4 → exec .perstRelease s = .next { s with rst := { s.rst with perst := false } }) ∧
      (4 < s.rst.step → ∃ u, exec .perstRelease s = .next u ∧ u.rst.perst = false ∧ 1 ≤ u.fld kHls hls_link_speed ∧
        u.fld kHls hls_link_speed ≤ 5 ∧ u.fld kHls hls_link_width ∈ [1, 4, 8] ∧ (∀ j, j ≠ kHls → u.ent j = s.ent j) ∧ u.mem = s.mem))

/-- R479, R481 to R488, R573: the sequence's steps follow one another: the strap is sampled, the trim loads or, at the third failure
in a row, safe hold begins; the chosen slot boots, or the other, or recovery; a lock that fails leaves pll_failed until a retry;
memory training ends the sequence with the dictionary available, its DDR4 channels those that trained of a population the engine
supports (R282), the store is read and a valid header of the recorder taken (R485, R564), and after power-on DDR4 is ready once it
has been zeroed, otherwise at once. A thermal hold leaves the engine in step 6 (R528). The DIMMs' size is free (log entry 19);
ddr_ready after another reset, and the thermal hold, are log entry 59; the empty store's laser banks are log entry 62; the
recorder's checks are log entries 25 and 63. -/
def Obligations.StartUpRunsItsSteps : Prop :=
  ∀ (s : State) (ok : Bool) (a hbm ddr : Nat),
    let go := exec (.startupStepDone ok a hbm ddr) s
    let served := fun (u : State) => u.rst.available = true
    let alike := a % 2 = 1 ∧ (a / 2 % 2 ^ 12 = 0xFFF ∨ a / 2 % 2 ^ 12 = 0x555)
    let used := if alike then ddr % 2 ^ 12 &&& (a / 2 % 2 ^ 12) else 0
    let locked := fun (u : State) => u.flag kSst sst_pll_failed = false ∧
      u.rst.step = (if s.flag kSst sst_recovery then 8 else 7) ∧ u.time.unlocked = []
    (s.rst.step = 0 → exec .powerOnResetRelease s = .next { s with rst := { s.rst with step := 1, since := s.clk } }) ∧
    (s.rst.step ≠ 0 → exec .powerOnResetRelease s = .next s) ∧
    (s.rst.safeHold = true → go = .next s) ∧
    (s.rst.safeHold = false →
      (s.rst.step = 1 → go = .next { s with rst := { s.rst with step := 2 } }) ∧
      (s.rst.step = 2 → ∃ u, go = .next u ∧ u.rst.step = 3 ∧ u.fld kStrp strp_strap_code = a % 1024 ∧
        u.fld kStrp strp_boot_source = a % 1024 / 64 % 4 ∧ u.fld kStrp strp_field_bits = a % 1024 / 256 ∧
        ∀ j, j ≠ kStrp → u.ent j = s.ent j) ∧
      (s.rst.step = 3 → s.rst.pinHeld = false →
        (∃ u, exec (.trimAttemptDone true) s = .next u ∧ u.rst.step = 4 ∧ u.rst.fails = 0 ∧ u.rst.trim = 1 ∧
          u.fld kSst sst_trim_failures = s.rst.seqFails % 4) ∧
        exec (.trimAttemptDone false) s = .next { s with rst := { s.rst with
          fails := s.rst.fails + 1, seqFails := s.rst.seqFails + 1, safeHold := decide (2 ≤ s.rst.fails) } }) ∧
      (s.rst.step = 3 → s.rst.pinHeld = true → exec (.trimAttemptDone ok) s = .next s) ∧
      (s.rst.step = 4 → ∃ u, go = .next u ∧
        (s.strapSlot < 2 → u.rst.step = 5 ∧ u.rst.waitHost = s.rst.waitHost) ∧
        (s.strapSlot = 2 → u.rst.step = 5 ∧ u.rst.waitHost = true) ∧
        (s.strapSlot = 3 → u.rst.step = 6 ∧ u.flag kSst sst_recovery = true ∧ served u)) ∧
      (s.rst.step = 5 → s.rst.waitHost = false →
        let k := s.strapSlot % 2
        (s.slotVerifies k = true → ∃ u, go = .next u ∧ u.rst.step = 6 ∧ u.fld kSst sst_boot_used = k ∧ u.mem = s.mem) ∧
        (s.slotVerifies k = false → s.slotVerifies (1 - k) = true → ∃ u, go = .next u ∧ u.rst.step = 6 ∧
          u.fld kSst sst_boot_used = 1 - k ∧ u.flag kSst sst_boot_fallback = true) ∧
        (s.slotVerifies k = false → s.slotVerifies (1 - k) = false → ∃ u, go = .next u ∧ u.rst.step = 6 ∧
          u.flag kSst sst_recovery = true ∧ served u)) ∧
      (s.rst.step = 6 → s.flag kSst sst_pll_failed = false →
        (ok = true → s.tele.hold = false → ∃ u, go = .next u ∧ locked u) ∧
        (ok = true → s.tele.hold = true → s.rst.trim ≠ 2 → ∃ u, go = .next u ∧ u.rst.step = 6 ∧ served u ∧ u.tele.hold = true) ∧
        (s.tele.hold = true → s.rst.trim = 2 → go = .next s) ∧
        (ok = false → s.tele.hold = false ∨ s.rst.trim ≠ 2 → ∃ u, go = .next u ∧ u.flag kSst sst_pll_failed = true ∧ served u ∧ u.rst.step = 6)) ∧
      (s.rst.step = 7 → ∃ u, go = .next u ∧ u.rst.step = 8 ∧ served u ∧ u.fld kSst sst_hbm_in_service = hbm % 2 ^ 10 ∧
        (u.flag kSst sst_ddr_population_ok = true ↔ alike) ∧ (u.flag kSst sst_ddr_ready = true ↔ (s.rst.ddrZero = true ∨ s.rst.power = false) ∧ alike) ∧
        u.fld kSst sst_ddr_in_service = used ∧ u.tend.ddrPop = (if alike then a / 2 % 2 ^ 12 else 0) ∧
        (∀ k, k < 10 → (u.flag (kUnit 0 k) munit_in_service = true ↔ bit hbm k = true)) ∧
        (∀ k, k < 12 → (u.flag (kUnit 1 k) munit_in_service = true ↔ bit used k = true)) ∧
        (s.storeValid = false → u.flag kSst sst_store_empty = true) ∧
        (∀ a b : RecHead, s.recd.head0 = some a → s.recd.head1 = some b →
          u.recd.boots = (if a.headSeq < b.headSeq then b.boots else a.boots) + 1 ∧ u.recd.rebuilt = (if a.headSeq < b.headSeq then b.rebuilt else a.rebuilt)) ∧
        (∀ a : RecHead, (s.recd.head0 = some a ∧ s.recd.head1 = none) ∨ (s.recd.head0 = none ∧ s.recd.head1 = some a) →
          u.recd.boots = a.boots + 1 ∧ u.recd.nextSeq = a.nextSeq) ∧
        (s.recd.head0 = none → s.recd.head1 = none → u.recd.rebuilt = true ∧ u.recd.boots = 1 ∧
          (∀ k r, newestSlot s.recd.slots = some (k, r) → u.recd.nextSeq = r + 1 ∧ u.recd.lastSlot = some k)) ∧
        u.recd.openAt.isSome = true)) ∧
    (s.rst.step = 6 → s.flag kSst sst_pll_failed = true →
      (s.tele.hold = false → ∃ u, exec (.pllRetry true) s = .next u ∧ locked u) ∧
      (∃ u, exec (.pllRetry false) s = .next u ∧ u.flag kSst sst_pll_failed = true)) ∧
    (∀ (n : Nat) (image : List Byte),
      let m := writeBytes (zeroRange s.mem bootBase fwSlotBytes) bootBase ((image.take fwSlotBytes).map (fun b => b.toNat))
      let v : State := { s with mem := m }
      (s.rst.waitHost = true → n ≤ fwSlotBytes → v.fwVerifies bootBase n = true → ∃ u, exec (.bootGo n image) s = .next u ∧
        u.rst.step = 6 ∧ u.rst.waitHost = false ∧ u.fld kSst sst_boot_used = 2 ∧ u.rst.bootBytes = n % 2 ^ 24 ∧ u.mem = v.mem) ∧
      (s.rst.waitHost = true → fwSlotBytes < n ∨ v.fwVerifies bootBase n = false →
        exec (.bootGo n image) s = .next { v with rst := { s.rst with bootBytes := n % 2 ^ 24, bootRejected := true } })) ∧
    (Memory.wf s.mem = true → s.rst.step = 8 → s.rst.power = true → s.rst.ddrZero = false →
      s.flag kSst sst_ddr_population_ok = true →
      ∃ u, exec .ddrReady s = .next u ∧ u.rst.ddrZero = true ∧ u.flag kSst sst_ddr_ready = true ∧
        (∀ x, ddrBase ≤ x → x < ddrBase + 2 ^ 52 → readByte u.mem x = 0) ∧
        (∀ x, x < ddrBase ∨ ddrBase + 2 ^ 52 ≤ x → readByte u.mem x = readByte s.mem x) ∧ ∀ j, j ≠ kSst → u.ent j = s.ent j)

/-- R491 to R493, R495: a block reset faults the job that uses the block it names, ends what is outstanding there, clears it 64 clk
later and nothing of another block, and holds busy until its release, which sets block_seen; an absent block, or a second one
while busy, is refused. Why a release before the reset is none is the model's choice (log entry 65). -/
def Obligations.BlockResetsClearOneBlock : Prop :=
  ∀ (s : State) (kind n : Nat), s.rst.available = true →
    let registered := fun (u : State) => u.flag kBlk blk_busy = true ∧ u.rst.block = some (kind, n, s.clk)
    let asleep := fun (u : State) (e : Nat) => ∀ c, c < 34 → u.fld (kLstat e c) lstat_power_state_now = 2 ∧
      u.flag (kLstat e c) lstat_block_lock = false
    (s.flag kBlk blk_busy = true ∨ blockOk s.grade kind n = false → exec (.blockReset kind n) s = .next s) ∧
    (s.flag kBlk blk_busy = false → blockOk s.grade kind n = true →
      (kind = 1 → ∃ u, exec (.blockReset kind n) s = .next u ∧ registered u ∧
        (s.active = true → s.landOn n = true → u.jobState = FAULTED)) ∧
      (kind = 2 → ∃ u, exec (.blockReset kind n) s = .next u ∧ registered u ∧ (u.tender n).queue = [] ∧
        u.fld (kTend n) tend_outstanding = 0 ∧
        (s.active = true → (∃ d ∈ (s.tender n).queue, d.source = 0) → u.jobState = FAULTED)) ∧
      (kind = 3 → ∃ u, exec (.blockReset kind n) s = .next u ∧ registered u ∧ u.jobState = s.jobState) ∧
      (kind = 4 → ∃ u, exec (.blockReset kind n) s = .next u ∧ registered u ∧
        (s.placed n = true → s.active = true → u.jobState = FAULTED) ∧
        (s.placed n = true → s.jobState = LOADED → s.flt.active = false → u.jobState = EMPTY))) ∧
    (∀ b, blockOk s.grade kind n = true → s.rst.block = some (kind, n, b) → s.clk = b + 64 →
      let u := s.holdBlock
      let others := fun (e : Nat) => ∀ i c, i < 24 → i ≠ e → c < 34 → u.ent (kLstat i c) = s.ent (kLstat i c)
      (kind = 1 → asleep u n ∧ (∀ g, g < 4 → u.fld (kGst n g) gstat_align_state = 0) ∧ u.tiles = s.tiles ∧ others n ∧
        ∀ q g, q < 20 → q ≠ n → g < 4 → u.ent (kGst q g) = s.ent (kGst q g) ∧ u.group q g = s.group q g) ∧
      (kind = 2 → u = s) ∧
      (kind = 3 → asleep u (20 + n) ∧ u.tiles = s.tiles ∧ others (20 + n) ∧
        ∀ q g, q < 20 → g < 4 → u.ent (kGst q g) = s.ent (kGst q g)) ∧
      (kind = 4 → u.tile n = {} ∧ (∀ p, p ≠ n → u.tile p = s.tile p) ∧
        (∀ a, sramBase n ≤ a → a < sramBase n + 2 ^ 25 → readByte u.mem a = 0) ∧
        (∀ a, a < sramBase n ∨ sramBase n + 2 ^ 25 ≤ a → readByte u.mem a = readByte s.mem a) ∧
        (∀ e ∈ u.net.prog, e.1 / 16384 ≠ n) ∧ mget 0 u.net.plen n = 0 ∧ (∀ e ∈ u.net.tide, e.1 / 65536 ≠ n) ∧
        (∀ c, c < 8 → u.ent (key (0x2610 + n) (0x10 + c)) = 0) ∧
        (∀ j, (∀ c, c < 8 → j ≠ key (0x2610 + n) (0x10 + c)) → u.ent j = s.ent j))) ∧
    (∀ b, s.rst.block = some b → s.clk < b.2.2 + 64 → exec .blockResetRelease s = .next s) ∧
    (∀ b, s.rst.block = some b → b.2.2 + 64 ≤ s.clk → ∃ u, exec .blockResetRelease s = .next u ∧ u.rst.block = none ∧ u.flag kBlk blk_busy = false ∧
      u.flag kRcs rcs_block_seen = true ∧ (∀ j, j ≠ kBlk → j ≠ kRcs → u.ent j = s.ent j) ∧ u.mem = s.mem ∧ u.tiles = s.tiles)

/-- R261, R262, R281, R288, R534 to R536, R550: each patrol counts what it corrects and moves on, a table's in index order and
another only in a reserved clk (both DEDUCED, log entries 44 and 75); a row it corrects in two passes is planned for repair; an
uncorrectable word stays for any access to meet, faults the armed job that uses its memory, and is reported with no job; a stack or
channel out of service leaves the masks and faults the job that needs it. A syndrome is a free value (log entry 27), a repair inside
a stack free (log entry 66), a find that no job could use a record alone (log entry 68). -/
def Obligations.PatrolsCorrectAndReport : Prop :=
  ∀ (s : State) (p row c n : Nat),
    let kt := key (0x2700 + p) 1
    (tileOk s.grade p = true → row < 393216 → s.patrolClk p = true → row = mget 0 s.tend.patrolRow p →
      ∃ u, exec (.sramPatrol p row c n) s = .next u ∧
        mget 0 u.tend.patrolRow p = (if row + 1 = 393216 then 0 else row + 1) ∧
        u.fld kt tmem_sram_corrected = min (s.fld kt tmem_sram_corrected + c) (2 ^ tmem_sram_corrected.w - 1) ∧
        u.fld kt tmem_scrub_passes = (if row + 1 = 393216 then s.oneMore kt tmem_scrub_passes else s.fld kt tmem_scrub_passes) ∧
        (0 < c → row ∈ mget [] s.tend.lastRows p → row ∈ mget [] u.tend.repairs p) ∧
        (0 < n → s.active = true → s.placed p = true → u.jobState = FAULTED) ∧
        (0 < n → s.faultable = false → u.flag kFst fst_fault_seen = true ∧ u.jobState = s.jobState) ∧ (0 < n → ∀ i, i < 8 → 8 * row + i ∈ mget [] u.tend.badWords p) ∧ u.patrolClk p = false ∧
        (n = 0 → u.jobState = s.jobState ∧ u.recd = s.recd) ∧ u.mem = s.mem) ∧
    (tileOk s.grade p = true → row < 393216 → s.patrolClk p = false ∨ row ≠ mget 0 s.tend.patrolRow p →
      exec (.sramPatrol p row c n) s = .next s) ∧
    (∀ (kind idx : Nat) (fixed bad : Bool),
      let size := if kind = 0 then 16384 else 65536
      kind < 3 → idx < size → (if kind = 2 then eavesOk s.grade p else tileOk s.grade p) = true →
      let k := 128 * (kind + 1) + p
      (s.patrolClk k = false ∨ idx ≠ s.tabPos k → exec (.tablePatrol kind p idx fixed bad) s = .next s) ∧
      (s.patrolClk k = true → idx = s.tabPos k → ∃ u, exec (.tablePatrol kind p idx fixed bad) s = .next u ∧
        u.patrolClk k = false ∧ u.tabPos k = (if idx + 1 = size then 0 else idx + 1) ∧ (bad = true → (k, idx) ∈ u.tend.badTabs) ∧
        u.fld kBgs bgs_table_corrected = (if fixed = true then s.oneMore kBgs bgs_table_corrected else s.fld kBgs bgs_table_corrected) ∧
        u.fld kBgs bgs_table_passes = (if idx + 1 = size then s.oneMore kBgs bgs_table_passes else s.fld kBgs bgs_table_passes) ∧
        (bad = true → s.active = true → kind = 2 ∨ s.placed p = true → u.jobState = FAULTED) ∧
        (bad = true → s.faultable = false → u.flag kFst fst_fault_seen = true ∧ u.jobState = s.jobState) ∧
        (bad = false → ∀ j, j ≠ kBgs → u.ent j = s.ent j) ∧ u.mem = s.mem)) ∧
    (∀ (kind addr : Nat) (bad : Bool), unitOk kind p = true →
      (s.unitHolds kind p addr = false → exec (.memoryPatrol kind p addr c bad) s = .next s) ∧
      (s.unitHolds kind p addr = true → ∃ u, exec (.memoryPatrol kind p addr c bad) s = .next u ∧
        u.fld (kUnit kind p) munit_corrected = min (s.fld (kUnit kind p) munit_corrected + c) (2 ^ munit_corrected.w - 1) ∧
        (bad = true → u.flag (kUnit kind p) munit_uncorrected_seen = true) ∧
        (bad = true → kind = 0 → s.active = true → s.inRing (p / 5) addr = false → u.jobState = FAULTED) ∧
        (bad = true → kind = 0 → s.faultable = false → s.inRing (p / 5) addr = false → u.flag kFst fst_fault_seen = true) ∧
        (bad = true → ((if kind = 0 then hbmBase (p / 5) else ddrBase) + addr) / 64 ∈ u.tend.badMem) ∧
        (bad = false ∨ kind = 1 ∨ s.inRing (p / 5) addr = true ∨ s.faultable = false → u.jobState = s.jobState) ∧ u.mem = s.mem)) ∧
    (∀ kind, unitOk kind p = true →
      (s.flag (kUnit kind p) munit_in_service = true → ∃ u, exec (.unitOutOfService kind p) s = .next u ∧
        u.flag (kUnit kind p) munit_in_service = false ∧
        (let f := if kind = 0 then sst_hbm_in_service else sst_ddr_in_service
         u.fld kSst f = s.fld kSst f - 2 ^ p) ∧
        (s.active = true → kind = 1 ∨ s.usesDie (p / 5) = true → u.jobState = FAULTED) ∧ u.mem = s.mem) ∧
      (s.flag (kUnit kind p) munit_in_service = false → exec (.unitOutOfService kind p) s = .next s))

/-- R520, R523, R526 to R529, R546, R549: a spare's self-test sets spare_ok; a worn laser source falls due and gives way to its
bank's spare with no job armed; a rail outside its window raises a doubt until it is clear; a sample's temperatures enter their
entries, raise the thermal doubt at its limit, and at a trip limit the hold and the job's fault. The wear of the loopback source is
log entry 28, the readings' corners log entries 63 and 64. -/
def Obligations.SparesSuppliesAndTemperatures : Prop :=
  ∀ (s : State) (p b src wear : Nat) (ok : Bool),
    (tileOk s.grade p = true →
      (s.placed p = false → ∃ u, exec (.spareSelfTest p ok) s = .next u ∧
        (ok = true → u.fld (kSpr (p / 13)) spr_tests_passed = s.oneMore (kSpr (p / 13)) spr_tests_passed) ∧
        (ok = false → u.fld (kSpr (p / 13)) spr_tests_failed = s.oneMore (kSpr (p / 13)) spr_tests_failed) ∧
        (p % 13 = spareCol s.grade → s.fld (kRow (p / 13)) row_retired_column ≠ p % 13 →
          u.flag (kSpr (p / 13)) spr_spare_ok = ok) ∧
        mget 0 u.tele.streak p = (if ok = true then mget 0 s.tele.streak p + 1 else 0) ∧
        (∀ j, j ≠ kSpr (p / 13) → u.ent j = s.ent j) ∧ u.mem = s.mem) ∧
      (s.placed p = true → exec (.spareSelfTest p ok) s = .next s)) ∧
    (bankOk s.grade b = true → src < 3 →
      (s.sourceLit b src = true → ∃ u, exec (.laserWearSample b src wear ok) s = .next u ∧
        u.fld (kLas b) (wearFld src) = min wear 4095 ∧
        (s.fld kLwc lwc_swap_ratio ≤ wear ∨ ok = true → s.fld (kLas b) las_spare_state = 0 → (b, src) ∉ s.tele.due →
          u.tele.due = s.tele.due ++ [(b, src)] ∧ u.flag (kLas b) las_swap_due = true) ∧
        (wear < s.fld kLwc lwc_swap_ratio → ok = false → u.tele = s.tele) ∧
        (s.fld kLwc lwc_swap_ratio ≤ wear ∨ ok = true → s.fld (kLas b) las_spare_state ≠ 0 → (b, src) ∉ s.tele.due →
          u.flag (kLas b) las_exhausted = true ∧ u.flag (kLas b) las_swap_due = true ∧ u.tele.due = s.tele.due ++ [(b, src)]) ∧
        ((b, src) ∈ s.tele.due → u.tele = s.tele ∧ u.recd = s.recd)) ∧
      (s.sourceLit b src = false → exec (.laserWearSample b src wear ok) s = .next s) ∧
      (∀ more : List Nat, (s.tele.due.filter (fun e => e.1 == b)).map Prod.snd = src :: more →
        (s.active = false → s.flag kLwc lwc_swap_enable = true → s.fld (kLas b) las_spare_state = 0 →
          ∃ u, exec (.laserSwapDone b ok) s = .next u ∧
            (ok = true → u.fld (kLas b) las_spare_state = 1 ∧ u.fld (kLas b) las_replaced = src ∧
              u.tele.due = s.tele.due.filter (fun e => e != (b, src)) ∧ mget 0 u.rst.switches b = 1 + src ∧
              (u.flag (kLas b) las_swap_due = true ↔ more ≠ []) ∧
              (more = [] → u.flag (kLas b) las_exhausted = s.flag (kLas b) las_exhausted)) ∧
            (ok = false → u.fld (kLas b) las_spare_state = 2 ∧ u.flag (kLas b) las_exhausted = true ∧ u.tele.due = s.tele.due)) ∧
        (s.active = true → exec (.laserSwapDone b ok) s = .next s))) ∧
    (∀ (rail reading : Nat), rail < 5 →
      (bit s.doubtMain 6 = false → ∃ u, exec (.supplyDoubt rail reading) s = .next u ∧ bit u.doubtMain 6 = true ∧
        u.flag kTel tel_supply_doubt = true ∧ u.mem = s.mem) ∧
      (bit s.doubtMain 6 = true → exec (.supplyDoubt rail reading) s = .next s)) ∧
    (bit s.doubtMain 6 = true → ∃ u, exec .supplyDoubtClear s = .next u ∧ bit u.doubtMain 6 = false ∧
      u.flag kTel tel_supply_doubt = false ∧ u.mem = s.mem) ∧
    (∀ (temps : List (Nat × Int)) (rails : List (Nat × Nat × Nat)) (mw : Nat), (∀ e ∈ temps, sensorOk s.grade e.1 = true) →
      (∀ r ∈ rails, r.1 < 5) → (temps.map Prod.fst).Nodup → ∃ u, exec (.telemetrySample temps rails mw) s = .next u ∧
        u.fld (key 0x3300 2) mpw_power = mw % 2 ^ mpw_power.w ∧
        (∀ e ∈ temps, u.ent (key (0x3308 + e.1 / 4096) (1 + e.1 % 4096)) = unsignedOf 32 e.2 ∧
          (s.limit e.1 lim_doubt ≤ e.2 → bit u.doubtMain 5 = true) ∧
          (s.limit e.1 lim_trip ≤ e.2 → u.tele.hold = true ∧ u.flag kTel tel_thermal_trip = true ∧
            (s.active = true → u.jobState = FAULTED))) ∧
        (1500000 < mw → u.flag kTel tel_power_over_seen = true) ∧ u.mem = s.mem)

/-- R560 to R564, R568, R569: the oldest waiting record is stored: merged into the slot last written when the keys are equal, else
in the lowest free slot, else in place of the oldest of the least severity, else dropped and counted; an interval that has lasted
closes; a slot number written takes a snapshot of that slot for its path. The places of the fields inside a payload are log entry
24; the torn slot and what waits at a reset log entry 25. -/
def Obligations.RecorderStoresRecords : Prop :=
  ∀ (s : State) (r x : RecRec) (rs : List RecRec) (k : Nat),
    let d := s.recd
    let new : RecRec := { r with seq := d.nextSeq, repeats := 0, last := r.first }
    (d.backlog = r :: rs → s.fld kAtt att_state ≠ 1 →
      (d.lastSlot = some k → mget none d.slots k = some x → x.sameKey r = true →
        ∃ u, exec .recorderOperation s = .next u ∧ u.recd.backlog = rs ∧ mget none u.recd.slots k =
            some { x with repeats := min (x.repeats + 1) 65535, last := r.first, payload := latestPayload x r } ∧
          (∀ j, j ≠ k → mget none u.recd.slots j = mget none d.slots j) ∧ u.recd.nextSeq = d.nextSeq ∧
          u.recd.merges = min (d.merges + 1) (2 ^ 32 - 1) ∧ u.recd.headSeq = d.headSeq + 1 ∧
          (if (d.headSeq + 1) % 2 = 0 then u.recd.head0 = some u.recd.head ∧ u.recd.head1 = d.head1
           else u.recd.head1 = some u.recd.head ∧ u.recd.head0 = d.head0) ∧ u.dict = s.dict ∧ u.mem = s.mem) ∧
      (d.mergesInto r = none → firstFree 0 d.slots = some k →
        ∃ u, exec .recorderOperation s = .next u ∧ u.recd.backlog = rs ∧ mget none u.recd.slots k = some new ∧
          (∀ j, j ≠ k → mget none u.recd.slots j = mget none d.slots j) ∧ u.recd.nextSeq = d.nextSeq + 1 ∧
          u.recd.lastSlot = some k ∧ u.dict = s.dict ∧ u.mem = s.mem) ∧
      (d.mergesInto r = none → firstFree 0 d.slots = none → victim (severity r.type) d.slots = some (k, x) →
        ∃ u, exec .recorderOperation s = .next u ∧ u.recd.backlog = rs ∧ mget none u.recd.slots k = some new ∧
          (∀ j, j ≠ k → mget none u.recd.slots j = mget none d.slots j) ∧
          u.recd.replacements = min (d.replacements + 1) (2 ^ 32 - 1) ∧ severity x.type ≤ severity r.type) ∧
      (d.mergesInto r = none → firstFree 0 d.slots = none → victim (severity r.type) d.slots = none →
        ∃ u, exec .recorderOperation s = .next u ∧ u.recd.backlog = rs ∧ u.recd.slots = d.slots ∧ u.recd.nextSeq = d.nextSeq ∧
          u.recd.drops = min (d.drops + 1) (2 ^ 32 - 1))) ∧
    (d.backlog = r :: rs → s.fld kAtt att_state = 1 → exec .recorderOperation s = .next s) ∧
    (s.rst.available = true →
      let len := s.ent (key 0x3100 4) * secUnits
      (∀ t, d.openAt = some t → t + len ≤ s.now → ∃ u, exec .summaryInterval s = .next u ∧ u.recd.interval = d.interval + 1 ∧
        u.recd.openAt = some (t + len) ∧ u.recd.sens = [] ∧ u.recd.rails = [] ∧ u.recd.slots = d.slots ∧ u.mem = s.mem ∧
        u.jobState = s.jobState) ∧
      (∀ t, d.openAt = some t → s.now < t + len → exec .summaryInterval s = .next s)) ∧
    (d.openAt = none → exec .summaryInterval s = .next s) ∧
    (k < 32768 → s.flag kSst sst_recovery = false →
      (s.canServes = true → ∃ u, exec (.recorderSlot .can k) s = .next u ∧ u.ent (key 0x3100 2) = k ∧ u.recd.snapCan = s.slotWord k ∧
        u.recd.snapBar = d.snapBar ∧ u.out = .reply (s.cob 0x580) 0 0 0 :: s.out ∧ ∀ j, j ≠ key 0x3100 2 → u.ent j = s.ent j) ∧
      (∀ n, n < 64 → s.rst.available = true → s.ctl.latched = true → bit s.agreed 0 = true →
        ∃ u, exec (.recorderSlot (.slot n) k) s = .next u ∧ u.ent (key 0x3100 2) = k ∧ u.recd.snapBar = s.slotWord k ∧
          u.recd.snapCan = d.snapCan ∧ mget 0 u.ctl.slotStat n = 2))

/-- R573, R574: staged bytes collect in the staging buffer; an image that verifies is written to its slot, which does not verify
until the write ends and then holds it; one that does not is refused with verify_failed. R575, R576, R578, R580, R583: a message is
appended and, on go, refused with the first cause that holds or executed: a key installed or revoked, a floor raised, a debug scope
opened; either way the nonce is drawn anew. A report is as of its go, and read once ready. R579: while the scope is locked the TAP
executes BYPASS and IDCODE alone; boundary adds SAMPLE/PRELOAD and EXTEST, full the debug instructions (log entry 80). That begin
and data are refused during a flash write is log entry 26; the order of the causes is log entry 61; signatures, keys and the nonce's
draws are constants without a body (log entries 9 and 10); go on a message of another type changes nothing (log entry 2). -/
def Obligations.FirmwareMessagesAndReports : Prop :=
  (∀ (s : State) (v t : Nat),
     let n := s.sec.staged
     let refused := s.updating = true ∨ s.active = true ∨
       (s.flag kSst sst_recovery = false ∧ t = s.strapSlot ∧ s.slotVerifies (1 - t) = false)
     (s.rst.available = false → exec .firmwareBegin s = .next s ∧ exec (.firmwareData v) s = .next s ∧ exec (.firmwareGo t) s = .next s) ∧
     (s.rst.available = true → s.updating = false →
       (∃ u, exec .firmwareBegin s = .next u ∧ u.sec = { s.sec with staged := 0 } ∧ u.fld kFwu fwu_staged_bytes = 0 ∧
         (∀ j, j ≠ kFwu → u.ent j = s.ent j) ∧ u.mem = s.mem) ∧
       (n + 64 ≤ 2 ^ 23 → ∃ u, exec (.firmwareData v) s = .next u ∧ u.sec = { s.sec with staged := n + 64 } ∧
         (∀ i, i < 64 → (readByte u.mem (fwStageBase + n + i)).toNat = v / 2 ^ (8 * i) % 256) ∧
         (∀ a, a < fwStageBase + n ∨ fwStageBase + n + 64 ≤ a → readByte u.mem a = readByte s.mem a) ∧
         ∀ j, j ≠ kFwu → u.ent j = s.ent j) ∧
       (2 ^ 23 < n + 64 → exec (.firmwareData v) s = .next s)) ∧
     (s.updating = true → exec .firmwareBegin s = .next s ∧ exec (.firmwareData v) s = .next s) ∧
     (t < 2 → s.rst.available = true →
       (refused → exec (.firmwareGo t) s = .next s) ∧
       (¬ refused → s.fwVerifies fwStageBase n = true → ∃ u, exec (.firmwareGo t) s = .next u ∧ u.sec.writing = some t ∧
         u.fld kFwu fwu_update_state = 1 ∧ u.fld kFwu fwu_target = t ∧ u.flag kFwu fwu_verify_failed = false ∧
         (∀ a, fwSlotBase t ≤ a → a < fwSlotBase t + 2 ^ 23 → readByte u.mem a = 0) ∧ u.slotVerifies t = false ∧
         ∀ j, j ≠ kFwu → u.ent j = s.ent j) ∧
       (¬ refused → s.fwVerifies fwStageBase n = false → ∃ u, exec (.firmwareGo t) s = .next u ∧ u.fld kFwu fwu_update_state = 3 ∧
         u.flag kFwu fwu_verify_failed = true ∧ onlyEntry s u kFwu)) ∧
     (s.sec.writing = some t → ∃ u, exec .firmwareWriteDone s = .next u ∧ u.sec.writing = none ∧ u.fld kFwu fwu_update_state = 2 ∧
       (∀ i, i < n → readByte u.mem (fwSlotBase t + i) = readByte s.mem (fwStageBase + i)) ∧
       (∀ a, a < fwSlotBase t ∨ fwSlotBase t + n ≤ a → readByte u.mem a = readByte s.mem a)) ∧
     (s.sec.writing = none → exec .firmwareWriteDone s = .next s)) ∧
  (∀ (s : State) (v : Nat),
     let tgt := s.msgFld 40 8
     let val := s.msgFld 352 32
     let go := fun (c : Instr) (t : Nat) (effect : State → Prop) =>
       (s.dictOpen = false → exec c s = .next s) ∧
       (s.dictOpen = true → s.msgFld 32 8 = t → s.msgCause = 0 → ∃ u, exec c s = .next u ∧ effect u ∧ u.sec.draws = s.sec.draws + 1 ∧
         u.fld kMsg msg_msg_state = 2 ∧ u.fld kMsg msg_cause = 0 ∧ u.mem = s.mem) ∧
       (s.dictOpen = true → s.msgFld 32 8 = t → s.msgCause ≠ 0 → ∃ u, exec c s = .next u ∧ u.sec.draws = s.sec.draws + 1 ∧ u.fld kMsg msg_msg_state = 3 ∧
         u.fld kMsg msg_cause = s.msgCause ∧ (∀ j, j ≠ kMsg → j ≠ kBgs → u.ent j = s.ent j) ∧ u.mem = s.mem) ∧
       (s.msgFld 32 8 ≠ t → exec c s = .next s)
     (s.dictOpen = true → ∃ u, exec .messageBegin s = .next u ∧ u.sec = { s.sec with msgLen := 0 } ∧ u.dict = s.dict ∧
       ∀ a, msgBase ≤ a → a < msgBase + s.sec.msgLen → readByte u.mem a = 0) ∧
     (s.dictOpen = true → ∃ u, exec (.messageData v) s = .next u ∧ u.sec = { s.sec with msgLen := s.sec.msgLen + 64 } ∧ u.dict = s.dict ∧
       (∀ i, i < 64 → (readByte u.mem (msgBase + s.sec.msgLen + i)).toNat = v / 2 ^ (8 * i) % 256) ∧
       ∀ a, a < msgBase + s.sec.msgLen ∨ msgBase + s.sec.msgLen + 64 ≤ a → readByte u.mem a = readByte s.mem a) ∧
     go .keyInstall 1 (fun u => tgt < 4 ∧ u.ent (kOwn tgt) = 1 ∧ u.ent (kOwnKey tgt) = s.msgFld 384 256) ∧
     go .keyRevoke 2 (fun u => tgt < 4 ∧ u.ent (kOwn tgt) = 2) ∧
     go .imageFloor 3 (fun u => u.fld kFloor flImage = val ∧ s.fld kFloor flImage < val ∧
       u.fld kAdv radv_image_left + 1 = s.fld kAdv radv_image_left) ∧
     go .firmwareFloor 4 (fun u => u.fld kFloor flFirm = val ∧ s.fld kFloor flFirm < val ∧ val ≤ s.sec.fwVersion ∧
       u.fld kAdv radv_firmware_left + 1 = s.fld kAdv radv_firmware_left) ∧
     go .debugOpen 5 (fun u => u.fld kDbg dbg_debug_scope = tgt ∧ (tgt = 1 ∨ tgt = 2) ∧ s.active = false ∧
       u.fld kDbg dbg_opens = s.oneMore kDbg dbg_opens) ∧
     (s.msgFld 96 256 ≠ s.nonce → s.msgCause ≠ 0) ∧
     (s.dictOpen = false → exec .messageBegin s = .next s ∧ exec (.messageData v) s = .next s ∧ exec .debugClose s = .next s ∧
       exec .attestationGo s = .next s) ∧
     (s.dictOpen = true → ∃ u, exec .debugClose s = .next u ∧ u.fld kDbg dbg_debug_scope = 0 ∧ onlyEntry s u kDbg ∧
       ∀ i, u.tapRuns i = true ↔ i = .bypass ∨ i = .idcode) ∧
     (∀ i, (s.fld kDbg dbg_debug_scope = 0 → (s.tapRuns i = true ↔ i = .bypass ∨ i = .idcode)) ∧
       (s.fld kDbg dbg_debug_scope = 1 → (s.tapRuns i = true ↔ i ≠ .debug)) ∧ (s.fld kDbg dbg_debug_scope = 2 → s.tapRuns i = true)) ∧
     (s.dictOpen = true → s.fld kAtt att_state ≠ 1 → ∃ u, exec .attestationGo s = .next u ∧ u.fld kAtt att_state = 1 ∧
       u.sec.making.take 256 = leBytes 256 s.attestBody ∧ u.sec.report = s.sec.report ∧ (∀ j, j ≠ kAtt → u.ent j = s.ent j)) ∧
     (s.fld kAtt att_state = 1 → exec .attestationGo s = .next s ∧ ∃ u, exec .attestationReady s = .next u ∧
       u.fld kAtt att_state = 2 ∧ u.sec.report = s.sec.making ∧ ∀ j, j ≠ kAtt → u.ent j = s.ent j) ∧
     (s.fld kAtt att_state ≠ 1 → exec .attestationReady s = .next s))

/-- R35, R202 to R252, R254: every well-formed tile instruction has a word that a load accepts and that decodes to it; and every word
that a load accepts (no reserved opcode, bit or code, no invalid operands, no predicated control word) is the word of one well-formed
instruction, so that no bit of it is dropped. -/
def Obligations.WordsSpellTheirInstructions : Prop :=
  let sound := fun (w f : Nat) => wordErr w f = some {} ∧ (1 ≤ opcodeOf w → opcodeOf w ≤ 4 → bits w 52 4 = 0)
  (∀ (i : Instr) (t : Iss), issueOf i = some t → i.wf = true →
    ∃ w, encodeWord i = some w ∧ w < 2 ^ 64 ∧ decodeWord t.tile w = some i ∧ ∀ f, 2048 ≤ f → sound w f) ∧
  (∀ p w f : Nat, p < 104 → w < 2 ^ 64 → sound w f →
    ∃ i t, decodeWord p w = some i ∧ issueOf i = some t ∧ t.tile = p ∧ i.wf = true ∧ encodeWord i = some w)
end

