-- ==== Sys2Proof/Laws/Maps.lean ====
section
/-! SUPPORT. The laws of sparse maps: reading what was written, leaving every other key alone, and keeping the
canonical form. The reading laws hold of every list; only the form itself speaks of canonical ones. -/

namespace Sys2Proof.Machine

variable {α : Type}

theorem mget_dropWhile (d : α) (m : SMap α) (k j : Nat) (h : k < j) :
    mget d (m.dropWhile (fun e => decide (e.1 ≤ k))) j = mget d m j := by
  induction m with
  | nil => rfl
  | cons e m ih =>
    by_cases he : e.1 ≤ k
    · have h1 : j ≠ e.1 := by omega
      have h2 : ¬ j < e.1 := by omega
      simp [he, ih, mget, h1, h2]
    · simp [he]

theorem mget_dropWhile_low (d : α) (m : SMap α) (k j : Nat) (h : j ≤ k) :
    mget d (m.dropWhile (fun e => decide (e.1 ≤ k))) j = d := by
  induction m with
  | nil => rfl
  | cons e m ih =>
    by_cases he : e.1 ≤ k
    · simp [he, ih]
    · have h1 : j ≠ e.1 := by omega
      have h2 : j < e.1 := by omega
      simp [he, mget, h1, h2]

theorem mget_mdel_same (d : α) (m : SMap α) (k : Nat) : mget d (mdel m k) k = d := by
  induction m with
  | nil => rfl
  | cons e m ih =>
    unfold mdel
    split
    · exact mget_dropWhile_low d m k k (Nat.le_refl k)
    · split
      · simp [mget, *]
      · simp [mget, *]

theorem mget_mdel_other (d : α) (m : SMap α) (k j : Nat) (h : j ≠ k) : mget d (mdel m k) j = mget d m j := by
  induction m with
  | nil => rfl
  | cons e m ih =>
    unfold mdel
    split
    · next hk =>
      subst hk
      rcases Nat.lt_or_gt_of_ne h with hl | hl
      · rw [mget_dropWhile_low d m e.1 j (by omega)]
        simp [mget, h, hl]
      · rw [mget_dropWhile d m e.1 j hl]
        have : ¬ j < e.1 := by omega
        simp [mget, h, this]
    · split
      · rfl
      · simp [mget, ih]

theorem mget_mput_same (d : α) (m : SMap α) (k : Nat) (v : α) : mget d (mput m k v) k = v := by
  induction m with
  | nil => simp [mput, mget]
  | cons e m ih =>
    unfold mput
    split
    · simp [mget]
    · split
      · simp [mget]
      · simp [mget, *]

theorem mget_mput_other (d : α) (m : SMap α) (k j : Nat) (v : α) (h : j ≠ k) :
    mget d (mput m k v) j = mget d m j := by
  induction m with
  | nil => simp [mput, mget, h]
  | cons e m ih =>
    unfold mput
    split
    · next hk => subst hk; simp [mget, h]
    · split
      · by_cases hj : j < k
        · have h1 : j ≠ e.1 := by omega
          have h2 : j < e.1 := by omega
          simp [mget, h, hj, h1, h2]
        · simp [mget, h, hj]
      · simp [mget, ih]

variable [DecidableEq α]

@[simp] theorem mget_mset_same (d : α) (m : SMap α) (k : Nat) (v : α) : mget d (mset d m k v) k = v := by
  unfold mset
  split
  · next h => rw [mget_mdel_same, h]
  · exact mget_mput_same d m k v

theorem mget_mset_other (d : α) (m : SMap α) (k j : Nat) (v : α) (h : j ≠ k) :
    mget d (mset d m k v) j = mget d m j := by
  unfold mset
  split
  · exact mget_mdel_other d m k j h
  · exact mget_mput_other d m k j v h

/-- Reading after a write, in one lemma. -/
theorem mget_mset (d : α) (m : SMap α) (k j : Nat) (v : α) :
    mget d (mset d m k v) j = if j = k then v else mget d m j := by
  split
  · next h => subst h; exact mget_mset_same d m j v
  · next h => exact mget_mset_other d m k j v h

omit [DecidableEq α] in
theorem mfind_dropWhile (m : SMap α) (k j : Nat) (h : k < j) :
    mfind (m.dropWhile (fun e => decide (e.1 ≤ k))) j = mfind m j := by
  induction m with
  | nil => rfl
  | cons e m ih =>
    by_cases he : e.1 ≤ k
    · have h1 : j ≠ e.1 := by omega
      have h2 : ¬ j < e.1 := by omega
      simp [he, ih, mfind, h1, h2]
    · simp [he]

omit [DecidableEq α] in
theorem mfind_dropWhile_low (m : SMap α) (k j : Nat) (h : j ≤ k) :
    mfind (m.dropWhile (fun e => decide (e.1 ≤ k))) j = none := by
  induction m with
  | nil => rfl
  | cons e m ih =>
    by_cases he : e.1 ≤ k
    · simp [he, ih]
    · have h1 : j ≠ e.1 := by omega
      have h2 : j < e.1 := by omega
      simp [he, mfind, h1, h2]

omit [DecidableEq α] in
theorem mfind_mdel (m : SMap α) (k j : Nat) : mfind (mdel m k) j = if j = k then none else mfind m j := by
  induction m with
  | nil => simp [mdel, mfind]
  | cons e m ih =>
    unfold mdel
    split
    · next hk =>
      subst hk
      rcases Nat.lt_trichotomy j e.1 with hl | hl | hl
      · rw [mfind_dropWhile_low m e.1 j (by omega)]
        have : j ≠ e.1 := by omega
        simp [mfind, this, hl]
      · subst hl; rw [mfind_dropWhile_low m e.1 e.1 (by omega)]; simp
      · rw [mfind_dropWhile m e.1 j hl]
        have h1 : j ≠ e.1 := by omega
        have h2 : ¬ j < e.1 := by omega
        simp [mfind, h1, h2]
    · split
      · by_cases hj : j = k
        · subst hj; simp [mfind, *]
        · simp [hj]
      · by_cases hj : j = k
        · subst hj; simp [mfind, *]
        · simp [mfind, ih, hj]

omit [DecidableEq α] in
theorem mfind_mput (m : SMap α) (k j : Nat) (v : α) : mfind (mput m k v) j = if j = k then some v else mfind m j := by
  induction m with
  | nil => by_cases hj : j = k <;> simp [mput, mfind, hj]
  | cons e m ih =>
    unfold mput
    split
    · next hk => subst hk; by_cases hj : j = e.1 <;> simp [mfind, hj]
    · split
      · by_cases hj : j = k
        · simp [mfind, hj]
        · by_cases hl : j < k
          · have h1 : j ≠ e.1 := by omega
            have h2 : j < e.1 := by omega
            simp [mfind, hj, hl, h1, h2]
          · simp [mfind, hj, hl]
      · by_cases hj : j = k
        · subst hj; simp [mfind, *]
        · simp [mfind, ih, hj]

omit [DecidableEq α] in
theorem dropWhile_above (m : SMap α) (i k : Nat) (w : α) (h : k < i) :
    ((i, w) :: m).dropWhile (fun e => decide (e.1 ≤ k)) = (i, w) :: m := by
  have : ¬ i ≤ k := by omega
  simp [this]

omit [DecidableEq α] in
theorem mput_mput (m : SMap α) (k : Nat) (a b : α) : mput (mput m k a) k b = mput m k b := by
  induction m with
  | nil => simp [mput]
  | cons e m ih =>
    obtain ⟨i, w⟩ := e
    by_cases h1 : k = i
    · simp [mput, h1]
    · by_cases h2 : k < i
      · simp [mput, h1, h2]
      · simp [mput, h1, h2, ih]

omit [DecidableEq α] in
theorem mdel_mput (m : SMap α) (k : Nat) (a : α) : mdel (mput m k a) k = mdel m k := by
  induction m with
  | nil => simp [mput, mdel]
  | cons e m ih =>
    obtain ⟨i, w⟩ := e
    by_cases h1 : k = i
    · simp [mput, mdel, h1]
    · by_cases h2 : k < i
      · rw [mput, if_neg h1, if_pos h2, mdel, if_pos rfl, dropWhile_above _ _ _ _ h2, mdel, if_neg h1, if_pos h2]
      · simp [mput, mdel, h1, h2, ih]

/-- Of two writes of a key the later counts, where the earlier was not the default. -/
theorem mset_mset (d : α) (m : SMap α) (k : Nat) (a b : α) (h : a ≠ d) : mset d (mset d m k a) k b = mset d m k b := by
  unfold mset
  simp only [h, if_false]
  split
  · exact mdel_mput m k a
  · exact mput_mput m k a b

/-! ### The canonical form -/

theorem mwfFrom_mono (d : α) (m : SMap α) (a b : Nat) (h : a ≤ b) (w : mwfFrom d b m = true) : mwfFrom d a m = true := by
  cases m with
  | nil => rfl
  | cons e m =>
    simp only [mwfFrom, Bool.and_eq_true, decide_eq_true_eq] at w ⊢
    exact ⟨⟨by omega, w.1.2⟩, w.2⟩

theorem mwfFrom_dropWhile (d : α) (m : SMap α) (lo k : Nat) (w : mwfFrom d lo m = true) (h : k < lo) :
    m.dropWhile (fun e => decide (e.1 ≤ k)) = m := by
  cases m with
  | nil => rfl
  | cons e m =>
    simp only [mwfFrom, Bool.and_eq_true, decide_eq_true_eq] at w
    have : ¬ e.1 ≤ k := by omega
    simp [this]

theorem mwfFrom_mdel (d : α) (m : SMap α) (lo k : Nat) (w : mwfFrom d lo m = true) : mwfFrom d lo (mdel m k) = true := by
  induction m generalizing lo with
  | nil => rfl
  | cons e m ih =>
    have w' := w
    simp only [mwfFrom, Bool.and_eq_true, decide_eq_true_eq] at w'
    unfold mdel
    split
    · rw [mwfFrom_dropWhile d m (e.1 + 1) k w'.2 (by omega)]
      exact mwfFrom_mono d m lo (e.1 + 1) (by omega) w'.2
    · split
      · exact w
      · simp only [mwfFrom, Bool.and_eq_true, decide_eq_true_eq]
        exact ⟨w'.1, ih (e.1 + 1) w'.2⟩

theorem mwfFrom_mput (d : α) (m : SMap α) (lo k : Nat) (v : α) (w : mwfFrom d lo m = true) (hk : lo ≤ k) (hv : v ≠ d) :
    mwfFrom d lo (mput m k v) = true := by
  induction m generalizing lo with
  | nil => simp [mput, mwfFrom, hk, hv]
  | cons e m ih =>
    have w' := w
    simp only [mwfFrom, Bool.and_eq_true, decide_eq_true_eq] at w'
    unfold mput
    split
    · next h => subst h; simp only [mwfFrom, Bool.and_eq_true, decide_eq_true_eq]; exact ⟨⟨hk, hv⟩, w'.2⟩
    · split
      · next h =>
        simp only [mwfFrom, Bool.and_eq_true, decide_eq_true_eq]
        exact ⟨⟨hk, hv⟩, ⟨by omega, w'.1.2⟩, w'.2⟩
      · simp only [mwfFrom, Bool.and_eq_true, decide_eq_true_eq]
        exact ⟨w'.1, ih (e.1 + 1) w'.2 (by omega)⟩

theorem mwf_mset (d : α) (m : SMap α) (k : Nat) (v : α) (w : mwf d m = true) : mwf d (mset d m k v) = true := by
  unfold mset
  split
  · exact mwfFrom_mdel d m 0 k w
  · next h => exact mwfFrom_mput d m 0 k v w (Nat.zero_le k) h

theorem mwfFrom_filter (d : α) (p : Nat × α → Bool) (m : SMap α) (lo : Nat) (w : mwfFrom d lo m = true) :
    mwfFrom d lo (m.filter p) = true := by
  induction m generalizing lo with
  | nil => rfl
  | cons e m ih =>
    have w' := w
    simp only [mwfFrom, Bool.and_eq_true, decide_eq_true_eq] at w'
    by_cases h : p e = true
    · rw [List.filter_cons_of_pos h]
      simp only [mwfFrom, Bool.and_eq_true, decide_eq_true_eq]
      exact ⟨w'.1, ih (e.1 + 1) w'.2⟩
    · rw [List.filter_cons_of_neg h]
      exact mwfFrom_mono d _ lo (e.1 + 1) (by omega) (ih (e.1 + 1) w'.2)

theorem mwf_filter (d : α) (p : Nat × α → Bool) (m : SMap α) (w : mwf d m = true) : mwf d (m.filter p) = true :=
  mwfFrom_filter d p m 0 w

theorem mwf_msetList (d : α) (l : List α) (m : SMap α) (k : Nat) (w : mwf d m = true) :
    mwf d (msetList d m k l) = true := by
  induction l generalizing m k with
  | nil => exact w
  | cons v l ih => exact ih _ _ (mwf_mset d m k v w)

end Sys2Proof.Machine
end

