-- ==== Sys2Proof/Laws/State.lean ====
section
/-! SUPPORT. What each primitive update of the state leaves alone, field by field, and what it sets. -/

namespace Sys2Proof.Machine

variable (s : State)

/-! ### setEnt -/

@[simp] theorem State.setEnt_pending (k v : Nat) : (s.setEnt k v).pending = s.pending := rfl
@[simp] theorem State.setEnt_clk (k v : Nat) : (s.setEnt k v).clk = s.clk := rfl
@[simp] theorem State.setEnt_free (k v : Nat) : (s.setEnt k v).free = s.free := rfl
@[simp] theorem State.setEnt_grade (k v : Nat) : (s.setEnt k v).grade = s.grade := rfl
@[simp] theorem State.setEnt_stepping (k v : Nat) : (s.setEnt k v).stepping = s.stepping := rfl
@[simp] theorem State.setEnt_mem (k v : Nat) : (s.setEnt k v).mem = s.mem := rfl
@[simp] theorem State.setEnt_tiles (k v : Nat) : (s.setEnt k v).tiles = s.tiles := rfl
@[simp] theorem State.setEnt_net (k v : Nat) : (s.setEnt k v).net = s.net := rfl
@[simp] theorem State.setEnt_tend (k v : Nat) : (s.setEnt k v).tend = s.tend := rfl
@[simp] theorem State.setEnt_land (k v : Nat) : (s.setEnt k v).land = s.land := rfl
@[simp] theorem State.setEnt_dec (k v : Nat) : (s.setEnt k v).dec = s.dec := rfl
@[simp] theorem State.setEnt_cap (k v : Nat) : (s.setEnt k v).cap = s.cap := rfl
@[simp] theorem State.setEnt_job (k v : Nat) : (s.setEnt k v).job = s.job := rfl
@[simp] theorem State.setEnt_berth (k v : Nat) : (s.setEnt k v).berth = s.berth := rfl
@[simp] theorem State.setEnt_time (k v : Nat) : (s.setEnt k v).time = s.time := rfl
@[simp] theorem State.setEnt_ctl (k v : Nat) : (s.setEnt k v).ctl = s.ctl := rfl
@[simp] theorem State.setEnt_rst (k v : Nat) : (s.setEnt k v).rst = s.rst := rfl
@[simp] theorem State.setEnt_recd (k v : Nat) : (s.setEnt k v).recd = s.recd := rfl
@[simp] theorem State.setEnt_sec (k v : Nat) : (s.setEnt k v).sec = s.sec := rfl
@[simp] theorem State.setEnt_tele (k v : Nat) : (s.setEnt k v).tele = s.tele := rfl
@[simp] theorem State.setEnt_flt (k v : Nat) : (s.setEnt k v).flt = s.flt := rfl
@[simp] theorem State.setEnt_out (k v : Nat) : (s.setEnt k v).out = s.out := rfl

/-! ### setFld -/

@[simp] theorem State.setFld_pending (k : Nat) (f : Fld) (v : Nat) : (s.setFld k f v).pending = s.pending := rfl
@[simp] theorem State.setFld_clk (k : Nat) (f : Fld) (v : Nat) : (s.setFld k f v).clk = s.clk := rfl
@[simp] theorem State.setFld_free (k : Nat) (f : Fld) (v : Nat) : (s.setFld k f v).free = s.free := rfl
@[simp] theorem State.setFld_grade (k : Nat) (f : Fld) (v : Nat) : (s.setFld k f v).grade = s.grade := rfl
@[simp] theorem State.setFld_stepping (k : Nat) (f : Fld) (v : Nat) : (s.setFld k f v).stepping = s.stepping := rfl
@[simp] theorem State.setFld_mem (k : Nat) (f : Fld) (v : Nat) : (s.setFld k f v).mem = s.mem := rfl
@[simp] theorem State.setFld_tiles (k : Nat) (f : Fld) (v : Nat) : (s.setFld k f v).tiles = s.tiles := rfl
@[simp] theorem State.setFld_net (k : Nat) (f : Fld) (v : Nat) : (s.setFld k f v).net = s.net := rfl
@[simp] theorem State.setFld_tend (k : Nat) (f : Fld) (v : Nat) : (s.setFld k f v).tend = s.tend := rfl
@[simp] theorem State.setFld_land (k : Nat) (f : Fld) (v : Nat) : (s.setFld k f v).land = s.land := rfl
@[simp] theorem State.setFld_dec (k : Nat) (f : Fld) (v : Nat) : (s.setFld k f v).dec = s.dec := rfl
@[simp] theorem State.setFld_cap (k : Nat) (f : Fld) (v : Nat) : (s.setFld k f v).cap = s.cap := rfl
@[simp] theorem State.setFld_job (k : Nat) (f : Fld) (v : Nat) : (s.setFld k f v).job = s.job := rfl
@[simp] theorem State.setFld_berth (k : Nat) (f : Fld) (v : Nat) : (s.setFld k f v).berth = s.berth := rfl
@[simp] theorem State.setFld_time (k : Nat) (f : Fld) (v : Nat) : (s.setFld k f v).time = s.time := rfl
@[simp] theorem State.setFld_ctl (k : Nat) (f : Fld) (v : Nat) : (s.setFld k f v).ctl = s.ctl := rfl
@[simp] theorem State.setFld_rst (k : Nat) (f : Fld) (v : Nat) : (s.setFld k f v).rst = s.rst := rfl
@[simp] theorem State.setFld_recd (k : Nat) (f : Fld) (v : Nat) : (s.setFld k f v).recd = s.recd := rfl
@[simp] theorem State.setFld_sec (k : Nat) (f : Fld) (v : Nat) : (s.setFld k f v).sec = s.sec := rfl
@[simp] theorem State.setFld_tele (k : Nat) (f : Fld) (v : Nat) : (s.setFld k f v).tele = s.tele := rfl
@[simp] theorem State.setFld_flt (k : Nat) (f : Fld) (v : Nat) : (s.setFld k f v).flt = s.flt := rfl
@[simp] theorem State.setFld_out (k : Nat) (f : Fld) (v : Nat) : (s.setFld k f v).out = s.out := rfl

/-! ### setFlag -/

@[simp] theorem State.setFlag_pending (k : Nat) (f : Fld) (b : Bool) : (s.setFlag k f b).pending = s.pending := rfl
@[simp] theorem State.setFlag_clk (k : Nat) (f : Fld) (b : Bool) : (s.setFlag k f b).clk = s.clk := rfl
@[simp] theorem State.setFlag_free (k : Nat) (f : Fld) (b : Bool) : (s.setFlag k f b).free = s.free := rfl
@[simp] theorem State.setFlag_grade (k : Nat) (f : Fld) (b : Bool) : (s.setFlag k f b).grade = s.grade := rfl
@[simp] theorem State.setFlag_stepping (k : Nat) (f : Fld) (b : Bool) : (s.setFlag k f b).stepping = s.stepping := rfl
@[simp] theorem State.setFlag_mem (k : Nat) (f : Fld) (b : Bool) : (s.setFlag k f b).mem = s.mem := rfl
@[simp] theorem State.setFlag_tiles (k : Nat) (f : Fld) (b : Bool) : (s.setFlag k f b).tiles = s.tiles := rfl
@[simp] theorem State.setFlag_net (k : Nat) (f : Fld) (b : Bool) : (s.setFlag k f b).net = s.net := rfl
@[simp] theorem State.setFlag_tend (k : Nat) (f : Fld) (b : Bool) : (s.setFlag k f b).tend = s.tend := rfl
@[simp] theorem State.setFlag_land (k : Nat) (f : Fld) (b : Bool) : (s.setFlag k f b).land = s.land := rfl
@[simp] theorem State.setFlag_dec (k : Nat) (f : Fld) (b : Bool) : (s.setFlag k f b).dec = s.dec := rfl
@[simp] theorem State.setFlag_cap (k : Nat) (f : Fld) (b : Bool) : (s.setFlag k f b).cap = s.cap := rfl
@[simp] theorem State.setFlag_job (k : Nat) (f : Fld) (b : Bool) : (s.setFlag k f b).job = s.job := rfl
@[simp] theorem State.setFlag_berth (k : Nat) (f : Fld) (b : Bool) : (s.setFlag k f b).berth = s.berth := rfl
@[simp] theorem State.setFlag_time (k : Nat) (f : Fld) (b : Bool) : (s.setFlag k f b).time = s.time := rfl
@[simp] theorem State.setFlag_ctl (k : Nat) (f : Fld) (b : Bool) : (s.setFlag k f b).ctl = s.ctl := rfl
@[simp] theorem State.setFlag_rst (k : Nat) (f : Fld) (b : Bool) : (s.setFlag k f b).rst = s.rst := rfl
@[simp] theorem State.setFlag_recd (k : Nat) (f : Fld) (b : Bool) : (s.setFlag k f b).recd = s.recd := rfl
@[simp] theorem State.setFlag_sec (k : Nat) (f : Fld) (b : Bool) : (s.setFlag k f b).sec = s.sec := rfl
@[simp] theorem State.setFlag_tele (k : Nat) (f : Fld) (b : Bool) : (s.setFlag k f b).tele = s.tele := rfl
@[simp] theorem State.setFlag_flt (k : Nat) (f : Fld) (b : Bool) : (s.setFlag k f b).flt = s.flt := rfl
@[simp] theorem State.setFlag_out (k : Nat) (f : Fld) (b : Bool) : (s.setFlag k f b).out = s.out := rfl

/-! ### bumpBy -/

@[simp] theorem State.bumpBy_pending (k : Nat) (f : Fld) (n : Nat) : (s.bumpBy k f n).pending = s.pending := rfl
@[simp] theorem State.bumpBy_clk (k : Nat) (f : Fld) (n : Nat) : (s.bumpBy k f n).clk = s.clk := rfl
@[simp] theorem State.bumpBy_free (k : Nat) (f : Fld) (n : Nat) : (s.bumpBy k f n).free = s.free := rfl
@[simp] theorem State.bumpBy_grade (k : Nat) (f : Fld) (n : Nat) : (s.bumpBy k f n).grade = s.grade := rfl
@[simp] theorem State.bumpBy_stepping (k : Nat) (f : Fld) (n : Nat) : (s.bumpBy k f n).stepping = s.stepping := rfl
@[simp] theorem State.bumpBy_mem (k : Nat) (f : Fld) (n : Nat) : (s.bumpBy k f n).mem = s.mem := rfl
@[simp] theorem State.bumpBy_tiles (k : Nat) (f : Fld) (n : Nat) : (s.bumpBy k f n).tiles = s.tiles := rfl
@[simp] theorem State.bumpBy_net (k : Nat) (f : Fld) (n : Nat) : (s.bumpBy k f n).net = s.net := rfl
@[simp] theorem State.bumpBy_tend (k : Nat) (f : Fld) (n : Nat) : (s.bumpBy k f n).tend = s.tend := rfl
@[simp] theorem State.bumpBy_land (k : Nat) (f : Fld) (n : Nat) : (s.bumpBy k f n).land = s.land := rfl
@[simp] theorem State.bumpBy_dec (k : Nat) (f : Fld) (n : Nat) : (s.bumpBy k f n).dec = s.dec := rfl
@[simp] theorem State.bumpBy_cap (k : Nat) (f : Fld) (n : Nat) : (s.bumpBy k f n).cap = s.cap := rfl
@[simp] theorem State.bumpBy_job (k : Nat) (f : Fld) (n : Nat) : (s.bumpBy k f n).job = s.job := rfl
@[simp] theorem State.bumpBy_berth (k : Nat) (f : Fld) (n : Nat) : (s.bumpBy k f n).berth = s.berth := rfl
@[simp] theorem State.bumpBy_time (k : Nat) (f : Fld) (n : Nat) : (s.bumpBy k f n).time = s.time := rfl
@[simp] theorem State.bumpBy_ctl (k : Nat) (f : Fld) (n : Nat) : (s.bumpBy k f n).ctl = s.ctl := rfl
@[simp] theorem State.bumpBy_rst (k : Nat) (f : Fld) (n : Nat) : (s.bumpBy k f n).rst = s.rst := rfl
@[simp] theorem State.bumpBy_recd (k : Nat) (f : Fld) (n : Nat) : (s.bumpBy k f n).recd = s.recd := rfl
@[simp] theorem State.bumpBy_sec (k : Nat) (f : Fld) (n : Nat) : (s.bumpBy k f n).sec = s.sec := rfl
@[simp] theorem State.bumpBy_tele (k : Nat) (f : Fld) (n : Nat) : (s.bumpBy k f n).tele = s.tele := rfl
@[simp] theorem State.bumpBy_flt (k : Nat) (f : Fld) (n : Nat) : (s.bumpBy k f n).flt = s.flt := rfl
@[simp] theorem State.bumpBy_out (k : Nat) (f : Fld) (n : Nat) : (s.bumpBy k f n).out = s.out := rfl

/-! ### bump -/

@[simp] theorem State.bump_pending (k : Nat) (f : Fld) : (s.bump k f).pending = s.pending := rfl
@[simp] theorem State.bump_clk (k : Nat) (f : Fld) : (s.bump k f).clk = s.clk := rfl
@[simp] theorem State.bump_free (k : Nat) (f : Fld) : (s.bump k f).free = s.free := rfl
@[simp] theorem State.bump_grade (k : Nat) (f : Fld) : (s.bump k f).grade = s.grade := rfl
@[simp] theorem State.bump_stepping (k : Nat) (f : Fld) : (s.bump k f).stepping = s.stepping := rfl
@[simp] theorem State.bump_mem (k : Nat) (f : Fld) : (s.bump k f).mem = s.mem := rfl
@[simp] theorem State.bump_tiles (k : Nat) (f : Fld) : (s.bump k f).tiles = s.tiles := rfl
@[simp] theorem State.bump_net (k : Nat) (f : Fld) : (s.bump k f).net = s.net := rfl
@[simp] theorem State.bump_tend (k : Nat) (f : Fld) : (s.bump k f).tend = s.tend := rfl
@[simp] theorem State.bump_land (k : Nat) (f : Fld) : (s.bump k f).land = s.land := rfl
@[simp] theorem State.bump_dec (k : Nat) (f : Fld) : (s.bump k f).dec = s.dec := rfl
@[simp] theorem State.bump_cap (k : Nat) (f : Fld) : (s.bump k f).cap = s.cap := rfl
@[simp] theorem State.bump_job (k : Nat) (f : Fld) : (s.bump k f).job = s.job := rfl
@[simp] theorem State.bump_berth (k : Nat) (f : Fld) : (s.bump k f).berth = s.berth := rfl
@[simp] theorem State.bump_time (k : Nat) (f : Fld) : (s.bump k f).time = s.time := rfl
@[simp] theorem State.bump_ctl (k : Nat) (f : Fld) : (s.bump k f).ctl = s.ctl := rfl
@[simp] theorem State.bump_rst (k : Nat) (f : Fld) : (s.bump k f).rst = s.rst := rfl
@[simp] theorem State.bump_recd (k : Nat) (f : Fld) : (s.bump k f).recd = s.recd := rfl
@[simp] theorem State.bump_sec (k : Nat) (f : Fld) : (s.bump k f).sec = s.sec := rfl
@[simp] theorem State.bump_tele (k : Nat) (f : Fld) : (s.bump k f).tele = s.tele := rfl
@[simp] theorem State.bump_flt (k : Nat) (f : Fld) : (s.bump k f).flt = s.flt := rfl
@[simp] theorem State.bump_out (k : Nat) (f : Fld) : (s.bump k f).out = s.out := rfl

/-! ### emit -/

@[simp] theorem State.emit_pending (o : Output) : (s.emit o).pending = s.pending := rfl
@[simp] theorem State.emit_clk (o : Output) : (s.emit o).clk = s.clk := rfl
@[simp] theorem State.emit_free (o : Output) : (s.emit o).free = s.free := rfl
@[simp] theorem State.emit_grade (o : Output) : (s.emit o).grade = s.grade := rfl
@[simp] theorem State.emit_stepping (o : Output) : (s.emit o).stepping = s.stepping := rfl
@[simp] theorem State.emit_dict (o : Output) : (s.emit o).dict = s.dict := rfl
@[simp] theorem State.emit_mem (o : Output) : (s.emit o).mem = s.mem := rfl
@[simp] theorem State.emit_tiles (o : Output) : (s.emit o).tiles = s.tiles := rfl
@[simp] theorem State.emit_net (o : Output) : (s.emit o).net = s.net := rfl
@[simp] theorem State.emit_tend (o : Output) : (s.emit o).tend = s.tend := rfl
@[simp] theorem State.emit_land (o : Output) : (s.emit o).land = s.land := rfl
@[simp] theorem State.emit_dec (o : Output) : (s.emit o).dec = s.dec := rfl
@[simp] theorem State.emit_cap (o : Output) : (s.emit o).cap = s.cap := rfl
@[simp] theorem State.emit_job (o : Output) : (s.emit o).job = s.job := rfl
@[simp] theorem State.emit_berth (o : Output) : (s.emit o).berth = s.berth := rfl
@[simp] theorem State.emit_time (o : Output) : (s.emit o).time = s.time := rfl
@[simp] theorem State.emit_ctl (o : Output) : (s.emit o).ctl = s.ctl := rfl
@[simp] theorem State.emit_rst (o : Output) : (s.emit o).rst = s.rst := rfl
@[simp] theorem State.emit_recd (o : Output) : (s.emit o).recd = s.recd := rfl
@[simp] theorem State.emit_sec (o : Output) : (s.emit o).sec = s.sec := rfl
@[simp] theorem State.emit_tele (o : Output) : (s.emit o).tele = s.tele := rfl
@[simp] theorem State.emit_flt (o : Output) : (s.emit o).flt = s.flt := rfl

/-! ### write -/

@[simp] theorem State.write_pending (a : Nat) (bs : List Nat) : (s.write a bs).pending = s.pending := rfl
@[simp] theorem State.write_clk (a : Nat) (bs : List Nat) : (s.write a bs).clk = s.clk := rfl
@[simp] theorem State.write_free (a : Nat) (bs : List Nat) : (s.write a bs).free = s.free := rfl
@[simp] theorem State.write_grade (a : Nat) (bs : List Nat) : (s.write a bs).grade = s.grade := rfl
@[simp] theorem State.write_stepping (a : Nat) (bs : List Nat) : (s.write a bs).stepping = s.stepping := rfl
@[simp] theorem State.write_dict (a : Nat) (bs : List Nat) : (s.write a bs).dict = s.dict := rfl
@[simp] theorem State.write_tiles (a : Nat) (bs : List Nat) : (s.write a bs).tiles = s.tiles := rfl
@[simp] theorem State.write_net (a : Nat) (bs : List Nat) : (s.write a bs).net = s.net := rfl
@[simp] theorem State.write_tend (a : Nat) (bs : List Nat) : (s.write a bs).tend = s.tend := rfl
@[simp] theorem State.write_land (a : Nat) (bs : List Nat) : (s.write a bs).land = s.land := rfl
@[simp] theorem State.write_dec (a : Nat) (bs : List Nat) : (s.write a bs).dec = s.dec := rfl
@[simp] theorem State.write_cap (a : Nat) (bs : List Nat) : (s.write a bs).cap = s.cap := rfl
@[simp] theorem State.write_job (a : Nat) (bs : List Nat) : (s.write a bs).job = s.job := rfl
@[simp] theorem State.write_berth (a : Nat) (bs : List Nat) : (s.write a bs).berth = s.berth := rfl
@[simp] theorem State.write_time (a : Nat) (bs : List Nat) : (s.write a bs).time = s.time := rfl
@[simp] theorem State.write_ctl (a : Nat) (bs : List Nat) : (s.write a bs).ctl = s.ctl := rfl
@[simp] theorem State.write_rst (a : Nat) (bs : List Nat) : (s.write a bs).rst = s.rst := rfl
@[simp] theorem State.write_recd (a : Nat) (bs : List Nat) : (s.write a bs).recd = s.recd := rfl
@[simp] theorem State.write_sec (a : Nat) (bs : List Nat) : (s.write a bs).sec = s.sec := rfl
@[simp] theorem State.write_tele (a : Nat) (bs : List Nat) : (s.write a bs).tele = s.tele := rfl
@[simp] theorem State.write_flt (a : Nat) (bs : List Nat) : (s.write a bs).flt = s.flt := rfl
@[simp] theorem State.write_out (a : Nat) (bs : List Nat) : (s.write a bs).out = s.out := rfl

/-! ### setTile -/

@[simp] theorem State.setTile_pending (p : Nat) (t : Tile) : (s.setTile p t).pending = s.pending := rfl
@[simp] theorem State.setTile_clk (p : Nat) (t : Tile) : (s.setTile p t).clk = s.clk := rfl
@[simp] theorem State.setTile_free (p : Nat) (t : Tile) : (s.setTile p t).free = s.free := rfl
@[simp] theorem State.setTile_grade (p : Nat) (t : Tile) : (s.setTile p t).grade = s.grade := rfl
@[simp] theorem State.setTile_stepping (p : Nat) (t : Tile) : (s.setTile p t).stepping = s.stepping := rfl
@[simp] theorem State.setTile_dict (p : Nat) (t : Tile) : (s.setTile p t).dict = s.dict := rfl
@[simp] theorem State.setTile_mem (p : Nat) (t : Tile) : (s.setTile p t).mem = s.mem := rfl
@[simp] theorem State.setTile_net (p : Nat) (t : Tile) : (s.setTile p t).net = s.net := rfl
@[simp] theorem State.setTile_tend (p : Nat) (t : Tile) : (s.setTile p t).tend = s.tend := rfl
@[simp] theorem State.setTile_land (p : Nat) (t : Tile) : (s.setTile p t).land = s.land := rfl
@[simp] theorem State.setTile_dec (p : Nat) (t : Tile) : (s.setTile p t).dec = s.dec := rfl
@[simp] theorem State.setTile_cap (p : Nat) (t : Tile) : (s.setTile p t).cap = s.cap := rfl
@[simp] theorem State.setTile_job (p : Nat) (t : Tile) : (s.setTile p t).job = s.job := rfl
@[simp] theorem State.setTile_berth (p : Nat) (t : Tile) : (s.setTile p t).berth = s.berth := rfl
@[simp] theorem State.setTile_time (p : Nat) (t : Tile) : (s.setTile p t).time = s.time := rfl
@[simp] theorem State.setTile_ctl (p : Nat) (t : Tile) : (s.setTile p t).ctl = s.ctl := rfl
@[simp] theorem State.setTile_rst (p : Nat) (t : Tile) : (s.setTile p t).rst = s.rst := rfl
@[simp] theorem State.setTile_recd (p : Nat) (t : Tile) : (s.setTile p t).recd = s.recd := rfl
@[simp] theorem State.setTile_sec (p : Nat) (t : Tile) : (s.setTile p t).sec = s.sec := rfl
@[simp] theorem State.setTile_tele (p : Nat) (t : Tile) : (s.setTile p t).tele = s.tele := rfl
@[simp] theorem State.setTile_flt (p : Nat) (t : Tile) : (s.setTile p t).flt = s.flt := rfl
@[simp] theorem State.setTile_out (p : Nat) (t : Tile) : (s.setTile p t).out = s.out := rfl

/-! ### fresh -/

@[simp] theorem State.fresh_pending (w : Nat) : (s.fresh w).2.pending = s.pending := rfl
@[simp] theorem State.fresh_clk (w : Nat) : (s.fresh w).2.clk = s.clk := rfl
@[simp] theorem State.fresh_grade (w : Nat) : (s.fresh w).2.grade = s.grade := rfl
@[simp] theorem State.fresh_stepping (w : Nat) : (s.fresh w).2.stepping = s.stepping := rfl
@[simp] theorem State.fresh_dict (w : Nat) : (s.fresh w).2.dict = s.dict := rfl
@[simp] theorem State.fresh_mem (w : Nat) : (s.fresh w).2.mem = s.mem := rfl
@[simp] theorem State.fresh_tiles (w : Nat) : (s.fresh w).2.tiles = s.tiles := rfl
@[simp] theorem State.fresh_net (w : Nat) : (s.fresh w).2.net = s.net := rfl
@[simp] theorem State.fresh_tend (w : Nat) : (s.fresh w).2.tend = s.tend := rfl
@[simp] theorem State.fresh_land (w : Nat) : (s.fresh w).2.land = s.land := rfl
@[simp] theorem State.fresh_dec (w : Nat) : (s.fresh w).2.dec = s.dec := rfl
@[simp] theorem State.fresh_cap (w : Nat) : (s.fresh w).2.cap = s.cap := rfl
@[simp] theorem State.fresh_job (w : Nat) : (s.fresh w).2.job = s.job := rfl
@[simp] theorem State.fresh_berth (w : Nat) : (s.fresh w).2.berth = s.berth := rfl
@[simp] theorem State.fresh_time (w : Nat) : (s.fresh w).2.time = s.time := rfl
@[simp] theorem State.fresh_ctl (w : Nat) : (s.fresh w).2.ctl = s.ctl := rfl
@[simp] theorem State.fresh_rst (w : Nat) : (s.fresh w).2.rst = s.rst := rfl
@[simp] theorem State.fresh_recd (w : Nat) : (s.fresh w).2.recd = s.recd := rfl
@[simp] theorem State.fresh_sec (w : Nat) : (s.fresh w).2.sec = s.sec := rfl
@[simp] theorem State.fresh_tele (w : Nat) : (s.fresh w).2.tele = s.tele := rfl
@[simp] theorem State.fresh_flt (w : Nat) : (s.fresh w).2.flt = s.flt := rfl
@[simp] theorem State.fresh_out (w : Nat) : (s.fresh w).2.out = s.out := rfl
@[simp] theorem State.fresh_free (w : Nat) : (s.fresh w).2.free = s.free + 1 := rfl

/-! ### What they set -/

@[simp] theorem State.emit_out (o : Output) : (s.emit o).out = o :: s.out := rfl

@[simp] theorem State.write_mem (a : Nat) (bs : List Nat) : (s.write a bs).mem = writeBytes s.mem a bs := rfl

/-- An entry after a write of an entry. -/
theorem State.setEnt_ent (k v j : Nat) : (s.setEnt k v).ent j = if j = k then v else s.ent j := by
  unfold State.ent State.setEnt mset
  by_cases hj : j = k
  · subst hj
    by_cases hv : v = dflt s.grade s.stepping j <;> simp [hv, mfind_mdel, mfind_mput]
  · by_cases hv : v = dflt s.grade s.stepping k <;> simp [hv, hj, mfind_mdel, mfind_mput]

@[simp] theorem State.setEnt_ent_same (k v : Nat) : (s.setEnt k v).ent k = v := by simp [State.setEnt_ent]

theorem State.setEnt_ent_other (k v j : Nat) (h : j ≠ k) : (s.setEnt k v).ent j = s.ent j := by
  simp [State.setEnt_ent, h]

/-- A tile after a write of a tile. -/
theorem State.setTile_tile (p : Nat) (t : Tile) (q : Nat) : (s.setTile p t).tile q = if q = p then t else s.tile q := by
  unfold State.tile State.setTile
  exact mget_mset _ _ _ _ _

@[simp] theorem State.setTile_tile_same (p : Nat) (t : Tile) : (s.setTile p t).tile p = t := by
  simp [State.setTile_tile]

/-- The updates of entries leave every entry but the named one. -/
theorem State.setFld_ent_other (k : Nat) (f : Fld) (v j : Nat) (h : j ≠ k) : (s.setFld k f v).ent j = s.ent j :=
  s.setEnt_ent_other k _ j h

@[simp] theorem State.setFld_ent_same (k : Nat) (f : Fld) (v : Nat) : (s.setFld k f v).ent k = f.put (s.ent k) v :=
  s.setEnt_ent_same k _

theorem State.emit_ent (o : Output) (k : Nat) : (s.emit o).ent k = s.ent k := rfl

theorem State.setTile_ent (p : Nat) (t : Tile) (k : Nat) : (s.setTile p t).ent k = s.ent k := rfl

theorem State.write_ent (a : Nat) (bs : List Nat) (k : Nat) : (s.write a bs).ent k = s.ent k := rfl

theorem State.setEnt_tile (k v p : Nat) : (s.setEnt k v).tile p = s.tile p := rfl

end Sys2Proof.Machine
end

