-- ==== Sys2Proof/Laws/Fields.lean ====
section
/-! SUPPORT. The laws of bit fields: a field reads what was put, and leaves every field that does not overlap it. -/

namespace Sys2Proof.Machine

/-- A field reads what was put, modulo its width. -/
theorem Fld.of_put_same (f : Fld) (v x : Nat) : f.of (f.put v x) = x % 2 ^ f.w := by
  unfold Fld.of Fld.put
  have h0 : 0 < 2 ^ f.lo := Nat.two_pow_pos _
  have h1 : 2 ^ (f.lo + f.w) = 2 ^ f.lo * 2 ^ f.w := Nat.pow_add 2 _ _
  rw [h1, Nat.mul_assoc, Nat.add_assoc, ← Nat.mul_add, Nat.add_mul_div_left _ _ h0,
    Nat.div_eq_of_lt (Nat.mod_lt _ h0), Nat.zero_add, Nat.add_mul_mod_self_left, Nat.mod_mod]

/-- Bits below the field stay. -/
theorem Fld.put_low (f : Fld) (v x n : Nat) (h : n ≤ f.lo) : f.put v x % 2 ^ n = v % 2 ^ n := by
  unfold Fld.put
  have h1 : 2 ^ (f.lo + f.w) = 2 ^ n * (2 ^ (f.lo - n) * 2 ^ f.w) := by
    rw [← Nat.mul_assoc, ← Nat.pow_add, ← Nat.pow_add]; congr 1; omega
  have h2 : 2 ^ f.lo = 2 ^ n * 2 ^ (f.lo - n) := by rw [← Nat.pow_add]; congr 1; omega
  rw [h1]
  conv_lhs => rw [h2]
  rw [Nat.mul_assoc, Nat.mul_assoc, Nat.add_mul_mod_self_left, Nat.add_mul_mod_self_left,
    Nat.mod_mul_right_mod]

/-- Bits above the field stay. -/
theorem Fld.put_high (f : Fld) (v x n : Nat) (h : f.lo + f.w ≤ n) : f.put v x / 2 ^ n = v / 2 ^ n := by
  unfold Fld.put
  have h0 : 0 < 2 ^ f.lo := Nat.two_pow_pos _
  have hw : 0 < 2 ^ f.w := Nat.two_pow_pos _
  have e1 : 2 ^ (f.lo + f.w) = 2 ^ f.lo * 2 ^ f.w := Nat.pow_add 2 _ _
  have low : v % 2 ^ f.lo + 2 ^ f.lo * (x % 2 ^ f.w) < 2 ^ (f.lo + f.w) := by
    rw [e1]
    have a := Nat.mod_lt v h0
    have b := Nat.mod_lt x hw
    calc v % 2 ^ f.lo + 2 ^ f.lo * (x % 2 ^ f.w) < 2 ^ f.lo + 2 ^ f.lo * (x % 2 ^ f.w) := by omega
      _ = 2 ^ f.lo * (x % 2 ^ f.w + 1) := by ring
      _ ≤ 2 ^ f.lo * 2 ^ f.w := Nat.mul_le_mul_left _ b
  have e2 : 2 ^ n = 2 ^ (f.lo + f.w) * 2 ^ (n - (f.lo + f.w)) := by rw [← Nat.pow_add]; congr 1; omega
  rw [e2, ← Nat.div_div_eq_div_mul, ← Nat.div_div_eq_div_mul,
    Nat.add_mul_div_left _ _ (Nat.two_pow_pos _), Nat.div_eq_of_lt low, Nat.zero_add]

/-- A field that does not overlap the one put stays. -/
theorem Fld.of_put_other (f g : Fld) (v x : Nat) (h : g.lo + g.w ≤ f.lo ∨ f.lo + f.w ≤ g.lo) :
    g.of (f.put v x) = g.of v := by
  unfold Fld.of
  rcases h with h | h
  · have e : ∀ y : Nat, y / 2 ^ g.lo % 2 ^ g.w = y % 2 ^ (g.lo + g.w) / 2 ^ g.lo := by
      intro y; rw [Nat.pow_add, Nat.mod_mul_right_div_self]
    rw [e, e, Fld.put_low f v x _ h]
  · rw [Fld.put_high f v x _ h]

/-- A field of the entry written. -/
theorem State.fld_setFld_same (s : State) (k : Nat) (f : Fld) (v : Nat) : (s.setFld k f v).fld k f = v % 2 ^ f.w := by
  simp [State.fld, Fld.of_put_same]

/-- A field apart from the one written. -/
theorem State.fld_setFld_other (s : State) (k : Nat) (f g : Fld) (v : Nat)
    (h : g.lo + g.w ≤ f.lo ∨ f.lo + f.w ≤ g.lo) : (s.setFld k f v).fld k g = s.fld k g := by
  simp [State.fld, Fld.of_put_other f g _ v h]

/-- A field of another entry. -/
theorem State.fld_setFld_ne (s : State) (k j : Nat) (f g : Fld) (v : Nat) (h : j ≠ k) :
    (s.setFld k f v).fld j g = s.fld j g := by
  simp [State.fld, State.setFld_ent_other s k f v j h]

end Sys2Proof.Machine
end

