-- ==== Sys2Proof/Laws/Memory.lean ====
section
/-! SUPPORT. The laws of the byte memory: a byte reads what was written, every other byte is left alone, and every
operation keeps the canonical form. -/

namespace Sys2Proof.Machine

theorem readByte_writeByte (m : List Host.Cell) (a b : Nat) (v : Byte) :
    readByte (writeByte m a v) b = if b = a then v else readByte m b := mget_mset 0 m a b v

/-- Bytes outside the written range are left alone. -/
theorem readByte_writeBytes_out (m : List Host.Cell) (a b : Nat) (bs : List Nat) (h : b < a ∨ a + bs.length ≤ b) :
    readByte (writeBytes m a bs) b = readByte m b := by
  induction bs generalizing m a with
  | nil => rfl
  | cons v bs ih =>
    simp only [List.length_cons] at h
    simp only [writeBytes]
    rw [ih _ (a + 1) (by omega), readByte_writeByte, if_neg (by omega)]

/-- Bytes inside the written range read what was written. -/
theorem readByte_writeBytes_in (m : List Host.Cell) (a i : Nat) (bs : List Nat) (h : i < bs.length) :
    readByte (writeBytes m a bs) (a + i) = BitVec.ofNat 8 bs[i] := by
  induction bs generalizing m a i with
  | nil => simp at h
  | cons v bs ih =>
    cases i with
    | zero => simp [writeBytes, readByte_writeBytes_out _ (a + 1) a bs (by omega), readByte_writeByte]
    | succ i =>
      simp only [writeBytes, List.getElem_cons_succ]
      have := ih (writeByte m a (BitVec.ofNat 8 v)) (a + 1) i (by simpa using h)
      rw [← this]; congr 1; omega

theorem writeByte_wf (m : List Host.Cell) (a : Nat) (v : Byte) (h : Memory.wf m = true) :
    Memory.wf (writeByte m a v) = true := mwf_mset 0 m a v h

theorem writeBytes_wf (m : List Host.Cell) (a : Nat) (bs : List Nat) (h : Memory.wf m = true) :
    Memory.wf (writeBytes m a bs) = true := by
  induction bs generalizing m a with
  | nil => exact h
  | cons v bs ih => exact ih _ _ (writeByte_wf m a _ h)

theorem zeroRange_wf (m : List Host.Cell) (a n : Nat) (h : Memory.wf m = true) : Memory.wf (zeroRange m a n) = true :=
  mwf_filter 0 _ m h

end Sys2Proof.Machine
end

