-- ==== Sys2Proof/Laws/Tiles.lean ====
section
/-! SUPPORT. What the issue of a tile instruction can do, said once (R206, R207), and the tile that an issue leaves. -/

namespace Sys2Proof.Machine

variable (s : State) (i : Iss) (r occ : Nat) (l : List (Nat × Nat × Act))

/-! ### The tile after an issue -/

@[simp] theorem Tile.advance_data (t : Tile) (c n : Nat) :
    { t.advance c n with pc := t.pc, loops := t.loops, next := t.next } = t := rfl

theorem State.begun_eq (t : Tile) :
    s.begun t = { t with period := (s.begun t).period, pc := (s.begun t).pc, loops := (s.begun t).loops } := by
  unfold State.begun; split <;> rfl

theorem Tile.occupy_eq (t : Tile) (f : Nat) :
    t.occupy r f = { t with
      mac := (t.occupy r f).mac
      fill := (t.occupy r f).fill
      pipe := (t.occupy r f).pipe
      port := (t.occupy r f).port
      alu := (t.occupy r f).alu } := by
  unfold Tile.occupy; split <;> rfl

/-- An issue changes only the sequencer, the resources and what waits: every register and buffer stays. -/
theorem State.issued_tile :
    (s.issued i r occ l).tile i.tile =
      { s.tile i.tile with
        loops := ((s.issued i r occ l).tile i.tile).loops
        pc := ((s.issued i r occ l).tile i.tile).pc
        next := s.clk + 1
        period := ((s.issued i r occ l).tile i.tile).period
        mac := ((s.issued i r occ l).tile i.tile).mac
        fill := ((s.issued i r occ l).tile i.tile).fill
        pipe := ((s.issued i r occ l).tile i.tile).pipe
        port := ((s.issued i r occ l).tile i.tile).port
        alu := ((s.issued i r occ l).tile i.tile).alu
        pend := (s.tile i.tile).pend ++
          l.map (fun x => { due := s.clk + x.2.1, addr := s.wordAt i.tile, unit := x.1, act := x.2.2 }) } := by
  unfold State.issued
  simp only [State.setTile_tile_same, Tile.advance]
  rw [s.begun_eq (s.tile i.tile)]
  rw [Tile.occupy_eq]

@[simp] theorem State.issued_clk : (s.issued i r occ l).clk = s.clk := rfl
@[simp] theorem State.issued_dict : (s.issued i r occ l).dict = s.dict := rfl
@[simp] theorem State.issued_mem : (s.issued i r occ l).mem = s.mem := rfl
@[simp] theorem State.issued_net : (s.issued i r occ l).net = s.net := rfl
@[simp] theorem State.issued_job : (s.issued i r occ l).job = s.job := rfl
@[simp] theorem State.issued_dec : (s.issued i r occ l).dec = s.dec := rfl
@[simp] theorem State.issued_cap : (s.issued i r occ l).cap = s.cap := rfl
@[simp] theorem State.issued_ent (k : Nat) : (s.issued i r occ l).ent k = s.ent k := rfl
@[simp] theorem State.issued_sram (p a n : Nat) : (s.issued i r occ l).sram p a n = s.sram p a n := rfl
@[simp] theorem State.issued_reg (k : Nat) : (s.issued i r occ l).reg k = s.reg k := rfl
@[simp] theorem State.issued_s : ((s.issued i r occ l).tile i.tile).s = (s.tile i.tile).s := by rw [State.issued_tile]
@[simp] theorem State.issued_p : ((s.issued i r occ l).tile i.tile).p = (s.tile i.tile).p := by rw [State.issued_tile]
@[simp] theorem State.issued_pf : ((s.issued i r occ l).tile i.tile).pf = (s.tile i.tile).pf := by
  rw [State.issued_tile]
@[simp] theorem State.issued_a : ((s.issued i r occ l).tile i.tile).a = (s.tile i.tile).a := by rw [State.issued_tile]
@[simp] theorem State.issued_x : ((s.issued i r occ l).tile i.tile).x = (s.tile i.tile).x := by rw [State.issued_tile]
@[simp] theorem State.issued_cm : ((s.issued i r occ l).tile i.tile).cm = (s.tile i.tile).cm := by
  rw [State.issued_tile]
@[simp] theorem State.issued_sb (b : Nat) : ((s.issued i r occ l).tile i.tile).sb b = (s.tile i.tile).sb b := by
  rw [State.issued_tile]; rfl
@[simp] theorem State.issued_preg (n : Nat) : ((s.issued i r occ l).tile i.tile).preg n = (s.tile i.tile).preg n := by
  simp [Tile.preg]
@[simp] theorem State.issued_sreg (n : Nat) : ((s.issued i r occ l).tile i.tile).sreg n = (s.tile i.tile).sreg n := by
  simp [Tile.sreg]
@[simp] theorem State.issued_flag (n : Nat) : ((s.issued i r occ l).tile i.tile).flag n = (s.tile i.tile).flag n := by
  simp [Tile.flag]
@[simp] theorem State.issued_file (n : Nat) : ((s.issued i r occ l).tile i.tile).file n = (s.tile i.tile).file n := by
  simp [Tile.file]

/-- The allocation depends on the dictionary alone. -/
theorem State.allocGo_issued (p : Nat) (wr : Bool) (k a n : Nat) :
    (s.issued i r occ l).allocGo p wr k a n = s.allocGo p wr k a n := by
  induction k generalizing a n with
  | zero => rfl
  | succ k ih => simp only [State.allocGo, ih, State.regionAt]; rfl

@[simp] theorem State.issued_badRead (p a n : Nat) : (s.issued i r occ l).badRead p a n = s.badRead p a n := rfl

@[simp] theorem State.issued_alloc (p : Nat) (acc : List (Nat × Nat × Bool)) :
    (s.issued i r occ l).alloc p acc = s.alloc p acc := by
  simp only [State.alloc, State.allocGo_issued, State.issued_badRead]

/-! ### Issue -/

/-- A ready instruction that the tile's word spells issues: its effect is applied to the state that the issue leaves. -/
theorem State.issue_ready (c : Instr) (eff : State → Nat → State) (h : s.ready i r) (hc : s.spells c i.tile = true) :
    s.issue c i r occ eff = .next (eff (s.issued i r occ []) (s.wordAt i.tile)) := by
  obtain ⟨h1, h2, h3, h4⟩ := h
  have e : ((s.begun (s.tile i.tile)).res r).free = ((s.tile i.tile).res r).free := by
    rw [s.begun_eq]; unfold Tile.res; split <;> rfl
  have m : (s.begun (s.tile i.tile)).met i = (s.tile i.tile).met i := by rw [s.begun_eq]; rfl
  have b : ¬ (r ≠ 0 ∧ s.clk < ((s.begun (s.tile i.tile)).res r).free) := by
    rw [e]; rintro ⟨a, c⟩; rcases h3 with h3 | h3 <;> omega
  unfold State.issue
  simp only [h1, h2, hc, Bool.and_self, if_true, b, if_false, m, h4]
  simp [State.issued, State.wordAt]

/-- What an instruction plans is part of its issue. -/
theorem State.issued_plan (l : List (Nat × Nat × Act)) :
    (s.issued i r occ []).plan i.tile
      (l.map (fun x => (s.issued i r occ []).pendAt (s.wordAt i.tile) x.1 x.2.1 x.2.2)) = s.issued i r occ l := by
  have h : ∀ t : Tile, t.next = s.clk + 1 → t ≠ ({} : Tile) := by
    intro t h e; subst e; exact absurd h (by show ¬ (0 = s.clk + 1); omega)
  unfold State.plan State.setTile State.issued State.setTile
  simp only [State.tile, mget_mset_same]
  rw [mset_mset _ _ _ _ _ (h _ rfl)]
  simp [State.pendAt]

end Sys2Proof.Machine
end

