-- ==== Sys2Proof/Tests/Base.lean ====
section
/-! SUPPORT. Small states for the author's tests and for the witnesses of the statements' hypotheses. -/

namespace Sys2Proof.Tests

open Sys2Proof.Machine

set_option Elab.async false

/-- `s` with fields of dictionary entries set. -/
def put (s : State) (l : List (Nat × Fld × Nat)) : State := l.foldl (fun s e => s.setFld e.1 e.2.1 e.2.2) s

/-- `s` with whole dictionary entries set. -/
def putEnt (s : State) (l : List (Nat × Nat)) : State := l.foldl (fun s e => s.setEnt e.1 e.2) s

/-- The state a step answers; the state after reset where it stops. -/
def after (o : Out) : State :=
  match o with
  | .next t => t
  | _ => State.reset

/-- The step stops. -/
def stops (o : Out) : Bool :=
  match o with
  | .next _ => false
  | _ => true

/-- An instruction of tile 0 without a predicate. -/
def t0 : Iss := { tile := 0, pred := 0, neg := false }

/-- The SRAM region word of a whole tile, readable and writable by instructions. -/
def wholeRegion : Nat :=
  reg_size.put (reg_base.put (reg_ir.put (reg_iw.put 0 1) 1) 0) 0x60000

/-- A running job of 1,000 clk whose schedule began in clk 0, with tile 0 placed at (0, 0) with a program of one word and all its
SRAM allocated; the clk is 100. -/
def running : State :=
  let s := put State.reset [(kJob, jst_job_state, RUNNING), (key 0x2300 3, ast_virtual_row, 0),
    (key 0x2300 3, ast_virtual_column, 0)]
  let s := putEnt s [(key 0x2700 0x10, wholeRegion)]
  { s with
    clk := 100
    job := { s.job with bound := true, period := 1000, fper := 1000 }
    dec := { s.dec with driven := true }
    time := { s.time with portsOn := true }
    net := { s.net with plen := [(0, 1)] } }

/-- `running` with tile 0 as given. -/
def withTile (x : Tile) : State := running.setTile 0 x

/-- `s` with instruction `c` as the word at address 0 of tile 0's program. -/
def spelling (s : State) (c : Instr) : State :=
  { s with net := { s.net with prog := mset 0 s.net.prog 0 ((encodeWord c).getD 0) } }

/-- The word of tile 0 spells `c`, which is ready on resource `r`, and nothing else is under way at the tile. -/
def Meets (s : State) (c : Instr) (r : Nat) : Prop := s.ready t0 r ∧ s.quiet 0 ∧ s.spells c 0 = true

/-- What `Meets` asks, as a Bool. -/
def meets (s : State) (c : Instr) (r : Nat) : Bool :=
  tileOk s.grade 0 && s.mayIssue 0 && (decide (r = 0) || decide (((s.tile 0).res r).free ≤ s.clk)) && (s.tile 0).met t0 &&
    (s.tile 0).pend.isEmpty && (s.tile 0).noWrite.isNone && s.spells c 0

theorem Meets.of {s : State} {c : Instr} {r : Nat} (h : meets s c r = true) : Meets s c r := by
  simp only [meets, Bool.and_eq_true, Bool.or_eq_true, decide_eq_true_eq, List.isEmpty_iff, Option.isNone_iff_eq_none] at h
  obtain ⟨⟨⟨⟨⟨⟨h1, h2⟩, h3⟩, h4⟩, h5⟩, h6⟩, h7⟩ := h
  exact ⟨⟨h1, h2, h3, h4⟩, ⟨h5, fun x e => by rw [h6] at e; cases e⟩, h7⟩

/-- Each command of a list meets `Meets` in the state whose word it is. -/
theorem Meets.all {s : State} {l : List Instr} {r : Nat} (h : l.all (fun c => meets (spelling s c) c r) = true) :
    ∀ c ∈ l, Meets (spelling s c) c r :=
  fun c m => .of (List.all_eq_true.mp h c m)

end Sys2Proof.Tests
end

