-- ==== Sys2Proof/Tests/Slice0.lean ====
section
/-! SUPPORT. The author's own tests: the well-formedness checks each refuse an ill-formed command, and the worked examples of
the spec come out as it prints them. -/

namespace Sys2Proof.Tests

open Sys2Proof.Machine

set_option Elab.async false

/-! ### Well-formedness: a command that each check refuses, beside one it admits -/

/-- MAC operands with a lane word from SRAM. -/
def macOps (src ptr slice : Nat) : MacOps :=
  { dest := 0, k4 := false, xSigned := false, wSigned := true, zx := 128, src := src, ptr := ptr, postInc := false, slice := slice }

theorem test_wf_tile : (Instr.wswp t0).wf = true ∧ (Instr.wswp { t0 with tile := 104 }).wf = false ∧
    (Instr.wswp { t0 with pred := 8 }).wf = false := by decide

theorem test_wf_bare : (Instr.halt t0).wf = true ∧ (Instr.halt { t0 with neg := true }).wf = false := by decide

theorem test_wf_mac : (Instr.mac t0 (macOps 1 15 0)).wf = true ∧ (Instr.mac t0 (macOps 0 15 0)).wf = false ∧
    (Instr.mac t0 (macOps 2 0 2)).wf = false ∧ (Instr.mac t0 (macOps 4 0 15)).wf = true ∧ (Instr.mac t0 (macOps 5 0 0)).wf = false := by
  decide

theorem test_wf_wld : (Instr.wld t0 15 31 0 true 0).wf = true ∧ (Instr.wld t0 15 31 1 true 0).wf = false ∧
    (Instr.wld t0 0 0 0 true 1).wf = false := by decide

theorem test_wf_operand_row :
    let x : AlnOp := ⟨true, 0, 0, 0, 0, 2, 15⟩
    x.wf = true ∧ ({ x with zp := 16 } : AlnOp).wf = false ∧ ({ x with file := 1 } : AlnOp).wf = false ∧
      (⟨false, 3, 1, 0, 0, 0, 0⟩ : AlnOp).wf = false := by decide

theorem test_wf_widths : (Instr.lut t0 0 1 0 0 0 1).wf = true ∧ (Instr.lut t0 0 1 0 0 0 2).wf = false := by decide

theorem test_wf_mark :
    let o : MarkOps := ⟨1, 0, 0, 31, 2, 1023, 0⟩
    (Instr.mark t0 o).wf = true ∧ (Instr.mark t0 { o with offset := 1 }).wf = false ∧ (Instr.mark t0 { o with score := 1024 }).wf = false := by
  decide

theorem test_wf_registers : (Instr.add t0 31 31 31).wf = true ∧ (Instr.add t0 32 0 0).wf = false ∧ (Instr.cmp t0 7 6 0 0).wf = false ∧
    (Instr.padd t0 0 0 true 1 1).wf = false := by decide

theorem test_wf_lanes : (Instr.dataBlock 23 31 0).wf = true ∧ (Instr.dataBlock 24 0 0).wf = false ∧
    (Instr.startBringup 0 34).wf = false ∧ (Instr.frameOpen 20 0 0 0).wf = false := by decide

theorem test_wf_units : (Instr.tenderWord 16 .clean).wf = false ∧ (Instr.eavesSlot 40).wf = false ∧ (Instr.sramPatrol 0 393216 0 0).wf = false ∧
    (Instr.tablePatrol 0 0 16383 true true).wf = false ∧ (Instr.memoryPatrol 2 0 0 0 false).wf = false ∧
    (Instr.unitOutOfService 1 12).wf = false ∧ (Instr.laserWearSample 48 0 0 false).wf = false := by decide

theorem test_wf_accesses : (Instr.usdoDownload 0x2000 1 1 255).wf = true ∧ (Instr.usdoDownload 0x2000 1 1 256).wf = false ∧
    (Instr.slotAccess 64 0 0 false false 0 0).wf = false ∧ (Instr.registerWrite (.slot 64) 0 0 0 0).wf = false ∧
    (Instr.bar2Write (2 ^ 36) [0]).wf = false := by decide

theorem test_wf_summary :
    let m : Summ := ⟨2 ^ 48 - 1, 255, 255, false, false, 8191, 0, 0, 0⟩
    (Instr.summaryMessage 31 m).wf = true ∧ (Instr.summaryMessage 32 m).wf = false ∧
      (Instr.harbourCombine { m with frame := 2 ^ 48 }).wf = false := by decide

theorem test_wf_times : (Instr.timeAdjust (2 ^ 31)).wf = false ∧ (Instr.mainTime (2 ^ 128)).wf = false ∧
    (Instr.clockFault 126 4).wf = false ∧ (Instr.ptpExchange 0 ⟨0, 0, 0, 0, 0⟩ 0 0 (-129)).wf = false ∧ (Instr.trigEdge 15 true 103).wf = false := by decide

theorem test_wf_requests : (Instr.hostCapture 0 255 255 (2 ^ 20 - 1) 1).wf = true ∧ (Instr.hostCapture 0 256 0 0 0).wf = false ∧
    (Instr.fomMeasure 0 0 [] []).wf = false ∧ (Instr.keyInstall).wf = true := by decide

/-! ### Words of tile programs: the encodings that chapters 07 and 08 print -/

/-- The CMAC of the worked layer. -/
theorem test_word_cmac : decodeWord 0 0x5300C01181404000 = some (.cmac t0 ⟨0, false, false, true, 128, 1, 1, true, 0⟩ 5 0x10) := by
  decide +kernel

/-- The words that the complete program prints. -/
theorem test_words_of_the_program :
    [0x0300010030000000, 0x0100000500000000, 0x350084A400000000, 0x0500000000000000, 0x5300C01101400000, 0x069100000080A000,
      0x0200000000000000].map (decodeWord 0) =
    [some (.loop t0 1 12), some (.pad t0 5), some (.srcv t0 0 1 0 false true 5 1), some (.fsel t0 0 false 0 0),
      some (.cmac t0 ⟨0, false, false, true, 128, 1, 1, false, 0⟩ 5 0),
      some (.mark { tile := 0, pred := 1, neg := true } ⟨0, 4, 0, 0, 1, 5, 0⟩), some (.fwait t0 0)] := by decide +kernel

/-- Written out from the field maps: bits 47, 43 and 39 of ADD s1, s2, s4; an opcode that is reserved. -/
theorem test_word_add : decodeWord 7 (2 ^ 60 + 2 ^ 47 + 2 ^ 43 + 2 ^ 39) = some (.add { tile := 7, pred := 0, neg := false } 1 2 4) ∧
    decodeWord 0 (2 ^ 63) = none ∧ decodeWord 0 0 = none := by decide +kernel

/-- The complete program with the three words that the chapter does not print. -/
def workedProgram : List Nat :=
  [0x0300010030000000, 0x0100000500000000, 0x350084A400000000, 0x0100000000000000, 0x0500000000000000, 0x5300C01101400000,
    (encodeWord (.sbopn t0 ⟨0, 0, 0, 1, 120, 3, 0, 5⟩)).getD 0, 0x0100000200000000, (encodeWord (.bias t0 0 0 3)).getD 0,
    0x0100000100000000, (encodeWord (.rq t0 ⟨0, 0, 4, 0, 0, true, 0, 0, 0, 1, 0, false, 0⟩)).getD 0, 0x0100000700000000,
    0x069100000080A000, 0x0200000000000000]

/-- It loads at F = 50, P = 100; with the FWAIT replaced by PAD n_m 23, and with len_m 13, it does not. -/
theorem test_program_loads :
    let last := fun (w : Nat) => workedProgram.take 13 ++ [w]
    programFault workedProgram 100 50 = none ∧ programFault (last 0x0100001700000000) 100 50 = some (7, 13) ∧
      programFault (0x0300010034000000 :: workedProgram.drop 1) 100 50 = some (5, 0) := by decide +kernel

/-! ### Lanes: chapter 02 -/

/-- Two bits of a PAM4 symbol and its level; a bit that a descrambler passes on until 39 bits later. -/
theorem test_levels : (List.range 4).map pam4Level = [-3, -1, 3, 1] ∧
    (descramble 0 (1 :: List.replicate 58 0)).1 = 1 :: List.replicate 38 0 ++ [1] ++ List.replicate 18 0 ++ [1] := by decide +kernel

/-! ### Arithmetic: the worked examples of chapters 00, 03, 04, 05 and 11 -/

theorem test_round_ta : roundTa 25 10 = 3 ∧ roundTa (-25) 10 = -3 ∧ roundTa 12749 100 = 127 ∧ roundTa 1275 10 = 128 ∧
    sat 128 (-128) 127 = 127 := by decide

/-- Samples of 12 bits into K8U with zero point 128, in_offset 2,048, in_shift 3. -/
theorem test_convert :
    let s := put State.reset [(key 0x2200 1, quay_zero_point, 128), (kConv 0 0, conv_in_offset, 2048), (kConv 0 0, conv_in_shift, 3)]
    s.convert 0 0 2103 = (135, false) ∧ s.convert 0 0 2044 = (127, false) ∧ s.convert 0 0 3100 = (255, true) ∧
      s.convert 0 0 1000 = (0, true) := by decide +kernel

theorem test_mac_saturates :
    dot false false false 0 (List.replicate 32 255) { codes := List.replicate 32 0, zw := 255 } = -2080800 ∧
    accSat (-2146000000 - 2080800) = (-2147483648, 1) ∧ accSat (-2147483648 + 1000000) = (-2146483648, 0) := by decide

theorem test_requantise_ties :
    requantise 5 0 0 1 false 1 0 = (3, false) ∧ requantise (-5) 0 0 1 false 1 0 = (-3, false) ∧
    requantise 5 0 0 1 false 0 100 = (103, false) ∧ requantise (-5) 0 0 1 false 0 100 = (97, false) ∧
    requantise 255 0 0 1 false 1 0 = (127, true) ∧ requantise (-255) 0 0 1 false 1 0 = (-128, false) ∧
    requantise (-257) 0 0 1 false 1 0 = (-128, true) ∧ requantise 15 0 0 1 false 3 0 = (7, true) ∧
    requantise (-15) 0 0 1 false 3 0 = (-8, false) ∧ requantise 311 0 0 1 false 0 100 = (255, true) := by decide

theorem test_requantise_scale :
    requantise 637 0 64 2 false 1 0 = (127, false) ∧ requantise 638 0 64 2 false 1 0 = (127, true) ∧
    requantise (-642) 0 64 2 false 1 0 = (-128, false) ∧ requantise (-643) 0 64 2 false 1 0 = (-128, true) := by decide

theorem test_aligned_add :
    let x : AlnCap := { row := true, file := 0, addr := 0, fmt := 0, zp := 128, m := 32, e := -3, zero := false }
    let y : AlnCap := { row := true, file := 0, addr := 0, fmt := 1, zp := 0, m := 0, e := -5, zero := false }
    let r := alignExp x y
    r = -11 ∧ alignTerm x (valueOf 0 128 200) r = 20736 ∧ alignTerm y (valueOf 1 0 216) r = -2560 ∧
      requantise (20736 - 2560) r 0 (-2) false 0 128 = (164, false) := by decide

/-- A live row of target 120 and headroom 1 with unit factor, in a block of the given exponent. -/
def liveRow (bexp : Option Int) : RqCap :=
  { file := 0, n := 32, dst := 0, dbuf := 0, dslot := 0, fmul := 65536, fexp := 0, aexp := 0, src := 0, target := 120, head := 1, layer := 0,
    bexp := bexp, est := 0, texp := 0, tk := 4, frac := 64, taddr := 0, track := false, fmt := 1, zp := 0, lutEn := false, lut := 0 }

theorem test_live_block :
    (let a := rowScale (liveRow none) 19200
     a.ent.word = 0x0140 ∧ a.set = some (8, false) ∧ (a.mA, a.eA) = (64, 7)) ∧
    (let a := rowScale (liveRow (some 8)) 7995
     a.ent.word = 0x020B ∧ (a.mA, a.eA) = (11, 6) ∧ requantise 7995 0 a.mA a.eA false 1 0 = (120, false)) ∧
    (let a := rowScale (liveRow (some 8)) 0
     a.ent.word = 0x0800 ∧ (a.mA, a.eA) = (0, 0)) ∧
    (let a := rowScale (liveRow (some 8)) 90
     a.ent.word = 0x0700 ∧ (a.mA, a.eA) = (0, 1) ∧ a.floor = true ∧ requantise 90 0 a.mA a.eA false 1 0 = (45, false)) ∧
    (let a := rowScale (liveRow (some 8)) 72000
     a.ent.word = 0x00FF ∧ (a.mA, a.eA) = (255, 8) ∧ requantise 72000 0 a.mA a.eA false 1 0 = (127, true)) := by decide

theorem test_block_header :
    ({ bexp := some 8, tag := 0x3040, count := 5 } : SBuf).header = 0x05304008 := by decide

theorem test_block_clamp :
    let a := rowScale { liveRow none with fexp := 25 } 1966080
    a.set = some (31, true) ∧ a.ent.word = 0x00FF ∧ (a.mA, a.eA) = (255, 6) ∧ requantise 1966080 0 a.mA a.eA false 1 0 = (127, true) ∧
      (requantise 16289 0 a.mA a.eA false 1 0).2 = true ∧ (requantise 16288 0 a.mA a.eA false 1 0).2 = false := by decide

/-- The tracked row: input scale (128, -3), estimate 999, block exponent 5. -/
theorem test_tracked_row :
    let c : RqCap := { liveRow (some 5) with src := 1, est := 999, fmul := 65536 * 3 / 2, fexp := -3 }
    let a := rowScale c 5368
    a.ent.word = 0x020A ∧ (a.mA, a.eA) = (99, 5) ∧ requantise 5368 0 a.mA a.eA false 1 0 = (121, false) ∧
      underuse c 5368 a.mA a.eA = false ∧ trackerUpdate c 5368 = 1000 := by decide

theorem test_averaging :
    avgOut 4003 12 16 2 false = (16012, false) ∧ avgOut 4003 12 12 2 false = (1001, false) ∧ avgOut 4002 12 12 2 false = (1001, false) ∧
    avgOut (-10) 12 12 2 true = (-3, false) ∧ avgOut 131068 16 8 2 true = (127, true) := by decide

/-! ### Landing, memory and the decision path: chapters 03, 09 and 10 -/

/-- One group of 32 lanes at F = 100: at most 126 blocks a frame, 19,200 codes of 8 bits at 120 blocks. -/
theorem test_landing_budget :
    let s := { put State.reset [(key 0x2200 2, grp_lane_count, 32), (key 0x2200 2, grp_blocks_per_frame, 120),
      (kConv 0 0, conv_sample_width, 2)] with job := { fper := 100 } }
    s.blockRoom 3 = 128 ∧ s.quayCodes 0 = 19200 ∧ s.beats 0 = 38 ∧ s.courseSize 0 = 30848 := by decide +kernel

theorem test_course_address :
    let s := putEnt (put State.reset [(key (0x2200 + 3) 2, grp_lane_count, 32), (key (0x2200 + 3) 2, grp_blocks_per_frame, 120)])
      [(key 0x2770 1, 8000000000), (key (0x2780 + 3) 1, 33600000000), (key (0x2780 + 3) 2, 363070)]
    s.courseSize 3 = 30848 ∧ s.courseAddr 3 0x01234567 = 48050409344 := by decide +kernel

theorem test_latency_min :
    let s := put State.reset [(key 0x2200 1, quay_land_enable, 1), (key 0x22F0 1, lndg_entry_margin, 4), (key 0x2800 1, dec_ridge_close, 261)]
    s.latencyMin 22 = 329 := by decide +kernel

/-! ### Time: chapter 14 -/

/-- The exchanges of the seamless switch, 0.125 s apart, o in 2^-16 ns. -/
theorem test_servo :
    let s := put (putEnt State.reset [(key 0x2E11 4, 1900 * 256)]) [(kDom 1, dom_kp_shift, 2), (key 0x2E00 1, tctl_slew_max, 50)]
    let inc := fun (o : Int) => (s.steer 1 125000000 o).time.incNext
    inc (600 * 65536) = some 13743904968 ∧ inc (450 * 65536) = some 13743909091 ∧ inc (3375 * 65536 / 10) = some 13743912183 ∧
      inc (253125 * 65536 / 1000) = some 13743914503 := by decide +kernel

theorem test_source_numbers :
    let m := fun (berth pos : Nat) => put State.reset [(key 0x2D00 1, bctl_berth, berth), (key 0x2D00 1, bctl_position, pos)]
    (m 1 5).source 1 0 = 0x12880 ∧ (m 1 5).source 0 3 = 0x12803 ∧ (m 0 5).source 0 15 = 0x280F := by decide +kernel

/-! ### Jobs, reset and the recorder: chapters 15, 16 and 19 -/

/-- A job at F = 100 that began in clk 0. -/
def job100 (st clk : Nat) : State :=
  let r := put running [(kJob, jst_job_state, st)]
  { r with clk := clk, rst := { available := true }, job := { r.job with period := 100, fper := 100 } }

theorem test_pause : (after (exec .pause (job100 RUNNING 12345))).job.pauseAt = some 12400 ∧
    (after (exec .pause (job100 RUNNING 12345))).ent kPause = 124 := by decide +kernel

theorem test_resume : (after (exec .resume (job100 PAUSED 50000))).job.resumeAt = some 50100 ∧
    (after (exec .resume (job100 PAUSED 50000))).ent kResume = 501 := by decide +kernel

/-- RESET_N during the trim load: the attempt is abandoned uncounted; a failed attempt counts, a good one clears the count. -/
theorem test_trim_reset :
    let s := { State.reset with rst := { step := 3 } }
    (after (exec .resetN s)).rst.fails = 0 ∧ (after (exec .resetN s)).rst.step = 3 ∧
      (after (exec (.trimAttemptDone false) s)).rst.fails = 1 := by decide +kernel

theorem test_trim_good :
    let s := { State.reset with rst := { step := 3, fails := 1 } }
    (after (exec (.trimAttemptDone true) s)).rst.fails = 0 ∧ (after (exec (.trimAttemptDone true) s)).rst.step = 4 := by decide +kernel

/-- Calibration windows of one layer merge, and the last window stays. -/
theorem test_recorder_merge :
    let cal := fun (w : Nat) => ({ type := 11, key := 7, payload := w + 2 ^ 160 * w } : RecRec)
    let s := { State.reset with recd := { slots := [(412, some (cal 40))], lastSlot := some 412, nextSeq := 90002, backlog := [cal 41] } }
    let x := (after (exec .recorderOperation s)).recd
    x.merges = 1 ∧ x.nextSeq = 90002 ∧ (mget none x.slots 412).map (fun r => (r.repeats, r.payload / 2 ^ 160)) = some (1, 41) := by
  decide +kernel

/-- The oldest record of the least severity gives way. -/
theorem test_recorder_victim :
    let r := fun (n : Nat) => ({ type := 12, key := 0, seq := n } : RecRec)
    victim (severity 11) [(0, some { type := 1, key := 0 }), (412, some (r 1000)), (7300, some (r 1004))] = some (412, r 1000) ∧
      victim (severity 14) [(0, some { type := 1, key := 0 })] = none := by decide

/-! ### The queue -/

theorem test_queue_order :
    let s := { State.reset with pending := [.hotRefusalRead, .heartbeat] }
    (after (step s)).pending = [.heartbeat] := by decide +kernel

/-- The state after reset has the form that every step keeps, and its step is a next state. -/
theorem wit_EveryStepKeepsTheForm :
    (State.reset.dict.map Prod.fst).Pairwise (· < ·) ∧ (∀ e ∈ State.reset.dict, e.2 ≠ dflt State.reset.grade State.reset.stepping e.1) ∧
      Memory.wf State.reset.mem = true ∧ stops (step State.reset) = false := by decide +kernel

theorem test_empty_queue_passes_a_clk : (after (step State.reset)).clk = 1 := by decide +kernel

end Sys2Proof.Tests
end

