-- ==== Sys2Proof/Tests/WitBackground.lean ====
section
/-! SUPPORT. Witnesses of the statements about patrols, telemetry, the recorder and security. Where a hypothesis asks that a
signature is valid, its value is free (log entry 9): the witness shows a state that meets everything else, and the hypothesis as
soon as the signature is valid. -/

namespace Sys2Proof.Tests

open Sys2Proof.Machine

set_option Elab.async false

/-- The first and the last row of a sweep, a row corrected in the sweep before; a table's last word; words of a stack and a channel in
and out of the ring; units in service. -/
theorem wit_PatrolsCorrectAndReport :
    let s := { put running [(key 0x27A0 1, munit_in_service, 1)] with
      clk := 63, tend := { patrolRow := [(0, 393215)], lastRows := [(0, [393215])], tabPos := [(128 * 3 + 39, 65535)] } }
    (tileOk s.grade 0 = true ∧ 393215 < 393216 ∧ s.patrolClk 0 = true ∧ s.patrolClk (128 * 3 + 39) = true ∧ 393215 = mget 0 s.tend.patrolRow 0 ∧
      393215 ∈ mget [] s.tend.lastRows 0 ∧ s.active = true ∧ s.placed 0 = true) ∧
    (0 = mget 0 s.tend.patrolRow 103 ∧ tileOk s.grade 103 = true ∧ s.placed 103 = false) ∧
    ({ s with clk := 64 } : State).patrolClk 0 = false ∧ 0 ≠ mget 0 s.tend.patrolRow 0 ∧
    (eavesOk s.grade 39 = true ∧ tileOk s.grade 0 = true ∧ s.tabPos (128 * 3 + 39) = 65535 ∧ s.tabPos 128 = 0) ∧
    (State.reset.faultable = false ∧ ({ State.reset with clk := 63 } : State).patrolClk 0 = true) ∧ (unitOk 0 9 = true ∧ unitOk 1 11 = true) ∧
    (s.unitHolds 0 0 0 = true ∧ s.unitHolds 0 1 0 = false) ∧
    (s.inRing 0 0 = false ∧ (putEnt s [(key 0x2770 2, 1)]).inRing 0 0 = true) ∧
    (s.flag (kUnit 0 0) munit_in_service = true ∧ s.flag (kUnit 1 11) munit_in_service = false) ∧
    (s.usesDie 0 = true ∨ s.usesDie 0 = false) := by decide +kernel

/-- A word of the twelfth of twelve DDR4 channels, whatever its DIMMs hold. -/
theorem wit_PatrolsCorrectAndReport_ddr :
    ({ running with tend := { ddrPop := 0xFFF } } : State).unitHolds 1 11 45056 = true := by
  have h : 45056 < 12 * (2 ^ 34 * 2 ^ (Config.dimmSize % 3)) := by
    have : 1 ≤ 2 ^ (Config.dimmSize % 3) := Nat.one_le_two_pow
    omega
  have d : ({ running with tend := { ddrPop := 0xFFF } } : State).ddrChannels = List.range 12 := by decide +kernel
  have b : decide (45056 < 12 * (2 ^ 34 * 2 ^ (Config.dimmSize % 3))) = true := decide_eq_true h
  unfold State.unitHolds State.ddrBytes dimmBytes
  rw [d, List.length_range, b]
  decide

/-- A tile that holds a virtual tile and a spare; a source that is lit, at the swap ratio and below, due or not, a spare in use; a
swap that waits, with and without a job; the doubts on and off; a sample at each limit. -/
theorem wit_SparesSuppliesAndTemperatures :
    let s := put running [(key 0x2100 0x23, rch_rc_enable, 1)]
    let idle := State.reset
    let due := { put idle [(kLwc, lwc_swap_enable, 1)] with tele := { due := [(0, 2), (1, 1), (0, 0)] } }
    let spare := put s [(kLas 0, las_spare_state, 2)]
    let dead := { s with tele := { s.tele with hold := true } }
    let doubt := s.setDoubt 6 true
    (tileOk s.grade 12 = true ∧ s.placed 12 = false ∧ 12 % 13 = spareCol s.grade ∧ s.fld (kRow (12 / 13)) row_retired_column ≠ 12 % 13) ∧
    s.placed 0 = true ∧
    ((0, 2) ∈ due.tele.due) ∧ (bankOk s.grade 0 = true ∧ s.sourceLit 0 0 = true ∧ s.fld kLwc lwc_swap_ratio ≤ 4095 ∧ s.fld (kLas 0) las_spare_state = 0 ∧
      (0, 0) ∉ s.tele.due ∧ 0 < s.fld kLwc lwc_swap_ratio ∧ spare.fld (kLas 0) las_spare_state ≠ 0) ∧ dead.sourceLit 0 0 = false ∧
    ((due.tele.due.filter (fun e => e.1 == 0)).map Prod.snd = [2, 0] ∧ due.active = false ∧ due.flag kLwc lwc_swap_enable = true ∧
      due.fld (kLas 0) las_spare_state = 0) ∧ s.active = true ∧
    (bit s.doubtMain 6 = false ∧ bit doubt.doubtMain 6 = true) ∧
    (sensorOk s.grade 4096 = true ∧ s.limit 4096 lim_doubt ≤ s.limit 4096 lim_doubt ∧ s.limit 4096 lim_trip ≤ s.limit 4096 lim_trip ∧
      (1500000 : Nat) < 1500001) := by decide +kernel

/-- With every slot listed none is free. -/
theorem full_none (r : RecRec) (n k : Nat) (h : k + n = recSlots) :
    firstFree k ((List.range' k n).map (fun i => (i, some r))) = none := by
  induction n generalizing k with
  | zero => simp [firstFree]; omega
  | succ n ih =>
    rw [List.range'_succ, List.map_cons, firstFree, if_pos rfl]
    exact ih (k + 1) (by omega)

/-- Slots that all hold one record give way to a record no less severe. -/
theorem victim_some (v : Nat) (r : RecRec) (l : List Nat) (hl : l ≠ []) (h : severity r.type ≤ v) :
    ∃ e, victim v (l.map (fun i => (i, some r))) = some e := by
  cases l with
  | nil => exact absurd rfl hl
  | cons k l => exact ⟨_, by rw [List.map_cons, victim, if_pos h]⟩

theorem victim_none (v : Nat) (r : RecRec) (l : List Nat) (h : ¬ severity r.type ≤ v) :
    victim v (l.map (fun i => (i, some r))) = none := by
  induction l with
  | nil => rfl
  | cons k l ih => rw [List.map_cons, victim, if_neg h]; exact ih

/-- A recorder whose slots all hold one record. -/
def fullRec (r : RecRec) (new : RecRec) : State :=
  { State.reset with recd := { slots := (List.range' 0 recSlots).map (fun i => (i, some r)), backlog := [new] } }

/-- A full recorder: the oldest record of the least severity gives way, and a less severe one is dropped. -/
theorem wit_RecorderStoresRecords_full :
    let fault : RecRec := { type := 1, key := 0 }
    let cal : RecRec := { type := 11, key := 0 }
    (∀ r new : RecRec, (fullRec r new).recd.mergesInto new = none ∧ firstFree 0 (fullRec r new).recd.slots = none ∧
      (fullRec r new).fld kAtt att_state ≠ 1) ∧
    (∃ e, victim (severity fault.type) (fullRec cal fault).recd.slots = some e) ∧
    victim (severity cal.type) (fullRec fault cal).recd.slots = none := by
  refine ⟨fun r new => ⟨rfl, full_none r _ 0 (by omega), ?_⟩, ?_, ?_⟩
  · have h : State.reset.fld kAtt att_state ≠ 1 := by decide +kernel
    exact h
  · exact victim_some _ _ _ (by rw [Ne, List.range'_eq_nil_iff]; decide) (by decide)
  · exact victim_none _ _ _ (by decide)

/-- A record that merges, one that takes the lowest free slot; an attestation in progress; an interval that has lasted and one that has
not; the slot number of each path. -/
theorem wit_RecorderStoresRecords :
    let r : RecRec := { type := 1, key := 0 }
    let s : State := { State.reset with
      recd := { slots := [(0, some r), (2, some r)], lastSlot := some 2, backlog := [r], openAt := some 0 }
      rst := { available := true }
      ctl := { latched := true } }
    let other := { s with recd := { s.recd with lastSlot := none } }
    let signs := put s [(kAtt, att_state, 1)]
    let open_ := putEnt { s with clk := 625000000001 } [(key 0x3100 4, 1), (key 0x2F10 3, 1)]
    (s.fld kAtt att_state ≠ 1 ∧ mget none s.recd.slots 2 = some r ∧ r.sameKey r = true) ∧
    (other.recd.mergesInto r = none ∧ firstFree 0 other.recd.slots = some 1) ∧ signs.fld kAtt att_state = 1 ∧
    (open_.rst.available = true ∧ open_.recd.openAt = some 0 ∧ 0 + open_.ent (key 0x3100 4) * secUnits ≤ open_.now ∧
      s.recd.openAt = some 0 ∧ s.now < 0 + s.ent (key 0x3100 4) * secUnits ∧ State.reset.recd.openAt = none) ∧
    (s.flag kSst sst_recovery = false ∧ s.canServes = true ∧ open_.ctl.latched = true ∧ bit open_.agreed 0 = true) := by decide +kernel

/-- Staging with room for a last chunk and without; an update in progress; a target that is refused; a write that ends. -/
theorem wit_FirmwareIsStagedAndWritten :
    let s := { State.reset with sec := { staged := 2 ^ 23 - 64 }, rst := { available := true } }
    let busy := put s [(kFwu, fwu_update_state, 1)]
    let b := put s [(kStrp, strp_boot_source, 2)]
    (s.rst.available = true ∧ State.reset.rst.available = false ∧ s.updating = false ∧ s.sec.staged + 64 ≤ 2 ^ 23 ∧ ¬ s.sec.staged + 64 + 64 ≤ 2 ^ 23) ∧ busy.updating = true ∧
    (s.flag kSst sst_recovery = false ∧ 0 = s.strapSlot ∧ s.slotVerifies (1 - 0) = false) ∧
    (b.updating = false ∧ b.active = false ∧ 1 ≠ b.strapSlot ∧ b.fwVerifies fwStageBase 0 = false) ∧
    ({ s with sec := { s.sec with writing := some 1 } } : State).sec.writing = some 1 ∧ s.sec.writing = none := by decide +kernel

/-! ### Messages -/

theorem readBytes_written (m : List Host.Cell) (a k j : Nat) (bs : List Nat) (h : k + j ≤ bs.length) :
    readBytes (writeBytes m a bs) (a + k) j = (List.range j).map (fun i => bs.getD (k + i) 0 % 256) := by
  unfold readBytes
  refine List.map_congr_left ?_
  intro i hi
  have hi := List.mem_range.mp hi
  rw [Nat.add_assoc, readByte_writeBytes_in m a (k + i) bs (by omega)]
  simp [List.getD_eq_getElem?_getD, List.getElem?_eq_getElem (show k + i < bs.length by omega)]

theorem leBytes_len (n v : Nat) : (leBytes n v).length = n := by
  induction n generalizing v with
  | zero => rfl
  | succ n ih => simp [leBytes, ih]

theorem leBytes_getD (n v i : Nat) (h : i < n) : (leBytes n v).getD i 0 = v / 256 ^ i % 256 := by
  induction n generalizing v i with
  | zero => omega
  | succ n ih =>
    cases i with
    | zero => simp [leBytes]
    | succ i =>
      have := ih (v / 256) i (by omega)
      simp only [leBytes, List.getD_cons_succ, this, Nat.div_div_eq_div_mul, Nat.pow_succ, Nat.mul_comm]

theorem leNat_range (v j : Nat) : leNat ((List.range j).map (fun i => v / 256 ^ i % 256)) = v % 256 ^ j := by
  induction j generalizing v with
  | zero => simp [leNat, Nat.mod_one]
  | succ j ih =>
    rw [List.range_succ_eq_map, List.map_cons, List.map_map, leNat]
    have h : (List.range j).map ((fun i => v / 256 ^ i % 256) ∘ Nat.succ) = (List.range j).map (fun i => v / 256 / 256 ^ i % 256) := by
      refine List.map_congr_left ?_
      intro i _
      simp only [Function.comp, Nat.div_div_eq_div_mul, Nat.pow_succ, Nat.mul_comm]
    rw [h, ih, Nat.pow_succ, Nat.mul_comm (256 ^ j) 256, Nat.mod_mul]
    simp

/-- What the first bytes of a written number read as. -/
theorem readNat_written (m : List Host.Cell) (a n v k j : Nat) (h : k + j ≤ n) :
    readNat (writeBytes m a (leBytes n v)) (a + k) j = v / 256 ^ k % 256 ^ j := by
  unfold readNat
  rw [readBytes_written m a k j _ (by rw [leBytes_len]; exact h), ← leNat_range]
  congr 1
  refine List.map_congr_left ?_
  intro i hi
  have hi := List.mem_range.mp hi
  rw [leBytes_getD n v (k + i) (by omega), Nat.pow_add, Nat.div_div_eq_div_mul]
  simp

/-- A message of type `ty` for target `tgt` with value `v`, signer prefix `sg`, for a module of serial number 5, with its nonce. -/
def letter (ty tgt v sg : Nat) : Nat :=
  0x534D5347 + 2 ^ 32 * ty + 2 ^ 40 * tgt + 2 ^ 64 * 5 + 2 ^ 96 * (Config.drbg 0 % 2 ^ 256) + 2 ^ 352 * v + 2 ^ 1024 * sg

/-- A module of serial number 5 that holds the message, its owner slots as given. -/
def mail (own : List (Nat × Nat)) (ty tgt v sg : Nat) : State :=
  { State.reset with
    dict := (key 0x1018 4, 5) :: own
    mem := writeBytes [] msgBase (leBytes 132 (letter ty tgt v sg))
    sec := { msgLen := 8000, fwVersion := 1 }
    rst := { available := true } }

/-- The owner slots of a module with two keys. -/
def twoKeys : List (Nat × Nat) := [(kOwn 0, 1), (kOwn 1, 1)]

/-- The dictionary of a module that holds a message serves it. -/
theorem mail_open : (mail [] 1 0 0 0).dictOpen = true ∧ (mail twoKeys 2 1 0 0).dictOpen = true ∧
    State.reset.dictOpen = false := by decide +kernel

theorem mail_fld (own : List (Nat × Nat)) (ty tgt v sg lo w : Nat) (h : lo + w ≤ 1024) :
    (mail own ty tgt v sg).msgFld lo w = letter ty tgt v sg / 2 ^ lo % 2 ^ w := by
  unfold State.msgFld bits
  have e : readNat (mail own ty tgt v sg).mem msgBase 128 = letter ty tgt v sg % 256 ^ 128 := by
    have := readNat_written [] msgBase 132 (letter ty tgt v sg) 0 128 (by omega)
    rw [Nat.pow_zero, Nat.div_one] at this
    exact this
  obtain ⟨x, hx⟩ : ∃ x, 8 * 128 = lo + w + x := ⟨1024 - lo - w, by omega⟩
  rw [e, show (256 : Nat) = 2 ^ 8 from rfl, ← Nat.pow_mul, hx, Nat.pow_add, Nat.pow_add, Nat.mul_assoc, Nat.mod_mul_right_div_self,
    Nat.mod_mul_right_mod]

set_option exponentiation.threshold 2000 in
/-- The fields of a letter. -/
theorem letter_flds (ty tgt v sg : Nat) (h1 : ty < 2 ^ 8) (h2 : tgt < 2 ^ 8) (h3 : v < 2 ^ 32) :
    letter ty tgt v sg / 2 ^ 0 % 2 ^ 32 = 0x534D5347 ∧ letter ty tgt v sg / 2 ^ 32 % 2 ^ 8 = ty ∧
    letter ty tgt v sg / 2 ^ 40 % 2 ^ 8 = tgt ∧ letter ty tgt v sg / 2 ^ 48 % 2 ^ 16 = 0 ∧ letter ty tgt v sg / 2 ^ 64 % 2 ^ 32 = 5 ∧
    letter ty tgt v sg / 2 ^ 96 % 2 ^ 256 = Config.drbg 0 % 2 ^ 256 ∧ letter ty tgt v sg / 2 ^ 352 % 2 ^ 32 = v ∧
    letter ty tgt v sg / 2 ^ 640 % 2 ^ 384 = 0 := by
  unfold letter
  generalize hn : Config.drbg 0 % 2 ^ 256 = n
  have hn : n < 2 ^ 256 := by omega
  refine ⟨?_, ?_, ?_, ?_, ?_, ?_, ?_, ?_⟩ <;> omega

set_option exponentiation.threshold 2000 in
/-- The signer prefix of a letter. -/
theorem mail_signer (own : List (Nat × Nat)) (ty tgt v sg : Nat) (h1 : ty < 2 ^ 8) (h2 : tgt < 2 ^ 8) (h3 : v < 2 ^ 32) (h4 : sg < 2 ^ 32) :
    (mail own ty tgt v sg).signer = sg := by
  have h := readNat_written [] msgBase 132 (letter ty tgt v sg) 128 4 (by omega)
  have e : letter ty tgt v sg / 2 ^ 1024 % 2 ^ 32 = sg := by
    unfold letter
    generalize hn : Config.drbg 0 % 2 ^ 256 = n
    have hn : n < 2 ^ 256 := by omega
    omega
  rw [show (256 : Nat) ^ 128 = 2 ^ 1024 by rw [show (256 : Nat) = 2 ^ 8 from rfl, ← Nat.pow_mul],
    show (256 : Nat) ^ 4 = 2 ^ 32 from rfl, e] at h
  exact h

/-- A letter that holds in form, nonce and serial number is refused for its signature, its state or its value alone. -/
theorem mail_cause (own : List (Nat × Nat)) (ty tgt v sg : Nat) (h1 : ty < 2 ^ 8) (h2 : tgt < 2 ^ 8) (h3 : v < 2 ^ 32)
    (h4 : sg < 2 ^ 32) (hty : 1 ≤ ty ∧ ty ≤ 5) (hs : (mail own ty tgt v sg).ent (key 0x1018 4) = 5)
    (hown : sg = 0xFFFFFFFF ∧ (mail own ty tgt v sg).unclaimed = true ∧ ty = 1 ∧ tgt = 0 ∨
      sg < 4 ∧ (mail own ty tgt v sg).owner sg = 1 ∧ (mail own ty tgt v sg).msgSigned = true)
    (hst : (mail own ty tgt v sg).msgState ty tgt = false) (hv : (mail own ty tgt v sg).msgValue ty tgt v = false) :
    (mail own ty tgt v sg).msgFld 32 8 = ty ∧ (mail own ty tgt v sg).msgCause = 0 := by
  have hf := fun lo w h => mail_fld own ty tgt v sg lo w h
  obtain ⟨a, b, c, d, e, f, g, i⟩ := letter_flds ty tgt v sg h1 h2 h3
  have a := (hf 0 32 (by omega)).trans a
  have b := (hf 32 8 (by omega)).trans b
  have c := (hf 40 8 (by omega)).trans c
  have d := (hf 48 16 (by omega)).trans d
  have e := (hf 64 32 (by omega)).trans e
  have f := (hf 96 256 (by omega)).trans f
  have g := (hf 352 32 (by omega)).trans g
  have i := (hf 640 384 (by omega)).trans i
  have hsg := mail_signer own ty tgt v sg h1 h2 h3 h4
  refine ⟨b, ?_⟩
  have hform : (mail own ty tgt v sg).msgForm = true := by
    unfold State.msgForm
    rw [a, b, d, i]
    simp [hty.1, hty.2]
    rfl
  have hnonce : (mail own ty tgt v sg).nonce = Config.drbg 0 % 2 ^ 256 := rfl
  unfold State.msgCause
  simp only [b, c, e, f, g, hform, hnonce, hs, hst, hv]
  obtain ⟨k1, k2, k3, k4⟩ | ⟨k1, k2, k3⟩ := hown
  · have hc : (mail own ty tgt v sg).claims = true := by
      unfold State.claims
      rw [hsg, b, c, k2, k1, k3, k4]
      rfl
    simp [hc]
  · simp [hsg, k1, k2, k3]

/-- An accepted message of every type; that of the first key needs no signature, the others need one that is valid. -/
theorem wit_MessagesAndReportsAreSigned_accepted :
    (let s := mail [] 1 0 0 0xFFFFFFFF
     s.msgFld 32 8 = 1 ∧ s.msgCause = 0) ∧
    (let s := mail twoKeys 2 1 0 0
     s.msgSigned = true → s.msgFld 32 8 = 2 ∧ s.msgCause = 0) ∧
    (let s := mail twoKeys 3 0 (2 ^ 32 - 1) 0
     s.msgSigned = true → s.msgFld 32 8 = 3 ∧ s.msgCause = 0) ∧
    (let s := mail twoKeys 4 0 1 0
     s.msgSigned = true → s.msgFld 32 8 = 4 ∧ s.msgCause = 0) ∧
    (let s := mail twoKeys 5 2 0 0
     s.msgSigned = true → s.msgFld 32 8 = 5 ∧ s.msgCause = 0) := by
  refine ⟨?_, fun h => ?_, fun h => ?_, fun h => ?_, fun h => ?_⟩
  · exact mail_cause [] 1 0 0 0xFFFFFFFF (by decide) (by decide) (by decide) (by decide) (by decide) (by decide +kernel)
      (.inl ⟨rfl, by decide +kernel, rfl, rfl⟩) (by decide +kernel) (by decide +kernel)
  · exact mail_cause twoKeys 2 1 0 0 (by decide) (by decide) (by decide) (by decide) (by decide) (by decide +kernel)
      (.inr ⟨by decide, by decide +kernel, h⟩) (by decide +kernel) (by decide +kernel)
  · exact mail_cause twoKeys 3 0 (2 ^ 32 - 1) 0 (by decide) (by decide) (by decide) (by decide) (by decide) (by decide +kernel)
      (.inr ⟨by decide, by decide +kernel, h⟩) (by decide +kernel) (by decide +kernel)
  · exact mail_cause twoKeys 4 0 1 0 (by decide) (by decide) (by decide) (by decide) (by decide) (by decide +kernel)
      (.inr ⟨by decide, by decide +kernel, h⟩) (by decide +kernel) (by decide +kernel)
  · exact mail_cause twoKeys 5 2 0 0 (by decide) (by decide) (by decide) (by decide) (by decide) (by decide +kernel)
      (.inr ⟨by decide, by decide +kernel, h⟩) (by decide +kernel) (by decide +kernel)

theorem msgFld_sec (s : State) (x : Sec) (lo w : Nat) : ({ s with sec := x } : State).msgFld lo w = s.msgFld lo w := rfl

theorem nonce_mem (s : State) (m : List Host.Cell) : ({ s with mem := m } : State).nonce = s.nonce := rfl

/-- A message of a type that is refused, one of another type, one whose nonce is not the module's; a report that is made and one
that is not. -/
theorem wit_MessagesAndReportsAreSigned :
    (let s := { mail [] 5 2 0 0 with sec := {} }
     s.msgFld 32 8 = 5 ∧ s.msgCause ≠ 0 ∧ State.reset.msgFld 32 8 ≠ 5) ∧
    (∃ s : State, s.msgFld 96 256 ≠ s.nonce) ∧
    State.reset.fld kAtt att_state ≠ 1 ∧ (put State.reset [(kAtt, att_state, 1)]).fld kAtt att_state = 1 := by
  have hf : ({ mail [] 5 2 0 0 with sec := {} } : State).msgFld 32 8 = (mail [] 5 2 0 0).msgFld 32 8 := msgFld_sec (mail [] 5 2 0 0) {} 32 8
  refine ⟨⟨hf.trans ((mail_fld [] 5 2 0 0 32 8 (by omega)).trans (letter_flds 5 2 0 0 (by decide) (by decide) (by decide)).2.1),
    by decide +kernel, by decide +kernel⟩, ?_, by decide +kernel, by decide +kernel⟩
  by_cases h : State.reset.nonce = 0
  · refine ⟨{ State.reset with mem := writeBytes [] msgBase (leBytes 128 (2 ^ 96)) }, ?_⟩
    have e : ({ State.reset with mem := writeBytes [] msgBase (leBytes 128 (2 ^ 96)) } : State).msgFld 96 256 = 1 := by decide +kernel
    have n : ({ State.reset with mem := writeBytes [] msgBase (leBytes 128 (2 ^ 96)) } : State).nonce = 0 :=
      (nonce_mem State.reset _).trans h
    rw [e, n]
    decide
  · refine ⟨State.reset, ?_⟩
    have e : State.reset.msgFld 96 256 = 0 := by decide +kernel
    rw [e]
    exact fun k => h k.symm

end Sys2Proof.Tests
end

