-- ==== Sys2Proof/Tests/WitBerth.lean ====
section
/-! SUPPORT. Witnesses of the statements about berths and harbours. -/

namespace Sys2Proof.Tests

open Sys2Proof.Machine

set_option Elab.async false

/-- A running job at position 0 of a berth of two, with fields and the berth part as given. -/
def berthed (l : List (Nat × Fld × Nat)) (b : Berth) : State :=
  { put running ([(key 0x2D00 1, bctl_berth_size, 2)] ++ l) with berth := b }

/-- `s` with bundle `k` aligned. -/
def aligned (k : Nat) (s : State) : State :=
  (List.range 4).foldl (fun s b => s.setParser (20 + k / 8) (k % 8 * 4 + b) { marked := true }) s

/-- Frame 0 in calibration; frames after it, one that follows on and one that restarts; a bundle that is not aligned; the end of
calibration; reports in it and after it, within d_b and not; and the reports of the whole berth, good at the largest deadline and
with one unstable. -/
theorem wit_BerthCalibrationFixesTheDeadline :
    let s := aligned 0 (berthed [(kBsts, bsts_cal_state, 1)] {})
    let run := fun (b : Berth) => aligned 0 (berthed [(kBsts, bsts_cal_state, 2)] b)
    let next := run { nextOf := [(1, some 5)] }
    let back := run { out := [(1, some {})] }
    let far := run { out := [(1, some { dMax := 1 })] }
    let late := { s with clk := s.calFrames * s.F }
    let rep := fun (hi : Nat) (un : Bool) => ({ dMax := hi, dMin := 0, unstable := un, moored := false, patient := false } : CalRep)
    let ended := fun (r0 r1 : CalRep) =>
      let t := put (berthed [(kBsts, bsts_cal_state, 1)] { reports := [(0, some r0), (1, some r1)] })
        [(kJob, jst_job_state, ARMED), (key 0x2D00 1, bctl_berth_deadline, 0)]
      { t with clk := t.berthFrames * t.F }
    let t := ended (rep 1023 false) (rep 0 false)
    (s.hears 0 = true ∧ s.job.bound = true ∧ s.fld kBsts bsts_cal_state = 1 ∧ frameIndex s.job.n0 0 = (0 : Nat) ∧
      0 < s.calFrames ∧ 0 / 32 = s.berthNo ∧ s.active = true ∧ 32 / 32 ≠ s.berthNo ∧ s.facing 0 = 1) ∧
    (next.hears 0 = true ∧ next.job.bound = true ∧ next.fld kBsts bsts_cal_state ≠ 1 ∧ next.moored = false ∧
      mget none next.berth.nextOf 1 = some 5 ∧ mget none next.berth.out 1 = none ∧ 5 ≠ 7 ∧ 0 < next.calFrames) ∧
    ((berthed [] {}).berthBundle 0 = true ∧ (berthed [] {}).bundleAligned 0 = false ∧ (berthed [] {}).berthBundle 31 = false) ∧
    (back.hears 0 = true ∧ back.fld kBsts bsts_cal_state ≠ 1 ∧ mget none back.berth.out 1 = some {} ∧
      (0 ≤ back.fld kBsts bsts_d_b ∧ ({} : Rejoin).dMax ≤ back.fld kBsts bsts_d_b) ∧ ¬ 1 ≤ back.fld kBsts bsts_d_b ∧
      mget none far.berth.out 1 = some { dMax := 1 } ∧ ¬ ({ dMax := 1 } : Rejoin).dMax ≤ far.fld kBsts bsts_d_b) ∧
    (late.fld kBsts bsts_cal_state = 1 ∧ late.job.bound = true ∧ late.job.s0 + late.calFrames * late.F ≤ late.clk ∧
      mget none late.berth.reports late.position = none ∧ late.berthBundle 0 = true) ∧
    ((∀ p, p < t.berthSize → mget none t.berth.reports p = some (if p = 0 then rep 1023 false else rep 0 false)) ∧
      t.fld kBsts bsts_cal_state = 1 ∧ t.job.bound = true ∧ t.jobState = ARMED ∧ t.job.s0 + t.berthFrames * t.F ≤ t.clk ∧
      t.job.pauseOnStart = false ∧ t.flag (key 0x2D00 1) bctl_moored = false ∧ t.flag kHctl hctl_patient = false ∧
      t.fld (key 0x2D00 1) bctl_berth_deadline = 0 ∧ 0 < t.berthSize ∧ (rep 1023 false).dMax ≤ 1023 ∧ (rep 0 false).dMax ≤ 1023) ∧
    ((ended (rep 0 true) (rep 0 false)).jobState = ARMED ∧ (rep 0 true).unstable ≠ false) := by
  refine ⟨?_, ?_, ?_, ?_, ?_, ⟨?_, ?_, ?_, ?_, ?_, ?_, ?_, ?_, ?_, ?_⟩, ?_⟩ <;> decide +kernel

/-- The close of frame 0 with both summaries, not moored, with the peer in, let back in, and failing its rejoin; moored with the
peer's missing; and one clk early. -/
theorem wit_BerthCombineClosesOnTime :
    let m : Summ := ⟨0, 1, 1, false, false, 0, 0, 0, 0⟩
    let own : SummRec := ⟨0, 50, m⟩
    let l := [(kBsts, bsts_cal_state, 2), (key 0x2800 1, dec_ridge_close, 88)]
    let s := berthed l { peers := [own, ⟨1, 60, m⟩] }
    let start := 2 ^ 48 - s.berthFrames
    let back := berthed l { peers := [own, ⟨1, 60, m⟩], out := [(1, some { start := some start, ok := true })] }
    let fails := berthed l { peers := [own], out := [(1, some { start := some start })] }
    let alone := put (berthed l { peers := [own] }) [(key 0x2D00 1, bctl_moored, 1)]
    let early := { s with clk := 99 }
    let c := fun (u : State) => u.job.s0 + u.berth.nextClose * u.F + u.C + 12 + u.fld kBsts bsts_d_b
    let here := fun (u : State) (p : Nat) => u.berth.peers.find? (fun x => x.src == p && x.m.frame == (u.job.n0 + u.berth.nextClose) % 2 ^ 48 &&
      decide (x.clk < c u))
    (s.fld kBsts bsts_cal_state = 2 ∧ s.job.bound = true ∧ here s s.position = some own ∧ c s ≤ s.clk ∧ s.moored = false ∧
      (∀ p, p < s.berthSize → mget none s.berth.out p = none) ∧ s.position < s.berthSize ∧ s.berthSize ≤ 32 ∧
      here s 1 = some ⟨1, 60, m⟩) ∧
    ((s.berthFrames : Int) ≤ frameIndex start 0 ∧ here back 1 = some ⟨1, 60, m⟩ ∧ here back 0 = some own ∧
      mget none back.berth.out 1 = some { start := some start, ok := true }) ∧
    (here fails 0 = some own ∧ mget none fails.berth.out 1 = some { start := some start } ∧ 1 ≠ fails.position ∧ fails.moored = false) ∧
    (c alone ≤ alone.clk ∧ alone.moored = true ∧ alone.active = true ∧ here alone 0 = some own ∧ here alone 1 = none ∧
      1 < alone.berthSize ∧ 1 ≠ alone.position) ∧
    (here early 0 = some own ∧ early.clk < c early) := by
  refine ⟨⟨?_, ?_, ?_, ?_, ?_, ?_, ?_, ?_, ?_⟩, ?_, ?_, ⟨?_, ?_, ?_, ?_, ?_, ?_, ?_⟩, ?_, ?_⟩ <;> decide +kernel

/-- A word that may set out and one that has to wait; words that come with delay 0 and 1 against d_b 0; deliveries in time, of a word
that is not complete, into a full queue and early. -/
theorem wit_BerthWordsArriveAfterADelay :
    let w : Token := { word := 1, tag := some 5 }
    let bind := [(kPeer 39, peer_enable, 1), (kPeer 39, peer_bundle, 0)]
    let s := { aligned 0 (berthed bind {}) with net := { inq := [(639, [w])] } }
    let wait := { s with berth := { wordNext := [(0, 101)] } }
    let inb := berthed bind { wordIn := [(0, [(100, 1)])] }
    let full := { inb with net := { outq := [(639, List.replicate 32 w)] } }
    let early := berthed bind { wordIn := [(0, [(101, 1)])] }
    (eavesOk s.grade 39 = true ∧ s.fld (kPeer 39) peer_bundle = 0 ∧ mget [] s.net.inq (16 * 39 + 15) = w :: [] ∧
      s.flag (kPeer 39) peer_enable = true ∧ s.berthBundle 0 = true ∧ mget 0 s.berth.wordNext 0 ≤ s.clk) ∧
    wait.clk < mget 0 wait.berth.wordNext 0 ∧
    (s.hears 0 = true ∧ s.job.bound = true ∧ (s.clk - s.job.s0 + 2 ^ 24 - 100 % 2 ^ 24) % 2 ^ 24 ≤ s.fld kBsts bsts_d_b ∧
      s.fld kBsts bsts_d_b < (s.clk - s.job.s0 + 2 ^ 24 - 99 % 2 ^ 24) % 2 ^ 24 ∧ s.active = true ∧ mget [] s.berth.wordIn 0 = []) ∧
    (mget [] inb.berth.wordIn 0 = (100, 1) :: [] ∧ inb.boundPort 0 = some 39 ∧ 100 ≤ inb.clk ∧ inb.berthBundle 0 = true ∧
      inb.job.bound = true ∧ (mget [] inb.net.outq (16 * 39 + 15)).length < 32) ∧
    (full.boundPort 0 = some 39 ∧ 32 ≤ (mget [] full.net.outq (16 * 39 + 15)).length ∧ full.active = true) ∧
    (mget [] early.berth.wordIn 0 = (101, 1) :: [] ∧ early.clk < 101) := by
  refine ⟨?_, ?_, ?_, ?_, ?_, ?_⟩ <;> decide +kernel

/-- A member with an uplink; a harbour head of 17 berths; a jetty head that is none; what comes by its wiring and what cannot;
combines that are due, with and without time lock, and early; the skew frames closed and not. -/
theorem wit_HarbourCombinesReachEveryModule :
    let m : Summ := ⟨0, 1, 1, false, false, 0, 0, 0, 0⟩
    let own : SummRec := ⟨0, 0, m⟩
    let hb := [(kHctl, hctl_harbour_enable, 1), (kHctl, hctl_harbour_berths, 17), (kBsts, bsts_cal_state, 2),
      (key 0x2D40 2, hdl_jetty_deadline, 0), (key 0x2D40 2, hdl_harbour_deadline, 0), (kBun 31, bun_role, 3)]
    let head := aligned 0 (berthed hb { jetty := [own], harbour := [own] })
    let wide := aligned 16 (put head [(key 0x2D00 1, bctl_berth_size, 18)])
    let jetty := put head [(key 0x2D00 1, bctl_berth, 16), (kTime, tsts_time_lock, 1)]
    let member := aligned 31 (put (berthed hb {}) [(key 0x2D00 1, bctl_position, 1)])
    let early := put jetty [(key 0x2D40 2, hdl_jetty_deadline, 1000)]
    let late := put head [(key 0x2D40 2, hdl_harbour_deadline, 1000)]
    let skew := { head with berth := { jettyNext := head.berthFrames + head.calFrames, harbourNext := head.berthFrames + head.calFrames } }
    (Summ.wf m = true ∧ member.inHarbour = true ∧ member.position ≠ 0 ∧ member.fld (kBun 31) bun_role = 3) ∧
    (head.job.bound = true ∧ head.jettyHead = true ∧ head.harbourHead = true ∧ head.flag kTime tsts_time_lock = false ∧
      head.hears (head.bundleTo 1) = true ∧ head.active = true ∧ 32 = 32 * (head.berthNo + 1) ∧ 0 ≠ 32 * (head.berthNo + 1)) ∧
    (wide.harbourHead = true ∧ wide.hears (wide.bundleTo (16 + 1)) = true ∧ wide.job.bound = true) ∧
    (head.fld kBsts bsts_cal_state = 2 ∧ head.tau 0 + head.deadline true * 2 ^ 32 ≤ head.now) ∧
    (jetty.jettyHead = true ∧ jetty.harbourHead = false ∧ jetty.flag kTime tsts_time_lock = true ∧ jetty.job.bound = true ∧
      jetty.fld kBsts bsts_cal_state = 2 ∧ jetty.tau 0 + jetty.deadline true * 2 ^ 32 ≤ jetty.now) ∧
    (early.now < early.tau 0 + early.deadline true * 2 ^ 32 ∧ late.now < late.tau 0 + late.deadline false * 2 ^ 32) ∧
    head.tau 0 + head.deadline false * 2 ^ 32 ≤ head.now ∧
    (head.inHarbour = true ∧ head.position = 0) ∧
    (skew.jettyHead = true ∧ skew.job.bound = true ∧ skew.berth.skewDone = false ∧ skew.fld kBsts bsts_cal_state = 2 ∧
      skew.berthFrames + skew.calFrames ≤ skew.berth.jettyNext ∧ skew.berthFrames + skew.calFrames ≤ skew.berth.harbourNext) ∧
    ¬ head.berthFrames + head.calFrames ≤ head.berth.jettyNext := by
  refine ⟨?_, ?_, ?_, ?_, ?_, ?_, ?_, ?_, ?_, ?_⟩ <;> decide +kernel

end Sys2Proof.Tests
end

