-- ==== Sys2Proof/Tests/WitLanes.lean ====
section
/-! SUPPORT. Witnesses of the statements about optical lanes, bring-up and the parsers. -/

namespace Sys2Proof.Tests

open Sys2Proof.Machine

set_option Elab.async false

/-- Quay 19 with group 3 on lane 31 alone, two blocks in a frame. -/
def grouped (l : List (Nat × Fld × Nat)) : State :=
  put State.reset ([(key (0x2200 + 19) 5, grp_lane_count, 1), (key (0x2200 + 19) 5, grp_first_lane, 31),
    (key (0x2200 + 19) 5, grp_blocks_per_frame, 2)] ++ l)

/-- Lane 31 of quay 19 is awake, locked and in service. -/
def lockedLane : List (Nat × Fld × Nat) :=
  [(kLstat 19 31, lstat_power_state_now, 0), (kLstat 19 31, lstat_block_lock, 1), (kLstat 19 31, lstat_bringup_state, 8)]

theorem wit_BlockLockIsLostAndGained :
    let s := put State.reset [(kLstat 23 33, lstat_signal_detect, 1)]
    let u := put s [(kLstat 23 33, lstat_block_lock, 1)]
    let w := put State.reset [(kLstat 23 33, lstat_power_state_now, 0)]
    chanOk .fqt7640 23 33 = true ∧ chanOk .fqt7620 14 0 = true ∧ State.reset.fld (kLstat 23 33) lstat_signal_detect = 0 ∧
    (u.fld (kLstat 23 33) lstat_signal_detect = 1 ∧ u.fld (kLstat 23 33) lstat_block_lock = 1) ∧
    (s.fld (kLstat 23 33) lstat_signal_detect = 1 ∧ s.fld (kLstat 23 33) lstat_block_lock = 0) ∧
    (w.fld (kLstat 23 33) lstat_block_lock = 0 ∧ w.fld (kLstat 23 33) lstat_power_state_now ≠ 2 ∧ (w.chan 23 33).dead = false ∧
      w.waited 23 33 64 = true) ∧
    ((w.setChan 23 33 { since := some w.clk }).waited 23 33 64 = false ∧ (w.setChan 23 33 { since := some w.clk }).waited 23 33 72 = false) ∧
    ((w.setChan 23 33 { search := some 131 }).chan 23 33).search = some 131 ∧ (w.setChan 23 33 { search := some 131 }).waited 23 33 72 = true ∧
    ((w.setChan 23 33 { search := some 0 }).chan 23 33).search = some 0 ∧ (w.chan 23 33).search = none ∧
    (s.setChan 23 33 { relock := true }).chan 23 33 = { relock := true } ∧ (s.chan 23 33).relock = false ∧
    (u.setChan 23 33 { relock := true }).fld (kLstat 23 33) lstat_block_lock = 1 ∧
    ((w.setChan 23 33 { conv := true }).chan 23 33).conv = true ∧ ((w.setChan 23 33 { conv := true }).chan 23 33).search = none ∧
    u.bringAt 23 33 = none := by decide +kernel

/-- A lane of a bring-up in its switch state, with a countdown seen and without. -/
theorem wit_LockLossInSwitch :
    let b : Bring := { engine := 19, lanes := [31], state := 5, rate := 1, downs := 0, fixed := false }
    let s := (grouped lockedLane).setBring 639 (some b)
    s.bringAt 19 31 = some b ∧ b.state = 5 ∧ (s.chan 19 31).cdown = false ∧ s.fld (kLstat 19 31) lstat_block_lock = 1 ∧
    ((s.setChan 19 31 { cdown := true }).chan 19 31).cdown = true := by decide +kernel

theorem wit_EqualisersAdapt :
    let s := put State.reset [(kLstat 0 0, lstat_power_state_now, 0), (kLstat 0 0, lstat_block_lock, 1)]
    let t := put s [(kLstat 0 0, lstat_bringup_state, 8), (kLctl 0 0, lctl_ctle_track, 1)]
    let down := t.setChan 0 0 { ctleUp := false }
    let top := put t [(kLeq 0 0, leq_ctle_code, 15)]
    let warned := put s [(kLstat 0 0, lstat_fom, 1)]
    let warn := s.fld (key 0x21F0 1) lglb_fom_warn
    chanOk s.grade 0 0 = true ∧ s.fld (kLstat 0 0) lstat_power_state_now ≠ 2 ∧ s.fld (kLctl 0 0) lctl_dfe_freeze = 0 ∧
    (let g := key 0x21F0 1
     2 ^ (if s.fld g lglb_fom_fine ≤ s.fld (kLstat 0 0) lstat_fom then s.fld g lglb_mu_shift_fine else s.fld g lglb_mu_shift_coarse) ≠ 0) ∧
    (12 ≤ (List.replicate 12 1).length ∧ (put s [(kLctl 0 0, lctl_dfe_freeze, 1)]).fld (kLctl 0 0) lctl_dfe_freeze = 1) ∧
    (warn ≤ fomOf [127] [127] ∧ State.reset.fld (kLstat 0 0) lstat_block_lock = 0) ∧
    (0 < warned.fld (kLstat 0 0) lstat_fom ∧ warned.fld (kLstat 0 0) lstat_fom < warn) ∧
    (s.fld (kLstat 0 0) lstat_block_lock = 1 ∧ fomOf ([[], [0, 5]].map eyeEdge) ([[0, 4, 4, 5], [9]].map eyeEdge) < warn ∧
      (s.chan 0 0).fomSeen = false) ∧
    (((s.setChan 0 0 { conv := true }).chan 0 0).conv = true ∧ (s.chan 0 0).conv = false ∧
      State.reset.fld (kLstat 0 0) lstat_power_state_now = 2) ∧
    (∀ i, i < 9 → ∀ j, j < 9 → i ≤ j → [0, 4, 4, 5].getD i 65536 ≤ [0, 4, 4, 5].getD j 65536) ∧ eyeEdge [0, 4, 4, 5] = 2 ∧
    (t.fld (kLctl 0 0) lctl_ctle_track = 1 ∧ t.fld (kLstat 0 0) lstat_bringup_state = 8 ∧ t.fld (kLstat 0 0) lstat_fom + 8 ≤ 255 ∧
      (t.chan 0 0).ctleUp = true ∧ t.fld (kLeq 0 0) leq_ctle_code < 15) ∧
    (let d := put down [(kLeq 0 0, leq_ctle_code, 1)]
     (d.chan 0 0).ctleUp = false ∧ 0 < d.fld (kLeq 0 0) leq_ctle_code) ∧
    ((top.chan 0 0).ctleUp = true ∧ 15 ≤ top.fld (kLeq 0 0) leq_ctle_code) ∧
    ((down.chan 0 0).ctleUp = false ∧ down.fld (kLeq 0 0) leq_ctle_code = 0) ∧ ¬ t.fld (kLstat 0 0) lstat_fom + 8 ≤ 7 := by
  decide +kernel

/-- An armed lane, a spare channel, each request that is under way, a map entry that is free and one that is taken. -/
theorem wit_LaneWritesTakeEffectOrAreRefused :
    let armed := { grouped [(kLctl 19 31, lctl_power_state, 0), (kJob, jst_job_state, ARMED), (key (0x2200 + 19) 1, quay_land_enable, 1)] with
      job := { slips := [19] } }
    chanOk .fqt7640 19 31 = true ∧ laneOk .fqt7640 19 31 = true ∧
    (State.reset.armedLane 19 31 = false ∧ State.reset.laneOfChan 19 31 ≠ none) ∧
    (State.reset.armedLane 19 33 = false ∧ State.reset.laneOfChan 19 33 = none) ∧ (armed.armedLane 19 31 = true ∧
      armed.fld (kLctl 19 31) lctl_power_state = 0 ∧ (put armed [(kLctl 19 31, lctl_power_state, 2)]).fld (kLctl 19 31) lctl_power_state ≠ 0) ∧
    ((State.reset.setChan 19 31 { request := some 2 }).chan 19 31).request = some 2 ∧
    ((State.reset.setChan 19 31 { request := some 1 }).chan 19 31).request = some 1 ∧
    (State.reset.idle = true ∧ ∀ m, m < 32 → m ≠ 31 → State.reset.ent (kLmap 19 0 + m) ≠ 33) ∧
    (laneOk .fqt7640 20 31 = true ∧ ∀ m, m < 32 → m ≠ 31 → State.reset.ent (kLmap 20 0 + 32 + m) ≠ 33) ∧
    (armed.idle = false ∧ ¬ ∀ m, m < 32 → m ≠ 31 → State.reset.ent (kLmap 19 0 + m) ≠ 30) := by decide +kernel

/-- Lanes that agree, at a ceiling and at a fixed rate; two lanes of a group whose settings differ. -/
theorem wit_BringUpStarts :
    let fixed := grouped [(kLctl 19 31, lctl_fixed_rate, 1)]
    let apart := put State.reset [(key (0x2200 + 19) 5, grp_lane_count, 2), (key (0x2200 + 19) 5, grp_first_lane, 30),
      (kLctl 19 31, lctl_fixed_rate, 1), (kLctl 19 31, lctl_fixed_rate_code, 2)]
    let cs := apart.chansOf 19 (apart.unitLanes 19 31)
    let busy := (grouped []).setBring 608 (some { engine := 19, lanes := [0], state := 3, rate := 0, downs := 0, fixed := false })
    let held := { grouped [] with rst := { block := some (1, 19, 0) } }
    (({ grouped [] with rst := { available := true } } : State).dictOpen = true ∧ (grouped []).dictOpen = false ∧
      (grouped []).engineReset 19 = false ∧ held.engineReset 19 = true) ∧
    chanOk .fqt7640 19 31 = true ∧ (grouped []).laneOfChan 19 31 = some 31 ∧ (grouped []).unitLanes 19 31 = [31] ∧
    (∀ a ∈ (grouped []).chansOf 19 [31], (grouped []).fld (kLctl 19 a) lctl_fixed_rate = 0 ∧
      (grouped []).fld (kLstat 19 a) lstat_block_lock = 0) ∧
    (∀ a ∈ fixed.chansOf 19 [31], fixed.fld (kLctl 19 a) lctl_fixed_rate = 1 ∧ fixed.fld (kLstat 19 a) lstat_block_lock = 0) ∧
    (grouped []).engineBusy 19 639 = false ∧ busy.engineBusy 19 639 = true ∧ apart.laneOfChan 19 31 = some 31 ∧
    (cs.any (fun a => apart.fld (kLctl 19 a) lctl_fixed_rate == 1)) = true ∧
    ¬ (∀ a ∈ cs, ∀ b ∈ cs, apart.fld (kLctl 19 a) lctl_fixed_rate_code = apart.fld (kLctl 19 b) lctl_fixed_rate_code) := by
  decide +kernel

/-- A bring-up of lane 31 of quay 19 in each state, with figures of merit above and below the bound, capabilities that choose
rate 3 and rate 0, and an armed rate that differs and one that agrees. -/
theorem wit_BringUpMovesThroughItsStates :
    let b := fun (st r d : Nat) (fx : Bool) => ({ engine := 19, lanes := [31], state := st, rate := r, downs := d, fixed := fx } : Bring)
    let s := fun (x : Bring) => (grouped []).setBring 639 (some x)
    let low := fun (u : State) (foms : List (List Nat)) => (u.chansOf 19 [31]).any (fun c => decide
      ((u.takeSweep 19 [31] foms).fld (kLstat 19 c) lstat_fom < (u.takeSweep 19 [31] foms).fld (key 0x21F0 1) lglb_fom_lock_min))
    let cap := fun (k : Nat) => ((s (b 4 0 0 false)).setChan 19 31 { cap := some k })
    let ceil := (cap 15).fld (kLctl 19 31) lctl_rate_ceiling
    let arm := fun (u : State) => ({ put u [(kJob, jst_job_state, ARMED), (key (0x2200 + 19) 1, quay_land_enable, 1)] with
      job := { slips := [19] }, land := { u.land with armed := [(79, some 1)] } } : State)
    ((s (b 1 0 0 false)).bringOf 639 = some (b 1 0 0 false) ∧ (s (b 1 0 0 false)).chansOf 19 [31] = [31]) ∧
    (low (s (b 2 0 0 false)) [[200]] = false ∧ low (s (b 2 0 0 false)) [[1]] = true ∧ low (s (b 6 1 0 false)) [[200]] = false ∧
      low (s (b 6 1 0 false)) [[1]] = true) ∧
    ((s (b 3 0 0 true)).bringOf 639 = some (b 3 0 0 true) ∧ (s (b 5 1 0 false)).bringOf 639 = some (b 5 1 0 false) ∧
      (s (b 7 1 0 false)).bringOf 639 = some (b 7 1 0 false)) ∧
    (((cap 15).chan 19 31).cap = some 15 ∧ 3 ≤ ceil ∧ 15 / 2 ^ 3 % 2 = 1 ∧ (cap 15).armedRate 19 [31] = none) ∧
    (((cap 1).chan 19 31).cap = some 1 ∧ 1 / 2 ^ 0 % 2 = 1 ∧ (∀ r', r' < 4 → 0 < r' → r' ≤ ceil → 1 / 2 ^ r' % 2 = 0)) ∧
    ((arm (cap 15)).armedRate 19 [31] = some 1 ∧ 1 ≠ 3) ∧ ((arm (cap 3)).armedRate 19 [31] = some 1 ∧ 3 / 2 ^ 1 % 2 = 1) ∧
    ((arm (s (b 6 3 0 false))).armedRate 19 [31] = some 1 ∧ 1 ≠ 3 - 1 ∧ (arm (s (b 6 2 0 false))).armedRate 19 [31] = some (2 - 1)) ∧
    ((b 6 1 0 false).downs < (s (b 6 1 0 false)).fld (key 0x21F0 1) lglb_max_step_downs ∧
      (s (b 6 1 15 false)).fld (key 0x21F0 1) lglb_max_step_downs ≤ 15) ∧
    (let u := put (s (b 3 0 0 true)) lockedLane
     (∀ c ∈ u.chansOf 19 [31], u.fld (kLstat 19 c) lstat_block_lock = 1) ∧ u.bringOf 639 = some (b 3 0 0 true)) ∧
    ¬ (∀ c ∈ (s (b 3 0 0 true)).chansOf 19 [31], (s (b 3 0 0 true)).fld (kLstat 19 c) lstat_block_lock = 1) ∧
    [9, 11, 12, 10, 10, 11, 12][(b 7 1 0 false).state - 1]? = some 12 := by decide +kernel

/-- What the exchange chooses: nothing yet, nothing that all have, R28 and R10, each with the return channel on; a bring-up whose
lanes have retuned; a link bundle that has sent done; a unit that may send training, and one with no other waiting. -/
theorem wit_BringUpChooses :
    let b : Bring := { engine := 19, lanes := [31], state := 4, rate := 0, downs := 0, fixed := false }
    let on := { put (grouped []) [(kRch 19, rch_rc_enable, 1)] with dec := { driven := true } }
    let cap := fun (u : State) (k : Nat) => (u.setBring 639 (some b)).setChan 19 31 { cap := some k }
    (on.setBring 639 (some b)).chooses b = none ∧ (cap on 0).chooses b = some none ∧ (cap (grouped []) 1).chooses b = some none ∧
    (cap on 3).chooses b = some (some 1) ∧ (cap on 1).chooses b = some (some 0) ∧ (cap on 3).returnOn 19 [31] = true ∧
    (cap on 3).armedRate 19 [31] = none ∧
    (∀ c ∈ on.chansOf 19 [31], (put on [(kLstat 19 31, lstat_rate_now, 1)]).fld (kLstat 19 c) lstat_rate_now = { b with rate := 1 }.rate) ∧
    (∃ c ∈ on.chansOf 19 [31], on.fld (kLstat 19 c) lstat_rate_now ≠ { b with rate := 1 }.rate) ∧
    (on.fld (kRch 19) rch_rc_enable = 1 ∧ on.tele.hold = false ∧ on.engineReset 19 = false ∧ on.dec.driven = true ∧
      on.swapping (2 * 19) (on.fld (kRch 19) rch_rc_use_spare) = false ∧ on.land.bringWait = []) ∧
    (let l := { b with engine := 20, lanes := [0, 1, 2, 3], state := 7, sent := true }
     20 ≤ l.engine ∧ l.fixed = false ∧ l.heard = false ∧ l.sent = true) := by decide +kernel

/-- Inside a frame, outside, and with all the blocks of a frame. -/
theorem wit_BlocksPassTheParser :
    let s := grouped lockedLane
    let p := fun (n : Nat) => s.setParser 19 31 { inside := true, count := n }
    laneOk s.grade 19 31 = true ∧ s.delivers 19 31 = true ∧ s.groupOf 19 31 = some 3 ∧ (s.parser 19 31).inside = false ∧
    ((p 1).delivers 19 31 = true ∧ ((p 1).parser 19 31).inside = true ∧ ((p 1).parser 19 31).count < (p 1).blocksPer 19 3) ∧
    (((p 2).parser 19 31).inside = true ∧ (p 2).blocksPer 19 3 ≤ ((p 2).parser 19 31).count) ∧
    (∀ b ∈ [0, 1, 1], b < 2) ∧
    (let u := put State.reset lockedLane
     u.delivers 19 31 = true ∧ u.groupOf 19 31 = none) ∧
    (let u := put s [(kLstat 19 31, lstat_power_state_now, 1)]
     u.delivers 19 31 = false ∧ u.fld (kLstat 19 (u.chanOf 19 31)) lstat_block_lock = 1) ∧
    State.reset.fld (kLstat 19 (State.reset.chanOf 19 31)) lstat_block_lock = 0 := by decide +kernel

/-- A lane outside a frame with an earlier frame; a marker in phase, expected and not; markers missed; training outside a bring-up
and in its exchange; a lane 65 blocks ahead; a group in each alignment state. -/
theorem wit_FramesMarkersAndAlignment :
    let s := grouped lockedLane
    let q := s.setParser 19 31 { prev := some (2 ^ 48 - 1), mark := 16383, hasMark := true }
    let id := s.ent (key (0x2260 + 19) 32) % 2 ^ 12
    let bring : Bring := { engine := 19, lanes := [31], state := 4, rate := 0, downs := 0, fixed := false }
    let two := put s [(key (0x2200 + 19) 5, grp_lane_count, 2), (key (0x2200 + 19) 5, grp_first_lane, 30)]
    let ahead := (two.setParser 19 30 { total := 65 }).setGroup 19 3 { open_ := [{ frame := 0, opened := [(0, 0)] }] }
    let al := fun (n : Nat) => put s [(kGst 19 3, gstat_align_state, n)]
    let dark := fun (n : Nat) => put (grouped []) [(kGst 19 3, gstat_align_state, n)]
    (s.delivers 19 31 = true ∧ s.groupOf 19 31 = some 3 ∧ (s.parser 19 31).inside = false ∧ (s.parser 19 31).prev = none ∧
      s.align 19 3 < 3) ∧
    ((q.parser 19 31).prev = some (2 ^ 48 - 1) ∧ later 0 (2 ^ 48 - 1) = true ∧ q.delivers 19 31 = true) ∧
    (let d := put two (lockedLane ++ [(kGst 19 3, gstat_align_state, 4)])
     let w := fun (n : Nat) => d.setParser 19 31 { inside := true, prev := some n }
     2 ≤ d.align 19 3 ∧ (d.group 19 3).open_ = [] ∧ 1 < d.laneCount 19 3 ∧ d.groupOf 19 31 = some 3 ∧ d.delivers 19 31 = true ∧
     (∀ m ∈ d.groupLanes 19 3, m ≠ 31 → (d.parser 19 m).prev = none) ∧ ((w 5).parser 19 31).inside = true ∧ (w 5).delivers 19 31 = true ∧
     later 5 5 = false ∧ (((q.setParser 19 31 { hasMark := true, mark := 7 }).parser 19 31).mark + 1 ≠ 16384) ∧ s.overrun 19 3 = false) ∧
    (let l := put State.reset [(kLstat 20 0, lstat_block_lock, 1), (kLstat 20 0, lstat_power_state_now, 0)]
     laneOk l.grade 20 0 = true ∧ l.delivers 20 0 = true ∧ ones64 ((2 * (l.parser 20 0).hdr + 0) % 2 ^ 64) < 16 ∧ l.expectedId 20 0 = none ∧
     (put l [(key 0x2D00 1, bctl_berth_size, 2)]).expectedId 20 0 = some 248) ∧
    (let g := fun (k : Nat) (l : List (Nat × Nat)) =>
       ((two.setParser 19 30 { total := k }).setGroup 19 3 { open_ := [{ frame := 0, opened := l }] })
     ((g 64 [(0, 0), (1, 0)]).group 19 3).open_.find? (fun h => h.frame == 0) = some { frame := 0, opened := [(0, 0), (1, 0)] } ∧
     [(0, 0), (1, 0)].length = (g 64 []).laneCount 19 3 ∧ [(0, 0)].length ≠ (g 64 []).laneCount 19 3 ∧
     ((g 64 []).parser 19 30).total - 0 ≤ 64 ∧ 64 < ((g 65 []).parser 19 30).total - 0) ∧
    ((s.parser 19 31).hasMark = false ∧ (q.parser 19 31).mark + 1 = 16384) ∧ id = 639 ∧ id ≠ 0 ∧
    16384 * ((s.setParser 19 31 { missed := 1, mark := 32768 }).parser 19 31).missed ≤ 32768 ∧
    ones64 ((2 * (s.parser 19 31).hdr + 0) % 2 ^ 64) < 16 ∧ s.fld (kLstat 19 (s.chanOf 19 31)) lstat_block_lock = 1 ∧
    (bring.state ≤ 4 ∧ { bring with state := 5 }.state = 5 ∧ 2 ^ 22 / 2 ^ 22 % 2 = 1 ∧ 2 ^ 22 / 2 ^ 16 % 64 ≠ 0 + 1) ∧
    s.bringOf (s.unitKey 19 31) = none ∧ (s.setBring 639 (some bring)).bringOf (s.unitKey 19 31) = some bring ∧
    ahead.overrun 19 3 = true ∧
    (s.laneCount 19 3 ≠ 0 ∧ State.reset.laneCount 19 3 = 0 ∧ (al 1).align 19 3 = 1 ∧ (al 2).align 19 3 = 2 ∧ (al 3).align 19 3 = 3) ∧
    (∀ n ∈ (al 1).groupLanes 19 3, (al 1).inService 19 n = true) ∧ ¬ (∀ n ∈ (dark 1).groupLanes 19 3, (dark 1).inService 19 n = true) ∧
    (∀ n ∈ (al 2).groupLanes 19 3, ((al 2).setParser 19 31 { marked := true }).parser 19 n = { marked := true }) ∧
    (∃ n ∈ (al 2).groupLanes 19 3, ((al 2).parser 19 n).marked = false) ∧
    ((dark 2).align 19 3 = 2 ∧ (dark 3).align 19 3 = 3) := by decide +kernel

end Sys2Proof.Tests
end

