-- ==== Sys2Proof/Tests/WitLanding.lean ====
section
/-! SUPPORT. Witnesses of the statements about the schedule, courses, replay and calibration windows. -/

namespace Sys2Proof.Tests

open Sys2Proof.Machine

set_option Elab.async false

/-- Quay 19 lands and is the job's only slipway; the job is armed and has started. -/
def armedJob (l : List (Nat × Fld × Nat)) : State :=
  { grouped ([(kJob, jst_job_state, ARMED), (kJob, jst_started, 1), (key (0x2200 + 19) 1, quay_land_enable, 1)] ++ l) with
    clk := 1000, job := { slips := [19], period := 1000, fper := 1000 } }

/-- A frame ready on group 3 of quay 19; a job that replays and has read its first course; its s0 leaves the pin a delay. -/
theorem wit_ScheduleBindsAndSlotsAreEntered_bind :
    let f : ReadyFrame := { frame := 2 ^ 48 - 1, ready := 1000, reason := 0, counted := false, flags := 0, data := [] }
    let s := (armedJob [(key 0x2800 1, dec_latency_l, 60000)]).setGroup 19 3 { ready := [f] }
    let r := { armedJob [(key 0x22F0 1, lndg_replay_enable, 1), (key 0x2800 1, dec_latency_l, 60000)] with
      land := { replay := [(19, { reads := 1, read := [(0, 990)] })] } }
    let ready := fun (q : Nat) => (s.readyOn ((s.usedGroups q).map (fun g => 4 * q + g)) (2 ^ 48 - 1)).getD 0
    let read := fun (q : Nat) => (((r.replay q).read.find? (fun e => e.1 == 0)).map (fun e => e.2)).getD r.clk
    let close := s.fld (key 0x2800 1) dec_ridge_close
    (s.awaiting = true ∧ s.moored = false ∧ s.replaying = false ∧ s.bindFrame = some (2 ^ 48 - 1) ∧
      mget none s.dec.tags (2 ^ 48 - 1) = none ∧ 0 ≤ (s.clk : Int) + 60000 - (s.bindStart ready + close : Nat) - 22) ∧
    (r.awaiting = true ∧ r.moored = false ∧ r.replaying = true ∧ r.slipQuays = [19] ∧ 0 < (r.replay 19).reads ∧
      0 ≤ ((r.bindStart read + (r.slipQuays.map r.entryOffset).foldl min 65535 : Nat) : Int) -
        (r.fld (key 0x22F0 1) lndg_entry_margin + 16 : Nat) - 22 + (60000 : Nat) - (r.bindStart read + close : Nat) - 22) := by decide +kernel

/-- Slot 1 of a running schedule, with its frame there and with nothing there; a sample in each range; a beat of 4-bit codes. -/
theorem wit_ScheduleBindsAndSlotsAreEntered_slots :
    let f : ReadyFrame := { frame := 1, ready := 900, reason := 0, counted := false, flags := 0, data := [] }
    let base := put (armedJob []) [(kJob, jst_job_state, RUNNING)]
    let off := base.entryOffset 19
    let s := { base with clk := 1000 + off, job := { base.job with bound := true } }
    let u := s.setGroup 19 3 { wait := [f] }
    let reason := fun (x : State) => lowReason ((if x.admits 1 then 0 else 10) ::
      ((x.usedGroups 19).map (x.slotGroup 19 1)).map (fun g => g.reason))
    let v := fun (x : Int) => roundTa (x - (BitVec.ofNat 16 (s.fld (kConv 19 3) conv_in_offset)).toInt) (2 ^ s.fld (kConv 19 3) conv_in_shift) + s.quayZp 19
    (quayOk s.grade 19 = true ∧ s.job.bound = true ∧ s.slipQuays = [19] ∧ s.clk = s.job.s0 + s.entryOffset 19 + 1 * s.F ∧
      s.released 19 ≤ 1 ∧ s.replaying = false ∧ s.gridRuns = true ∧ s.moored = false) ∧
    (let a := put s [(kAvg 19, avg_avg_enable, 1), (kAvg 19, avg_avg_log2, 1)]
     let w : AvgWait := { n := 1, q := 19, samples := [-1, 5] }
     let b := { a with land := { a.land with avgN := [(19, 1)], avgWait := [w], released := [(19, 2)] } }
     a.flag (kAvg 19) avg_avg_enable = true ∧ s.flag (kAvg 19) avg_avg_enable = false ∧
     mget 0 a.land.avgN 19 + 1 < 2 ^ a.fld (kAvg 19) avg_avg_log2 ∧ 2 ^ b.fld (kAvg 19) avg_avg_log2 ≤ mget 0 b.land.avgN 19 + 1 ∧
     b.cap.reqs.length < 256 ∧ (∀ q ∈ b.slipQuays, 1 < b.released q) ∧ ¬ (∀ q ∈ s.slipQuays, 1 < s.released q) ∧ b.frameVoid 1 = false ∧
     ({ b with dec := { voids := [(1, some true)] } } : State).frameVoid 1 = true ∧
     b.land.avgWait.filter (fun w => w.n == 1) = [w] ∧ w.q < 20) ∧
    (reason s ≠ 0 ∧ reason u = 0) ∧
    ((fmtRange (s.quayFmt 19)).1 ≤ v 1 ∧ v 1 ≤ (fmtRange (s.quayFmt 19)).2 ∧ v (-100000) < (fmtRange (s.quayFmt 19)).1 ∧
      (fmtRange (s.quayFmt 19)).2 < v 100000) ∧
    (1023 < 1024 ∧ (∀ y ∈ [3, 15], y < 2 ^ 4) ∧ 8 < 2 ^ 4) := by decide +kernel

/-- Frame 5 of quay 19 has closed, with its group not landed; and a course that landed. -/
theorem wit_CourseHeadersAreWritten :
    let c : Course := { frame := 5, addr := hbmBase 1, close := 1000, stamp := some 7 }
    let s := { putEnt (armedJob ((List.range 5).map (fun i => (key (0x27A5 + i) 1, munit_in_service, 1)))) [(key (0x2780 + 19) 2, 64), (key 0x2771 2, 2 ^ 20)] with
      land := { courses := [(19, [c])] } }
    quayOk s.grade 19 = true ∧ s.ringOn 19 = true ∧ (s.courses 19).find? (fun c => c.frame == 5) = some c ∧
    s.courseClosed 19 c = true ∧ s.cap.reqs = [] ∧ s.usedGroups 19 = [3] ∧ (∀ e ∈ c.groups, e.1 ≠ 3) ∧
    0 < s.laneCount 19 3 * s.blocksPer 19 3 * 8 := by decide +kernel

/-- The next course is in time, and late; at the end of the segment with replay_loop. -/
theorem wit_ReplayReadsCourses :
    let s := putEnt (armedJob [(key 0x22F0 1, lndg_replay_enable, 1)]) [(key (0x2780 + 19) 5, 2)]
    let late := s.setReplay 19 { reads := 1, late := [(1, 9)] }
    let ended := (put s [(key 0x22F0 1, lndg_replay_loop, 1)]).setReplay 19 { reads := 2 }
    let at_ := s.replayPtr 19 (0 % max 1 (s.replayCount 19))
    let bad := { s with tend := { badMem := [(at_ + 63) / 64] } }
    quayOk s.grade 19 = true ∧ s.replaying = true ∧ s.slipQuays = [19] ∧ s.active = true ∧
    (s.firstBad at_ (s.courseSize 19) = none ∧ bad.firstBad at_ (bad.courseSize 19) = some (64 * ((at_ + 63) / 64))) ∧
    (late.firstBad (late.replayPtr 19 (1 % max 1 (late.replayCount 19))) (late.courseSize 19) = none) ∧
    ((s.replay 19).reads < s.replayCount 19 ∧ (s.replay 19).late = []) ∧
    ((late.replay 19).reads < late.replayCount 19 ∧ (late.replay 19).late = [((late.replay 19).reads, 9)]) ∧
    (ended.flag (key 0x22F0 1) lndg_replay_loop = true ∧ (ended.replay 19).late = []) := by decide +kernel

/-- The first window of layer 255 ends, at its threshold, below it, and with no threshold; an event of each kind waits. -/
theorem wit_CalibrationWindowsAndEvents :
    let s0 := put (armedJob []) [(key (0x2400 + 255) 3, cwin_window, 2), (key (0x2400 + 255) 3, cwin_threshold, 4),
      (key 0x2500 1, cglb_cal_events_enable, 1)]
    let s := { s0 with clk := 2000, job := { s0.job with bound := true, layerWin := [(1023, 4)] } }
    let low := { s with job := { s.job with layerWin := [] } }
    let off := put s [(key 0x2500 1, cglb_cal_events_enable, 0)]
    let n := fun (u : State) => mget 0 u.job.layerWin 1023
    let ev : CalEvent := ⟨255, 3, 0, 0, 4, 4⟩
    (s.job.bound = true ∧ 1 ≤ s.fld (key (0x2400 + 255) 3) cwin_window ∧
      s.clk = s.job.s0 + (0 + 1) * (s.fld (key (0x2400 + 255) 3) cwin_window * s.F) ∧ mget 0 s.job.winNext 1023 ≤ 0) ∧
    (s.flag (key 0x2500 1) cglb_cal_events_enable = true ∧ s.fld (key (0x2400 + 255) 3) cwin_threshold ≠ 0 ∧
      s.fld (key (0x2400 + 255) 3) cwin_threshold ≤ n s) ∧
    n low < low.fld (key (0x2400 + 255) 3) cwin_threshold ∧ off.flag (key 0x2500 1) cglb_cal_events_enable = false ∧
    ({ s with job := { s.job with calQ := [ev] } } : State).job.calQ = ev :: [] ∧ ev.layer = 255 ∧ ev.kind = 3 ∧
    s.job.calQ = [] ∧
    (let l := [(4 * 0 + 1, 5), (4 * 255 + 3, 2 ^ 48)]
     (l.map Prod.fst).Pairwise (· < ·) ∧ (1023, 2 ^ 48) ∈ l ∧ (1, 5) ∈ l) := by decide +kernel

end Sys2Proof.Tests
end

