-- ==== Sys2Proof/Tests/WitCapture.lean ====
section
/-! SUPPORT. Witnesses of the statements about capture. -/

namespace Sys2Proof.Tests

open Sys2Proof.Machine

set_option Elab.async false

/-- A running job of quay 19 with the capture part as given; its courses have 192 bytes. -/
def withCap (c : Cap) : State :=
  let s := put (armedJob []) [(kJob, jst_job_state, RUNNING)]
  { putEnt s [(key (0x2780 + 19) 2, 64)] with cap := c, job := { s.job with bound := true } }

/-- A request for frame 0 of quay 19. -/
def req (w : Bool) (stage : Nat) : Req :=
  { seq := 7, origin := 1, frame := 0, accept := 0, raw := 0, pre := 0, post := 0, mask := 2 ^ 19, link := true, window := w,
    doubt := false, stage := stage }

/-- A mask of one quay that lands; no job; a quay that does not land; a full queue; a die all of whose tenders are the grid's. -/
theorem wit_HostCaptureFormsRequests :
    let s := withCap {}
    let full := withCap { reqs := List.replicate 256 (req false 0) }
    let grid := putEnt s [(kGridT, 2 ^ 16 - 1)]
    let lands := fun (u : State) (m : Nat) => ∀ q, q < 20 → m / 2 ^ q % 2 = 1 → u.landOn q = true
    (s.jobState = RUNNING ∧ lands s (2 ^ 19) ∧ (∀ q, q < 20 → 2 ^ 19 / 2 ^ q % 2 = 1 → s.dieAllGrid (quayDie q) = false) ∧
      s.cap.reqs.length < 256) ∧
    ¬ (State.reset.jobState = RUNNING ∨ State.reset.jobState = PAUSED) ∧ ¬ lands s 1 ∧
    (∀ q ∈ s.slipQuays, ({ s with clk := 1001 } : State).releaseSlot q = { s with clk := 1001 }) ∧
    (full.jobState = RUNNING ∧ lands full (2 ^ 19) ∧ 256 ≤ full.cap.reqs.length) ∧
    ¬ (∀ q, q < 20 → 2 ^ 19 / 2 ^ q % 2 = 1 → grid.dieAllGrid (quayDie q) = false) := by
  refine ⟨⟨?_, ?_, ?_, ?_⟩, ?_, ?_, ?_, ⟨?_, ?_, ?_⟩, ?_⟩ <;> decide +kernel

/-- The last of 128 bytes that make a course header of frame 0. -/
def headed (s : State) : State := s.write (s.slotPtr 19 0) (sealHeader 0)

/-- A request that fits its ring and one that does not, windows with and without a buffer, a copy and a reread under way in each
condition, a fragment whose time is over. -/
theorem wit_FragmentsAreCopiedAndReread :
    let ring : Ring := { size := 4096 }
    let s := withCap { reqs := [req false 0], link := ring }
    let no := withCap { reqs := [req false 0] }
    let w := put (withCap { reqs := [req true 0] }) [(key 0x2900 7, wbuf_window_buffers, 1)]
    let copy : DescRec := { seq := 0, word := 0, source := 1, frag := some (0, 0) }
    let busy := fun (c : Cap) => { withCap { c with link := ring } with tend := { t := [(15, { queue := [copy] })] } }
    let x := { req false 1 with busy := [(0, 15)] }
    let y := { req false 6 with busy := [(0, 15)] }
    let here := fun (s : State) (r : Req) (e : Nat × Nat) => e.1 == 0 && s.copyStarted r.id 0 e.2
    let heads := fun (s : State) (r : Req) =>
      (s.cap.reqs ++ s.cap.aborted).find? (fun z => z.seq == 7 && z.stage != 4 && z.busy.any (here s z)) = some r ∧
        r.busy.find? (here s r) = some (0, 15)
    let re := fun (ok : Bool) (retry : Nat) =>
      { req false 1 with offset := some 0, reread := [(0, ok, 999)], retry := retry }
    let reading := fun (r : Req) => headed { withCap { reqs := [r], link := ring } with rst := { ddrZero := true } }
    let whole := (reading (re true 0)).ddrWrite (256 + 64) (sealHeader 0)
    let late := { withCap { reqs := [req false 1] } with clk := 64000 + (withCap {}).entryOffset 19 }
    let zero := fun (r : Req) => s.cap.reqs.find? (fun r => r.stage == 0) = some r
    (zero (req false 0) ∧ (s.ringOf true).fits (s.recordBytes (req false 0)) = true ∧ 0 < (req false 0).count) ∧
    (no.ringOf true).fits (no.recordBytes (req false 0)) = false ∧
    (w.freeBuffer = some 0 ∧ (withCap { reqs := [req true 0] }).freeBuffer = none) ∧
    ((req true 0).window = true ∧ ({ req false 0 with mask := 0 } : Req).count = 0) ∧
    (let t := (s.nextTender (quayDie ((req false 1).fragment 0).2)).getD 99
     let v := putEnt s [(key 0x2771 2, 4096)]
     s.nextTender (quayDie ((req true 1).fragment 0).2) = some t ∧ s.tenderFull t = false ∧
       s.copyRefused t (s.fragDesc (req true 1) 0 t) = false ∧ v.nextTender (quayDie ((req true 1).fragment 0).2) = some t ∧
       v.tenderFull t = false ∧ v.copyRefused t (v.fragDesc (req true 1) 0 t) = true ∧
       (put s [(kTend t, tend_outstanding, 2048)]).tenderFull t = true) ∧
    (heads (busy { reqs := [x] }) x ∧ x.origin ≠ 2 ∧ bit x.retry 0 = false) ∧
    (heads (busy { aborted := [y] }) y ∧ y.busy.filter (fun e => e.1 != 0) = []) ∧
    (heads (busy { reqs := [{ x with retry := 1 }] }) { x with retry := 1 } ∧ bit ({ x with retry := 1 } : Req).retry 0 = true) ∧
    ((re true 0).reread.find? (fun e => e.1 == 0 && decide (e.2.2 < s.clk)) = some (0, true, 999)) ∧
    (∀ e ∈ ({ req false 1 with reread := [(0, true, 1000)] } : Req).reread, e.1 = 0 → s.clk ≤ e.2.2) ∧
    ((reading (re true 0)).findReq 7 = some (re true 0) ∧ (re true 0).fragment 0 = (0, 19) ∧
      (reading (re true 0)).headerAt ((reading (re true 0)).slotPtr 19 0) = some 0) ∧
    (whole.headerAt (whole.slotPtr 19 0) = some 0 ∧
      readBytes whole.mem (whole.slotPtr 19 0) 128 = whole.copiedHeader (re true 0) 0) ∧
    ((reading (re false 0)).headerAt ((reading (re false 0)).slotPtr 19 0) = some 0 ∧ bit (re false 0).retry 0 = false ∧
      bit (re false 1).retry 0 = true) ∧
    ((withCap {}).headerAt ((withCap {}).slotPtr 19 0) ≠ some 0) ∧
    (late.findReq 7 = some (req false 1) ∧ 0 < (req false 1).count ∧ bit (req false 1).issued 0 = false ∧ late.job.bound = true ∧
      (late.job.s0 : Int) + late.entryOffset 19 + (frameIndex late.job.n0 0 + 64) * late.F ≤ late.clk ∧ late.fragReady 0 19 = false) := by
  refine ⟨?_, ?_, ?_, ?_, ?_, ?_, ?_, ?_, ?_, ?_, ?_, ?_, ?_, ?_, ?_⟩ <;> decide +kernel

/-- A terminal record alone in each ring; a notice that is due by bytes and by time, and one that is not; a record on an egress
bundle; a consumer that may be written and one that may not. -/
theorem wit_EgressRingsDeliverRecords :
    let e : Resv := { off := 0, len := 320, seq := some 7, term := some (1, 1, 64) }
    let s := { withCap { host := { size := 4096, resv := [e] }, link := { size := 4096, resv := [e] } } with rst := { ddrZero := true } }
    let note := fun (n c : Nat) => put { withCap { notified := n, firstUnnotified := some c } with clk := 10000 }
      [(key 0x2F20 1, hlc_notify_bytes, 4096), (key 0x2F20 1, hlc_notify_us, 8)]
    let out := put { withCap { link := { size := 4096, unsent := [e] } } with dec := { driven := true } } ((key 0x2D10 1, bun_role, 2) ::
      (List.range 4).flatMap (fun c => [(kLstat 20 c, lstat_bringup_state, 8), (key 0x21B0 (1 + c), txc_tx_enable, 1)]))
    let g : Ring := { size := 4096, producer := 320 }
    let ok := fun (v : Nat) => v % 64 = 0 ∧ v < max 1 g.size ∧
      (v + g.size - g.consumer) % max 1 g.size ≤ (g.producer + g.size - g.consumer) % max 1 g.size
    (s.cap.host.resv = [e] ∧ e.term = some (1, 1, 64) ∧ e.done = false ∧ e.seq ≠ none ∧ s.rst.ddrZero = true) ∧
    s.cap.link.resv = [e] ∧
    ((note 4096 9999).fld (key 0x2F20 1) hlc_notify_bytes ≤ (note 4096 9999).cap.notified) ∧
    (0 + (note 1 0).fld (key 0x2F20 1) hlc_notify_us * 1250 ≤ (note 1 0).clk) ∧
    ((note 1 1).cap.notified < (note 1 1).fld (key 0x2F20 1) hlc_notify_bytes ∧
      (note 1 1).clk < 1 + (note 1 1).fld (key 0x2F20 1) hlc_notify_us * 1250) ∧
    (e.seq = some 7 ∧ out.cap.link.unsent = [] ++ e :: [] ∧ out.egressBundles ≠ []) ∧ ok 320 ∧ ¬ ok 384 ∧
    (let x : Resv := { off := 640, len := 320, seq := some 8 }
     let pad : Resv := { off := 320, len := 320, seq := none, done := true }
     let q := withCap { host := { size := 4096, resv := [{ e with done := true }, pad] ++ x :: [] } }
     (q.ringOf false).resv = [{ e with done := true }, pad] ++ x :: [] ∧ (∀ y ∈ [{ e with done := true }, pad], y.done = true) ∧
     x.done = false ∧ (∀ y ∈ [x], y.term = none ∨ y.done = true) ∧ x.off ≠ e.off ∧ x.term = none) ∧
    (let r := req false 0
     let w := fun (size next consumer : Nat) =>
       { withCap { link := { size := size, next := next, consumer := consumer } } with rst := { ddrZero := true } }
     let n := (w 4096 0 0).recordBytes r
     r.offset = none ∧ r.link = true ∧ ((w 4096 0 0).ringOf true).fits n = true ∧ n ≤ 4096 - 0 ∧
     ((w 4096 3968 3968).ringOf true).fits n = true ∧ 4096 - 3968 < n ∧ 4096 - 3968 < 256 ∧
     ((w 4096 3840 3840).ringOf true).fits n = true ∧ 4096 - 3840 < n ∧ 256 ≤ 4096 - 3840 ∧ ((w 256 0 0).ringOf true).fits n = false) := by
  refine ⟨?_, ?_, ?_, ?_, ?_, ?_, ?_, ?_, ?_, ?_⟩ <;> decide +kernel

/-- Slot 1 binds in this clk, with a window that is whole and one that is not; marks for a slot in time, judged before, and after
its verdict clk; a deadline for a dropped window and for one without a verdict; a kept window with its reservation. -/
theorem wit_WindowSlotsBindAndJudge :
    let base := fun (c : Cap) => put (withCap c) [(kWslot, wslot_slot_length, 1000), (kWslot, wslot_verdict_offset, 0)]
    let lead := (base {}).fld kWslot wslot_window_lead
    let off := (base {}).fld kWslot wslot_window_offset
    let bindAt := fun (r : Req) => { base { reqs := [r] } with clk := off + 1000 * (lead + 1) - lead }
    let mk : MarkRec := { arrive := off + 1000, tile := 103, addr := 0, frame := 1, score := 0, value := 1, window := true }
    let judge := fun (r : Req) (v : List Nat) (c : Nat) =>
      { base { reqs := [r], slots := [(1, some 7)], verdicts := v } with clk := c, dec := { marks := [{ mk with arrive := c }] } }
    let b := { req true 3 with slot := 1 }
    let t := judge b [] (off + 1000)
    (∀ r ∈ [req true 2, req true 1], (bindAt r).job.bound = true ∧ (bindAt r).active = true ∧
      (bindAt r).clk + (bindAt r).fld kWslot wslot_window_lead = (bindAt r).job.s0 + off + (lead + 1) * 1000 ∧
      (bindAt r).cap.nextSlot ≤ lead + 1 ∧ (bindAt r).cap.reqs.find? (fun r => r.window && decide (r.stage < 3)) = some r) ∧
    (tileOk t.grade 103 = true ∧ t.dec.marks.find? (fun m => m.arrive == t.clk && m.window && m.tile == 103) = some mk ∧
      mget none t.cap.slots 1 = some 7 ∧ t.findReq 7 = some b ∧ 1 ∉ t.cap.verdicts ∧ t.clk ≤ t.verdictClk 1 ∧ 0 < mk.value) ∧
    1 ∈ (judge b [1] (off + 1000)).cap.verdicts ∧ (judge b [] (off + 1001)).verdictClk 1 < (judge b [] (off + 1001)).clk ∧
    ((judge b [] (off + 1000)).verdictComes 1 = true ∧ ({ t with dec := {} } : State).verdictComes 1 = false) ∧
    (let a := { req true 4 with offset := some 0 }
     (withCap { aborted := [a] }).findReq 7 = none ∧
       (withCap { aborted := [a] }).cap.aborted.find? (fun x => x.seq == 7 && x.stage == 4) = some a) ∧
    (b.slot = 1 ∧ t.verdictClk 1 ≤ t.clk ∧ b.stage = 3 ∧ (judge { b with stage := 5 } [1] (off + 1000)).findReq 7 = some { b with stage := 5 }) ∧
    (let k := { req true 4 with offset := some 0, issued := 1, busy := [(0, 15)] }
     let s := fun (l : List DescRec) => { withCap { reqs := [k] } with tend := { t := [(15, { queue := l })] } }
     let d : DescRec := { seq := 0, word := 0, source := 1, frag := some (0, 0) }
     (s [d]).findReq 7 = some k ∧ (s [d]).windowStarted k = true ∧ (s []).windowStarted k = false) := by
  refine ⟨?_, ?_, ?_, ?_, ?_, ?_, ?_, ?_⟩ <;> decide +kernel

/-- Requests without a reservation, with one and no copy, with one and a copy under way, with a copy that waits; one abort of a clk. -/
theorem wit_AbortAndRearm :
    (req false 0).offset = none ∧ (req false 0).busy = [] ∧ (req false 1).stage ≠ 4 ∧
    (withCap { aborts := [(7, false, true)] }).cap.aborts = [(7, false, true)] ∧
    (let d := fun (f : Option (Nat × Nat)) => ({ seq := 0, word := 0, source := 1, frag := f } : DescRec)
     let s := fun (l : List DescRec) => { withCap {} with tend := { t := [(15, { queue := l })] } }
     (s [d (some (0, 0))]).copyStarted 0 0 15 = true ∧ (s [d none, d (some (0, 0))]).copyStarted 0 0 15 = false) ∧
    ({ req false 1 with offset := some 0 } : Req).offset = some 0 ∧ ({ req false 1 with busy := [(0, 15)] } : Req).busy ≠ [] := by
  decide +kernel

end Sys2Proof.Tests
end

