-- ==== Sys2Proof/Tests/WitDecision.lean ====
section
/-! SUPPORT. Witnesses of the statements about the decision path. -/

namespace Sys2Proof.Tests

open Sys2Proof.Machine

set_option Elab.async false

/-- `running` with the decision path as given. -/
def withDec (d : Dec) : State := { running with dec := d }

/-- Two marks that clash; a mark alone, of a frame before N0, with no schedule, of a void frame, late, too far ahead, a second
one, and the first one. -/
theorem wit_MarksAreSortedAtTheRidge :
    let m := fun (t f : Nat) => ({ arrive := 100, tile := t, addr := 0, frame := f, score := 1023, value := -1, window := false } : MarkRec)
    let s := withDec { marks := [m 0 1, m 103 1] }
    let one := fun (f : Nat) => withDec { marks := [m 0 f] }
    let late := put (one 0) [(key 0x2800 1, dec_ridge_close, 50)]
    let early := put (one 63) [(key 0x2800 1, dec_ridge_close, 500)]
    let far := put (one 64) [(key 0x2800 1, dec_ridge_close, 500)]
    let again := { early with dec := { early.dec with scores := [(1024 * 63 + 1023, some 4)] } }
    let void := { one 0 with dec := { (one 0).dec with voids := [(0, some true)] } }
    let due := fun (u : State) => u.dec.marks.find? (fun x => u.markDue x && x.tile == 0)
    (tileOk s.grade 0 = true ∧ due s = some (m 0 1) ∧
      s.dec.marks.filter (fun y => s.markDue y && y.score == 1023 && y.tile != 0) = [m 103 1]) ∧
    (due (one (2 ^ 48 - 1)) = some (m 0 (2 ^ 48 - 1)) ∧ frameIndex 0 (2 ^ 48 - 1) < 0 ∧ (one 1).job.bound = true ∧ (one 1).running = true ∧
      ∀ x ∈ (one 1).dec.marks, ¬ ((one 1).markDue x = true ∧ x.tile ≠ 0 ∧ x.score = 1023)) ∧
    (due void = some (m 0 0) ∧ void.frameVoid 0 = true ∧ void.job.s0 + 0 * void.F + void.E + 7 ≤ void.clk) ∧
    (due late = some (m 0 0) ∧ late.frameVoid 0 = false ∧ late.job.s0 + 0 * late.F + late.fld (key 0x2800 1) dec_ridge_close ≤ late.clk) ∧
    (due far = some (m 0 64) ∧ far.nextFrame + 64 ≤ 64 ∧ far.clk < far.job.s0 + 64 * far.F + far.fld (key 0x2800 1) dec_ridge_close) ∧
    (63 < early.nextFrame + 64 ∧ early.frameVoid 63 = false ∧ mget none again.dec.scores (1024 * 63 + 1023) = some 4 ∧
      mget none early.dec.scores (1024 * 63 + 1023) = none) := by decide +kernel

/-- The clk e0(0) of a frame with its tag and of a void one; seed 255 enabled. -/
theorem wit_RidgeEvaluatesEveryFrame :
    let s := { put running [(key 0x2800 1, dec_ridge_close, 100)] with dec := { tags := [(0, some (90, 90, 0))] } }
    let v := { s with dec := { s.dec with voids := [(0, some true)] } }
    (s.job.bound = true ∧ s.clk = s.job.s0 + s.fld (key 0x2800 1) dec_ridge_close + 0 * s.F ∧ s.dec.nextEval ≤ 0) ∧
    (v.frameVoid 0 = true ∧ v.clk = v.job.s0 + v.fld (key 0x2800 1) dec_ridge_close + 0 * v.F) ∧
    (s.frameVoid 0 = false ∧ s.running = true ∧ mget none s.dec.tags ((s.job.n0 + 0) % 2 ^ 48) = some (90, 90, 0)) := by decide +kernel

/-- A record with delay 0; one that leaves in this clk, forced and not, with a message; pulses that end now, the last still low. -/
theorem wit_DecisionsLeaveThroughPinAndFlashing :
    let r : PinRec := { n := 0, frame := 2 ^ 48 - 1, out := 100, d := 0, accept := 129, raw := 255, void := false, marks := 8 }
    let s := put (withDec { pin := [r], pulses := [(0, some (90, 100)), (11, some (90, 105))] })
      [(key 0x2800 3, outc_accept_msg_enable, 1), (kFlsh, flsh_forcing, 0)]
    let u := put s [(kFlsh, flsh_forcing, 1)]
    0 ≤ r.d ∧ s.dec.pin.find? (fun r => r.out == s.clk) = some r ∧ s.dec.leaving = none ∧
    (let v : State := { s with dec := { s.dec with leaving := some r } }
     v.dec.leaving = some r ∧ v.dec.leaving ≠ none ∧ v.jobState = RUNNING) ∧
    (s.flag kFlsh flsh_forcing || decide (r.out < s.dec.forceEnd + 6)) = false ∧
    (u.flag kFlsh flsh_forcing || decide (r.out < u.dec.forceEnd + 6)) = true ∧
    (s.flag (key 0x2800 3) outc_accept_msg_enable = true ∧ s.jobState = RUNNING ∧ r.frame < 2 ^ 48 ∧ r.accept < 2 ^ 8 ∧ r.raw < 2 ^ 8) ∧
    (mget none s.dec.pulses 0 = some (90, 100) ∧ 100 ≤ s.clk) ∧ mget none s.dec.pulses 11 = some (90, 105) ∧
    (let classes := fun (t : State) => (List.range 8).filter (fun c => bit r.accept c && t.flag (key (0x2910 + c) 1) ccap_capture_enable)
     let own := put running [(key 0x2910 1, ccap_capture_enable, 1), (key 0x2917 1, ccap_capture_enable, 1)]
     let q : Req := { seq := 0, origin := 2, frame := 0, accept := 0, raw := 0, pre := 0, post := 0, mask := 0, link := false, window := false, doubt := false }
     let full := { own with cap := { reqs := List.replicate 256 q } }
     classes running = [] ∧ classes own = [0, 7] ∧ own.running = true ∧ own.flag (key 0x2900 2) caps_frozen = false ∧
     own.cap.reqs.length < 256 ∧ 256 ≤ full.cap.reqs.length ∧ own.berthSize ≤ 1 ∧ own.inHarbour = false ∧ own.active = true ∧
     (let b := put own [(key 0x2D00 1, bctl_berth_size, 32), (key 0x2D00 1, bctl_berth_capture, 1)]
      b.flag (key 0x2D00 1) bctl_berth_capture = true ∧ 1 < b.berthSize ∧ b.inHarbour = false ∧ b.running = true ∧ b.berthBundle 30 = true) ∧
     [r].filter (fun y => y.out == own.clk) = [r] ∧ own.dec.decided = [] ∧ (-1 : Int) < 0) := by decide +kernel

/-- No forcing and forcing; one doubt of two that clears, the last one that clears; a hold that ends now, that has time left,
and that a doubt keeps. -/
theorem wit_DoubtForcesUntilReleaseHoldEnds :
    let d := fun (u : State) => u.fld kFlsh flsh_doubt % 256
    let s := { put running [(kFlsh, flsh_forcing, 0), (kFlsh, flsh_doubt, 0)] with dec := { driven := true, holdEnd := some 100 } }
    let two := put s [(kFlsh, flsh_doubt, 129)]
    let one := put s [(kFlsh, flsh_doubt, 128)]
    let left := { s with dec := { s.dec with holdEnd := some 101 } }
    (∀ k ∈ [2, 3, 5, 6], s.doubtHolds k = true) ∧ (s.doubtHolds 0 = false ∧ State.reset.doubtHolds 0 = true) ∧
    (s.fld kFlsh flsh_forcing = 0 ∧ s.dec.driven = true) ∧ (d two / 2 ^ 7 % 2 = 1 ∧ d two ≠ 2 ^ 7) ∧ d one = 2 ^ 7 ∧
    (s.dec.holdEnd = some 100 ∧ 100 ≤ s.clk ∧ d s = 0) ∧ (left.dec.holdEnd = some 101 ∧ left.clk < 101) ∧
    (one.dec.holdEnd = some 100 ∧ d one ≠ 0) := by decide +kernel

/-- A cause of HOLDOFF, and none with the release due, and not yet due. -/
theorem wit_HoldoffFollowsItsCauses :
    let h := fun (u : State) => u.jobState ≠ RUNNING ∨ u.fld kJob jst_pause_pending = 1 ∨ u.fld kFlsh flsh_forcing = 1 ∨
      u.fld (key 0x2900 2) caps_hold_capture = 1 ∨ u.fld (key 0x2800 3) outc_holdoff_force = 1
    let s := put running [(kFlsh, flsh_forcing, 0), (kFlsh, flsh_holdoff_now, 1), (key 0x2800 3, outc_holdoff_release, 10)]
    let due := { s with dec := { holdClear := some 90 } }
    let wait := { s with dec := { holdClear := some 91 } }
    h State.reset ∧ (¬ h s ∧ s.dec.holdClear = none) ∧
    (due.dec.holdClear = some 90 ∧ ¬ h due ∧ due.fld kFlsh flsh_holdoff_now = 1 ∧
      90 + due.fld (key 0x2800 3) outc_holdoff_release ≤ due.clk) ∧
    (wait.dec.holdClear = some 91 ∧ ¬ h wait ∧ wait.clk < 91 + wait.fld (key 0x2800 3) outc_holdoff_release) := by
  refine ⟨?_, ⟨?_, ?_⟩, ⟨?_, ?_, ?_, ?_⟩, ?_, ?_, ?_⟩ <;> decide +kernel

/-- The menu image does not read the CRC word beside it. -/
theorem menuImage_setEnt (s : State) (v : Nat) : (s.setEnt kMenuCrc v).menuImage = s.menuImage := by
  have h : ∀ d, d < 256 → ∀ sub, sub < 256 → (s.setEnt kMenuCrc v).ent (key (0x2A00 + d) sub) = s.ent (key (0x2A00 + d) sub) := by
    intro d hd sub hs
    refine State.setEnt_ent_other s _ _ _ ?_
    unfold kMenuCrc key
    omega
  unfold State.menuImage
  refine congrArg List.flatten (List.map_congr_left ?_)
  intro d hd
  have hd : d < 256 := List.mem_range.mp hd
  simp [List.range, List.range.loop, h d hd]

/-- An armed job whose menu CRC is that of its menu, and one whose is not. -/
theorem wit_MenuChecksGuardTheMenu :
    let s := running.setEnt kMenuCrc (crc32c running.menuImage)
    let u := running.setEnt kMenuCrc (crc32c running.menuImage + 1)
    s.active = true ∧ u.active = true ∧ crc32c s.menuImage = s.ent kMenuCrc ∧ crc32c u.menuImage ≠ u.ent kMenuCrc := by
  have a : ∀ v, (running.setEnt kMenuCrc v).active = running.active := by
    intro v
    unfold State.active State.jobState State.fld
    rw [State.setEnt_ent_other _ _ _ _ (by decide)]
  refine ⟨?_, ?_, ?_, ?_⟩
  · rw [a]; decide +kernel
  · rw [a]; decide +kernel
  · rw [menuImage_setEnt, State.setEnt_ent_same]
  · rw [menuImage_setEnt, State.setEnt_ent_same]; omega

end Sys2Proof.Tests
end

