-- ==== Sys2Proof/Tests/WitDict.lean ====
section
/-! SUPPORT. Witnesses of the statements about the dictionary, the host link and the field network. -/

namespace Sys2Proof.Tests

open Sys2Proof.Machine

set_option Elab.async false

/-- A module that serves its dictionary, with fields as given. -/
def serving (l : List (Nat × Fld × Nat)) : State := { put State.reset l with rst := { available := true } }

/-- The checks a write reaches, as R585 orders them, from the first: the entry, a size a slot takes, a field to write, the
length, the state, an action of its own, the value. -/
def checksOf (s : State) (p : Path) (i sub len v : Nat) : List Bool :=
  match findEntry i sub entries with
  | none => [false]
  | some e => [true, !(isSlot p && decide (64 < e.bytes)), decide (∃ f ∈ e.flds, f.acc ≠ Acc.ro), len == e.bytes,
      !(s.unserved i || s.featureRefuses p i sub v || s.plainState e i sub v false), !actsOnWrite i sub, !s.valueRefused e i sub v]

/-- A write that fails each check first, and one that passes all; a node that serves and one that is stopped. -/
theorem wit_DictionaryAccessesAreChecked :
    let s := serving []
    let run := serving [(kJob, jst_job_state, RUNNING)]
    let rec_ := serving [(kSst, sst_recovery, 1)]
    let v := s.ent (key 0x2D00 1)
    (hasIndex 0x27F0 && indexOk s.grade 0x27F0) = false ∧
    ((hasIndex 0x2800 && indexOk s.grade 0x2800) = true ∧ checksOf s .can 0x2800 9 8 0 = [false]) ∧
    ((hasIndex 0x3100 && indexOk s.grade 0x3100) = true ∧ subOk s.grade 0x3100 3 = true ∧
      (checksOf s (.slot 63) 0x3100 3 256 0).take 2 = [true, false]) ∧
    (indexOk s.grade 0x3200 = true ∧ subOk s.grade 0x3200 5 = true ∧ (checksOf s .can 0x3200 5 8 0).take 3 = [true, true, false]) ∧
    (hasIndex 0x2D00 = true ∧ indexOk s.grade 0x2D00 = true ∧ subOk s.grade 0x2D00 1 = true ∧
      (checksOf s .can 0x2D00 1 7 v).take 4 = [true, true, true, false]) ∧
    (checksOf run .can 0x2D00 1 8 (v + 1)).take 5 = [true, true, true, true, false] ∧
    (checksOf rec_ .can 0x2D00 1 8 v).take 5 = [true, true, true, true, false] ∧
    checksOf s .can 0x2D00 1 8 0 = [true, true, true, true, true, true, false] ∧
    checksOf s .can 0x2D00 1 8 v = [true, true, true, true, true, true, true] ∧
    checksOf run .can 0x2D00 1 8 v = [true, true, true, true, true, true, true] ∧ laneEntry 0x2D00 1 = none ∧
    s.canServes = true ∧ (s.unserved 0x2D00 = false ∧ rec_.unserved 0x2D00 = true) ∧
    (serving [(kCans, cans_nmt_state, 2)]).canServes = false := by decide +kernel

/-- Slot 63 takes a write and is refused one, reads, and comes before the dictionary is there; a hot register that takes a write and
one that refuses; a first latch; a write of two bytes that ends with the partition, and one a byte longer. -/
theorem wit_HostLinkReachesTheDictionary :
    let s := { putEnt (serving [(kHlc, hlc_aperture_target, 1)]) [(key 0x2F10 3, 2 ^ 64 - 1), (key 0x27E0 4, 2)] with
      ctl := { latched := true }, rst := { available := true, ddrZero := true } }
    let v := s.ent (key 0x2D00 1)
    let x := fun (n : Nat) => s.fld kHlc hlc_bar2_offset * 2 ^ 36 + n
    (63 < 64 ∧ s.rst.available = true ∧ State.reset.rst.available = false) ∧
    ((s.writeEntry (.slot 63) 0x2D00 1 8 v).2 = none ∧ (s.writeEntry (.slot 63) 0x2D00 1 7 v).2 = some 0x06070010) ∧
    ((match s.lookup 0x2D00 1 with
      | .ok e => decide (e.bytes ≤ 64)
      | .error _ => false) = true ∧ s.unserved 0x2D00 = false) ∧
    (hotEntry 0x1038 = some (0x2800, 4) ∧ hotEntry 0x1000 = some (0x2F00, 2) ∧
      (s.writeEntry .hot 0x2800 4 (entryBytes 0x2800 4) 0).2 = none ∧
      (s.writeEntry .hot 0x2F00 2 (entryBytes 0x2F00 2) 5).2 = some 0x06010002) ∧
    (hotEntry 0x1001 = none ∧ hotEntry 0x18 = none ∧ hotEntry (0x10000 + 256 * 63) = none ∧ hotEntry (0x80000 + 8 * 127) = none ∧
      (let w := 2 ^ 39 - 1 - 2 ^ 26 - 31 * 2 ^ 27
       slotReserved w = false ∧ w / 2 ^ 26 % 2 = 0) ∧ slotReserved (2 ^ 27) = true ∧ slotReserved (2 ^ 63) = true) ∧
    (s.rst.waitHost = false ∧ bits (2 ^ 24 - 1) 26 38 = 0 ∧ (2 ^ 24 - 1) / 2 ^ 24 % 2 = 0) ∧ ((serving []).rst.available = true ∧ (serving []).ctl.latched = false) ∧
    (s.fld kHlc hlc_aperture_target = 1 ∧ x 0 + 2 ≤ s.ent (key 0x27E0 4) ∧ 0 + 2 ≤ 2 ^ 36 ∧ s.rst.ddrZero = true ∧
      ¬ x 1 + 2 ≤ s.ent (key 0x27E0 4)) := by decide +kernel

/-- A node that is up, with heartbeats and without; a message that may leave and one still inhibited. -/
theorem wit_FieldNetworkNodeFollowsCommands :
    let s := serving []
    let q := { s with clk := 7, ctl := { canQ := [1, 2], canNext := 7 } }
    let lost := { q with clk := 6 }
    let told := { q with ctl := { q.ctl with lostUnsent := 3 } }
    s.canUp = true ∧ (putEnt s [(key 0x1017 0, 1)]).ent (key 0x1017 0) ≠ 0 ∧ (putEnt s [(key 0x1017 0, 0)]).ent (key 0x1017 0) = 0 ∧
    (q.ctl.canQ = [1, 2] ∧ q.canServes = true ∧ q.ctl.canNext ≤ q.clk ∧ q.ctl.lostUnsent = 0) ∧
    (told.ctl.canQ = [1, 2] ∧ told.canServes = true ∧ told.ctl.canNext ≤ told.clk ∧ 0 < told.ctl.lostUnsent ∧ [2].length < 32) ∧
    (lost.ctl.canQ = [1, 2] ∧ lost.clk < lost.ctl.canNext) ∧ s.rst.available = true ∧
    isStored (key 0x27E0 1) = true ∧ isStored (key 0x3030 1) = false := by decide +kernel

end Sys2Proof.Tests
end

