-- ==== Sys2Proof/Tests/WitJobs.lean ====
section
/-! SUPPORT. Witnesses of the statements about the job commands, saves and restarts. -/

namespace Sys2Proof.Tests

open Sys2Proof.Machine

set_option Elab.async false

/-! ### The CRC of the menu after reset, found seed by seed -/

/-- `n` steps, each value found before the next. -/
def repeated (f : Nat → Nat) : Nat → Nat → Nat
  | 0, c => c
  | n + 1, c => match f c with
    | 0 => repeated f n 0
    | c + 1 => repeated f n (c + 1)

theorem repeated_succ (f : Nat → Nat) (n c : Nat) : repeated f (n + 1) c = repeated f n (f c) := by
  rw [repeated]
  split <;> rename_i h <;> rw [h]

/-- A fold over parts that are all the same is a repeated step. -/
theorem fold_parts (g : Nat → Nat → Nat) (z : List Nat) (l : List Nat) (f : Nat → List Nat) (h : ∀ d ∈ l, f d = z) (c : Nat) :
    (l.flatMap f).foldl g c = repeated (z.foldl g) l.length c := by
  induction l generalizing c with
  | nil => rfl
  | cons d l ih =>
    rw [List.flatMap_cons, List.foldl_append, h d (by simp), List.length_cons, repeated_succ, ih (fun e he => h e (by simp [he]))]

theorem crc_seeds : repeated ((List.replicate 26 0 ++ [1] ++ List.replicate 5 0).foldl crc32cByte) 256 0xFFFFFFFF = 3003011481 := by decide +kernel

/-- The CRC of a menu whose words are all at their defaults. -/
theorem crc_of_menu (s : State) (h : ∀ d, d < 256 → ∀ i, i < 9 → s.ent (key (0x2A00 + d) (i + 1)) = if i = 8 then 65536 else 0) :
    crc32c s.menuImage = 1291955814 := by
  unfold crc32c State.menuImage
  rw [fold_parts crc32cByte (List.replicate 26 0 ++ [1] ++ List.replicate 5 0), List.length_range, crc_seeds]
  · rfl
  · intro d hd
    have hd : d < 256 := List.mem_range.mp hd
    have := h d hd
    simp [List.range, List.range.loop, this 0, this 1, this 2, this 3, this 4, this 5, this 6, this 7, this 8, leBytes,
      List.replicate]

/-- Memory that is up: DDR4 and every stack in service. -/
def memoryUp : List (Nat × Fld × Nat) :=
  [(kSst, sst_ddr_population_ok, 1), (kSst, sst_ddr_ready, 1), (key 0x27B0 1, munit_in_service, 1)] ++
    (List.range 10).map (fun i => (key (0x27A0 + i) 1, munit_in_service, 1))

/-- A job that may be armed: quay 0 lands one lane into a ring of 64 courses. -/
def armable (l : List (Nat × Fld × Nat)) : State :=
  { putEnt (put State.reset (memoryUp ++ [(kJob, jst_job_state, LOADED), (key 0x2200 1, quay_land_enable, 1),
      (key 0x2200 2, grp_lane_count, 1)] ++ l)) [(key 0x2780 2, 64), (key 0x2770 2, 64 * 192)] with
    rst := { available := true }, job := { period := 1000, fper := 1000 }, tend := { ddrPop := 1 } }

/-- What holds of a state with its menu CRC as a number holds of it. -/
theorem arm_with (s : State) (n : Nat) (b : Bool) (h : crc32c s.menuImage = n)
    (hd : s.jobState = LOADED ∧ s.jobOpen = true ∧ s.restartRuns = false ∧ (s.setEnt kMenuCrc n).armRefused = b) :
    s.jobState = LOADED ∧ s.jobOpen = true ∧ s.restartRuns = false ∧ (s.setEnt kMenuCrc (crc32c s.menuImage)).armRefused = b := h ▸ hd

/-- Within a block of indices that every entry has whole or not at all, a lookup finds what it finds at the block's start. -/
theorem findEntry_block (lo n i sub : Nat) (l : List Entry)
    (h : ∀ e ∈ l, e.base + e.count ≤ lo ∨ lo + n ≤ e.base ∨ (e.base ≤ lo ∧ lo + n ≤ e.base + e.count)) (hi : lo ≤ i ∧ i < lo + n) :
    findEntry i sub l = findEntry lo sub l := by
  induction l with
  | nil => rfl
  | cons e l ih =>
    have he := h e (by simp)
    unfold findEntry
    rw [ih (fun x hx => h x (by simp [hx]))]
    have hc : (e.base ≤ i ∧ i < e.base + e.count ∧ e.sub0 ≤ sub ∧ sub ≤ e.sub1) ↔
        (e.base ≤ lo ∧ lo < e.base + e.count ∧ e.sub0 ≤ sub ∧ sub ≤ e.sub1) := by omega
    simp only [hc]

theorem seed_block : ∀ e ∈ entries,
    e.base + e.count ≤ 0x2A00 ∨ 0x2A00 + 256 ≤ e.base ∨ (e.base ≤ 0x2A00 ∧ 0x2A00 + 256 ≤ e.base + e.count) := by decide +kernel

/-- Every seed's entries have the defaults of seed 0's. -/
theorem dflt_seed (g : Grade) (st : Stepping) (d sub : Nat) (hd : d < 256) (hs : sub < 256) :
    dflt g st (key (0x2A00 + d) sub) = dflt g st (key 0x2A00 sub) := by
  have h1 : key (0x2A00 + d) sub / 256 = 0x2A00 + d := by unfold key; omega
  have h2 : key (0x2A00 + d) sub % 256 = sub := by unfold key; omega
  have h3 : key 0x2A00 sub / 256 = 0x2A00 := by unfold key; omega
  have h4 : key 0x2A00 sub % 256 = sub := by unfold key; omega
  have hf := findEntry_block 0x2A00 256 (0x2A00 + d) sub entries seed_block (by omega)
  unfold dflt
  simp only [h1, h2, h3, h4, hf]
  iterate 10 rw [if_neg (by omega), if_neg (by omega)]

theorem seed_dflts : ∀ i, i < 9 → dflt .fqt7640 .b0 (key 0x2A00 (i + 1)) = if i = 8 then 65536 else 0 := by decide +kernel

/-- A menu that lists nothing is at its defaults. -/
theorem menu_of (s : State) (hg : s.grade = .fqt7640 ∧ s.stepping = .b0)
    (h : ∀ d, d < 256 → ∀ i, i < 9 → mfind s.dict (key (0x2A00 + d) (i + 1)) = none) :
    ∀ d, d < 256 → ∀ i, i < 9 → s.ent (key (0x2A00 + d) (i + 1)) = if i = 8 then 65536 else 0 := by
  intro d hd i hi
  unfold State.ent
  rw [h d hd i hi, hg.1, hg.2]
  exact (dflt_seed _ _ d (i + 1) hd (by omega)).trans (seed_dflts i hi)

theorem armable_checks : (armable []).jobState = LOADED ∧ (armable []).jobOpen = true ∧ (armable []).restartRuns = false ∧
    ((armable []).setEnt kMenuCrc 1291955814).armRefused = false := by decide +kernel

/-- A job that no arming check refuses, once its menu CRC is formed. -/
theorem wit_JobCommandsMoveTheState_arm :
    (armable []).jobState = LOADED ∧ (armable []).jobOpen = true ∧ (armable []).restartRuns = false ∧
      ((armable []).setEnt kMenuCrc (crc32c (armable []).menuImage)).armRefused = false :=
  arm_with (armable []) 1291955814 false (crc_of_menu (armable []) (menu_of _ ⟨by decide, by decide⟩ (by decide +kernel))) armable_checks

/-- `armable` without a quay that lands. -/
def dry : State := armable [(key 0x2200 1, quay_land_enable, 0)]

theorem dry_checks : dry.jobState = LOADED ∧ dry.jobOpen = true ∧ dry.restartRuns = false ∧ (dry.setEnt kMenuCrc 1291955814).armRefused = true := by decide +kernel

/-- A job that no quay feeds is refused. -/
theorem wit_JobCommandsMoveTheState_refused :
    dry.jobState = LOADED ∧ dry.jobOpen = true ∧ dry.restartRuns = false ∧ (dry.setEnt kMenuCrc (crc32c dry.menuImage)).armRefused = true :=
  arm_with dry 1291955814 true (crc_of_menu dry (menu_of _ ⟨by decide, by decide⟩ (by decide +kernel))) dry_checks

/-- `armable` in a berth of two of a harbour of one berth. -/
def broken : State := armable [(kHctl, hctl_harbour_enable, 1), (key 0x2E00 1, tctl_lock_required, 1), (key 0x2D00 1, bctl_berth_size, 2)]

theorem broken_checks : broken.jobState = LOADED ∧ broken.jobOpen = true ∧ broken.restartRuns = false ∧ (broken.setEnt kMenuCrc 1291955814).armRefused = false ∧
    (broken.setEnt kMenuCrc 1291955814).harbourBroken = true ∧ ((armable []).setEnt kMenuCrc 1291955814).harbourBroken = false := by
  decide +kernel

/-- A job whose harbour breaks R394. -/
theorem wit_JobCommandsMoveTheState_broken :
    broken.jobState = LOADED ∧ broken.jobOpen = true ∧ broken.restartRuns = false ∧ (broken.setEnt kMenuCrc (crc32c broken.menuImage)).armRefused = false ∧
      (broken.setEnt kMenuCrc (crc32c broken.menuImage)).harbourBroken = true := by
  rw [crc_of_menu broken (menu_of _ ⟨by decide, by decide⟩ (by decide +kernel))]
  exact ⟨broken_checks.1, broken_checks.2.1, broken_checks.2.2.1, broken_checks.2.2.2.1, broken_checks.2.2.2.2.1⟩

/-- Each command from a state it may come from, and from one it may not; a start in a berth and outside one. -/
theorem wit_JobCommandsMoveTheState :
    let at_ := fun (n : Nat) (l : List (Nat × Fld × Nat)) =>
      ({ put State.reset (memoryUp ++ [(kJob, jst_job_state, n)] ++ l) with rst := { available := true }, tend := { ddrPop := 1 } } : State)
    let idle := fun (s : State) => decide (s.copying = false ∧ s.memoryRefuses s.futureQuays s.futureArea = false ∧ s.jobOpen = true)
    let berth := at_ ARMED [(key 0x2D00 1, bctl_berth_size, 2)]
    ((at_ EMPTY []).jobState = EMPTY ∧ idle (at_ EMPTY [])) ∧ ((at_ LOADED []).jobState = LOADED ∧ idle (at_ LOADED [])) ∧
    ((at_ FAULTED []).jobState = FAULTED ∧ idle (at_ FAULTED [])) ∧ (at_ RUNNING []).jobState ∉ [EMPTY, LOADED, FAULTED] ∧
    ((at_ FAULTED []).jobOpen = true ∧ (at_ FAULTED []).jobState ∈ [LOADED, ARMED, RUNNING, PAUSED, FAULTED]) ∧
    ((at_ ARMED []).jobState = ARMED ∧ (at_ ARMED []).jobOpen = true ∧ (at_ ARMED []).flag kJob jst_started = false ∧
      (at_ ARMED []).job.bound = false ∧ (at_ ARMED []).berthSize ≤ 1) ∧ (at_ ARMED [(kJob, jst_started, 1)]).flag kJob jst_started = true ∧
    (berth.jobState = ARMED ∧ berth.jobOpen = true ∧ berth.flag kJob jst_started = false ∧ berth.job.bound = false ∧
      1 < berth.berthSize ∧ berth.landedBefore (berth.ent (key 0x2D00 4)) = true) := by decide +kernel

/-- Frame 0 and a later frame whose boundary comes first; both sides of a boundary that takes effect; a parked job. -/
theorem wit_PauseAndResumeAtFrameBoundaries :
    let r := { running with rst := { available := true } }
    let p := fun (l : List (Nat × Fld × Nat)) => put r ([(kJob, jst_job_state, PAUSED)] ++ l)
    let pend := { put r [(kJob, jst_pause_pending, 1)] with job := { r.job with pauseAt := some 100 } }
    let res := { p [] with job := { r.job with resumeAt := some 100 } }
    (r.jobState = RUNNING ∧ r.jobOpen = true ∧ r.flag kJob jst_pause_pending = false ∧ r.job.pauseAt = none) ∧
    (r.clk + 2 ≤ r.job.s0 + 1 * r.F ∧ ∀ m, m < 1 → r.job.s0 + m * r.F < r.clk + 2) ∧
    ({ r with clk := 0, job := { r.job with s0 := 2 } } : State).clk + 2 ≤ 2 + 0 * r.F ∧
    (pend.job.pauseAt = some 100 ∧ pend.jobState = RUNNING ∧ pend.flag kJob jst_pause_pending = true ∧ 100 ≤ pend.clk ∧
      ({ pend with clk := 99 } : State).clk < 100) ∧
    ((p []).jobState = PAUSED ∧ (p []).jobOpen = true ∧ (p []).copying = false ∧ (p []).job.resumeParked = false ∧
      (p []).job.resumeAt = none ∧ (p []).flag kJob jst_parked = false) ∧
    ((p [(kJob, jst_parked, 1)]).flag kJob jst_parked = true ∧ (p [(kJob, jst_parked, 1)]).moored = false) ∧
    (res.job.resumeAt = some 100 ∧ res.jobState = PAUSED ∧ 100 ≤ res.clk) := by decide +kernel

/-! ### Saves -/

/-- The items of a save do not depend on the size of the save partition. -/
theorem saveItems_setEnt (s : State) (v : Nat) : (s.setEnt (key 0x27E0 8) v).saveItems = s.saveItems := by
  have h : ∀ j, j ≠ key 0x27E0 8 → (s.setEnt (key 0x27E0 8) v).ent j = s.ent j := fun j hj => State.setEnt_ent_other s _ _ _ hj
  have hf : ∀ j f, j ≠ key 0x27E0 8 → (s.setEnt (key 0x27E0 8) v).fld j f = s.fld j f := fun j f hj => by
    unfold State.fld; rw [h j hj]
  have hr : ∀ p, (s.setEnt (key 0x27E0 8) v).saveRegions p = s.saveRegions p := by
    intro p
    unfold State.saveRegions
    refine List.filterMap_congr ?_
    intro i hi
    have hi := List.mem_range.mp hi
    have hk : key (0x2700 + p) (0x10 + i) ≠ key 0x27E0 8 := by unfold key; omega
    simp only [State.flag, hf _ _ hk]
    rfl
  have ht : (s.setEnt (key 0x27E0 8) v).virtualTiles = s.virtualTiles := by
    unfold State.virtualTiles
    simp only [State.setEnt_grade, State.ptile, State.pcol]
    refine congrArg List.flatten (List.map_congr_left ?_)
    intro r hr
    refine List.map_congr_left ?_
    intro c hc
    simp only [State.setEnt_net]
    rfl
  have ha : (s.setEnt (key 0x27E0 8) v).avgItems = s.avgItems := by
    unfold State.avgItems
    have hq : ∀ q, q < 20 → (s.setEnt (key 0x27E0 8) v).quayCodes q = s.quayCodes q := by
      intro q hq
      unfold State.quayCodes State.laneCount State.blocksPer State.sampleWidth kConv
      refine congrArg List.sum (List.map_congr_left ?_)
      intro g hg
      have hg := List.mem_range.mp hg
      rw [hf (key (0x2200 + q) (2 + g)) _ (by unfold key; omega), hf (key (0x2200 + q) (2 + g)) _ (by unfold key; omega),
        hf (key (0x2200 + q) (6 + g)) _ (by unfold key; omega)]
    have hl : (fun q => (s.setEnt (key 0x27E0 8) v).flag (kAvg q) avg_avg_enable) = fun q => s.flag (kAvg q) avg_avg_enable := by
      funext q
      unfold State.flag
      rw [hf (kAvg q) _ (by unfold kAvg key; omega)]
    rw [hl]
    refine congrArg List.flatten (List.map_congr_left ?_)
    intro q hm
    rw [hq q (List.mem_range.mp (List.mem_filter.mp hm).1)]
  unfold State.saveItems State.tileItems
  simp only [ht, ha, hr]

theorem leBytes_length (n v : Nat) : (leBytes n v).length = n := by
  induction n generalizing v with
  | zero => rfl
  | succ n ih => simp [leBytes, ih]

/-- The length of a save image. -/
theorem saveImage_length (s : State) : s.saveImage.length = 128 + (s.saveItems.map (fun x => x.bytes)).sum := by
  simp [State.saveImage, State.saveBody, leBytes_length, List.length_flatMap]

/-- A parked job whose save partition takes its image exactly. -/
theorem wit_SavesParkCopyAndRestore_copy :
    ∃ s : State, s.job.saving = 2 ∧ s.saveFits s.saveImage.length = true ∧ (0 : Nat) ≠ 2 ∧ s.rst.ddrZero = true := by
  let b : State := { State.reset with job := { saving := 2 }, rst := { ddrZero := true } }
  refine ⟨b.setEnt (key 0x27E0 8) b.saveImage.length, rfl, ?_, by decide, rfl⟩
  have h : (b.setEnt (key 0x27E0 8) b.saveImage.length).ent (key 0x2F00 3) = 0 :=
    (State.setEnt_ent_other b _ _ _ (by decide)).trans (by decide +kernel)
  unfold State.saveFits
  rw [h, State.setEnt_ent_same, saveImage_length, saveImage_length, saveItems_setEnt]
  simp

/-- One whose save partition is empty. -/
theorem wit_SavesParkCopyAndRestore_noSpace :
    let s : State := { State.reset with job := { saving := 2 } }
    s.job.saving = 2 ∧ s.saveFits s.saveImage.length = false := by
  intro s
  refine ⟨rfl, ?_⟩
  have h : s.ent (key 0x27E0 8) = 0 := by decide +kernel
  unfold State.saveFits
  rw [h, saveImage_length]
  simp

/-- The header of a save of an image with digest 0 and no body. -/
def bareHeader : Nat :=
  0x46535631 + 2 ^ 32 + 2 ^ 48 * gradeCode .fqt7640 + 2 ^ 448 * 128 + 2 ^ 512 * sha256Nat []

/-- A save at a period boundary, drained and quiet, and not drained; a restore of a save, of no save, of one that is broken. -/
theorem wit_SavesParkCopyAndRestore :
    let at_ := fun (n : Nat) => ({ putEnt (put running [(kJob, jst_job_state, n)]) [(key 0x2F10 3, 32), (key 0x27E0 8, 128)] with
      clk := 3000, rst := { available := true, ddrZero := true } } : State)
    let held := { at_ PAUSED with job := { (at_ PAUSED).job with saving := 1, heldFrom := some 0 } }
    let none_ := { held with job := { held.job with heldFrom := none } }
    let stored := fun (h : Nat) => { at_ LOADED with mem := writeBytes [] (ddrBase + (at_ LOADED).saveBase) (leBytes 128 h) }
    ((at_ PAUSED).jobOpen = true ∧ (at_ PAUSED).copying = false ∧ (at_ PAUSED).saveAgreed = true ∧ (at_ PAUSED).jobState = PAUSED ∧
      (at_ PAUSED).flag kJob jst_parked = false ∧ (at_ PAUSED).job.resumeParked = false) ∧
    (held.job.saving = 1 ∧ held.jobState = PAUSED ∧ held.job.bound = true ∧ held.job.s0 ≤ held.clk ∧
      (held.clk - held.job.s0) % held.P = 0 ∧ held.ent (key 0x2F00 5) ≤ held.drained ∧ held.gridQuiet = true) ∧
    (putEnt none_ [(key 0x2F00 5, 1)]).drained < (putEnt none_ [(key 0x2F00 5, 1)]).ent (key 0x2F00 5) ∧
    (let s := put held [(kSvs, svs_save_state, 1)]
     s.jobState = PAUSED ∧ s.jobOpen = true ∧ s.saveAgreed = true ∧ s.copying = true ∧ s.job.saving ∈ [1, 2] ∧
       s.flag kJob jst_parked = false ∧ s.job.resumeParked = false) ∧
    (let s := put (at_ LOADED) [(kSvs, svs_save_state, 1)]
     s.jobState = LOADED ∧ s.jobOpen = true ∧ s.saveAgreed = true ∧ s.copying = true) ∧
    ((at_ LOADED).jobState = LOADED ∧ (at_ LOADED).jobOpen = true ∧ (at_ LOADED).copying = false ∧ (at_ LOADED).saveAgreed = true) ∧
    (stored bareHeader).restoreRefusal = none ∧ (at_ LOADED).restoreRefusal = some 3 ∧
    (stored (bareHeader + 2 ^ 512)).restoreRefusal = some 4 ∧
    ((at_ LOADED).restartRuns = false ∧ (put (at_ LOADED) [(kRsts, rsts_restart_state, 3)]).restartRuns = true) ∧
    (let s := { at_ LOADED with job := { (at_ LOADED).job with saving := 3 } }
     s.job.saving = 3 ∧ s.jobState = LOADED ∧ s.saveBad = false ∧
      ({ s with tend := { badMem := [(ddrBase + s.saveBase) / 64] } } : State).saveBad = true) := by decide +kernel

/-- `armable` in a restart that has come to the arming checks. -/
def rearm (l : List (Nat × Fld × Nat)) : State := armable ((kRsts, rsts_restart_state, 4) :: l)

theorem rearm_checks :
    let s := rearm []
    let dry := rearm [(key 0x2200 1, quay_land_enable, 0)]
    let brk := rearm [(kHctl, hctl_harbour_enable, 1), (key 0x2E00 1, tctl_lock_required, 1), (key 0x2D00 1, bctl_berth_size, 2)]
    (s.jobState = LOADED ∧ s.fld kRsts rsts_restart_state = 4 ∧ (s.setEnt kMenuCrc 1291955814).armRefused = false ∧
      (s.setEnt kMenuCrc 1291955814).harbourBroken = false) ∧
    (dry.jobState = LOADED ∧ dry.fld kRsts rsts_restart_state = 4 ∧ (dry.setEnt kMenuCrc 1291955814).armRefused = true) ∧
    (brk.jobState = LOADED ∧ brk.fld kRsts rsts_restart_state = 4 ∧ (brk.setEnt kMenuCrc 1291955814).armRefused = false ∧
      (brk.setEnt kMenuCrc 1291955814).harbourBroken = true) := by decide +kernel

/-- A restart whose arming checks pass, one whose checks fail, and one whose harbour faults it. -/
theorem wit_RestartsTakeTheJobBack_arm :
    let v := fun (u : State) => u.setEnt kMenuCrc (crc32c u.menuImage)
    let s := rearm []
    let dry := rearm [(key 0x2200 1, quay_land_enable, 0)]
    let brk := rearm [(kHctl, hctl_harbour_enable, 1), (key 0x2E00 1, tctl_lock_required, 1), (key 0x2D00 1, bctl_berth_size, 2)]
    (s.jobState = LOADED ∧ s.fld kRsts rsts_restart_state = 4 ∧ (v s).armRefused = false ∧ (v s).harbourBroken = false) ∧
    (dry.jobState = LOADED ∧ dry.fld kRsts rsts_restart_state = 4 ∧ (v dry).armRefused = true) ∧
    (brk.jobState = LOADED ∧ brk.fld kRsts rsts_restart_state = 4 ∧ (v brk).armRefused = false ∧ (v brk).harbourBroken = true) := by
  intro v s dry brk
  simp only [v]
  rw [crc_of_menu s (menu_of _ ⟨by decide, by decide⟩ (by decide +kernel)),
    crc_of_menu dry (menu_of _ ⟨by decide, by decide⟩ (by decide +kernel)),
    crc_of_menu brk (menu_of _ ⟨by decide, by decide⟩ (by decide +kernel))]
  exact rearm_checks

/-- A job that faulted and was told: one that may restart, and one for each refusal; one that reloads with no image; one that
restores a save, and one whose save is broken; a berth that restarts together, its frames come from both positions, one missing
in time and too late; a memory fault of a tile whose row group has its spare, and not. -/
theorem wit_RestartsTakeTheJobBack :
    let s := put State.reset [(kJob, jst_job_state, FAULTED), (kRsts, rsts_restart_state, 1), (kSpr 0, spr_spare_ok, 1)]
    let f := fun (fam c d : Nat) => ({ family := fam, cause := c, loc := loc 1 0, frame := 0, detail := d } : FaultRec)
    let limit := put s [(key 0x3000 2, rctl_restart_limit, 0)]
    let again := { s with job := { s.job with lastReport := some s.reportKey } }
    let noSpare := { put s [(kSpr 0, spr_spare_ok, 0)] with flt := { recs := [f 9 2 0] } }
    let touched := put s [(kRsts, rsts_library_touched, 1)]
    let hot := { s with tele := { hold := true } }
    let link := { s with flt := { recs := [f 11 1 0] } }
    let sram := { s with flt := { recs := [f 9 1 (64 * 513)] } }
    let used := { sram with tend := { spareGroups := [(0, [1])] } }
    let b := { put s [(key 0x2D00 1, bctl_moored, 1), (key 0x2D00 1, bctl_berth_size, 2)] with
      job := { period := 1000, fper := 1000, wasStarted := true } }
    let both := { b with berth := { firstFaulted := [(0, some 7), (1, some 5)] } }
    let one := { b with berth := { firstFaulted := [(0, some 7)] } }
    let late := { one with clk := 12000 }
    let two := put s [(kRsts, rsts_restart_state, 2)]
    let loaded := fun (h : Nat) =>
      let u := putEnt (put State.reset [(kJob, jst_job_state, LOADED), (kRsts, rsts_restart_state, 3)]) [(key 0x27E0 8, 128)]
      { u with rst := { ddrZero := true }, mem := writeBytes [] (ddrBase + u.saveBase) (leBytes 128 h) }
    (s.jobState = FAULTED ∧ s.flt.active = false ∧ s.fld kRsts rsts_restart_state = 1 ∧ s.restartRefusal = 0 ∧ s.job.wasStarted = false) ∧
    limit.restartRefusal = 1 ∧ again.restartRefusal = 2 ∧ (noSpare.restartRefusal = 3 ∧ noSpare.substituted = none ∧
      noSpare.substitution (f 9 2 0) = .retire 0 ∧ noSpare.fld (kSpr 0) spr_spare_ok = 0) ∧ touched.restartRefusal = 4 ∧
    (hot.restartRefusal = 5 ∧ hot.restartFails = true) ∧ (link.restartRefusal = 5 ∧ link.restartFails = true) ∧
    (sram.substitution (f 9 1 (64 * 513)) = .repair 0 513 ∧ used.substitution (f 9 1 (64 * 513)) = .retire 0 ∧ loc 1 0 = 2 ^ 12 + 0) ∧
    (two.jobState = FAULTED ∧ two.fld kRsts rsts_restart_state = 2 ∧ two.reload.2 = false) ∧
    ((loaded bareHeader).jobState = LOADED ∧ (loaded bareHeader).fld kRsts rsts_restart_state = 3 ∧
      (loaded bareHeader).restoreRefusal = none ∧ (loaded bareHeader).saveBad = false) ∧
    ((loaded (bareHeader + 2 ^ 512)).fld kRsts rsts_restart_state = 3 ∧ (loaded (bareHeader + 2 ^ 512)).restoreRefusal = some 4) ∧
    (b.jobState = FAULTED ∧ b.flt.active = false ∧ b.fld kRsts rsts_restart_state = 1 ∧ b.restartRefusal = 0 ∧ b.job.wasStarted = true ∧
      b.together = true ∧ b.berth.restartFrame = none) ∧
    (both.together = true ∧ ∀ m, m < both.berthSize → mget none both.berth.firstFaulted m = some (if m = 0 then 7 else 5)) ∧
    (1 < one.berthSize ∧ mget none one.berth.firstFaulted 1 = none ∧
      earliest ((List.range one.berthSize).filterMap (fun m => mget none one.berth.firstFaulted m)) = some 7 ∧
      later ((7 + (1024 + one.F - 1) / one.F + 2) % 2 ^ 48) (one.frameAt one.clk) = true ∧
      later ((7 + (1024 + late.F - 1) / late.F + 2) % 2 ^ 48) (late.frameAt late.clk) = false) := by decide +kernel

end Sys2Proof.Tests
end

