-- ==== Sys2Proof/Tests/WitNet.lean ====
section
/-! SUPPORT. Witnesses of the statements about the tide network and the tenders. -/

namespace Sys2Proof.Tests

open Sys2Proof.Machine

set_option Elab.async false

/-- A word. -/
def tok1 : Token := { word := 1 }

/-- `running` with the network as given. -/
def withNet (n : Net) : State := { running with net := n }

/-- A token that is due in this clk, without a crossing and after one, and a word in the local input that output E takes. -/
theorem wit_RoutersForwardBySlotTable :
    let s := withNet { regs := [(4, some tok1)], tide := [(100, 40)],
                       flights := [⟨5, 100, tok1, none, 0, true⟩, ⟨6, 100, tok1, some 5, 13, true⟩, ⟨1, 101, tok1, some 1, 0, false⟩] }
    let due := s.net.flights.filter (fun f => f.due == s.clk)
    let v : State := { s with net := { s.net with regs := due.foldl (fun m f => mset none m f.reg (some f.tok)) s.net.regs } }
    s.gridRuns = true ∧ s.net.lastSlot ≠ some s.clk ∧ due.length = 2 ∧ (∀ f ∈ due, f.cross = none ∨ f.done = true) ∧
    (∀ p ∈ s.placedTiles, ∀ k, k < 5 → v.reg (regKey p k) ≠ none →
      ∃ o, o < 5 ∧ mget 0 s.net.tide (65536 * p + s.slotAt s.clk) / 2 ^ (3 * o) % 8 = k + 1) := by decide +kernel

/-- A word that nothing names at the first and the last tile; a token whose crossing is not complete. -/
theorem wit_CollisionsAndSlipsFault :
    let s := withNet { regs := [(0, some tok1), (1652, some tok1)] }
    let f : Flight := ⟨regKey 103 4, 100, tok1, some 3, 102, false⟩
    s.reg (regKey 0 0) = some tok1 ∧ s.reg (regKey 103 4) = some tok1 ∧
    (∀ o, o < 5 → mget 0 s.net.tide (65536 * 0 + 0) / 2 ^ (3 * o) % 8 ≠ 0 + 1) ∧
    f.cross = some 3 ∧ f.done = false ∧ f.reg = regKey 103 4 := by decide +kernel

/-- The second flight is the one that completes, into a free ring entry and into one that is taken; a margin at the threshold, and one
beyond a byte; an empty token of tile 0's link to its southern neighbour; a score delivery of tile 0; a link that no tile sends on. -/
theorem wit_CrossingsAreMeasured :
    let f : Flight := ⟨regKey 103 4, 120, tok1, some 3, 102, false⟩
    let g : Flight := ⟨regKey 0 4, 120, tok1, some 3, 102, false⟩
    running.fld (key 0x2600 2) mctl_margin_warn ≤ min (running.fld (key 0x2600 2) mctl_margin_warn) 255 ∧
    running.fld (key 0x2600 2) mctl_margin_warn ≤ min 300 255 ∧
    (withNet { flights := [g, f] }).net.flights = [g] ++ f :: [] ∧ (∀ x ∈ [g], x.crossing 103 3 102 120 = false) ∧
    f.crossing 103 3 102 120 = true ∧ running.clk < 120 ∧ (withNet { flights := [g, f] }).ringFree f = true ∧
    (withNet { flights := [{ f with due := 116, done := true }, f] }).ringFree f = false ∧
    (let n := put running [(key (0x2300 + 13) 3, ast_virtual_row, 1), (key (0x2300 + 13) 3, ast_virtual_column, 0)]
     n.crossSender 13 0 0 = some 0 ∧ n.emptyDue 13 0 0 102 = true ∧ n.entryFree (n.crossReg 13 0 0) 0 0 102 = true ∧ n.clk < 102 ∧
       n.gridRuns = true ∧ n.slipTold 13 0 0 = false ∧ (n.crossReg 13 0 0, 0, 100) ∉ n.net.captured ∧ (∀ x ∈ n.net.flights, x.crossing 13 0 0 100 = false) ∧
       n.fld (key 0x2600 2) mctl_margin_warn ≤ min 255 255 ∧ ∀ x ∈ n.net.flights, x.crossing 13 0 0 102 = false) ∧
    (let n := put running [(key 0x2600 2, mctl_margin_warn, 9), (key 0x2600 2, mctl_retire_on_warn, 0)]
     min 8 255 < n.fld (key 0x2600 2) mctl_margin_warn ∧ n.flag (key 0x2600 2) mctl_retire_on_warn = false ∧ 126 < 127) ∧
    (let m : MarkRec := ⟨110, 0, 0, 0, 5, 0, false, false⟩
     running.placed 0 = true ∧ running.entryFree (running.crossReg 126 7 0) 7 0 110 = true ∧ m.crossing 0 110 = true ∧ running.clk < 110 ∧
       ({ running with dec := { running.dec with marks := [m] } } : State).dec.marks = [] ++ m :: []) ∧
    running.crossSender 103 6 50 = none := by decide +kernel

/-- Port 0 sends from queue 1; the words that come in are a descriptor, a plain word for queue 1, one for queue 15, one that no
queue takes, a tender word, and one for a queue that is full. -/
theorem wit_EavesPortsMoveWords :
    let s := withNet { eaves := [(100, 1)], outq := [(1, [tok1])] }
    let u := withNet { eaves := [(100, 16)], regs := [(1664, some tok1)] }
    let z := withNet { eaves := [(100, 240)], regs := [(1664, some tok1)] }
    let n := withNet { regs := [(1664, some tok1)] }
    let d := withNet { regs := [(1664, some { tok1 with side := 1 })] }
    let x := withNet { regs := [(1664, some { tok1 with side := 2 })] }
    let full := { u with net := { u.net with inq := [(1, List.replicate 32 tok1)] } }
    let e := fun (s : State) => mget 0 s.net.eaves (65536 * 0 + s.slotAt s.clk)
    eavesOk s.grade 0 = true ∧ eavesOk .fqt7620 35 = true ∧
    (s.gridRuns = true ∧ e s % 16 = 1 ∧ mget [] s.net.outq (16 * 0 + 1) = tok1 :: [] ∧
      (∀ f ∈ s.net.flights, ¬ (f.reg = (s.eavesTarget 0).1 ∧ f.due = s.clk + 8))) ∧
    (d.reg (16 * (104 + 0)) = some { tok1 with side := 1 }) ∧
    (u.reg 1664 = some tok1 ∧ tok1.side % 4 ≠ 1 ∧ tok1.side % 4 ≠ 2 ∧ 1 = e u / 16 % 16 ∧ (mget [] u.net.inq 1).length < 32) ∧
    (z.reg 1664 = some tok1 ∧ e z / 16 % 16 = 15 ∧ (mget [] z.net.inq 15).length < 32) ∧
    (n.reg 1664 = some tok1 ∧ e n / 16 % 16 = 0) ∧ (x.reg 1664 = some { tok1 with side := 2 }) ∧
    (full.reg 1664 = some tok1 ∧ e full / 16 % 16 ≠ 0 ∧ 32 ≤ (mget [] full.net.inq (e full / 16 % 16)).length) := by decide +kernel

/-- A copy of one word in HBM by tender 0. -/
def descHbm : Nat := 2 ^ 4 + 2 ^ 7

/-- A descriptor of the capture logic that entered in an earlier clk. -/
def rec1 (d : Nat) : DescRec := { seq := 0, word := d, source := 1, clk := 99 }

/-- A descriptor that passes, one with a reserved bit set, a full tender, and descriptors of tiles in each condition. -/
theorem wit_DescriptorsEnterIntake :
    let k := key (0x27C0 + 0) 1
    let s := putEnt running [(kGridT, 1)]
    let full := put s [(k, tend_outstanding, 2048)]
    let free := putEnt running [(kGridT, 0)]
    let held := { s with net := { s.net with inq := [(0, [{ word := descHbm, tag := some 90 }])] } }
    let heldFull := put held [(k, tend_outstanding, 2048)]
    let bad := { s with net := { s.net with inq := [(0, [{ word := descHbm + 2 ^ 10 }])] } }
    s.tenderFenced 0 = false ∧ (s.tender 0).queue = [] ∧
    (let y : DescRec := { seq := 0, word := 0, source := 2, clk := 100, rank := 41 }
     let r : DescRec := { seq := 0, word := 0, source := 1, clk := 100, rank := 40 }
     let mixed := { s with tend := { s.tend with t := [(0, { queue := [rec1 0], seq := 2 }), (16, { queue := [rec1 0, y] })] } }
     let last := { s with tend := { s.tend with t := [(0, { queue := [rec1 0, y], seq := 2 })] } }
     (∀ z ∈ (s.tender 0).queue ++ (s.tender 16).queue, z.clk < r.clk) ∧
     (mixed.tender 16).queue = [rec1 0] ++ [y] ∧ (last.tender 0).queue = [rec1 0] ++ [y] ∧ (last.tender 16).queue = [] ∧
     y.clk = r.clk ∧ r.rank < y.rank ∧ (rec1 0).clk < r.clk) ∧
    (free.fld k tend_outstanding + free.eavesWaiting 0 < 2048 ∧ free.descFault 0 1 descHbm = none ∧ free.descFault 0 2 descHbm = none ∧
      (free.tender 16).queue = []) ∧
    s.descFault 0 1 descHbm ≠ none ∧ 2048 ≤ full.fld k tend_outstanding + full.eavesWaiting 0 ∧
    (mget [] held.net.inq (16 * 0)).head?.map (fun w => w.tag) = some (some 90) ∧ held.waitingDesc 0 descHbm = some 0 ∧ held.descFault 0 0 descHbm = none ∧
    (heldFull.waitingDesc 0 descHbm = some 0 ∧ 2048 ≤ heldFull.fld k tend_outstanding) ∧
    (bad.waitingDesc 0 (descHbm + 2 ^ 10) = some 0 ∧ bad.descFault 0 0 (descHbm + 2 ^ 10) = some 2) := by decide +kernel

/-- Copies HBM to HBM, HBM to an eaves queue, an eaves queue to HBM, and those that wait. -/
theorem wit_TendersCopyWordByWord :
    let q := fun (d : Nat) => ({ running with tend := { t := [(15, { queue := [rec1 d] })] } } : State)
    let pos := fun (d : Nat) => ((d / 2 ^ 16 % 2 ^ 40 : Nat) : Int) + (0 : Nat) * (BitVec.ofNat 32 (d / 2 ^ 128)).toInt + 64 * (0 : Nat) - 64 * (0 : Nat)
    let toQ := 2 ^ 4 + 3 * 2 ^ 7 + 2 ^ 214
    let fromQ := 4 * 2 ^ 4 + 2 ^ 7 + 2 ^ 22
    let full := { q toQ with net := { running.net with outq := [(1, List.replicate 32 tok1)] } }
    let unit5 := put running [(key 0x27A5 1, munit_in_service, 1)]
    (unit5.fld (key (0x27A0 + 5 * (15 / 8) + 0 / 1024 % 5) 1) munit_in_service = 1 ∧
      running.fld (key (0x27A0 + 5 * (15 / 8) + 0 / 1024 % 5) 1) munit_in_service ≠ 1) ∧
    (((q descHbm).tender 15).last ≠ some running.clk ∧ running.reservedClk = false ∧ (rec1 0).card = none ∧ (rec1 0).frag = none) ∧
    (let c : State := { running with tend := { t := [(15, { queue := [{ rec1 (3 * 2 ^ 7) with card := some 1 }] })] } }
     (c.tender 15).queue = { rec1 (3 * 2 ^ 7) with card := some 1 } :: [] ∧ (c.tender 15).last ≠ some c.clk) ∧
    (((q descHbm).tender 15).queue = rec1 descHbm :: [] ∧ ((q descHbm).tender 15).i ≤ descHbm / 2 ^ 112 % 2 ^ 16 ∧
      0 ≤ pos descHbm ∧ descHbm / 2 ^ 4 % 8 = 1 ∧ descHbm / 2 ^ 7 % 8 = 1) ∧
    (0 ≤ pos toQ ∧ toQ / 2 ^ 4 % 8 = 1 ∧ toQ / 2 ^ 7 % 8 = 3 ∧
      (mget [] (q toQ).net.outq (16 * (toQ / 2 ^ 208 % 64) + toQ / 2 ^ 214 % 16)).length < 32) ∧
    (0 ≤ pos fromQ ∧ fromQ / 2 ^ 4 % 8 = 4 ∧ fromQ / 2 ^ 7 % 8 = 1 ∧
      mget [] ({ q fromQ with net := { running.net with inq := [(1, [tok1])] } } : State).net.inq
        (16 * (fromQ / 2 ^ 16 % 2 ^ 40 % 64) + fromQ / 2 ^ 16 % 2 ^ 40 / 64 % 16) = tok1 :: []) ∧
    (mget [] (q fromQ).net.inq (16 * (fromQ / 2 ^ 16 % 2 ^ 40 % 64) + fromQ / 2 ^ 16 % 2 ^ 40 / 64 % 16) = []) ∧
    (32 ≤ (mget [] full.net.outq (16 * (toQ / 2 ^ 208 % 64) + toQ / 2 ^ 214 % 16)).length ∧ (full.tender 15).queue = rec1 toQ :: []) ∧
    ({ q (2 * 2 ^ 4 + 2 * 2 ^ 7) with rst := { running.rst with ddrZero := true } } : State).rst.ddrZero = true := by decide +kernel

/-- A copy whose words have all moved; a completion for virtual tile (7, 0) in each tree. -/
theorem wit_CopiesCompleteInOrder :
    let s : State := { running with tend := { t := [(15, { queue := [rec1 descHbm], i := 1 })], compl := [(1, [(7, 0, 31)])] } }
    (s.tender 15).queue = rec1 descHbm :: [] ∧ descHbm / 2 ^ 112 % 2 ^ 16 < (s.tender 15).i ∧
    (rec1 descHbm).frag = none ∧ mget 0 s.tend.complAt 1 ≤ s.clk ∧
    s.clk < mget 0 ({ s with tend := { s.tend with complAt := [(1, 101)] } } : State).tend.complAt 1 ∧
    mget [] s.tend.compl 1 = (7, 0, 31) :: [] ∧ 0 < vcols s.grade ∧ ((s.tile (s.ptile 7 0)).pend = [] ∧ (s.tile (s.ptile 7 0)).noWrite = none) := by decide +kernel

/-- A word for row 0 at tile 0 against a region with tw, with tw and a lock window over this slot, and without tw; and no
region. -/
theorem wit_TenderWordsReachTheTile :
    let w : Token := { word := 1, side := 12 }
    let tw := reg_tw.put wholeRegion 1
    let lock := reg_lock_last.put (reg_lock_en.put tw 1) 1023
    let st := fun (r : Nat) => (putEnt (withNet { regs := [(8, some w)] }) [(key 0x2700 0x10, r)] : State)
    let holds := fun (r : Nat) => reg_size.of r ≠ 0 ∧ reg_tag.of r = w.side / 2 ^ 9 % 256 ∧ reg_base.of r ≤ w.side / 2 ^ 17 % 2 ^ 19 ∧
      w.side / 2 ^ 17 % 2 ^ 19 < reg_base.of r + reg_size.of r
    tileOk running.grade 0 = true ∧ (st tw).reg (regKey 0 8) = some w ∧
    ((st tw).tileFenced 0 = false ∧ ({ st tw with rst := { block := some (4, 0, 0) } } : State).tileFenced 0 = true) ∧
    (holds ((st tw).region 0 0) ∧ reg_tw.of ((st tw).region 0 0) ≠ 0 ∧ reg_lock_en.of ((st tw).region 0 0) ≠ 1 ∧
      ((st tw).tile 0).pend = [] ∧ ((st tw).tile 0).noWrite = none) ∧
    (holds ((st lock).region 0 0) ∧ reg_tw.of ((st lock).region 0 0) ≠ 0 ∧ reg_lock_en.of ((st lock).region 0 0) = 1 ∧
      reg_lock_first.of ((st lock).region 0 0) ≤ (st lock).slotAt ((st lock).clk + 1) ∧
      (st lock).slotAt ((st lock).clk + 1) ≤ reg_lock_last.of ((st lock).region 0 0)) ∧
    (holds ((st wholeRegion).region 0 0) ∧ reg_tw.of ((st wholeRegion).region 0 0) = 0) ∧
    (∀ i, i < 64 → ¬ holds ((st 0).region 0 i)) := by decide +kernel

end Sys2Proof.Tests
end

