-- ==== Sys2Proof/Tests/WitReset.lean ====
section
/-! SUPPORT. Witnesses of the statements about resets and the start-up sequence. Where a hypothesis asks that a firmware image
verifies, its signature is a free value (log entry 9): the witness shows a state that meets everything else, and the hypothesis
itself as soon as the signature is valid. -/

namespace Sys2Proof.Tests

open Sys2Proof.Machine

set_option Elab.async false

/-- The module at a step of its sequence, with fields as given. -/
def atStep (n : Nat) (l : List (Nat × Fld × Nat)) : State := { put State.reset l with rst := { step := n } }

/-- An image of a header alone that holds in every field. -/
def bareFirmware (a : Nat) : List Host.Cell := writeBytes [] a (leBytes 4 0x46574D31)

/-- Up and running, in step 2, in safe hold and held by the pin; step 3 is the first that a full reset restarts; a second reset in
one cycle, with the watchdog and CAN FD up before the first; drivers that release in this clk. -/
theorem wit_FullResetsClearTheBlock :
    let s := { running with rst := { step := 8, available := true } }
    let three := atStep 3 []
    let two := atStep 2 []
    let pin := { three with rst := { step := 3, pinHeld := true } }
    let dog := put s [(kWd, wd_wd_enable, 1)]
    let safe := { three with rst := { step := 3, safeHold := true } }
    let perst := { s with rst := { s.rst with perst := true } }
    let twice := { three with clk := 101, rst := { step := 3, last := [(100, 2)], wdRan := true, canRan := true, release := some 101 } }
    s.sameCycle = [] ∧ (twice.sameCycle ≠ [] ∧ twice.rst.wdRan = true ∧ twice.rst.canRan = true ∧ twice.rst.release = some 101 ∧
      twice.rst.pinHeld = false ∧ twice.rst.safeHold = false) ∧ (s.dec.driven = true ∧ s.rst.release = none) ∧
    (three.sameCycle = [] ∧ three.beforeTrim = false ∧ three.rst.safeHold = false ∧ three.dict = [] ∧ three.mem = []) ∧
    (dog.watchdogOn = true ∧ dog.sameCycle = [] ∧ dog.rst.safeHold = false ∧ dog.beforeTrim = false ∧ (dog.dict.map Prod.fst).Pairwise (· < ·) ∧
      (∀ e ∈ dog.dict, e.2 ≠ dflt dog.grade dog.stepping e.1) ∧ Memory.wf dog.mem = true) ∧
    s.canUp = true ∧ (two.rst.safeHold = false ∧ two.beforeTrim = true) ∧ pin.beforeTrim = true ∧ safe.rst.safeHold = true ∧
    s.rst.available = true ∧ (perst.rst.perst = true ∧ 4 < perst.rst.step) ∧
    ({ two with rst := { step := 4, perst := true } } : State).rst.step ≤ 4 := by decide +kernel

/-- Each step of the sequence with each of its outcomes that no signature decides. -/
theorem wit_StartUpRunsItsSteps :
    let pin := { atStep 3 [] with rst := { step := 3, pinHeld := true } }
    let boot := fun (k : Nat) => atStep 4 [(kStrp, strp_boot_source, k)]
    let five := atStep 5 []
    let failed := atStep 6 [(kSst, sst_pll_failed, 1)]
    let host := { atStep 5 [] with rst := { step := 5, waitHost := true } }
    let ddr := atStep 8 [(kSst, sst_ddr_population_ok, 1)]
    let hot := { atStep 6 [] with tele := { hold := true } }
    ((atStep 0 []).rst.step = 0 ∧ (atStep 1 []).rst.step ≠ 0 ∧ (atStep 1 []).rst.safeHold = false) ∧
    ((atStep 3 []).rst.pinHeld = false ∧ pin.rst.pinHeld = true ∧ pin.rst.safeHold = false) ∧
    ((boot 0).strapSlot < 2 ∧ (boot 1).strapSlot < 2 ∧ (boot 2).strapSlot = 2 ∧ (boot 3).strapSlot = 3) ∧
    (five.rst.step = 5 ∧ five.rst.waitHost = false ∧ five.slotVerifies (five.strapSlot % 2) = false ∧
      five.slotVerifies (1 - five.strapSlot % 2) = false) ∧
    ((1 + 2 * 0xFFF) % 2 = 1 ∧ (1 + 2 * 0xFFF) / 2 % 2 ^ 12 = 0xFFF ∧ (1 + 2 * 0x555) / 2 % 2 ^ 12 = 0x555 ∧
      ¬ ((1 + 2 * 0x556) / 2 % 2 ^ 12 = 0xFFF ∨ (1 + 2 * 0x556) / 2 % 2 ^ 12 = 0x555)) ∧
    ((atStep 6 []).flag kSst sst_pll_failed = false ∧ failed.rst.step = 6 ∧ failed.flag kSst sst_pll_failed = true) ∧
    (host.rst.waitHost = true ∧ fwSlotBytes ≤ fwSlotBytes ∧ fwSlotBytes < fwSlotBytes + 1 ∧
      ({ host with mem := writeBytes (zeroRange host.mem bootBase fwSlotBytes) bootBase [] } : State).fwVerifies bootBase 0 = false) ∧
    (hot.tele.hold = true ∧ hot.rst.trim ≠ 2 ∧ ({ hot with rst := { step := 6, trim := 2 } } : State).rst.trim = 2 ∧
      failed.tele.hold = false ∧ State.reset.storeValid = false) ∧
    (State.reset.recd.head0 = some {} ∧ State.reset.recd.head1 = some {}) ∧
    (let torn : Recorder := { head0 := none, head1 := none, slots := [(3, some { type := 1, key := 0, seq := 9 }), (5, none)] }
     newestSlot torn.slots = some (3, 9)) ∧
    (Memory.wf ddr.mem = true ∧ ddr.rst.step = 8 ∧ ddr.rst.power = true ∧ ddr.rst.ddrZero = false ∧
      ddr.flag kSst sst_ddr_population_ok = true) := by
  decide +kernel

/-- Whether the signature of the firmware at `a` is valid. -/
def signed_ (s : State) (a : Nat) : Bool :=
  Config.signatureValid firmwareKey (toBytes (sha256 (readBytes s.mem a (64 + bits (s.fwHeader a) 64 32))))
    (s.bytesAt (a + 64 + bits (s.fwHeader a) 64 32) sigBytes)

/-- What the image at `a` must hold beside its signature. -/
theorem fwVerifies_of (s : State) (a n : Nat)
    (h : bits (s.fwHeader a) 0 32 = 0x46574D31 ∧ bits (s.fwHeader a) 48 16 = 0 ∧ bits (s.fwHeader a) 128 384 = 0 ∧
      bits (s.fwHeader a) 64 32 % 64 = 0 ∧ 64 + bits (s.fwHeader a) 64 32 + sigBytes ≤ n ∧ s.fld kFloor flFirm ≤ bits (s.fwHeader a) 32 16)
    (hs : signed_ s a = true) : s.fwVerifies a n = true := by
  obtain ⟨h1, h2, h3, h4, h5, h6⟩ := h
  unfold State.fwVerifies
  unfold signed_ at hs
  simp only [h1, h2, h3, h4, h5, h6, hs, decide_true, beq_self_eq_true, Bool.and_self]

/-- The slot of the strap, the other slot, and the host's image verify where their signatures are valid. -/
theorem wit_StartUpRunsItsSteps_verified :
    (let s := { atStep 5 [] with mem := bareFirmware (fwSlotBase 0) }
     s.rst.waitHost = false ∧ s.strapSlot % 2 = 0 ∧ (signed_ s (fwSlotBase 0) = true → s.slotVerifies 0 = true)) ∧
    (let s := { atStep 5 [] with mem := bareFirmware (fwSlotBase 1) }
     s.slotVerifies 0 = false ∧ (signed_ s (fwSlotBase 1) = true → s.slotVerifies 1 = true)) ∧
    (let s := { atStep 5 [] with mem := bareFirmware bootBase, rst := { step := 5, waitHost := true } }
     64 + sigBytes ≤ fwSlotBytes ∧ (signed_ s bootBase = true → s.fwVerifies bootBase (64 + sigBytes) = true)) := by
  refine ⟨⟨by decide +kernel, by decide +kernel, ?_⟩, ⟨by decide +kernel, ?_⟩, ⟨by decide +kernel, ?_⟩⟩ <;>
    exact fwVerifies_of _ _ _ (by decide +kernel)

/-- A block of every kind, idle and busy; an absent one; before its reset, when that begins, and its release. -/
theorem wit_BlockResetsClearOneBlock :
    let s := { running with rst := { available := true, block := some (4, 0, 0) } }
    let loaded := put s [(kJob, jst_job_state, LOADED)]
    s.rst.available = true ∧ s.flag kBlk blk_busy = false ∧ (put s [(kBlk, blk_busy, 1)]).flag kBlk blk_busy = true ∧
    (blockOk s.grade 1 19 = true ∧ blockOk s.grade 2 15 = true ∧ blockOk s.grade 3 3 = true ∧ blockOk s.grade 4 103 = true ∧
      blockOk s.grade 4 104 = false ∧ blockOk s.grade 0 0 = false) ∧
    (s.active = true ∧ (put s [(key 0x2200 1, quay_land_enable, 1)]).landOn 0 = true) ∧ (s.placed 0 = true ∧ s.active = true) ∧
    (loaded.placed 0 = true ∧ loaded.jobState = LOADED ∧ loaded.flt.active = false) ∧ s.rst.block = some (4, 0, 0) ∧ 0 + 64 ≤ s.clk ∧
    ({ s with clk := 64 } : State).clk = 0 + 64 ∧ ({ s with clk := 63 } : State).clk < 0 + 64 := by decide +kernel

end Sys2Proof.Tests
end

