-- ==== Sys2Proof/Tests/WitTiles.lean ====
section
/-! SUPPORT. Witnesses of the statements about tiles: concrete states and operands that meet the hypotheses of each. -/

namespace Sys2Proof.Tests

open Sys2Proof.Machine

set_option Elab.async false

/-- EveryCommandAnswers: each clause at the first number that is absent. -/
theorem wit_EveryCommandAnswers :
    issueOf (.wswp { tile := 104, pred := 0, neg := false }) = some { tile := 104, pred := 0, neg := false } ∧
    tileOk .fqt7640 104 = false ∧ tileOk .fqt7620 9 = false ∧ (tileOk .fqt7640 0 = true ∧ State.reset.mayIssue 0 = false) ∧
    eavesOk .fqt7640 40 = false ∧ islandOk .fqt7640 127 = false := by decide +kernel

/-- FaultsEndTheJob: a running job, a job that faulted in an earlier clk, and no job. -/
theorem wit_FaultsEndTheJob :
    running.active = true ∧ (put State.reset [(kJob, jst_job_state, FAULTED)]).jobState = FAULTED ∧
    State.reset.flt.active = false ∧ State.reset.jobState = EMPTY ∧
    (put State.reset [(kJob, jst_job_state, LOADED)]).jobState = LOADED := by decide +kernel

/-- EmptyQueuePassesOneClk: an empty queue, a fault to tell, a stamp to read, a software reset that is due. -/
theorem wit_EmptyQueuePassesOneClk :
    let s := { running with
      flt := { clk := 100, active := true, recs := [] }
      time := { running.time with txq := [7] }
      rst := { running.rst with soft := some 101 } }
    let w := spelling running (.movi t0 31 7)
    let act : Pend := { due := 100, addr := 0, unit := 0, act := .sreg 1 7 }
    let late : MarkRec := { arrive := 100, tile := 0, addr := 0, frame := 0, score := 1, value := 0, window := false }
    let r : PinRec := { n := 0, frame := 0, out := 100, d := 0, accept := 1, raw := 1, void := false, marks := 1 }
    s.pending = [] ∧ s.flt.active = true ∧ s.time.txq = 7 :: [] ∧ s.rst.soft = some 101 ∧ 101 ≤ s.clk + 1 ∧
    running.job.bound = true ∧ State.reset.job.bound = false ∧ State.reset.gridRuns = false ∧
    (w.mayIssue 0 = true ∧ decodeWord 0 (w.wordHere 0) = some (.movi t0 31 7) ∧ issueOf (.movi t0 31 7) = some t0) ∧
    (running.job.layerWin = [] ∧ running.dec.marks = [] ∧ running.cap.slots = [] ∧ running.cap.reqs = [] ∧ running.dec.pin = []) ∧
    (let u := withTile { pend := [act, { act with due := 101 }] }
     (u.tile 0).pend.filter (fun y => y.due == u.clk) = [act] ∧ act.act.isRead = false ∧ (u.tile 0).noWrite ≠ some u.clk) ∧
    [late].filter (fun x => x.arrive == running.clk && !x.window && !x.crossed) = [late] ∧
    (running.dec.leaving = none ∧ r.out = running.clk) := by decide +kernel

/-- ErrorRegisterShowsItsCauses: after reset the CAN FD path serves, and a doubt of each cause can stand. -/
theorem wit_ErrorRegisterShowsItsCauses :
    ({ State.reset with rst := { State.reset.rst with available := true } }).canServes = true := by decide +kernel

/-- The scalar commands, in the forms that the statement names. -/
def scalars : List Instr :=
  [.add t0 1 2 3, .sub t0 1 2 3, .andR t0 1 2 3, .orR t0 1 2 3, .xorR t0 1 2 3, .shl t0 1 2 3, .shr t0 1 2 3, .sra t0 0 2 31,
   .addi t0 1 2 0xFFFFFFFF, .movi t0 31 7]
    ++ (List.range 6).map (fun c => .cmp t0 1 c 2 3) ++ (List.range 6).map (fun c => .cmpi t0 0 c 2 9)
    ++ (List.range 4).map (fun o => .pfop t0 7 1 2 o)
    ++ [.pset t0 15 0x1FFFFFF, .padd t0 1 2 true 3 0, .padd t0 1 2 false 0 64, .pmov t0 true 1 2, .pmov t0 false 1 2,
        .sld t0 1 0 0, .sst t0 1 0 0]

/-- Each scalar command is the word of tile 0 and ready, and its access is allowed, at the first and at the last bytes of the SRAM
that the tile has. -/
theorem wit_ScalarInstructionsCompute :
    (∀ c ∈ scalars, Meets (spelling running c) c 5) ∧
    (spelling running (.sld t0 1 0 0)).alloc 0 [(0, 4, false)] = none ∧ (spelling running (.sst t0 1 0 0)).alloc 0 [(0, 4, true)] = none ∧
    running.alloc 0 [(0x17FFFFC, 4, false)] = none ∧ running.alloc 0 [(0x17FFFFC, 4, true)] = none := by
  refine ⟨.all ?_, ?_⟩ <;> decide +kernel

/-- A predicate that is not met. -/
def tn : Iss := { tile := 0, pred := 0, neg := true }

/-- A predicate that is not met, a busy ALU, a bank that fills, and a store outside the SRAM. -/
theorem wit_IssueOccupiesFaultsOrIsPredicatedOff :
    (∀ c ∈ [Instr.add tn 1 2 3, .ltld tn 0 1, .mac tn ⟨0, false, false, false, 0, 0, 0, false, 0⟩, .trcv tn 0 false, .wswp tn],
      tileOk (spelling running c).grade 0 = true ∧ (spelling running c).mayIssue 0 = true ∧
        ((spelling running c).tile 0).met tn = false ∧ (spelling running c).spells c 0 = true) ∧
    (∀ r, ((running.tile 0).res r).free ≤ running.clk) ∧
    (let s := spelling (withTile { alu := { free := 101, holder := 3 } }) (.add t0 1 2 3)
     s.mayIssue 0 = true ∧ s.spells (.add t0 1 2 3) 0 = true ∧ s.clk < (s.tile 0).alu.free) ∧
    (let s := spelling (withTile { fillBank := 1, fillDone := 101 }) (.wswp t0)
     s.mayIssue 0 = true ∧ s.spells (.wswp t0) 0 = true ∧ (s.tile 0).met t0 = true ∧ (s.tile 0).fillBank = 1 - (s.tile 0).active ∧
       s.clk < (s.tile 0).fillDone) ∧
    (let s := spelling running (.sst t0 1 0 0)
     Meets s (.sst t0 1 0 0) 5 ∧ s.alloc 0 [(0x1800000, 4, true)] = some (1, 0x1800000)) ∧
    (let s := spelling running (.sld t0 1 0 0)
     Meets s (.sld t0 1 0 0) 5 ∧ s.allocGo 0 false 65 0x1800000 4 = some (1, 0x1800000)) := by
  refine ⟨?_, ?_, ?_, ?_, ⟨.of ?_, ?_⟩, .of ?_, ?_⟩
  case refine_2 =>
    intro r
    have h : running.tile 0 = {} := by decide +kernel
    rw [h]
    unfold Tile.res
    split <;> decide
  all_goals decide +kernel

/-- PAD, FWAIT to the last slot, LOOP and HALT; the loop stack inside a body. -/
theorem wit_ControlWordsSetTheIssueClk :
    (∀ c ∈ [Instr.pad t0 0, .pad t0 0xFFFFF, .fwait t0 0, .fwait t0 999, .loop t0 3 1, .halt t0], Meets (spelling running c) c 0) ∧
    999 < running.F ∧ (7 : Nat) ≠ 8 := by
  refine ⟨.all ?_, ?_, ?_⟩ <;> decide +kernel

/-- A tile of the inference partition, each source of a mark, a mark that is set and one that is not. -/
theorem wit_FrameContextAndMarks :
    (∀ c ∈ [Instr.fsel t0 0 true 1 2, .fsel t0 255 false 0 0, .mark t0 ⟨0, 0, 0, 0, 0, 5, 0⟩, .mark t0 ⟨0, 0, 0, 0, 1, 5, 0⟩,
      .mark t0 ⟨0, 0, 0, 0, 2, 5, 0⟩, .mark t0 ⟨1, 0, 0, 1, 2, 1023, 0⟩, .mchk t0 0 true, .mchk t0 0 false],
      Meets (spelling running c) c 0) ∧
    running.windowTile 0 = false ∧ (0 : Int) = (BitVec.ofNat 16 ((running.tile 0).sreg 1)).toInt ∧
    (running.alloc 0 [(0, 1, false)] = none ∧ (0 : Int) = ((readByte running.mem (sramBase 0 + 0)).toNat : Int) - (0 : Nat)) ∧
    ((0 : Int) = (readByte running.mem (sramBase 0 + 0)).toInt) ∧
    (running.alloc 0 [(0x17FFFFE, 2, false)] = none ∧
      (0 : Int) = (readByte running.mem (sramBase 0 + 0x17FFFFE + 1) ++ readByte running.mem (sramBase 0 + 0x17FFFFE)).toInt) ∧
    (∀ c ∈ [Instr.mchk t0 31 true, .mchk t0 31 false], Meets (spelling (withTile { cm := [(31, true)] }) c) c 0) ∧
    mget false ((withTile { cm := [(31, true)] }).tile 0).cm 31 = true ∧ mget false (running.tile 0).cm 0 = false := by
  refine ⟨.all ?_, ?_, ?_, ?_, ?_, ?_, .all ?_, ?_, ?_⟩ <;> decide +kernel

theorem wit_FselInTheWindowPartition :
    let c : Instr := .fsel t0 1 false 0 2
    let s := spelling { running with job := { running.job with partition := [2] } } c
    Meets s c 0 ∧ s.windowTile 0 = true := by
  refine ⟨.of ?_, ?_⟩ <;> decide +kernel

/-- Every source of XLD, MAC and CMAC has its bytes: the latch, the SRAM, each of the three ports. -/
theorem wit_ArrayInstructionsCompute :
    let tok : Option Token := some { word := 1 }
    let s := { running with net := { running.net with regs := [(5, tok), (6, tok), (7, tok)] } }
    let first := 1 :: List.replicate 31 0
    let mac := fun (src slice : Nat) => (⟨3, false, true, true, 0, src, 0, false, slice⟩ : MacOps)
    (∀ c ∈ [Instr.xld t0 1 0 true 0 0, .xld t0 2 0 false 1 0, .xld t0 3 0 false 15 0, .xld t0 4 0 false 0 0], Meets (spelling s c) c 3) ∧
    Meets (spelling s (.wswp t0)) (.wswp t0) 0 ∧
    (∀ c ∈ [Instr.mac t0 (mac 0 0), .mac t0 (mac 1 0), .mac t0 (mac 2 0), .mac t0 (mac 3 15), .cmac t0 (mac 4 0) 1 4095],
      Meets (spelling s c) c 1) ∧
    s.sourceBytes 0 0 0 0 0 = some (List.replicate 32 0) ∧ s.sourceBytes 0 1 0 0x17FFFE0 0 = some (List.replicate 32 0) ∧
    s.sourceBytes 0 2 0 0 0 = some first ∧ s.sourceBytes 0 3 0 0 0 = some first ∧
    s.sourceBytes 0 4 0 0 15 = some (List.replicate 32 0) ∧
    ((s.tile 0).fillBank ≠ 1 - (s.tile 0).active ∨ (s.tile 0).fillDone ≤ s.clk) := by
  refine ⟨.all ?_, .of ?_, .all ?_, ?_⟩ <;> decide +kernel

/-- The whole bank with its zero points. -/
theorem wit_WldFillsTheInactiveBank :
    let c : Instr := .wld t0 0 0 31 true 0
    let s := spelling running c
    Meets s c 2 ∧ s.alloc 0 [((s.tile 0).preg 0, 32 * 1024 + 1024, false)] = none := by
  refine ⟨.of ?_, ?_⟩ <;> decide +kernel

/-- Each post instruction with all its accesses, at the longest rows. -/
theorem wit_PostInstructionsIssue :
    (∀ c ∈ [Instr.bias t0 3 31 0, .scan t0 0 31 1, .sbtrk t0 1 0 (-64) 7 255, .sbopn t0 ⟨0, 0, 31, 0, 1, 0, 4095, 1⟩,
      .sbopn t0 ⟨1, 1, 31, 7, 32767, 255, 4095, 1⟩, .ltld t0 3 0, .lut t0 0 1 31 0 3 2, .gath t0 0 1 2 0 31 0 0],
      Meets (spelling running c) c 4) ∧
    running.alloc 0 [(0, 4 * 1024, false)] = none ∧
    running.alloc 0 ((List.range 32).map (fun i => (((running.tile 0).sb 1).tbase + 4 * ((4095 + i) % 4096), 4, false))) = none ∧
    running.alloc 0 [(0, 256, false)] = none ∧ running.alloc 0 [(0, rowBytes 3 1024, false), (0, rowBytes 2 1024, true)] = none ∧
    running.alloc 0 [(0, rowBytes 0 1024, false), (0, 2 * 32, false), (0, rowBytes 0 32, true)] = none := by
  refine ⟨.all ?_, ?_⟩ <;> decide +kernel

theorem wit_PostRowsCompute :
    let s := withTile { p := [(1, 4096)] }
    (∀ c ∈ [Instr.bias t0 0 31 0, .scan t0 0 31 1, .scan t0 0 31 0, .ltld t0 0 0, .lut t0 0 1 31 0 1 0], Meets (spelling s c) c 4) ∧
    s.alloc 0 [((s.tile 0).preg 0, 4 * 1024, false)] = none ∧
    s.alloc 0 [((s.tile 0).preg 0, 256, false)] = none ∧
    s.alloc 0 [((s.tile 0).preg 0, 1024, false), ((s.tile 0).preg 1, 1024, true)] = none ∧
    (s.tile 0).preg 0 + 1024 ≤ (s.tile 0).preg 1 ∧ (mget 0 ((s.tile 0).file 0).vals 0).natAbs ≤ 2 ^ 31 := by
  refine ⟨.all ?_, ?_⟩ <;> decide +kernel

/-- A scale buffer of one row for each clause of RQ: no slot, another tag, an input slot that is absent or unwritten, and
all of it in order (with and without tracking); for AADD and AMAX a row operand in each condition. -/
theorem wit_ScaledRowsCompute :
    let one : SBuf := { count := 1, ents := [(0, ⟨3, 1, false⟩)], written := [(0, true)] }
    let s := withTile { sb0 := one }
    let u := withTile { sb0 := { one with tag := 1 }, sb1 := { one with src := 1, written := [] } }
    let v := withTile { fvoid := false, sb0 := { one with src := 1 }, sb1 := one }
    let w := withTile { p := [(1, 8192)], fvoid := false, sb0 := { one with src := 1, opened := true, obase := 4096 }, sb1 := one }
    let row : AlnOp := ⟨true, 0, 0, 0, 0, 0, 0⟩
    let file : AlnOp := ⟨false, 3, 0, 0, 0, 0, 0⟩
    let rq := fun (b i : Nat) (unit : Bool) => (⟨0, 31, 1, b, 0, unit, i, 255, -64, 4, 0, false, 0⟩ : RqOps)
    (∀ x ∈ [s, u, v, w], ∀ c ∈ [Instr.rq t0 (rq 0 0 true), .rq t0 (rq 0 0 false), .rq t0 (rq 1 0 false), .aadd t0 1 31 row file,
      .amax t0 1 31 file row, .aadd t0 0 0 file file], Meets (spelling x c) c 4) ∧
    ((s.tile 0).sb1.count ≤ 0) ∧ ((u.tile 0).sb0.tagOf 0 ≠ ((u.tile 0).file 0).tag) ∧
    (0 < (s.tile 0).sb0.count ∧ (s.tile 0).sb0.tagOf 0 = ((s.tile 0).file 0).tag ∧ (s.tile 0).sb1.count ≤ 0) ∧
    (0 < (u.tile 0).sb1.count ∧ (u.tile 0).sb1.tagOf 0 = ((u.tile 0).file 0).tag ∧ 0 < (u.tile 0).sb0.count) ∧
    ((u.tile 0).sb1.has 0 = false ∧ (v.tile 0).sb1.has 0 = true ∧ (v.tile 0).sb1.ent 0 = ⟨3, 1, false⟩) ∧
    (let x := (w.tile 0).rqCap (rq 0 0 false) 1 ((w.tile 0).sb1.expOf 0)
     w.alloc 0 ([((w.tile 0).preg 1, rowBytes 4 1024, true)] ++ [(x.taddr, 4, true)]) = none ∧ x.track = true ∧
       x.taddr + 4 ≤ (w.tile 0).preg 1) ∧
    (s.alloc 0 [(0, rowBytes 4 1024, true)] = none ∧ ((s.tile 0).rqCap (rq 0 0 true) 0 0).track = false) ∧
    ((s.tile 0).alnFault row = none ∧ (s.tile 0).alnFault file = none ∧ s.alloc 0 [(0, rowBytes 0 1024, false)] = none) ∧
    (row.row = true ∧ (running.tile 0).sb0.count ≤ row.slot) ∧
    (let x := { row with buf := 1 }
     x.slot < (u.tile 0).sb1.count ∧ ((u.tile 0).sb x.buf).has x.slot = false) := by
  refine ⟨?_, ?_⟩
  · intro x hx
    simp only [List.mem_cons, List.not_mem_nil, or_false] at hx
    rcases hx with rfl | rfl | rfl | rfl <;> exact .all (by decide +kernel)
  · decide +kernel

/-- A word with its frame tag in each port, an empty register, and a rafter to a placed neighbour. -/
theorem wit_MoverMovesWords :
    let tok : Option Token := some { word := 1, tag := some 5 }
    let s := { running with net := { running.net with regs := [(5, some { word := 1 }), (6, tok), (7, tok)] } }
    let n := put running [(key (0x2300 + 13) 3, ast_virtual_row, 1), (key (0x2300 + 13) 3, ast_virtual_column, 0)]
    (∀ c ∈ [Instr.rrcv t0 0 0 7 true, .rrcv t0 1 0 0 false, .srcv t0 0 0 7 true false 0 0, .srcv t0 1 0 0 false true 1 2, .trcv t0 0 true,
      .tsnd t0 0 true, .tdi t0 0 false], Meets (spelling s c) c 3) ∧
    s.reg (regKey 0 5) = some { word := 1 } ∧ s.reg (regKey 0 6) = tok ∧ s.reg (regKey 0 7) = tok ∧
    s.alloc 0 [(0, 64 * 8, true)] = none ∧ s.alloc 0 [(0, 64, false)] = none ∧ running.reg (regKey 0 6) = none ∧
    (n.rafterTo 0 true).isSome = true ∧ Meets (spelling n (.rsnd t0 1 0 7 true)) (.rsnd t0 1 0 7 true) 3 := by
  refine ⟨.all ?_, ?_, ?_, ?_, ?_, ?_, ?_, ?_, .of ?_⟩ <;> decide +kernel

/-- A header with tag 0, one row: good for SLLD and SLRCV; none (a header of 0) and another tag; a block to write out and one
with an unwritten slot. -/
theorem wit_ScaleBlocksMove :
    let g := running.write (sramBase 0) [0, 0, 0, 1]
    let b := running.write (sramBase 0) [0, 1, 0, 1]
    let r : State := { running with net := { running.net with regs := [(5, some { word := 2 ^ 24 }), (6, some { word := 2 ^ 24 })] } }
    let h := leNat (g.sram 0 0 4)
    let k := leNat (b.sram 0 0 4)
    let u := withTile { sb0 := { count := 1 } }
    let slld : Instr := .slld t0 0 0 0 0
    (Meets (spelling g slld) slld 3 ∧ g.alloc 0 [(0, 68, false)] = none ∧ 1 ≤ h / 2 ^ 24 % 64 ∧ h / 2 ^ 24 % 64 ≤ 32 ∧
      h / 2 ^ 8 % 2 ^ 16 = 0) ∧
    (leNat (running.sram 0 0 4) / 2 ^ 24 % 64 = 0 ∧ Meets (spelling running slld) slld 3) ∧
    (1 ≤ k / 2 ^ 24 % 64 ∧ k / 2 ^ 24 % 64 ≤ 32 ∧ k / 2 ^ 8 % 2 ^ 16 ≠ 0 ∧ Meets (spelling b slld) slld 3) ∧
    (r.reg (regKey 0 6) = some { word := 2 ^ 24 } ∧ r.reg (regKey 0 5) = some { word := 2 ^ 24 } ∧
      ∀ c ∈ [Instr.slrcv t0 0 0 0 0, .slrcv t0 1 2 0 0], Meets (spelling r c) c 3) ∧
    (((running.tile 0).sb 0).unwritten = none ∧ running.alloc 0 [(0, 68, true)] = none ∧
      ∀ c ∈ [Instr.slst t0 0 0, .slsnd t0 0 1, .slsnd t0 1 2], Meets (spelling running c) c 3) ∧
    (((u.tile 0).sb 0).unwritten = some 0 ∧ Meets (spelling u (.slst t0 0 0)) (.slst t0 0 0) 3) := by
  refine ⟨⟨.of ?_, ?_⟩, ⟨?_, .of ?_⟩, ⟨?_, ?_, ?_, .of ?_⟩, ⟨?_, ?_, .all ?_⟩, ⟨?_, ?_, .all ?_⟩, ⟨?_, .of ?_⟩⟩ <;> decide +kernel

/-- WordsSpellTheirInstructions: every command above is well-formed, and a load accepts its word. -/
theorem wit_WordsSpellTheirInstructions :
    ∀ c ∈ scalars ++ [Instr.pad t0 0xFFFFF, .halt t0, .mark t0 ⟨1, 0, 0, 1, 2, 1023, 0⟩, .gath t0 0 1 2 0 31 0 0,
      .srcv t0 1 0 0 false true 1 2], c.wf = true ∧ issueOf c = some t0 ∧ wordErr ((encodeWord c).getD 0) 2048 = some {} := by
  decide +kernel

end Sys2Proof.Tests
end

