-- ==== Sys2Proof/Tests/WitTime.lean ====
section
/-! SUPPORT. Witnesses of the statements about time. -/

namespace Sys2Proof.Tests

open Sys2Proof.Machine

set_option Elab.async false

/-- Ticks with nothing pending, a set and an adjustment; a clk that is no tick; writes that are accepted at both ends and refused. -/
theorem wit_MainClockTicksAndSteps :
    let s := running
    let set := { s with time := { setNext := some 9 } }
    let adj := { s with time := { adjNext := some (-3) } }
    let v := (31968 * 2 ^ 32 + 9999) / 10000
    let servo := put s [(key 0x2E00 1, tctl_servo_enable, 1)]
    (s.clk % 4 = 0 ∧ s.time.tickClk < s.clk ∧ s.time.setNext = none ∧ s.time.adjNext = none) ∧
    (({ s with rst := { available := true } } : State).dictOpen = true ∧ s.dictOpen = false) ∧
    (set.time.tickClk < set.clk ∧ set.time.setNext = some 9 ∧ set.time.adjNext = none) ∧
    (adj.time.tickClk < adj.clk ∧ adj.time.setNext = none ∧ adj.time.adjNext = some (-3)) ∧ ({ s with clk := 101 } : State).clk % 4 ≠ 0 ∧
    (put s [(key 0x2E00 1, tctl_servo_enable, 0)]).flag (key 0x2E00 1) tctl_servo_enable = false ∧
    (31968 * 2 ^ 32 ≤ v * 10000 ∧ v * 10000 ≤ 32032 * 2 ^ 32 ∧ ¬ 31968 * 2 ^ 32 ≤ (v - 1) * 10000) ∧
    servo.flag (key 0x2E00 1) tctl_servo_enable = true ∧
    (State.reset.active = false ∧ (999999999 * 2 ^ 32) / 2 ^ 32 % 2 ^ 32 ≤ 999999999 ∧
      ¬ (1000000000 * 2 ^ 32) / 2 ^ 32 % 2 ^ 32 ≤ 999999999) ∧ s.active = true := by decide +kernel

/-- A commit that is due; a first refit, a second one that changes the rate and one too soon; the clock on the fall-back. -/
theorem wit_FallbackClockStandsIn :
    let s := { put running [(key 0x2E00 1, tctl_fb_auto, 1), (kTime, tsts_main_valid, 1), (kTime, tsts_on_fallback, 0)] with
      time := { fbCommit := true, fbTicks := 312500000, main := 4294967296000000001 } }
    let again := { s with time := { s.time with fbPrev := some (0, 0) } }
    let soon := { s with time := { s.time with fbPrev := some (1, 0) } }
    let dt : Int := ((again.time.fbTicks : Int) - (0 : Nat)) * 68719476736
    let num : Int := (5 * ((again.time.main : Int) - (0 : Nat)) - dt) * 2 ^ 40
    (s.clk % 4 = 0 ∧ s.time.tickClk < s.clk ∧ s.time.fbCommit = true) ∧
    (s.flag (key 0x2E00 1) tctl_fb_auto = true ∧ s.flag kTime tsts_main_valid = true ∧ s.flag kTime tsts_on_fallback = false ∧
      s.time.fbPrev = none) ∧
    (again.time.fbPrev = some (0, 0) ∧ 0 + 312500000 ≤ again.time.fbTicks ∧ 0 ≤ num + 2 ^ 31 * dt ∧ num ≤ (2 ^ 31 - 1) * dt ∧ num ≠ 0) ∧
    (soon.time.fbPrev = some (1, 0) ∧ soon.time.fbTicks < 1 + 312500000) ∧
    islandOk s.grade 126 = true ∧ islandOk s.grade 0 = true ∧ s.active = true ∧
    (put s [(kTime, tsts_on_fallback, 1)]).flag kTime tsts_on_fallback = true ∧
    (s.time.since ≤ s.clk ∧ s.time.fbLive = false ∧ s.time.tickClk % 4 = 0 ∧ 0 < s.clk ∧ s.time.since ≤ 0) := by decide +kernel

/-- A domain with a master, active and healthy with the servo on; an offset at the edge of its range; a timeout with the other
domain healthy and not; holdover that has ended and that keeps lock. -/
theorem wit_DomainsDisciplineTheClock :
    let dom : Domain := { master := some 0, same := 255, syncOk := true, annOk := true, started := true, asked := some (0, 7),
                          sent := some 0 }
    let s := { put running [(kDom 0, dom_domain_enable, 1), (kDoms 0, doms_master_seen, 1), (key 0x2E00 1, tctl_servo_enable, 1),
        (key 0x2E00 1, tctl_revert, 0), (kPst 0, pst_link_up, 1), (kTime, tsts_active_valid, 1), (kTime, tsts_time_lock, 1)] with
      rst := { available := true }, time := { portsOn := true, dom0 := dom } }
    let two := { put s [(kDom 1, dom_domain_enable, 1), (kDoms 1, doms_master_seen, 1)] with
      time := { portsOn := true, dom0 := { dom with syncOk := false }, dom1 := { dom with asked := some (0, 8) } } }
    let late := { s with clk := 5000000000 }
    let hold := put s [(kTime, tsts_holdover, 1), (kTime, tsts_time_lock, 1), (key 0x2E00 1, tctl_holdover_ms, 1)]
    let keeps := { hold with time := { hold.time with lockTime := some 100 } }
    let x : Exch := ⟨0, 2 ^ 32, 0, -3, 3⟩
    let o := offsetOf (s.rxStamp 0 x.t2) 0 x
    (s.rst.available = true ∧ s.flag (kDom 0) dom_domain_enable = true ∧ s.flag (kDoms 0) doms_master_seen = true) ∧
    (s.portUp 0 = true ∧ (s.domain 0).master ≠ some 1 ∧ ¬ (s.domain 0).master ≠ some 0 ∧ (two.domain 0).master ≠ none) ∧
    (s.tracks 0 = true ∧ (s.domain 0).sent = some 0 ∧ (s.domain 0).asked = some (s.fld (kDoms 0) doms_upstream_port, 7) ∧
      (s.domain 0).asked ≠ some (s.fld (kDoms 0) doms_upstream_port, 8) ∧ o < 2 ^ 63 ∧ -(2 ^ 63) ≤ o ∧ o = 32771 ∧
      (s.domain 0).started = true) ∧
    (s.activeDomain = 0 ∧ s.domainHealthy 0 = true ∧ s.flag (key 0x2E00 1) tctl_revert = false ∧
      o.natAbs ≤ 65536 * s.fld (key 0x2E00 1) tctl_lock_window ∧ s.flag (key 0x2E00 1) tctl_servo_enable = true) ∧
    (two.domainHealthy 1 = true ∧ two.activeDomain = 1 - 1 ∧ two.domainHealthy 0 = false ∧ two.tracks 1 = true ∧
      (two.domain 1).asked = some (two.fld (kDoms 1) doms_upstream_port, 8)) ∧
    ((late.domain 0).syncOk = true ∧ late.syncOver 0 = true ∧ s.syncOver 0 = false ∧ s.flag kTime tsts_active_valid = true ∧
      s.flag kTime tsts_holdover = false ∧ s.flag kTime tsts_time_lock = true) ∧
    (hold.flag kTime tsts_holdover = true ∧ hold.flag kTime tsts_time_lock = true ∧ hold.holdoverKeeps = false ∧
      keeps.holdoverKeeps = true) := by decide +kernel

/-- Frames with an error, forwarded, dropped and kept; a port that serves; stamps of the largest values, with room and without. -/
theorem wit_PortsForwardServeAndStamp :
    let f : PtpFrame := ⟨1522, true, 1, 0x88F7, none, 0, 0, false, 0, 0, 5, []⟩
    let udp : PtpFrame := { f with etherType := 0x0800, udpPort := some 319, checksum := 9, msgType := 3 }
    let own : PtpFrame := { f with msgType := 9, toOwn := true }
    let s := put running [(kPort 0, port_port_enable, 1), (kPort 0, port_serve_enable, 1), (kPst 0, pst_link_up, 1),
      (key 0x2E00 1, tctl_tc_enable, 1)]
    let both := put s [(kPst 1, pst_link_up, 1)]
    let asks := { s with time := { syncs := [(0, 65535)], reqs := [(0, 3)], portsOn := true } }
    let full := { asks with time := { asks.time with txq := List.replicate 64 0 } }
    s.flag (kPort 0) port_port_enable = true ∧ s.flag (kPst 0) pst_link_up = true ∧ running.portUp 0 = false ∧ (1522 < ({ f with bytes := 1523 } : PtpFrame).bytes ∧ f.bytes ≤ 1522 ∧ f.fcsOk = true) ∧
    (ownResp f = false ∧ ownResp own = true ∧ eventFrame f = true ∧ eventFrame udp = true ∧
      eventFrame { udp with etherType := 0x86DD } = false ∧ eventFrame { f with vlanTags := 2 } = false ∧
      s.flag (key 0x2E00 1) tctl_tc_enable = true ∧ both.portSends (1 - 0) = true ∧ s.portSends (1 - 0) = false) ∧
    (0 ≤ 1000 * ((2 ^ 40 : Nat) : Int) + signed 16 (s.fld (kPort 0) port_rx_asym) * 2 ^ 32) ∧
    (put s [(key 0x2E00 1, tctl_tc_enable, 0)]).flag (key 0x2E00 1) tctl_tc_enable = false ∧ s.serves 0 = true ∧
    (asks.awaits 0 0 65535 = true ∧ asks.awaits 0 1 3 = true ∧ asks.awaits 0 0 3 = false ∧ full.awaits 0 1 3 = true) ∧
    asks.time.txq.length < 64 ∧ 64 ≤ full.time.txq.length := by decide +kernel

/-- An edge that is taken (with and without the timeline), one too soon after the last, one not chosen; an entry whose hold is
over, into a ring with room and a full one, and one that is held; a consumer at the producer and one past it. -/
theorem wit_TriggersEnterTheTimeline :
    let s := put running [(key (0x2E28 + 15) 1, trig_edge, 1), (key (0x2E28 + 15) 1, trig_to_timeline, 1)]
    let near := { s with time := { trigLast := [(15, some 25000)] } }
    let e : TlEnt := ⟨0, 0, 1, 0, false⟩
    let u := { put running [(kTlc, tlc_merge_hold, 0)] with time := { held := [e] } }
    let full := putEnt u [(kTlP, 4096)]
    (s.fld (key (0x2E28 + 15) 1) trig_edge = 1 ∧ (∀ q, mget none s.time.trigLast 15 = some q → False) ∧
      s.flag (key (0x2E28 + 15) 1) trig_to_timeline = true ∧ s.time.lastRel = none) ∧
    (put s [(key (0x2E28 + 15) 1, trig_to_timeline, 0)]).flag (key (0x2E28 + 15) 1) trig_to_timeline = false ∧
    (mget none near.time.trigLast 15 = some 25000 ∧ ¬ 25000 + 2048 ≤ 1024 * (near.clk / 4) + 10 * 0) ∧
    running.fld (key (0x2E28 + 15) 1) trig_edge = 0 ∧
    (tlBefore (0, 5) (0, 6) = true ∧ tlBefore (0, 6) (0, 6) = false ∧ (s.ent kTlP + 2 ^ 32 - s.ent kTlC) % 2 ^ 32 < 4096 ∧
      ({ s with time := { lastRel := some (2 ^ 90, 6) } } : State).time.lastRel = some (2 ^ 90, 6) ∧ s.clk = 100) ∧
    (firstHeld u.time.held = some e ∧ e.stamp + u.fld kTlc tlc_merge_hold * 1000 * 2 ^ 32 < u.now ∧ e.ooo = false) ∧
    ¬ 4096 ≤ (u.ent kTlP + 2 ^ 32 - u.ent kTlC) % 2 ^ 32 ∧ 4096 ≤ (full.ent kTlP + 2 ^ 32 - full.ent kTlC) % 2 ^ 32 ∧
    (let w := put u [(kTlc, tlc_merge_hold, 1)]
     w.now ≤ e.stamp + w.fld kTlc tlc_merge_hold * 1000 * 2 ^ 32) ∧
    (¬ (full.ent kTlP + 2 ^ 32 - full.ent kTlC) % 2 ^ 32 < (4096 + 2 ^ 32 - full.ent kTlC) % 2 ^ 32 ∧
      (full.ent kTlP + 2 ^ 32 - full.ent kTlC) % 2 ^ 32 < (4097 + 2 ^ 32 - full.ent kTlC) % 2 ^ 32) := by
  refine ⟨⟨?_, ?_, ?_, ?_⟩, ?_, ?_, ?_, ?_, ?_, ?_, ?_, ?_, ?_⟩
  case refine_2 =>
    intro q h
    have : mget (none : Option Nat) [] 15 = some q := h
    cases this
  all_goals decide +kernel

end Sys2Proof.Tests
end

section
/-! SUPPORT. What every effect keeps, said once per operation of the model: the part, the queue and the canonical forms of the
dictionary and of memory (R3, R5, R435). The proof about an operation names the operations it is made of, in their order:
`h.setFld.raise` is about a state after a write of a field and a vector. -/

namespace Sys2Proof.Machine

-- The many short proofs of this section are elaborated in one thread: one thread each exhausts the memory of the check.
set_option Elab.async false

/-- Nothing is in flight in the grid, and no tile has an act planned. -/
def Idle (net : Net) (tiles : SMap Tile) : Prop := net.flights = [] ∧ ∀ p, (mget {} tiles p).pend = []

/-- What no effect within a clk changes: the clk, the transmit stamps that wait, the software reset that is due, and that
a fault of the clk is to be told. -/
structure Within (s t : State) : Prop where
  clk : t.clk = s.clk
  stamps : t.time.txq = s.time.txq
  soft : t.rst.soft = s.rst.soft
  faulted : s.flt.active = true → t.flt.active = true

/-- `t` has the queue, the grade and the stepping of `s`, and the canonical forms where `s` has them (any effect, `μ` 0); it
keeps what stands within a clk (`μ` 1); and it sets nothing going in the grid where nothing was (`μ` 2). -/
structure Keeps (μ : Nat) (s t : State) : Prop where
  pending : t.pending = s.pending
  grade : t.grade = s.grade
  stepping : t.stepping = s.stepping
  canon : s.canon → t.canon
  within : 1 ≤ μ → Within s t
  idle : 2 ≤ μ → Idle s.net s.tiles → Idle t.net t.tiles

/-- The outcome is a next state, which keeps what `s` has. -/
def Answers (μ : Nat) (s : State) : Out → Prop
  | .next t => Keeps μ s t
  | _ => False

/-- What is answered without an error keeps what `s` has. -/
def OkKeeps {ε : Type} (μ : Nat) (s : State) : Except ε State → Prop
  | .ok t => Keeps μ s t
  | .error _ => True

/-- What is answered, if anything, keeps what `s` has. -/
def SomeKeeps (μ : Nat) (s : State) : Option State → Prop
  | some t => Keeps μ s t
  | none => True

/-- The dictionary's part of the canonical forms: keys rise, and none is listed at the default `d` gives it. -/
def Rising (d : Nat → Nat) (m : SMap Nat) : Prop :=
  (m.map Prod.fst).Pairwise (· < ·) ∧ ∀ e ∈ m, e.2 ≠ d e.1

theorem State.canon_iff (s : State) : s.canon ↔ Rising (dflt s.grade s.stepping) s.dict ∧ Memory.wf s.mem = true := by
  simp only [State.canon, Rising, and_assoc]

section Rising

variable {d : Nat → Nat} {m : SMap Nat} {k v : Nat}

theorem Rising.sublist {m' : SMap Nat} (h : Rising d m) (hs : m'.Sublist m) : Rising d m' :=
  ⟨h.1.sublist (hs.map _), fun e he => h.2 e (hs.subset he)⟩

theorem Rising.cons_iff {e : Nat × Nat} :
    Rising d (e :: m) ↔ (∀ x ∈ m, e.1 < x.1) ∧ e.2 ≠ d e.1 ∧ Rising d m := by
  simp only [Rising, List.map_cons, List.pairwise_cons, List.mem_map, forall_exists_index, and_imp,
    forall_apply_eq_imp_iff₂, List.forall_mem_cons]
  tauto

theorem mdel_sublist (m : SMap Nat) (k : Nat) : (mdel m k).Sublist m := by
  induction m with
  | nil => exact .slnil
  | cons e m ih =>
    unfold mdel
    split
    · exact (List.dropWhile_sublist _).cons _
    · split
      · exact List.Sublist.refl _
      · exact ih.cons_cons _

theorem Rising.mdel (h : Rising d m) : Rising d (mdel m k) := h.sublist (mdel_sublist m k)

theorem lt_of_mem_mput {n : Nat} (hk : n < k) (h : ∀ x ∈ m, n < x.1) : ∀ x ∈ mput m k v, n < x.1 := by
  induction m with
  | nil => simpa [mput] using hk
  | cons e m ih =>
    obtain ⟨he, hm⟩ := List.forall_mem_cons.mp h
    unfold mput
    split
    · exact List.forall_mem_cons.mpr ⟨hk, hm⟩
    · split
      · exact List.forall_mem_cons.mpr ⟨hk, h⟩
      · exact List.forall_mem_cons.mpr ⟨he, ih hm⟩

theorem Rising.mput (h : Rising d m) (hv : v ≠ d k) : Rising d (mput m k v) := by
  induction m with
  | nil => exact Rising.cons_iff.mpr ⟨by simp, hv, h⟩
  | cons e m ih =>
    obtain ⟨hlt, hne, hm⟩ := Rising.cons_iff.mp h
    unfold Machine.mput
    split
    · next hk => exact Rising.cons_iff.mpr ⟨hk ▸ hlt, hv, hm⟩
    · split
      · next hk =>
        exact Rising.cons_iff.mpr ⟨List.forall_mem_cons.mpr ⟨hk, fun x hx => Nat.lt_trans hk (hlt x hx)⟩, hv, h⟩
      · next hne' hnlt => exact Rising.cons_iff.mpr ⟨lt_of_mem_mput (by omega) hlt, hne, ih hm⟩

/-- A write of a key over its own default keeps the form. -/
theorem Rising.mset (h : Rising d m) : Rising d (mset (d k) m k v) := by
  unfold Machine.mset
  split
  · exact h.mdel
  · next hv => exact h.mput hv

end Rising

variable {μ : Nat} {s₀ s t : State}

theorem Within.refl (s : State) : Within s s := ⟨rfl, rfl, rfl, id⟩

theorem Within.trans {u : State} (h : Within s t) (k : Within t u) : Within s u :=
  ⟨k.clk.trans h.clk, k.stamps.trans h.stamps, k.soft.trans h.soft, fun f => k.faulted (h.faulted f)⟩

theorem Keeps.refl (s : State) : Keeps μ s s := ⟨rfl, rfl, rfl, id, fun _ => .refl s, fun _ => id⟩

theorem Keeps.trans {u : State} (h : Keeps μ s t) (k : Keeps μ t u) : Keeps μ s u :=
  ⟨k.pending.trans h.pending, k.grade.trans h.grade, k.stepping.trans h.stepping, fun c => k.canon (h.canon c),
    fun l => (h.within l).trans (k.within l), fun l i => k.idle l (h.idle l i)⟩

/-! ### The shapes of an effect -/

theorem Keeps.ite {c : Prop} [Decidable c] (ha : Keeps μ s₀ s) (hb : Keeps μ s₀ t) : Keeps μ s₀ (if c then s else t) := by
  split
  · exact ha
  · exact hb

theorem Keeps.ite_fst {α : Type} {c : Prop} [Decidable c] {a b : State × α} (ha : Keeps μ s₀ a.1) (hb : Keeps μ s₀ b.1) :
    Keeps μ s₀ (if c then a else b).1 := by
  split
  · exact ha
  · exact hb

theorem Answers.ite {c : Prop} [Decidable c] {a b : Out} (ha : Answers μ s₀ a) (hb : Answers μ s₀ b) :
    Answers μ s₀ (if c then a else b) := by
  split
  · exact ha
  · exact hb

theorem OkKeeps.ite {ε : Type} {c : Prop} [Decidable c] {a b : Except ε State} (ha : OkKeeps μ s₀ a) (hb : OkKeeps μ s₀ b) :
    OkKeeps μ s₀ (if c then a else b) := by
  split
  · exact ha
  · exact hb

theorem SomeKeeps.ite {c : Prop} [Decidable c] {a b : Option State} (ha : SomeKeeps μ s₀ a) (hb : SomeKeeps μ s₀ b) :
    SomeKeeps μ s₀ (if c then a else b) := by
  split
  · exact ha
  · exact hb

theorem OkKeeps.keeps {ε : Type} {x : Except ε State} (h : OkKeeps μ s₀ x) (e : x = .ok t) : Keeps μ s₀ t := by
  rw [e] at h
  exact h

theorem Answers.keeps {o : Out} (h : Answers μ s₀ o) (e : o = .next t) : Keeps μ s₀ t := by
  rw [e] at h
  exact h

theorem Answers.next {o : Out} (h : Answers μ s₀ o) : ∃ t, o = .next t := by
  cases o with
  | next t => exact ⟨t, rfl⟩
  | fault => exact h.elim
  | refused => exact h.elim

theorem SomeKeeps.keeps {x : Option State} (h : SomeKeeps μ s₀ x) (e : x = some t) : Keeps μ s₀ t := by
  rw [e] at h
  exact h

theorem Keeps.foldl {α : Type} {f : State → α → State} {l : List α} (h : Keeps μ s₀ s)
    (hf : ∀ s a, Keeps μ s₀ s → Keeps μ s₀ (f s a)) : Keeps μ s₀ (l.foldl f s) := by
  induction l generalizing s with
  | nil => exact h
  | cons a l ih => exact ih (hf s a h)

/-- An effect on memory that keeps its form, and on the parts of the state that no form speaks of. -/
theorem Keeps.updMem {free mem tiles net tend land dec cap job berth time ctl rst recd sec tele flt out} (h : Keeps μ s₀ s)
    (hm : Memory.wf s.mem = true → Memory.wf mem = true) (hq : time.txq = s.time.txq := by rfl)
    (hs : rst.soft = s.rst.soft := by rfl) (ha : s.flt.active = true → flt.active = true := by exact fun a => a)
    (hi : Idle s.net s.tiles → Idle net tiles := by exact fun i => ⟨i.1, i.2⟩) :
    Keeps μ s₀ ⟨s.pending, s.clk, free, s.grade, s.stepping, s.dict, mem, tiles, net, tend, land, dec, cap, job, berth, time,
      ctl, rst, recd, sec, tele, flt, out⟩ :=
  h.trans ⟨rfl, rfl, rfl, fun c => ⟨c.1, c.2.1, hm c.2.2⟩, fun _ => ⟨rfl, hq, hs, ha⟩, fun _ => hi⟩

/-- An effect on memory as a command may have it: what stands within a clk, and what goes on in the grid, may change. -/
theorem Keeps.updMemAny [Fact (μ ≤ 0)] {clk free mem tiles net tend land dec cap job berth time ctl rst recd sec tele flt out}
    (h : Keeps μ s₀ s) (hm : Memory.wf s.mem = true → Memory.wf mem = true) :
    Keeps μ s₀ ⟨s.pending, clk, free, s.grade, s.stepping, s.dict, mem, tiles, net, tend, land, dec, cap, job, berth, time,
      ctl, rst, recd, sec, tele, flt, out⟩ :=
  have hμ : μ ≤ 0 := Fact.out
  h.trans ⟨rfl, rfl, rfl, fun c => ⟨c.1, c.2.1, hm c.2.2⟩, fun l => by omega, fun l => by omega⟩

/-- An effect on the parts of the state that no form speaks of. -/
theorem Keeps.upd {free tiles net tend land dec cap job berth time ctl rst recd sec tele flt out} (h : Keeps μ s₀ s)
    (hq : time.txq = s.time.txq := by rfl) (hs : rst.soft = s.rst.soft := by rfl)
    (ha : s.flt.active = true → flt.active = true := by exact fun a => a)
    (hi : Idle s.net s.tiles → Idle net tiles := by exact fun i => ⟨i.1, i.2⟩) :
    Keeps μ s₀ ⟨s.pending, s.clk, free, s.grade, s.stepping, s.dict, s.mem, tiles, net, tend, land, dec, cap, job, berth, time,
      ctl, rst, recd, sec, tele, flt, out⟩ := h.updMem id hq hs ha hi

/-- An effect on what goes on in the grid. -/
theorem Keeps.updGrid [Fact (μ ≤ 1)] {free tiles net tend land dec cap job berth time ctl rst recd sec tele flt out}
    (h : Keeps μ s₀ s) (hq : time.txq = s.time.txq := by rfl) (hs : rst.soft = s.rst.soft := by rfl)
    (ha : s.flt.active = true → flt.active = true := by exact fun a => a) :
    Keeps μ s₀ ⟨s.pending, s.clk, free, s.grade, s.stepping, s.dict, s.mem, tiles, net, tend, land, dec, cap, job, berth, time,
      ctl, rst, recd, sec, tele, flt, out⟩ :=
  have hμ : μ ≤ 1 := Fact.out
  h.trans ⟨rfl, rfl, rfl, id, fun _ => ⟨rfl, hq, hs, ha⟩, fun l => by omega⟩

/-- An effect that only a command or a new clk has. -/
theorem Keeps.updAny [Fact (μ ≤ 0)] {clk free tiles net tend land dec cap job berth time ctl rst recd sec tele flt out}
    (h : Keeps μ s₀ s) :
    Keeps μ s₀ ⟨s.pending, clk, free, s.grade, s.stepping, s.dict, s.mem, tiles, net, tend, land, dec, cap, job, berth, time,
      ctl, rst, recd, sec, tele, flt, out⟩ := h.updMemAny id

/-- An effect on the dictionary that keeps its form. -/
theorem Keeps.setDict {d : SMap Nat} (h : Keeps μ s₀ s)
    (hd : Rising (dflt s.grade s.stepping) s.dict → Rising (dflt s.grade s.stepping) d) : Keeps μ s₀ { s with dict := d } :=
  h.trans ⟨rfl, rfl, rfl, fun c =>
    have hc := s.canon_iff.mp c
    (State.canon_iff _).mpr ⟨hd hc.1, hc.2⟩, fun _ => ⟨rfl, rfl, rfl, id⟩, fun _ => id⟩

/-- What the block does by itself in a clk. -/
theorem Keeps.acts {f : State → Out} (h : Keeps μ s₀ s) (hf : Keeps μ s₀ s → Answers μ s₀ (f s)) : Keeps μ s₀ (s.acts f) := by
  have hn := hf h
  unfold State.acts
  split
  · next e =>
    rw [e] at hn
    exact hn
  · exact h

theorem Keeps.setEnt {k v} (h : Keeps μ s₀ s) : Keeps μ s₀ (s.setEnt k v) := h.setDict .mset

theorem Keeps.write {a bs} (h : Keeps μ s₀ s) : Keeps μ s₀ (s.write a bs) := h.updMem (writeBytes_wf _ _ _)

/-! ### Base -/

theorem Keeps.setFld {k f v} (h : Keeps μ s₀ s) : Keeps μ s₀ (s.setFld k f v) := h.setEnt

theorem Keeps.setFlag {k f b} (h : Keeps μ s₀ s) : Keeps μ s₀ (s.setFlag k f b) := h.setFld

theorem Keeps.bumpBy {k f n} (h : Keeps μ s₀ s) : Keeps μ s₀ (s.bumpBy k f n) := h.setFld

theorem Keeps.bump {k f} (h : Keeps μ s₀ s) : Keeps μ s₀ (s.bump k f) := h.bumpBy

theorem Keeps.fresh {w} (h : Keeps μ s₀ s) : Keeps μ s₀ (s.fresh w).2 := h.upd

theorem Keeps.emit {o} (h : Keeps μ s₀ s) : Keeps μ s₀ (s.emit o) := h.upd

theorem Keeps.freshMem {a n} (h : Keeps μ s₀ s) : Keeps μ s₀ (s.freshMem a n) := .ite h h.upd

theorem Keeps.rewrite {a bs} (h : Keeps μ s₀ s) : Keeps μ s₀ (s.rewrite a bs) := h.write.freshMem

theorem Keeps.ddrWrite {a bs} (h : Keeps μ s₀ s) : Keeps μ s₀ (s.ddrWrite a bs) := .ite h.rewrite h.rewrite

theorem Keeps.setTile [Fact (μ ≤ 1)] {p t} (h : Keeps μ s₀ s) : Keeps μ s₀ (s.setTile p t) := h.updGrid

/-! ### Report -/

theorem Keeps.raise {v} (h : Keeps μ s₀ s) : Keeps μ s₀ (s.raise v) := .ite h.upd.emit h

theorem Keeps.emcyLogWrite {b} (h : Keeps μ s₀ s) : Keeps μ s₀ (s.emcyLogWrite b) := .ite h.upd.setEnt.raise h.bump

theorem Keeps.emcyCan {b} (h : Keeps μ s₀ s) : Keeps μ s₀ (s.emcyCan b) := .ite h.upd h.upd.bump

theorem Keeps.emcy {cls d} (h : Keeps μ s₀ s) : Keeps μ s₀ (s.emcy cls d) := .ite h.emcyLogWrite h.emcyLogWrite.emcyCan

theorem Keeps.record {ty k p} (h : Keeps μ s₀ s) : Keeps μ s₀ (s.record ty k p) := .ite h.upd.setFld h.upd

theorem Keeps.raiseTimeline (h : Keeps μ s₀ s) : Keeps μ s₀ s.raiseTimeline := .ite h.upd.raise h.upd

theorem Keeps.releaseEntry {e} (h : Keeps μ s₀ s) : Keeps μ s₀ (s.releaseEntry e) :=
  .ite (Keeps.ite h.bump h.upd).bump (Keeps.ite h.bump h.upd).upd.setEnt.raiseTimeline

theorem Keeps.timelineEnter {stamp src kind detail} (h : Keeps μ s₀ s) : Keeps μ s₀ (s.timelineEnter stamp src kind detail) :=
  .ite h.releaseEntry h.upd

theorem Keeps.timeEvent {kind detail} (h : Keeps μ s₀ s) : Keeps μ s₀ (s.timeEvent kind detail) :=
  .ite (Keeps.ite h.timelineEnter h).record.emcy (Keeps.ite h.timelineEnter h).record

theorem Keeps.refreshHold (h : Keeps μ s₀ s) : Keeps μ s₀ s.refreshHold := by
  dsimp only [State.refreshHold]
  split
  · split
    · exact h.setFld
    · exact h.setFld.upd
  · exact .ite h.setFld.upd (.ite h.setFld.upd.setFlag.emit h.setFld.upd.setFlag)

theorem Keeps.forceOn (h : Keeps μ s₀ s) : Keeps μ s₀ s.forceOn :=
  .ite h (.ite (h.upd.foldl (fun _ _ k => k.emit)).setFlag.setFlag.emit (h.upd.foldl (fun _ _ k => k.emit)).setFlag.setFlag)

theorem Keeps.setDoubt {k on} (h : Keeps μ s₀ s) : Keeps μ s₀ (s.setDoubt k on) :=
  .ite h.setFld.upd.forceOn.refreshHold (.ite (.ite h.setFld.upd.refreshHold h.setFld.refreshHold) h.refreshHold)

theorem Keeps.writeStore {m} (h : Keeps μ s₀ s) : Keeps μ s₀ (s.writeStore m) := h.upd

theorem Keeps.store {k} (h : Keeps μ s₀ s) : Keeps μ s₀ (s.store k) := h.writeStore

theorem Keeps.persist {k} (h : Keeps μ s₀ s) : Keeps μ s₀ (s.persist k) := .ite h.upd h.store

theorem Keeps.storeUnsaved (h : Keeps μ s₀ s) : Keeps μ s₀ s.storeUnsaved := h.upd.foldl fun _ _ k => k.store

theorem Keeps.setJob {st} (h : Keeps μ s₀ s) : Keeps μ s₀ (s.setJob st) :=
  (Keeps.ite (Keeps.ite h.storeUnsaved h).setFld.raise (Keeps.ite h.storeUnsaved h).setFld).setDoubt

theorem Keeps.refreshLaneDoubt (h : Keeps μ s₀ s) : Keeps μ s₀ s.refreshLaneDoubt := .ite h.setDoubt h

theorem Keeps.refreshTimeDoubt (h : Keeps μ s₀ s) : Keeps μ s₀ s.refreshTimeDoubt := .ite h.setDoubt h

/-! ### Records -/

theorem Keeps.setRing {link g} (h : Keeps μ s₀ s) : Keeps μ s₀ (s.setRing link g) := .ite h.upd h.upd

theorem Keeps.publishRing {link} (h : Keeps μ s₀ s) : Keeps μ s₀ (s.publishRing link) :=
  .ite h (.ite h.setRing h.setRing.setEnt.upd)

theorem Keeps.capCount {i} (h : Keeps μ s₀ s) : Keeps μ s₀ (s.capCount i) := h.bump

theorem Keeps.refreshQueue (h : Keeps μ s₀ s) : Keeps μ s₀ s.refreshQueue :=
  (Keeps.ite h.setFld.setFlag (.ite h.setFld.setFlag h.setFld)).refreshHold

theorem Keeps.putReq {r} (h : Keeps μ s₀ s) : Keeps μ s₀ (s.putReq r) := h.upd

theorem Keeps.dropReq {q} (h : Keeps μ s₀ s) : Keeps μ s₀ (s.dropReq q) := h.upd.refreshQueue

theorem Keeps.formRequest {r} (h : Keeps μ s₀ s) : Keeps μ s₀ (s.formRequest r) :=
  .ite h.capCount (Keeps.ite h.capCount.upd.setFld h.capCount.upd).refreshQueue

theorem Keeps.leaveTender {t ok} (h : Keeps μ s₀ s) : Keeps μ s₀ (s.leaveTender t ok) := .ite h.upd.setFld.bump h.upd.setFld

theorem Keeps.withdrawFrag {id k t} (h : Keeps μ s₀ s) : Keeps μ s₀ (s.withdrawFrag id k t) := by
  unfold State.withdrawFrag
  exact h.upd.setFld

theorem Keeps.termReq {r st} (h : Keeps μ s₀ s) : Keeps μ s₀ (s.termReq r st) := h.setRing

theorem Keeps.finishReq {r st} (h : Keeps μ s₀ s) : Keeps μ s₀ (s.finishReq r st) := h.termReq.capCount.dropReq

theorem Keeps.withdrawCopies {r} (h : Keeps μ s₀ s) : Keeps μ s₀ (s.withdrawCopies r).1 := h.foldl fun _ _ k => k.withdrawFrag

theorem Keeps.abortReq {r} (h : Keeps μ s₀ s) : Keeps μ s₀ (s.abortReq r) :=
  .ite (.ite h.withdrawCopies.capCount.dropReq.termReq h.withdrawCopies.capCount.dropReq) h.withdrawCopies.capCount.dropReq.upd

theorem Keeps.endAborted {r} (h : Keeps μ s₀ s) : Keeps μ s₀ (s.endAborted r) := .ite h.upd.termReq h.upd

theorem Keeps.abortAll (h : Keeps μ s₀ s) : Keeps μ s₀ s.abortAll := h.foldl fun _ _ k => k.abortReq

theorem Keeps.freeDropped (h : Keeps μ s₀ s) : Keeps μ s₀ s.freeDropped := h.foldl fun _ _ k => k.capCount.dropReq

theorem Keeps.registerAbort {seq all word} (h : Keeps μ s₀ s) : Keeps μ s₀ (s.registerAbort seq all word) := h.upd

theorem Keeps.runAbort {a} (h : Keeps μ s₀ s) : Keeps μ s₀ (s.runAbort a) :=
  .ite (h.foldl (fun _ _ k => k.abortReq)).setFld.setFld (h.foldl (fun _ _ k => k.abortReq))

theorem Keeps.runAborts (h : Keeps μ s₀ s) : Keeps μ s₀ s.runAborts := h.upd.foldl fun _ _ k => k.runAbort

theorem Keeps.emptyQueue (h : Keeps μ s₀ s) : Keeps μ s₀ s.emptyQueue := h.freeDropped.runAborts.abortAll

/-! ### Ops -/

theorem Keeps.blankReports (h : Keeps μ s₀ s) : Keeps μ s₀ s.blankReports := h.foldl fun _ _ k => k.setEnt

theorem Keeps.writeLog (h : Keeps μ s₀ s) : Keeps μ s₀ s.writeLog :=
  (h.blankReports.foldl (fun _ _ k => k.setEnt)).setFld.setFld.setFlag

theorem Keeps.tellFault {rep} (h : Keeps μ s₀ s) : Keeps μ s₀ (s.tellFault rep) := h.emcy.record

theorem Keeps.failSave {cause} (h : Keeps μ s₀ s) : Keeps μ s₀ (s.failSave cause) := .ite h.setFld.setFld.upd.raise h

theorem Keeps.withdrawTenders (h : Keeps μ s₀ s) : Keeps μ s₀ s.withdrawTenders := h.foldl fun _ _ k => k.upd.setFld

theorem Keeps.stopGrid [Fact (μ ≤ 1)] (h : Keeps μ s₀ s) : Keeps μ s₀ s.stopGrid := h.updGrid.updGrid.withdrawTenders

theorem Keeps.faultJob {f} (h : Keeps μ s₀ s) : Keeps μ s₀ (s.faultJob f) :=
  (h.upd.registerAbort.failSave.setFlag.setJob.setDoubt.upd (ha := fun _ => rfl)).bump.setFld.writeLog

theorem Keeps.fault {f} (h : Keeps μ s₀ s) : Keeps μ s₀ (s.fault f) :=
  .ite h.faultJob (.ite (.ite h.upd.writeLog h.bump) h.tellFault.setFlag)

theorem Keeps.syndrome (h : Keeps μ s₀ s) : Keeps μ s₀ s.syndrome.2 := h.fresh

theorem Keeps.memFault {cause l addr vrow vcol} (h : Keeps μ s₀ s) : Keeps μ s₀ (s.memFault cause l addr vrow vcol) :=
  h.syndrome.fault

theorem Keeps.memRecord {l addr} (h : Keeps μ s₀ s) : Keeps μ s₀ (s.memRecord l addr) := h.syndrome.record

theorem Keeps.refreshTotals (h : Keeps μ s₀ s) : Keeps μ s₀ s.refreshTotals := h.foldl fun _ _ k => k.setEnt

theorem Keeps.tellFaults [Fact (μ ≤ 1)] [Fact (μ ≤ 0)] (h : Keeps μ s₀ s) : Keeps μ s₀ s.tellFaults :=
  .ite (h.stopGrid.refreshTotals.raise.foldl (fun _ _ k => k.tellFault)).updAny h

theorem Keeps.tileFault {fam cause p paddr detail} (h : Keeps μ s₀ s) : Keeps μ s₀ (s.tileFault fam cause p paddr detail) :=
  h.fault

theorem Keeps.newRetired {r} (h : Keeps μ s₀ s) : Keeps μ s₀ (s.newRetired r) := h.upd.setFlag

theorem Keeps.markRetire {p} (h : Keeps μ s₀ s) : Keeps μ s₀ (s.markRetire p) := .ite h.setFlag.setFld h

/-! ### Operands -/

theorem Keeps.freshWords {p a n} (h : Keeps μ s₀ s) : Keeps μ s₀ (s.freshWords p a n) := .ite h h.upd

theorem Keeps.markRead {r} (h : Keeps μ s₀ s) : Keeps μ s₀ (s.markRead r) := h.upd

theorem Keeps.emptyReceive {p paddr port} (h : Keeps μ s₀ s) : Keeps μ s₀ (s.emptyReceive p paddr port) := h.setFlag.tileFault

/-! ### TileOps -/

theorem Keeps.noWrites [Fact (μ ≤ 1)] {p} (h : Keeps μ s₀ s) : Keeps μ s₀ (s.noWrites p) := h.setTile

theorem Answers.issue [Fact (μ ≤ 1)] {c i r occ eff} (h : Keeps μ s₀ s) (hf : ∀ s a, Keeps μ s₀ s → Keeps μ s₀ (eff s a)) :
    Answers μ s₀ (s.issue c i r occ eff) := by
  dsimp only [State.issue]
  split
  · split
    · split
      · exact h.setTile.noWrites.tileFault
      · split
        · exact hf _ _ h.setTile
        · exact h.setTile
    · exact h
  · exact h

theorem Keeps.plan [Fact (μ ≤ 1)] {p l} (h : Keeps μ s₀ s) : Keeps μ s₀ (s.plan p l) := h.setTile

theorem Keeps.allocFault {p paddr e} (h : Keeps μ s₀ s) : Keeps μ s₀ (s.allocFault p paddr e) :=
  .ite h.fresh.tileFault h.setFlag.tileFault

theorem Keeps.scaleFault {p paddr cause b slot want found} (h : Keeps μ s₀ s) :
    Keeps μ s₀ (s.scaleFault p paddr cause b slot want found) :=
  h.tileFault

theorem Keeps.checked [Fact (μ ≤ 1)] {p paddr acc reach k} (h : Keeps μ s₀ s) (hk : Keeps μ s₀ k) :
    Keeps μ s₀ (s.checked p paddr acc reach k) := by
  unfold State.checked
  split
  · exact hk
  · split
    · exact h.allocFault
    · exact h.plan
    · exact h

theorem Keeps.countTile {p sub f n} (h : Keeps μ s₀ s) : Keeps μ s₀ (s.countTile p sub f n) := .ite h h.bumpBy.setFlag

theorem Keeps.countClips {p n} (h : Keeps μ s₀ s) : Keeps μ s₀ (s.countClips p n) := h.countTile

theorem Keeps.countLayer {kind l n} (h : Keeps μ s₀ s) : Keeps μ s₀ (s.countLayer kind l n) := .ite h h.upd

theorem Keeps.countSats {p layer n} (h : Keeps μ s₀ s) : Keeps μ s₀ (s.countSats p layer n) := h.countTile.countLayer

theorem Keeps.launch [Fact (μ ≤ 1)] {f} (h : Keeps μ s₀ s) : Keeps μ s₀ (s.launch f) := h.updGrid

theorem Keeps.applyAct [Fact (μ ≤ 1)] {p a} (h : Keeps μ s₀ s) : Keeps μ s₀ (s.applyAct p a) := by
  dsimp only [State.applyAct]
  split
  · exact .ite h.setTile h.setTile.countClips
  · exact h.setTile.countClips
  · exact h.setTile
  · exact h.write.freshWords
  · exact h.write.freshWords.countSats
  · exact h.setTile
  · exact h.setTile
  · exact h.setTile
  · exact h.setTile
  · exact h.setTile
  · exact h.setTile
  · exact h.setTile
  · exact h.setTile
  · exact h.setTile
  · exact h.setTile
  · exact h.setTile
  · exact h.setTile
  · exact h.setTile
  · exact h.setTile
  · exact h.countLayer
  · split
    · exact h.launch
    · exact h.bump
  · exact h.launch
  · exact h

theorem Keeps.tickTile [Fact (μ ≤ 1)] {p} (h : Keeps μ s₀ s) : Keeps μ s₀ (s.tickTile p).1 := by
  dsimp only [State.tickTile]
  split
  · exact h
  · split
    · exact h.setTile.foldl fun _ _ k => k.applyAct
    · exact h.setTile

theorem Keeps.tickAll [Fact (μ ≤ 1)] {l : List Nat} {c : List (Nat × Clash)} (h : Keeps μ s₀ s) :
    Keeps μ s₀ (l.foldl (fun (a : State × List (Nat × Clash)) p =>
      ((a.1.tickTile p).1, a.2 ++ (a.1.tickTile p).2.map (fun c => (p, c)))) (s, c)).1 := by
  induction l generalizing s c with
  | nil => exact h
  | cons p l ih => exact ih h.tickTile

theorem Keeps.tickTiles [Fact (μ ≤ 1)] (h : Keeps μ s₀ s) : Keeps μ s₀ s.tickTiles := by
  unfold State.tickTiles
  refine (Keeps.foldl (Keeps.tickAll (Keeps.foldl h fun s p k => ?_)) fun _ _ k => k.tileFault).foldl fun _ _ k => k.allocFault
  split
  · exact k
  · split
    · exact k.markRead
    · exact k.emptyReceive

theorem Keeps.clearRegs (h : Keeps μ s₀ s) : Keeps μ s₀ s.clearRegs := (h.foldl (fun _ _ k => k.bump)).upd

/-! ### Tide -/

theorem Keeps.tideFault {cause r island detail} (h : Keeps μ s₀ s) : Keeps μ s₀ (s.tideFault cause r island detail) :=
  .ite h.fault h.fault

theorem Keeps.slipAt {r sender c} (h : Keeps μ s₀ s) : Keeps μ s₀ (s.slipAt r sender c) := h.setFlag.tideFault

theorem Keeps.arrive {f} (h : Keeps μ s₀ s) : Keeps μ s₀ (s.arrive f) := by
  dsimp only [State.arrive]
  split
  · exact h.upd
  · exact .ite h.upd h.slipAt

theorem Keeps.arrivals (h : Keeps μ s₀ s) : Keeps μ s₀ s.arrivals := by
  unfold State.arrivals
  refine Keeps.foldl (h.upd (hi := fun i => ⟨?_, i.2⟩)) fun _ _ k => k.arrive
  show s.net.flights.filter _ = []
  rw [i.1, List.filter_nil]

theorem Keeps.routeOut [Fact (μ ≤ 1)] {p e o} (h : Keeps μ s₀ s) : Keeps μ s₀ (s.routeOut p e o) := by
  dsimp only [State.routeOut]
  split
  · exact h
  · split
    · exact h
    · exact .ite h.launch h.launch

theorem Keeps.collide {p e k} (h : Keeps μ s₀ s) : Keeps μ s₀ (s.collide p e k) := by
  unfold State.collide
  split
  · exact h
  · exact .ite h h.setFlag.tideFault

theorem Keeps.route [Fact (μ ≤ 1)] {j p} (h : Keeps μ s₀ s) : Keeps μ s₀ (s.route j p) :=
  (h.foldl (fun _ _ k => k.routeOut)).foldl fun _ _ k => k.collide

theorem Keeps.warned {w} (h : Keeps μ s₀ s) : Keeps μ s₀ (s.warned w) := .ite h.record.emcy.markRetire h.record.emcy

theorem Keeps.moveBg (h : Keeps μ s₀ s) : Keeps μ s₀ s.moveBg := h.upd.foldl fun _ _ k => k.warned

theorem Answers.tideSlot [Fact (μ ≤ 1)] (h : Keeps μ s₀ s) : Answers μ s₀ (execTideSlot s) :=
  .ite ((Keeps.ite h.moveBg h).upd.arrivals.foldl (fun _ _ k => k.route)) h

theorem Keeps.margin {isl c margin sender} (h : Keeps μ s₀ s) : Keeps μ s₀ (s.margin isl c margin sender) :=
  .ite (Keeps.ite h.bump.setFld.setFld h.bump).bump.setFlag.upd (.ite h.bump.setFld.setFld h.bump)

theorem Keeps.ridgeSlip {sender} (h : Keeps μ s₀ s) : Keeps μ s₀ (s.ridgeSlip sender) := h.setFlag.fault

theorem Keeps.capture {isl c sender due} (h : Keeps μ s₀ s) : Keeps μ s₀ (s.capture isl c sender due) := h.upd

theorem Answers.crossingComplete [Fact (μ ≤ 1)] {isl x due margin} (h : Keeps μ s₀ s) :
    Answers μ s₀ (execCrossingComplete isl x due margin s) := by
  dsimp only [execCrossingComplete]
  split
  · split
    · exact .ite h.updGrid.margin h
    · split
      · exact h
      · exact .ite (.ite h (.ite h.upd.margin (.ite h.capture.margin h))) (.ite (Keeps.ite h.ridgeSlip h.slipAt) h)
  · exact h

theorem Answers.eavesSlot [Fact (μ ≤ 1)] {port} (h : Keeps μ s₀ s) : Answers μ s₀ (execEavesSlot port s) := by
  dsimp only [execEavesSlot]
  split
  · split
    · exact .ite h.upd.launch h
    · exact h
  · exact h

theorem Answers.eavesInboundWord {port} (h : Keeps μ s₀ s) : Answers μ s₀ (execEavesInboundWord port s) := by
  dsimp only [execEavesInboundWord]
  split
  · split
    · exact h
    · exact .ite h.upd.upd (.ite h.upd.setFlag.tideFault (.ite h.upd.fault h.upd.upd))
  · exact h

/-! ### Tenders -/

theorem Keeps.tenderFault {t cause q} (h : Keeps μ s₀ s) : Keeps μ s₀ (s.tenderFault t cause q) := h.setFld.fault

theorem Keeps.setTender {t x} (h : Keeps μ s₀ s) : Keeps μ s₀ (s.setTender t x) := h.upd

theorem Keeps.enterDesc {t r} (h : Keeps μ s₀ s) : Keeps μ s₀ (s.enterDesc t r) := h.setTender.setTender.setTender

theorem Keeps.intake {die source rank c d} (h : Keeps μ s₀ s) : Keeps μ s₀ (s.intake die source rank c d) := by
  dsimp only [State.intake]
  split
  · exact .ite h.fault h.bump
  · split
    · exact h
    · split
      · exact .ite h.tenderFault h.bump
      · exact h.enterDesc.bump

theorem Answers.descriptorIntake {die source desc} (h : Keeps μ s₀ s) :
    Answers μ s₀ (execDescriptorIntake die source desc s) := by
  dsimp only [execDescriptorIntake]
  split
  · split
    · split
      · exact h
      · exact h.upd.intake
    · exact h.intake
  · exact h

theorem Keeps.spaceWrite {die space a bs} (h : Keeps μ s₀ s) : Keeps μ s₀ (s.spaceWrite die space a bs) :=
  .ite h.rewrite h.ddrWrite

theorem Keeps.copyFails {t r word} (h : Keeps μ s₀ s) : Keeps μ s₀ (s.copyFails t r word) :=
  .ite (Keeps.ite h h.setFlag).setTender.setFld.tenderFault (Keeps.ite h h.setFlag).setTender.setFld

theorem Keeps.sendCard [Fact (μ ≤ 1)] {t seq d v} (h : Keeps μ s₀ s) : Keeps μ s₀ (s.sendCard t seq d v) := h.fresh.updGrid

theorem Answers.tenderWord [Fact (μ ≤ 1)] {t ecc} (h : Keeps μ s₀ s) : Answers μ s₀ (execTenderWord t ecc s) := by
  dsimp only [execTenderWord]
  split
  · split
    · exact h
    · exact .ite h (.ite h.setTender.sendCard (.ite h.copyFails (.ite (Keeps.ite (Keeps.ite h.upd h).setTender.bump (Keeps.ite
      h.upd h).setTender).upd (Keeps.ite (Keeps.ite h.upd h).setTender.bump (Keeps.ite h.upd h).setTender).spaceWrite)))
  · exact h

theorem Answers.tenderCopyDone {t} (h : Keeps μ s₀ s) : Answers μ s₀ (execTenderCopyDone t s) := by
  dsimp only [execTenderCopyDone]
  split
  · split
    · exact h
    · exact .ite (.ite h.setTender.bump.setFld.upd h.setTender.bump.setFld) h
  · exact h

theorem Answers.tenderDataWord [Fact (μ ≤ 1)] {p} (h : Keeps μ s₀ s) : Answers μ s₀ (execTenderDataWord p s) := by
  dsimp only [execTenderDataWord]
  split
  · split
    · exact h
    · split
      · exact h.upd
      · split
        · exact h.upd.setFlag.setFld.tileFault
        · exact h.upd.plan
  · exact h

theorem Answers.completionDelivery [Fact (μ ≤ 1)] {die} (h : Keeps μ s₀ s) : Answers μ s₀ (execCompletionDelivery die s) := by
  dsimp only [execCompletionDelivery]
  split
  · split
    · exact h
    · exact .ite h (.ite h.upd.plan h.upd)
  · exact h

/-! ### LandingOps -/

theorem Keeps.setParser {e n p} (h : Keeps μ s₀ s) : Keeps μ s₀ (s.setParser e n p) := h.upd

theorem Keeps.setGroup {q g x} (h : Keeps μ s₀ s) : Keeps μ s₀ (s.setGroup q g x) := h.upd

theorem Keeps.gutter {q reason} (h : Keeps μ s₀ s) : Keeps μ s₀ (s.gutter q reason) := h.bump

theorem Keeps.onCourse {q n f} (h : Keeps μ s₀ s) : Keeps μ s₀ (s.onCourse q n f) := h.upd

theorem Keeps.noteLanded {q g frame} (h : Keeps μ s₀ s) : Keeps μ s₀ (s.noteLanded q g frame) := h.setGroup

theorem Keeps.landCourse {q g frame reason flags valid data stamp} (h : Keeps μ s₀ s) :
    Keeps μ s₀ (s.landCourse q g frame reason flags valid data stamp) := by
  dsimp only [State.landCourse]
  split
  · split
    · exact h.noteLanded.rewrite.rewrite
    · split
      · exact (Keeps.ite h.noteLanded.setFlag h.noteLanded).onCourse.rewrite
      · exact (Keeps.ite h.noteLanded.setFlag h.noteLanded).onCourse
  · exact h.noteLanded

theorem Keeps.courseReason {q g frame reason} (h : Keeps μ s₀ s) : Keeps μ s₀ (s.courseReason q g frame reason) :=
  .ite h.onCourse h

theorem Keeps.frameLate {frame} (h : Keeps μ s₀ s) : Keeps μ s₀ (s.frameLate frame) := .ite h.fault h

theorem Keeps.settleOne {q g f} (h : Keeps μ s₀ s) : Keeps μ s₀ (s.settleOne q g f) :=
  .ite (Keeps.ite h h.gutter).courseReason (.ite (.ite (Keeps.ite h h.gutter).courseReason.frameLate (Keeps.ite h
    h.gutter).courseReason) (.ite (.ite (Keeps.ite h.setGroup h.setGroup.gutter).courseReason.frameLate (Keeps.ite h.setGroup
    h.setGroup.gutter).courseReason) h.setGroup))

theorem Keeps.settleBy {c q g} (h : Keeps μ s₀ s) : Keeps μ s₀ (s.settleBy c q g) := h.setGroup.foldl fun _ _ k => k.settleOne

theorem Keeps.settleAll {c} (h : Keeps μ s₀ s) : Keeps μ s₀ (s.settleAll c) := h.foldl fun _ _ k => .ite k k.settleBy

theorem Keeps.refreshGroup {q g} (h : Keeps μ s₀ s) : Keeps μ s₀ (s.refreshGroup q g) :=
  .ite (.ite h h.setFld) (.ite (.ite (h.setGroup.setFld.foldl (fun _ _ k => k.setParser)) h.setFld) (.ite (.ite h.setFld (.ite
    h.setGroup.setFld.setFld h)) (.ite h.setFld h)))

theorem Keeps.dropFrames {q g x} (h : Keeps μ s₀ s) : Keeps μ s₀ (s.dropFrames q g x) :=
  (h.foldl (fun _ _ k => (Keeps.ite k k.gutter).courseReason)).foldl (fun _ _ k => (Keeps.ite k k.gutter).landCourse)

theorem Keeps.loseAlign {q g} (h : Keeps μ s₀ s) : Keeps μ s₀ (s.loseAlign q g) :=
  .ite h (.ite h.setGroup.setFld.refreshGroup (Keeps.ite h.record.setFlag.dropFrames
    h.record.setFlag).setGroup.setFld.refreshGroup.refreshLaneDoubt)

theorem Keeps.completeFrame {q g f} (h : Keeps μ s₀ s) : Keeps μ s₀ (s.completeFrame q g f) :=
  .ite (.ite h.setGroup.setFld.refreshLaneDoubt (.ite h.setGroup.loseAlign h.setGroup)) (.ite (.ite h.loseAlign (.ite (.ite
    h.setGroup.landCourse (Keeps.ite h.setGroup.gutter h.setGroup).landCourse.setGroup) h.setGroup)) (.ite h.setGroup.loseAlign
    h.setGroup))

theorem Keeps.endLaneFrame {q g n l} (h : Keeps μ s₀ s) : Keeps μ s₀ (s.endLaneFrame q g n l) := by
  dsimp only [State.endLaneFrame]
  split
  · exact h
  · exact .ite h (.ite h.setGroup.completeFrame h.setGroup)

theorem Keeps.endParser {q g n fault stamp} (h : Keeps μ s₀ s) : Keeps μ s₀ (s.endParser q g n fault stamp) :=
  h.setParser.endLaneFrame

theorem Keeps.dropPhase {e n} (h : Keeps μ s₀ s) : Keeps μ s₀ (s.dropPhase e n) := h.setParser

theorem Keeps.bundleDown {e n} (h : Keeps μ s₀ s) : Keeps μ s₀ (s.bundleDown e n) :=
  .ite (.ite (h.foldl (fun _ _ k => k.setParser)).fault (h.foldl (fun _ _ k => k.setParser)).upd) (h.foldl
    (fun _ _ k => k.setParser))

theorem Keeps.laneUnlocked {e n} (h : Keeps μ s₀ s) : Keeps μ s₀ (s.laneUnlocked e n) := by
  dsimp only [State.laneUnlocked]
  split
  · split
    · exact h.dropPhase
    · exact (Keeps.ite h.dropPhase.endParser h.dropPhase).loseAlign.refreshGroup
  · exact h.dropPhase.bundleDown

/-! ### Lanes -/

theorem Keeps.setChan {e c x} (h : Keeps μ s₀ s) : Keeps μ s₀ (s.setChan e c x) := h.upd

theorem Keeps.afterUnlock {e c} (h : Keeps μ s₀ s) : Keeps μ s₀ (s.afterUnlock e c) := by
  unfold State.afterUnlock
  split
  · exact h.laneUnlocked
  · exact h

theorem Keeps.afterLock {e c} (h : Keeps μ s₀ s) : Keeps μ s₀ (s.afterLock e c) := by
  unfold State.afterLock
  split
  · split
    · split
      · exact h.refreshGroup
      · exact h
    · exact h
  · exact h

theorem Keeps.unlock {e c} (h : Keeps μ s₀ s) : Keeps μ s₀ (s.unlock e c) := .ite h.setFlag.setFlag.afterUnlock h.setFlag.setFlag

theorem Keeps.setBring {gk b} (h : Keeps μ s₀ s) : Keeps μ s₀ (s.setBring gk b) := h.upd

theorem Keeps.putSlip {e c v} (h : Keeps μ s₀ s) : Keeps μ s₀ (s.putSlip e c v) := h.setFld.setFld.setChan

theorem Keeps.startSearch {e c} (h : Keeps μ s₀ s) : Keeps μ s₀ (s.startSearch e c) := h.putSlip.setChan

theorem Keeps.reconverge {e c} (h : Keeps μ s₀ s) : Keeps μ s₀ (s.reconverge e c) := h.setChan

theorem Keeps.relockState {e c v} (h : Keeps μ s₀ s) : Keeps μ s₀ (s.relockState e c v) := .ite h h.setFld

theorem Keeps.startRelock {e c} (h : Keeps μ s₀ s) : Keeps μ s₀ (s.startRelock e c) :=
  .ite h.relockState.setChan.reconverge h.relockState.setChan

theorem Keeps.dropLock {e c} (h : Keeps μ s₀ s) : Keeps μ s₀ (s.dropLock e c) :=
  (Keeps.ite h.setFlag.setFlag.bump.startRelock h.setFlag.setFlag.bump).afterUnlock

theorem Keeps.tune {e c rate} (h : Keeps μ s₀ s) : Keeps μ s₀ (s.tune e c rate) :=
  .ite (h.setFld.setFlag.foldl (fun _ _ k => k.setFld)) h.setFld.setFlag

theorem Keeps.lockLoss {e c} (h : Keeps μ s₀ s) : Keeps μ s₀ (s.lockLoss e c) := by
  dsimp only [State.lockLoss]
  split
  · split
    · exact .ite h.dropLock.tune h.dropLock
    · exact h.dropLock
  · exact h

theorem Keeps.retune {e c rate} (h : Keeps μ s₀ s) : Keeps μ s₀ (s.retune e c rate) := (Keeps.ite h.dropLock h).tune

theorem Keeps.clearHeaders {e c} (h : Keeps μ s₀ s) : Keeps μ s₀ (s.clearHeaders e c) := by
  dsimp only [State.clearHeaders]
  split
  · exact h.setParser
  · exact h

theorem Keeps.gainLock {e c} (h : Keeps μ s₀ s) : Keeps μ s₀ (s.gainLock e c) :=
  (Keeps.ite (Keeps.ite h h.setFlag.setFlag).setChan (Keeps.ite h h.setFlag.setFlag).setChan.clearHeaders).afterLock

theorem Answers.signalDetectChange {e ch up} (h : Keeps μ s₀ s) : Answers μ s₀ (execSignalDetectChange e ch up s) :=
  .ite (.ite h (Keeps.ite (.ite h.setFlag.reconverge h.setFlag) h.setFlag.lockLoss)) h

theorem Answers.blockLockSet {e ch} (h : Keeps μ s₀ s) : Answers μ s₀ (execBlockLockSet e ch s) := .ite (.ite h h.gainLock) h

theorem Answers.blockLockLoss {e ch cdr} (h : Keeps μ s₀ s) : Answers μ s₀ (execBlockLockLoss e ch cdr s) :=
  .ite (Keeps.ite h.setFlag h).lockLoss h

theorem Answers.relockDone {e ch ok} (h : Keeps μ s₀ s) : Answers μ s₀ (execRelockDone e ch ok s) :=
  .ite (.ite (.ite h.setChan.relockState.afterLock (.ite h h.setChan.relockState.afterLock)) h) h

theorem Answers.blockLockSearchStep {e ch locked} (h : Keeps μ s₀ s) : Answers μ s₀ (execBlockLockSearchStep e ch locked s) := by
  dsimp only [execBlockLockSearchStep]
  split
  · split
    · exact Keeps.ite h.startSearch h
    · exact .ite h (.ite h.gainLock (.ite h.setChan h.setChan.putSlip))
  · exact h

theorem Answers.dfeUpdate {e ch ui x} (h : Keeps μ s₀ s) : Answers μ s₀ (execDfeUpdate e ch ui x s) :=
  .ite (.ite (h.foldl (fun _ _ k => k.setFld)) h) h

theorem Keeps.fomHistogram {e c fom} (h : Keeps μ s₀ s) : Keeps μ s₀ (s.fomHistogram e c fom) := h.upd

theorem Answers.fomMeasure {e ch u l} (h : Keeps μ s₀ s) : Answers μ s₀ (execFomMeasure e ch u l s) :=
  .ite (.ite (.ite h.setFld.fomHistogram.setChan.setFlag.record.emcy h.setFld.fomHistogram.setChan) h) h

theorem Answers.ctleTrack {e ch fomNew} (h : Keeps μ s₀ s) : Answers μ s₀ (execCtleTrack e ch fomNew s) :=
  .ite (.ite (.ite h.setChan.fomHistogram.setFld.setFld h.setChan.fomHistogram) h) h

theorem Keeps.requestPower {e c v} (h : Keeps μ s₀ s) : Keeps μ s₀ (s.requestPower e c v) := .ite h.setChan.reconverge h.setChan

theorem OkKeeps.powerWrite {e c v} (h : Keeps μ s₀ s) : OkKeeps μ s₀ (s.powerWrite e c v) :=
  .ite trivial (.ite trivial (.ite h.setFld.requestPower h.setFld))

theorem Answers.orSame {x : Except Nat State} (h : Keeps μ s₀ s) (hx : OkKeeps μ s₀ x) : Answers μ s₀ (orSame s x) := by
  unfold Machine.orSame
  split
  · exact hx
  · exact h

theorem Answers.powerStateWrite {e ch v} (h : Keeps μ s₀ s) : Answers μ s₀ (execPowerStateWrite e ch v s) :=
  .ite (.orSame h (.powerWrite h)) h

theorem Keeps.sleep {e c} (h : Keeps μ s₀ s) : Keeps μ s₀ (s.sleep e c) := h.setFld.setFld.setChan.unlock

theorem Answers.powerStateReached {e ch} (h : Keeps μ s₀ s) : Answers μ s₀ (execPowerStateReached e ch s) := by
  dsimp only [execPowerStateReached]
  split
  · split
    · exact h
    · exact .ite h.setChan.sleep h.setChan.setFld
  · exact h

theorem OkKeeps.slipWrite {e c v} (h : Keeps μ s₀ s) : OkKeeps μ s₀ (s.slipWrite e c v) := .ite trivial (.ite h.putSlip h.setFld)

theorem Answers.slipWrite {e ch v} (h : Keeps μ s₀ s) : Answers μ s₀ (execSlipWrite e ch v s) := .ite (.orSame h (.slipWrite h)) h

theorem Keeps.vacated {e old} (h : Keeps μ s₀ s) : Keeps μ s₀ (s.vacated e old) := h.setChan.sleep

theorem Keeps.remapped {e n old c} (h : Keeps μ s₀ s) : Keeps μ s₀ (s.remapped e n old c) := by
  dsimp only [State.remapped]
  split
  · split
    · exact (Keeps.ite (.ite h h.vacated) (Keeps.ite h h.vacated).requestPower).setFld.refreshGroup
    · exact (Keeps.ite (.ite h h.vacated) (Keeps.ite h h.vacated).requestPower).setFld
  · exact (Keeps.ite (.ite h h.vacated) (Keeps.ite h h.vacated).requestPower).setFld

theorem OkKeeps.laneMapWrite {e tx n c} (h : Keeps μ s₀ s) : OkKeeps μ s₀ (s.laneMapWrite e tx n c) :=
  .ite trivial (.ite trivial (.ite trivial (Keeps.ite h.setEnt h.setEnt.remapped)))

theorem Answers.laneMapWrite {e tx n ch} (h : Keeps μ s₀ s) : Answers μ s₀ (execLaneMapWrite e tx n ch s) :=
  .ite (.orSame h (.laneMapWrite h)) h

theorem Keeps.onChans {e cs f v} (h : Keeps μ s₀ s) : Keeps μ s₀ (s.onChans e cs f v) := h.foldl fun _ _ k => k.setFld

theorem Keeps.sendTraining {gk b rate done} (h : Keeps μ s₀ s) : Keeps μ s₀ (s.sendTraining gk b rate done) :=
  .ite h (.ite (.ite h h.emit) (h.foldl (fun _ _ k => .ite k.emit k)))

theorem Keeps.sendCountdown {b rate} (h : Keeps μ s₀ s) : Keeps μ s₀ (s.sendCountdown b rate) :=
  .ite h (h.foldl (fun _ _ k => .ite k.emit k))

theorem Keeps.wakeUnit {e n} (h : Keeps μ s₀ s) : Keeps μ s₀ (s.wakeUnit e n) :=
  (Keeps.ite (h.setBring.foldl (fun _ _ k => k.setFld.setFld.setChan.setFld.setFlag.retune)) (h.setBring.foldl
    (fun _ _ k => k.setFld.setFld.setChan.setFld.setFlag.retune)).setFlag).sendTraining

theorem Keeps.nextUnit {e} (h : Keeps μ s₀ s) : Keeps μ s₀ (s.nextUnit e) := by
  dsimp only [State.nextUnit]
  split
  · exact h.upd.wakeUnit
  · exact h

theorem OkKeeps.startBringup {e c} (h : Keeps μ s₀ s) : OkKeeps μ s₀ (s.startBringup e c) := by
  dsimp only [State.startBringup]
  split
  · exact h
  · exact .ite trivial (.ite h (.ite (Keeps.ite (h.foldl (fun _ _ k => k.setEnt)) (h.foldl (fun _ _ k => k.setEnt)).upd) (h.foldl
    (fun _ _ k => k.setEnt)).wakeUnit))

theorem Answers.startBringup {e ch} (h : Keeps μ s₀ s) : Answers μ s₀ (execStartBringup e ch s) :=
  .ite (.orSame h (.startBringup h)) h

theorem Keeps.failBringup {gk code b} (h : Keeps μ s₀ s) : Keeps μ s₀ (s.failBringup gk code b) :=
  (h.setBring.foldl (fun _ _ k => k.setFld.sleep)).onChans.record.nextUnit

theorem Keeps.inServiceNow {gk b} (h : Keeps μ s₀ s) : Keeps μ s₀ (s.inServiceNow gk b) :=
  (h.setBring.onChans.onChans.foldl (fun _ _ k => k.afterLock)).nextUnit

theorem Keeps.bringupDone {gk b} (h : Keeps μ s₀ s) : Keeps μ s₀ (s.bringupDone gk b) :=
  .ite h.sendTraining.inServiceNow h.sendTraining.setBring

theorem Keeps.finishBringup {gk b} (h : Keeps μ s₀ s) : Keeps μ s₀ (s.finishBringup gk b) := by
  unfold State.finishBringup
  split
  · exact .ite h.bringupDone h.failBringup
  · exact h.bringupDone

theorem Keeps.takeSweep {e cs foms} (h : Keeps μ s₀ s) : Keeps μ s₀ (s.takeSweep e cs foms) :=
  h.foldl (fun _ _ k => k.setFld.setFld.setChan.foldl (fun _ _ k2 => k2.fomHistogram))

theorem Keeps.bringTo {gk st b} (h : Keeps μ s₀ s) : Keeps μ s₀ (s.bringTo gk st b) := h.setBring.onChans

theorem Keeps.bringSearch {gk st b} (h : Keeps μ s₀ s) : Keeps μ s₀ (s.bringSearch gk st b) :=
  h.bringTo.foldl fun _ _ k => k.startSearch

theorem Keeps.bringSwitch {gk b} (h : Keeps μ s₀ s) : Keeps μ s₀ (s.bringSwitch gk b) :=
  (h.bringTo.foldl (fun _ _ k => k.setChan)).sendTraining.sendCountdown

theorem Answers.bringupStepDone {gk foms} (h : Keeps μ s₀ s) : Answers μ s₀ (execBringupStepDone gk foms s) := by
  dsimp only [execBringupStepDone]
  split
  · exact h
  · split
    · exact h.onChans.bringTo
    · exact .ite h.takeSweep.failBringup h.takeSweep.bringSearch
    · exact .ite h (.ite h.finishBringup h.bringTo)
    · split
      · exact h
      · exact h.failBringup
      · exact .ite h.failBringup (.ite h.finishBringup h.bringSwitch)
    · exact .ite h.bringTo h
    · exact .ite (.ite (.ite h.takeSweep.failBringup h.takeSweep.bringSwitch) h.takeSweep.failBringup) h.takeSweep.bringSearch
    · exact .ite h h.finishBringup

theorem Keeps.trains {e n gk payload b} (h : Keeps μ s₀ s) : Keeps μ s₀ (s.trains e n gk payload b) := by
  unfold State.trains
  extract_lets c x s1 s2 s3
  have h1 : Keeps μ s₀ s1 := .ite h.setChan h
  have h3 : Keeps μ s₀ s3 := .ite (.ite h1.setChan.retune h1.setChan) h1
  exact .ite (.ite h3.inServiceNow h3.setBring) h3

theorem Answers.bringupStateOverrun {gk} (h : Keeps μ s₀ s) : Answers μ s₀ (execBringupStateOverrun gk s) := by
  unfold execBringupStateOverrun
  split
  · exact h
  · exact h.failBringup

theorem Answers.bringupTimeout {gk} (h : Keeps μ s₀ s) : Answers μ s₀ (execBringupTimeout gk s) := by
  unfold execBringupTimeout
  split
  · exact h
  · exact h.failBringup

/-! ### Landing -/

theorem Keeps.hear {e n bad w} (h : Keeps μ s₀ s) : Keeps μ s₀ (s.hear e n bad w) := h.setParser

theorem Answers.onBlock {e n bad w} {eff : State → State} (h : Keeps μ s₀ s) (hf : ∀ s, Keeps μ s₀ s → Keeps μ s₀ (eff s)) :
    Answers μ s₀ (s.onBlock e n bad w eff) := by
  unfold State.onBlock
  extract_lets c t t' u
  have ht : Keeps μ s₀ t := h.hear
  have ht' : Keeps μ s₀ t' := .ite ht.bump ht
  have hu : Keeps μ s₀ u := .ite (hf _ ht') ht'
  exact .ite (.ite (Keeps.ite hu.lockLoss hu) h) h

theorem Keeps.stray {e n} (h : Keeps μ s₀ s) : Keeps μ s₀ (s.stray e n) := h.bump

theorem Keeps.dataIn {e n v} (h : Keeps μ s₀ s) : Keeps μ s₀ (s.dataIn e n v) := by
  dsimp only [State.dataIn]
  split
  · exact .ite h.stray h
  · split
    · exact h
    · exact .ite (.ite h.stray h) (.ite h.setParser h.endParser)

theorem Answers.dataBlock {e n payload} (h : Keeps μ s₀ s) : Answers μ s₀ (execDataBlock e n payload s) :=
  .onBlock h fun _ k => k.dataIn

theorem Answers.damagedBlock {lane payload} (h : Keeps μ s₀ s) : Answers μ s₀ (execDamagedBlock lane payload s) :=
  .onBlock h fun _ k => k.dataIn

theorem Keeps.badControl {e n} (h : Keeps μ s₀ s) : Keeps μ s₀ (s.badControl e n) := .ite h h.bump.dataIn

theorem Answers.invalidControlBlock {lane payload} (h : Keeps μ s₀ s) : Answers μ s₀ (execInvalidControlBlock lane payload s) :=
  .onBlock h fun _ k => k.badControl

theorem Answers.idleBlock {e n} (h : Keeps μ s₀ s) : Answers μ s₀ (execIdleBlock e n s) := by
  unfold execIdleBlock
  refine .onBlock h fun _ k => ?_
  split
  · exact .ite k.endParser k
  · exact k

theorem Keeps.countUnaligned {q g frame} (h : Keeps μ s₀ s) : Keeps μ s₀ (s.countUnaligned q g frame) := .ite h h.setGroup.gutter

theorem Keeps.trimGone {q g n} (h : Keeps μ s₀ s) : Keeps μ s₀ (s.trimGone q g n) := h.setGroup

theorem Keeps.renumber {q g n old frame} (h : Keeps μ s₀ s) : Keeps μ s₀ (s.renumber q g n old frame) := .ite h h.setGroup

theorem Keeps.missEarlier {q g i frame} (h : Keeps μ s₀ s) : Keeps μ s₀ (s.missEarlier q g i frame) :=
  h.foldl fun _ _ k => .ite k.endLaneFrame k

theorem Keeps.openGroupFrame {q g i frame} (h : Keeps μ s₀ s) : Keeps μ s₀ (s.openGroupFrame q g i frame) :=
  .ite h (h.setGroup.foldl (fun _ _ k => .ite k.endLaneFrame k))

theorem Keeps.measureSkew {q g frame} (h : Keeps μ s₀ s) : Keeps μ s₀ (s.measureSkew q g frame) := by
  dsimp only [State.measureSkew]
  split
  · exact h
  · exact .ite (.ite h.setGroup.setFld.setFld.loseAlign h.setGroup.setFld.setFld) h

theorem Keeps.openFrame {q g n frame flags} (h : Keeps μ s₀ s) : Keeps μ s₀ (s.openFrame q g n frame flags) := by
  unfold State.openFrame
  extract_lets s1 s2 p s3 s4 i s5 x s6
  have h1 : Keeps μ s₀ s1 := .ite h.endParser h
  have h2 : Keeps μ s₀ s2 := by
    unfold s2
    split
    · exact .ite h1 h1.loseAlign.renumber
    · exact h1
  have h4 : Keeps μ s₀ s4 := h2.setParser.countUnaligned.trimGone
  have h6 : Keeps μ s₀ s6 := h4.missEarlier.openGroupFrame.setGroup
  exact .ite h4 h6.measureSkew

theorem Answers.frameOpen {q n frame flags} (h : Keeps μ s₀ s) : Answers μ s₀ (execFrameOpen q n frame flags s) := by
  unfold execFrameOpen
  split
  · exact h
  · refine .onBlock h fun _ k => ?_
    split
    · exact k
    · exact k.openFrame

theorem Keeps.tagClose {q g n frame} (h : Keeps μ s₀ s) : Keeps μ s₀ (s.tagClose q g n frame) := .ite h.upd h

theorem Keeps.closeFrame {q g n crc} (h : Keeps μ s₀ s) : Keeps μ s₀ (s.closeFrame q g n crc) := .ite h.stray h.tagClose.endParser

theorem Answers.frameClose {q n crc} (h : Keeps μ s₀ s) : Answers μ s₀ (execFrameClose q n crc s) := by
  unfold execFrameClose
  split
  · exact h
  · refine .onBlock h fun _ k => ?_
    split
    · exact k
    · exact k.closeFrame

theorem Answers.laneMarker {e n ident} (h : Keeps μ s₀ s) : Answers μ s₀ (execLaneMarker e n ident s) := by
  dsimp only [execLaneMarker]
  refine .onBlock h fun _ k => ?_
  split
  · exact k
  · split
    · split
      · exact .ite (Keeps.ite k.bump k).setParser (Keeps.ite k.bump k).setParser.bump
      · exact .ite (Keeps.ite (Keeps.ite k.bump k).setParser (Keeps.ite k.bump k).setParser.bump).refreshGroup (Keeps.ite
        (Keeps.ite k.bump k).setParser (Keeps.ite k.bump k).setParser.bump).loseAlign
    · exact .ite (.ite (Keeps.ite k.bump k).setParser (Keeps.ite k.bump k).setParser.bump) (Keeps.ite (Keeps.ite k.bump
      k).setParser (Keeps.ite k.bump k).setParser.bump).bundleDown

theorem Answers.markerMissed {e n} (h : Keeps μ s₀ s) : Answers μ s₀ (execMarkerMissed e n s) := by
  dsimp only [execMarkerMissed]
  split
  · split
    · show Keeps μ s₀ _
      split
      · exact .ite h.setParser.bump.loseAlign h.setParser.bump
      · exact .ite h.setParser.bump.bundleDown h.setParser.bump
    · exact h
  · exact h

theorem Answers.skewOverrun {q g} (h : Keeps μ s₀ s) : Answers μ s₀ (execSkewOverrun q g s) :=
  .ite (.ite h.loseAlign h) (.ite h.bundleDown h)

theorem Answers.trainingBlock {e n payload} (h : Keeps μ s₀ s) : Answers μ s₀ (execTrainingBlock e n payload s) := by
  dsimp only [execTrainingBlock]
  split
  · exact .onBlock h fun _ k => k.badControl
  · split
    · split
      · show Keeps μ s₀ _
        split
        · exact h.hear.trains
        · exact h.hear.setFlag
      · exact h
    · exact h

/-! ### Blocks -/

theorem Keeps.sendBlocks {k lanes blocks} (h : Keeps μ s₀ s) : Keeps μ s₀ (s.sendBlocks k lanes blocks) := h.emit

theorem Keeps.sendSumm {k kind m} (h : Keeps μ s₀ s) : Keeps μ s₀ (s.sendSumm k kind m) := h.sendBlocks

theorem Keeps.sendMarkers (h : Keeps μ s₀ s) : Keeps μ s₀ s.sendMarkers := by
  unfold State.sendMarkers
  refine Keeps.foldl ?_ ?_
  · exact h
  · intro _ _ k
    split
    · exact k.emit
    · exact k

theorem Keeps.hearLane {l blocks} (h : Keeps μ s₀ s) : Keeps μ s₀ (s.hearLane l blocks) := .ite (h.foldl (fun _ _ k => k.hear)) h

theorem Keeps.hearSumm {k kind m} (h : Keeps μ s₀ s) : Keeps μ s₀ (s.hearSumm k kind m) := h.hearLane

theorem Keeps.hearWord {k sent word} (h : Keeps μ s₀ s) : Keeps μ s₀ (s.hearWord k sent word) := h.foldl fun _ _ k => k.hearLane

/-! ### TileControl -/

theorem Answers.pad [Fact (μ ≤ 1)] {t nM} (h : Keeps μ s₀ s) : Answers μ s₀ (execPad t nM s) := .issue h (fun _ _ k => k.setTile)

theorem Answers.fwait [Fact (μ ≤ 1)] {t off} (h : Keeps μ s₀ s) : Answers μ s₀ (execFwait t off s) :=
  .issue h (fun _ _ k => k.setTile)

theorem Answers.loop [Fact (μ ≤ 1)] {t countM lenM} (h : Keeps μ s₀ s) : Answers μ s₀ (execLoop t countM lenM s) :=
  .ite (.ite h.setTile h) h

theorem Answers.halt [Fact (μ ≤ 1)] {t} (h : Keeps μ s₀ s) : Answers μ s₀ (execHalt t s) := .issue h (fun _ _ k => k.setTile)

theorem Answers.fsel [Fact (μ ≤ 1)] {t lag wrS sdst pdst} (h : Keeps μ s₀ s) : Answers μ s₀ (execFsel t lag wrS sdst pdst s) :=
  .issue h (fun _ _ k => k.plan)

theorem Answers.mark [Fact (μ ≤ 1)] {t o} (h : Keeps μ s₀ s) : Answers μ s₀ (execMark t o s) :=
  .issue h (fun _ _ k => .ite k.upd (k.checked k.upd))

theorem Answers.mchk [Fact (μ ≤ 1)] {t cm clear} (h : Keeps μ s₀ s) : Answers μ s₀ (execMchk t cm clear s) :=
  .issue h (fun _ _ k => .ite (.ite k.plan k) k.tileFault)

/-! ### Release -/

theorem Keeps.sendBeats [Fact (μ ≤ 1)] {q n reason codes} (h : Keeps μ s₀ s) : Keeps μ s₀ (s.sendBeats q n reason codes) :=
  h.foldl fun _ _ k => k.launch

theorem Keeps.closeAverage {q frame} (h : Keeps μ s₀ s) : Keeps μ s₀ (s.closeAverage q frame) := h.bumpBy.upd.formRequest

theorem Keeps.average {q frame samples} (h : Keeps μ s₀ s) : Keeps μ s₀ (s.average q frame samples) :=
  .ite (.ite h.upd.closeAverage h.upd) h

theorem Keeps.averageDue {n} (h : Keeps μ s₀ s) : Keeps μ s₀ (s.averageDue n) :=
  .ite (.ite h.upd (h.upd.foldl (fun _ _ k => k.foldl (fun _ _ k2 => k2.average)))) h

theorem Keeps.waitAverage {q n samples} (h : Keeps μ s₀ s) : Keeps μ s₀ (s.waitAverage q n samples) := h.upd

theorem Keeps.fillSlot [Fact (μ ≤ 1)] {q n reason groups} (h : Keeps μ s₀ s) : Keeps μ s₀ (s.fillSlot q n reason groups) :=
  .ite (Keeps.ite h.upd.sendBeats h.upd).averageDue (Keeps.ite (h.upd.foldl (fun _ _ k => k.bumpBy)).sendBeats (h.upd.foldl
    (fun _ _ k => k.bumpBy))).waitAverage.averageDue

theorem Keeps.voidGroup {q frame low g} (h : Keeps μ s₀ s) : Keeps μ s₀ (s.voidGroup q frame low g) :=
  .ite (Keeps.ite h h.gutter).courseReason.frameLate (Keeps.ite h h.gutter).courseReason

theorem Keeps.releaseLive [Fact (μ ≤ 1)] {q n} (h : Keeps μ s₀ s) : Keeps μ s₀ (s.releaseLive q n) :=
  (Keeps.ite (h.foldl (fun _ _ k => k.setGroup)) ((h.foldl (fun _ _ k => k.setGroup)).foldl (fun _ _ k => k.voidGroup))).fillSlot

theorem Keeps.setReplay {q r} (h : Keeps μ s₀ s) : Keeps μ s₀ (s.setReplay q r) := h.upd

theorem Keeps.skipCourses {q n} (h : Keeps μ s₀ s) : Keeps μ s₀ (s.skipCourses q n) := by
  induction n with
  | zero => exact h
  | succ n ih => exact .ite ih.setReplay.bump ih

theorem Keeps.replayPick {q frame} (h : Keeps μ s₀ s) : Keeps μ s₀ (s.replayPick q frame).1 := by
  unfold State.replayPick
  extract_lets s1 r idx r'
  have h1 : Keeps μ s₀ s1 := h.skipCourses
  clear_value s1
  exact .ite_fst h1 (.ite_fst h1 (.ite_fst h1.setReplay h1.setReplay))

theorem Keeps.landReplay {q frame k reason stamp} (h : Keeps μ s₀ s) : Keeps μ s₀ (s.landReplay q frame k reason stamp) :=
  (h.upd.foldl (fun _ _ k => k.landCourse)).onCourse

theorem Keeps.releaseReplay [Fact (μ ≤ 1)] {q n} (h : Keeps μ s₀ s) : Keeps μ s₀ (s.releaseReplay q n) := by
  unfold State.releaseReplay
  extract_lets frame r pass s1 p s2 held guttered s3 s4 tag stamp _ tagged
  have h1 : Keeps μ s₀ s1 := .ite h.setReplay h
  have h2 : Keeps μ s₀ s2 := h1.replayPick
  have hg : Keeps μ s₀ guttered := h2.foldl fun _ _ k => k.gutter
  clear_value s2 guttered
  have h3 : Keeps μ s₀ s3 := by
    unfold s3
    split
    · exact .ite hg.frameLate hg
    · exact h2
  clear_value s3
  have h4 : Keeps μ s₀ s4 := .ite h3.setFlag h3
  have ht : Keeps μ s₀ tagged := h4.upd
  split
  · exact h4.fillSlot
  · clear_value tagged
    extract_lets own low s5 s6
    have h5 : Keeps μ s₀ s5 := ht.landReplay.foldl fun _ _ k => .ite k k.gutter
    have h6 : Keeps μ s₀ s6 := h5.foldl fun _ _ k => .ite k.courseReason k
    exact h6.fillSlot

theorem Keeps.releaseSlot [Fact (μ ≤ 1)] {q} (h : Keeps μ s₀ s) : Keeps μ s₀ (s.releaseSlot q) :=
  .ite (.ite h.upd.releaseReplay h.upd.releaseLive) h

theorem Keeps.releaseSlots [Fact (μ ≤ 1)] (h : Keeps μ s₀ s) : Keeps μ s₀ s.releaseSlots := h.foldl fun _ _ k => k.releaseSlot

theorem Answers.slotRelease [Fact (μ ≤ 1)] {q} (h : Keeps μ s₀ s) : Answers μ s₀ (execSlotRelease q s) := .ite h.releaseSlot h

theorem Keeps.readCourse {q k} (h : Keeps μ s₀ s) : Keeps μ s₀ (s.readCourse q k) := by
  dsimp only [State.readCourse]
  split
  · exact h.memFault
  · exact h

theorem Answers.replayCourseRead {q} (h : Keeps μ s₀ s) : Answers μ s₀ (execReplayCourseRead q s) := by
  dsimp only [execReplayCourseRead]
  split
  · split
    · split
      · exact h.readCourse.setReplay.landReplay
      · exact h.readCourse.setReplay
    · exact h
  · exact h

theorem Keeps.ridgeFault {cause frame detail} (h : Keeps μ s₀ s) : Keeps μ s₀ (s.ridgeFault cause frame detail) := h.fault

theorem Keeps.bind [Fact (μ ≤ 1)] {n0 s0 tref} (h : Keeps μ s₀ s) : Keeps μ s₀ (s.bind n0 s0 tref) :=
  .ite h.updGrid.setFld.setFlag.ridgeFault h.updGrid.setFld

theorem Keeps.tagReady {k f} (h : Keeps μ s₀ s) : Keeps μ s₀ (s.tagReady k f) := h.upd

theorem Keeps.tagAll (h : Keeps μ s₀ s) : Keeps μ s₀ s.tagAll := h.foldl (fun _ _ k => k.foldl (fun _ _ k2 => k2.tagReady))

theorem Answers.scheduleBind [Fact (μ ≤ 1)] (h : Keeps μ s₀ s) : Answers μ s₀ (execScheduleBind s) := by
  dsimp only [execScheduleBind]
  split
  · split
    · split
      · exact h
      · exact .ite h.upd.upd.bind h
    · split
      · exact h
      · exact (h.tagAll.foldl (fun _ _ k => k.setGroup.foldl (fun _ _ k2 => (Keeps.ite k2
        k2.gutter).courseReason))).bind.settleAll
  · exact h

theorem Keeps.zeroMissing {q c} (h : Keeps μ s₀ s) : Keeps μ s₀ (s.zeroMissing q c) :=
  h.foldl fun _ _ k => .ite k (k.updMem (zeroRange_wf _ _ _))

theorem Answers.calWindowClose {layer kind} (h : Keeps μ s₀ s) : Answers μ s₀ (execCalWindowClose layer kind s) :=
  .ite (.ite (.ite h.upd.upd h.upd) h) h

theorem Keeps.raiseCal {e} (h : Keeps μ s₀ s) : Keeps μ s₀ (s.raiseCal e) := h.setFlag.bump.emcy.record

theorem Answers.calibrationEvent (h : Keeps μ s₀ s) : Answers μ s₀ (execCalibrationEvent s) := by
  dsimp only [execCalibrationEvent]
  split
  · exact h
  · exact h.upd.raiseCal

theorem Keeps.raiseAllCal (h : Keeps μ s₀ s) : Keeps μ s₀ s.raiseAllCal := h.upd.foldl fun _ _ k => k.raiseCal

theorem Answers.layerTotalsRefresh (h : Keeps μ s₀ s) : Answers μ s₀ (execLayerTotalsRefresh s) := h.refreshTotals

/-! ### Decision -/

theorem Keeps.markFault {cause m} (h : Keeps μ s₀ s) : Keeps μ s₀ (s.markFault cause m) := h.fault

theorem Keeps.sortMark {m} (h : Keeps μ s₀ s) : Keeps μ s₀ (s.sortMark m) :=
  .ite h (.ite h (.ite h.markFault (.ite h.markFault (.ite h.markFault h.upd))))

theorem Keeps.markClash {l a} (h : Keeps μ s₀ s) : Keeps μ s₀ (s.markClash l a) := h.foldl fun _ _ k => k.tileFault

theorem Answers.markArrival {p} (h : Keeps μ s₀ s) : Answers μ s₀ (execMarkArrival p s) := by
  dsimp only [execMarkArrival]
  split
  · split
    · exact h
    · split
      · exact h.upd.sortMark
      · exact h.upd.markClash
  · exact h

theorem Keeps.evalSeed {n acc seed} (h : Keeps μ s₀ s) : Keeps μ s₀ (s.evalSeed n acc seed).1 := by
  dsimp only [State.evalSeed]
  split
  · split
    · split
      · exact h.bumpBy.bump.setEnt.bump
      · exact h.bumpBy.bump.setEnt
    · exact h.bumpBy
  · exact h

theorem Keeps.evaluate {n} (h : Keeps μ s₀ s) : Keeps μ s₀ (s.evaluate n).1 := by
  have hl (l : List Nat) (a : State × Nat × Nat × Nat) (ha : Keeps μ s₀ a.1) :
      Keeps μ s₀ (l.foldl (fun a seed => a.1.evalSeed n a.2 seed) a).1 := by
    induction l generalizing a with
    | nil => exact ha
    | cons d l ih => exact ih _ ha.evalSeed
  exact hl _ _ h

theorem Keeps.countClasses {sub accept} (h : Keeps μ s₀ s) : Keeps μ s₀ (s.countClasses sub accept) :=
  h.foldl fun _ _ k => .ite k.bump k

theorem Keeps.submit {r} (h : Keeps μ s₀ s) : Keeps μ s₀ (s.submit r) := h.upd

theorem Answers.ridgeEvaluate (h : Keeps μ s₀ s) : Answers μ s₀ (execRidgeEvaluate s) := by
  dsimp only [execRidgeEvaluate]
  split
  · split
    · exact h.upd.bump.submit.upd
    · exact h.upd.evaluate.upd.bump.countClasses.submit
  · exact h

theorem Keeps.acceptRequest {origin frame accept raw} (h : Keeps μ s₀ s) :
    Keeps μ s₀ (s.acceptRequest origin frame accept raw) := by
  dsimp only [State.acceptRequest]
  split
  · exact h
  · exact .ite h h.formRequest

theorem Keeps.enterPin {r} (h : Keeps μ s₀ s) : Keeps μ s₀ (s.enterPin r) :=
  .ite (.ite (.ite h h.acceptRequest) (Keeps.ite h h.acceptRequest).setFlag.ridgeFault) (.ite (Keeps.ite h h.acceptRequest).upd
    (Keeps.ite h h.acceptRequest).upd.setFld)

theorem Keeps.tickPin (h : Keeps μ s₀ s) : Keeps μ s₀ s.tickPin := .ite h (h.upd.foldl (fun _ _ k => k.enterPin))

theorem Keeps.pulse {o} (h : Keeps μ s₀ s) : Keeps μ s₀ (s.pulse o) := by
  dsimp only [State.pulse]
  split
  · exact .ite h.upd.bump h.upd.emit.emit
  · exact h.upd.emit

theorem Keeps.sendAccept {m} (h : Keeps μ s₀ s) : Keeps μ s₀ (s.sendAccept m) := h.foldl fun _ _ k => k.sendBlocks

theorem Keeps.enterEdges (h : Keeps μ s₀ s) : Keeps μ s₀ s.enterEdges := h.upd.foldl fun _ _ k => k.timelineEnter

theorem Keeps.passRecord {r} (h : Keeps μ s₀ s) : Keeps μ s₀ (s.passRecord r) :=
  ((h.foldl (fun _ _ k => .ite k.pulse k)).foldl (fun _ _ k => .ite k.pulse k)).upd

theorem Answers.pinRelease (h : Keeps μ s₀ s) : Answers μ s₀ (execPinRelease s) := by
  dsimp only [execPinRelease]
  split
  · exact h
  · exact h.upd

theorem Keeps.leaveFlashing (h : Keeps μ s₀ s) : Keeps μ s₀ s.leaveFlashing := by
  dsimp only [State.leaveFlashing]
  split
  · exact h
  · exact .ite (Keeps.ite h.upd.countClasses h.upd.passRecord).sendAccept (.ite h.upd.countClasses h.upd.passRecord)

theorem Answers.acceptPulseEnd {o} (h : Keeps μ s₀ s) : Answers μ s₀ (execAcceptPulseEnd o s) := by
  dsimp only [execAcceptPulseEnd]
  split
  · split
    · exact .ite h.upd.emit h
    · exact h
  · exact h

theorem Answers.menuCheck {uncorrectable} (h : Keeps μ s₀ s) : Answers μ s₀ (execMenuCheck uncorrectable s) :=
  .ite (.ite h.ridgeFault.setDoubt h) h

theorem Keeps.supplyDoubt {rail reading} (h : Keeps μ s₀ s) : Keeps μ s₀ (s.supplyDoubt rail reading) := h.setDoubt.setFlag.emcy

theorem Answers.doubtRegister {k} (h : Keeps μ s₀ s) : Answers μ s₀ (execDoubtRegister k s) :=
  .ite (.ite h (.ite h.ridgeFault.setDoubt (.ite h.setDoubt.setFlag (.ite h.fresh.fresh.supplyDoubt h.setDoubt)))) h

theorem Answers.releaseHoldEnd (h : Keeps μ s₀ s) : Answers μ s₀ (execReleaseHoldEnd s) := by
  dsimp only [execReleaseHoldEnd]
  split
  · exact h
  · exact .ite (Keeps.ite h.setFld.setFlag.upd.emit h.setFld.setFlag.upd).refreshHold h

theorem Answers.holdoffRelease (h : Keeps μ s₀ s) : Answers μ s₀ (execHoldoffRelease s) := by
  dsimp only [execHoldoffRelease]
  split
  · exact h
  · exact .ite (Keeps.ite h.setFlag.emit h.setFlag) h

/-! ### Capture -/

theorem Keeps.hostCapture [Fact (μ ≤ 1)] {frame pre post mask dest} (h : Keeps μ s₀ s) :
    Keeps μ s₀ (s.hostCapture frame pre post mask dest).1 := by
  dsimp only [State.hostCapture]
  split
  · exact h.releaseSlots.capCount
  · split
    · exact h.releaseSlots
    · exact h.releaseSlots.formRequest

theorem Answers.hostCapture [Fact (μ ≤ 1)] {frame pre post mask dest} (h : Keeps μ s₀ s) :
    Answers μ s₀ (execHostCapture frame pre post mask dest s) :=
  h.hostCapture

theorem Keeps.enterCopy {r k t word} (h : Keeps μ s₀ s) : Keeps μ s₀ (s.enterCopy r k t word) := h.upd.enterDesc.bump

theorem Keeps.refuseCopy {t} (h : Keeps μ s₀ s) : Keeps μ s₀ (s.refuseCopy t) := h.upd.bump

theorem Keeps.issueFrag {r k} (h : Keeps μ s₀ s) : Keeps μ s₀ (s.issueFrag r k).1 := by
  dsimp only [State.issueFrag]
  split
  · exact h
  · split
    · exact h
    · split
      · exact h.refuseCopy
      · exact h.enterCopy

theorem Keeps.putFrag {r k bs} (h : Keeps μ s₀ s) : Keeps μ s₀ (s.putFrag r k bs) := by
  unfold State.putFrag
  split
  · exact h.rewrite
  · split
    · exact h.ddrWrite
    · exact h

theorem Keeps.reserveFor {r} (h : Keeps μ s₀ s) : Keeps μ s₀ (s.reserveFor r).1 := by
  dsimp only [State.reserveFor]
  split
  · exact h
  · exact (Keeps.ite h h.ddrWrite).setRing

theorem Keeps.settleReq {r} (h : Keeps μ s₀ s) : Keeps μ s₀ (s.settleReq r) :=
  .ite h.putReq (.ite h.finishReq (.ite h.putReq h.reserveFor.putReq))

theorem Keeps.resolveFrag {r k whole} (h : Keeps μ s₀ s) : Keeps μ s₀ (s.resolveFrag r k whole) :=
  .ite h.settleReq h.putFrag.capCount.settleReq

theorem Keeps.issueOne {r k} (h : Keeps μ s₀ s) : Keeps μ s₀ (s.issueOne r k) := .ite h.issueFrag.resolveFrag h.issueFrag.putReq

theorem Keeps.issueWindow {q} (h : Keeps μ s₀ s) : Keeps μ s₀ (s.issueWindow q) := by
  dsimp only [State.issueWindow]
  split
  · exact h
  · split
    · exact h
    · split
      · exact h
      · refine Keeps.foldl ?_ ?_
        · exact h.reserveFor.putReq
        · intro _ _ k
          split
          · exact k
          · split
            · exact k
            · split
              · exact k
              · exact .ite k (.ite k.refuseCopy.putReq k.enterCopy.putReq)

theorem Keeps.issueCards (h : Keeps μ s₀ s) : Keeps μ s₀ s.issueCards :=
  h.foldl (fun _ _ k => .ite k (.ite k.refuseCopy (.ite k.upd.refuseCopy k.upd.enterDesc.bump)))

theorem Keeps.issueReq {q} (h : Keeps μ s₀ s) : Keeps μ s₀ (s.issueReq q) := by
  dsimp only [State.issueReq]
  split
  · exact h
  · refine Keeps.foldl ?_ ?_
    · exact h
    · intro _ _ k
      split
      · exact k
      · exact .ite k (.ite k.issueOne (.ite k (.ite k.issueOne (.ite k.resolveFrag (.ite k.issueOne k)))))

theorem Keeps.issueAll (h : Keeps μ s₀ s) : Keeps μ s₀ s.issueAll := h.issueCards.foldl fun _ _ k => k.issueReq.issueWindow

theorem Answers.courseHeaderWrite {q frame} (h : Keeps μ s₀ s) : Answers μ s₀ (execCourseHeaderWrite q frame s) := by
  unfold execCourseHeaderWrite
  split
  · split
    · exact h
    · next c _ =>
      split
      · extract_lets f s1
        have hf : Keeps μ s₀ f.2 := by
          unfold f
          split
          · exact h
          · exact h.fresh
        have h1 : Keeps μ s₀ s1 := hf.zeroMissing.write
        exact h1.upd
      · exact h
  · exact h

theorem Answers.requestStart (h : Keeps μ s₀ s) : Answers μ s₀ (execRequestStart s) := by
  dsimp only [execRequestStart]
  split
  · exact h
  · split
    · split
      · exact h
      · exact .ite h.settleReq h.putReq.issueReq
    · exact .ite h (.ite h.reserveFor.finishReq h.reserveFor.putReq.issueReq)

theorem Keeps.noteBadCopy {r k} (h : Keeps μ s₀ s) : Keeps μ s₀ (s.noteBadCopy r k) := .ite h h.fresh.setFlag

theorem Keeps.endCopy {r k t ok} (h : Keeps μ s₀ s) : Keeps μ s₀ (s.endCopy r k t ok) := by
  unfold State.endCopy
  extract_lets s1 s2 r' _
  have h2 : Keeps μ s₀ s2 := .ite h.leaveTender.putFrag h.leaveTender
  exact .ite (.ite h2.endAborted h2.upd) (.ite h2.resolveFrag h2.putReq)

theorem Answers.fragmentCopyDone {seq k ok} (h : Keeps μ s₀ s) : Answers μ s₀ (execFragmentCopyDone seq k ok s) := by
  dsimp only [execFragmentCopyDone]
  split
  · exact h
  · split
    · exact h
    · exact (Keeps.ite h h.noteBadCopy).endCopy

theorem Answers.fragmentRereadDone {seq k} (h : Keeps μ s₀ s) : Answers μ s₀ (execFragmentRereadDone seq k s) := by
  dsimp only [execFragmentRereadDone]
  split
  · exact h
  · split
    · exact h
    · exact .ite h.resolveFrag (.ite h.capCount.putReq h.resolveFrag)

theorem Answers.fragmentTimeout {seq k} (h : Keeps μ s₀ s) : Answers μ s₀ (execFragmentTimeout seq k s) := by
  dsimp only [execFragmentTimeout]
  split
  · exact h
  · exact .ite h.resolveFrag h

theorem Keeps.freePayload {a n} (h : Keeps μ s₀ s) : Keeps μ s₀ (s.freePayload a n) := h.fresh.ddrWrite

theorem Keeps.writeTerm {link} (h : Keeps μ s₀ s) : Keeps μ s₀ (s.writeTerm link) := by
  dsimp only [State.writeTerm]
  split
  · exact h
  · exact (Keeps.ite h.freePayload h).ddrWrite.ddrWrite.setRing

theorem Answers.recordPublish {link} (h : Keeps μ s₀ s) : Answers μ s₀ (execRecordPublish link s) := h.writeTerm.publishRing

theorem Answers.hostRingNotify (h : Keeps μ s₀ s) : Answers μ s₀ (execHostRingNotify s) := by
  dsimp only [execHostRingNotify]
  split
  · exact h
  · exact .ite h.upd.raise h

theorem Answers.linkEgressRecord (h : Keeps μ s₀ s) : Answers μ s₀ (execLinkEgressRecord s) := by
  dsimp only [execLinkEgressRecord]
  split
  · exact h.upd.sendBlocks
  · exact h

theorem OkKeeps.consumerWrite {v} (h : Keeps μ s₀ s) : OkKeeps μ s₀ (s.consumerWrite v) := .ite trivial h.upd.setEnt

theorem Answers.hostConsumerWrite {v} (h : Keeps μ s₀ s) : Answers μ s₀ (execHostConsumerWrite v s) :=
  .orSame h (.consumerWrite h)

theorem Keeps.writeCard {v} (h : Keeps μ s₀ s) : Keeps μ s₀ (s.writeCard v) := h.upd.issueCards

theorem Answers.windowSlotBind (h : Keeps μ s₀ s) : Answers μ s₀ (execWindowSlotBind s) := by
  dsimp only [execWindowSlotBind]
  split
  · split
    · exact h.upd.writeCard.putReq
    · exact h.upd.writeCard
  · exact h

theorem Keeps.keepWindow {r} (h : Keeps μ s₀ s) : Keeps μ s₀ (s.keepWindow r) := h.reserveFor.putReq

theorem Answers.verdictMark {p} (h : Keeps μ s₀ s) : Answers μ s₀ (execVerdictMark p s) := by
  dsimp only [execVerdictMark]
  split
  · split
    · exact h
    · split
      · exact h.upd
      · split
        · exact h.upd.capCount
        · split
          · exact h.upd.capCount
          · split
            · exact h.upd.upd
            · exact .ite h.upd.upd (.ite h.upd.upd.keepWindow h.upd.upd.putReq)
  · exact h

theorem Answers.verdictDeadline {z} (h : Keeps μ s₀ s) : Answers μ s₀ (execVerdictDeadline z s) := by
  unfold execVerdictDeadline
  split
  · exact h
  · split
    · split
      · exact h
      · exact .ite h (.ite h.capCount.dropReq (.ite h.keepWindow h))
    · exact h

theorem Keeps.moveWindow {r} (h : Keeps μ s₀ s) : Keeps μ s₀ (s.moveWindow r) := h.foldl fun _ _ k => k.ddrWrite

theorem Keeps.leaveWindow {r} (h : Keeps μ s₀ s) : Keeps μ s₀ (s.leaveWindow r) := h.foldl fun _ _ k => k.leaveTender

theorem Answers.windowCopyDone {seq} (h : Keeps μ s₀ s) : Answers μ s₀ (execWindowCopyDone seq s) := by
  dsimp only [execWindowCopyDone]
  split
  · exact .ite h.moveWindow.leaveWindow.finishReq h
  · split
    · exact h
    · exact h.leaveWindow.endAborted

theorem Answers.captureAbort {seq all} (h : Keeps μ s₀ s) : Answers μ s₀ (execCaptureAbort seq all s) := h.registerAbort

theorem Keeps.rearm (h : Keeps μ s₀ s) : Keeps μ s₀ s.rearm := h.upd.setFlag.setFld

theorem Answers.rearm (h : Keeps μ s₀ s) : Answers μ s₀ (execRearm s) := h.rearm

/-! ### Time -/

theorem Keeps.stepMain {d} (h : Keeps μ s₀ s) : Keeps μ s₀ (s.stepMain d) := by
  unfold State.stepMain
  exact h.upd.setFlag.bump.timeEvent

theorem Keeps.turn {l} (h : Keeps μ s₀ s) : Keeps μ s₀ (s.turn l) := .ite h h.upd

theorem Keeps.mainTick (h : Keeps μ s₀ s) : Keeps μ s₀ s.mainTick := by
  dsimp only [State.mainTick]
  refine Keeps.turn ?_
  split
  · refine Keeps.stepMain ?_
    split
    · refine Keeps.stepMain ?_
      refine Keeps.upd ?_
      split
      · exact h.setEnt
      · exact h
    · refine Keeps.upd ?_
      split
      · exact h.setEnt
      · exact h
  · split
    · refine Keeps.stepMain ?_
      refine Keeps.upd ?_
      split
      · exact h.setEnt
      · exact h
    · refine Keeps.upd ?_
      split
      · exact h.setEnt
      · exact h

theorem Answers.mainClockTick (h : Keeps μ s₀ s) : Answers μ s₀ (execMainClockTick s) := .ite h.mainTick h

theorem OkKeeps.incWrite {v} (h : Keeps μ s₀ s) : OkKeeps μ s₀ (s.incWrite v) := .ite trivial (.ite trivial h.upd)

theorem Answers.mainIncrementWrite {v} (h : Keeps μ s₀ s) : Answers μ s₀ (execMainIncrementWrite v s) :=
  .ite (.orSame h (.incWrite h)) h

theorem OkKeeps.timeWrite {v} (h : Keeps μ s₀ s) : OkKeeps μ s₀ (s.timeWrite v) := .ite trivial (.ite trivial h.upd)

theorem Answers.mainTime {v} (h : Keeps μ s₀ s) : Answers μ s₀ (execMainTime v s) := .ite (.orSame h (.timeWrite h)) h

theorem OkKeeps.adjustWrite {v} (h : Keeps μ s₀ s) : OkKeeps μ s₀ (s.adjustWrite v) := .ite trivial h.upd

theorem Answers.timeAdjust {v} (h : Keeps μ s₀ s) : Answers μ s₀ (execTimeAdjust v s) := .ite (.orSame h (.adjustWrite h)) h

theorem Answers.fallbackCommit (h : Keeps μ s₀ s) : Answers μ s₀ (execFallbackCommit s) := .ite h.upd h

theorem Answers.fallbackRefit (h : Keeps μ s₀ s) : Answers μ s₀ (execFallbackRefit s) := .ite h.upd.setEnt.setEnt.setEnt h

theorem Keeps.clockFault {island cause} (h : Keeps μ s₀ s) : Keeps μ s₀ (s.clockFault island cause) :=
  (Keeps.ite h.upd.setDoubt.setFlag.timeEvent h.upd.setDoubt).fault

theorem Answers.clockFault {island cause} (h : Keeps μ s₀ s) : Answers μ s₀ (execClockFault island cause s) := .ite h.clockFault h

theorem Answers.islandGeneratorLocked {island} (h : Keeps μ s₀ s) : Answers μ s₀ (execIslandGeneratorLocked island s) :=
  .ite h.upd h

theorem Keeps.leaveFallback (h : Keeps μ s₀ s) : Keeps μ s₀ s.leaveFallback := .ite h.upd.turn.setFlag.setFlag.timeEvent h

theorem Keeps.setDomain {d x} (h : Keeps μ s₀ s) : Keeps μ s₀ (s.setDomain d x) := .ite h.upd h.upd

theorem Keeps.refreshHealth (h : Keeps μ s₀ s) : Keeps μ s₀ s.refreshHealth := h.setFlag.setFlag

theorem Keeps.setLock {on} (h : Keeps μ s₀ s) : Keeps μ s₀ (s.setLock on) :=
  .ite h (Keeps.ite h.setFlag.timeEvent h.setFlag.setFlag.timeEvent).refreshTimeDoubt

theorem Keeps.refreshLock (h : Keeps μ s₀ s) : Keeps μ s₀ s.refreshLock := .ite h.upd.setLock (Keeps.ite h.upd h).setLock

theorem Keeps.switchTo {d} (h : Keeps μ s₀ s) : Keeps μ s₀ (s.switchTo d) := by
  unfold State.switchTo
  exact h.setFld.bump.setFlag.timeEvent

theorem Keeps.noteActive {ok} (h : Keeps μ s₀ s) : Keeps μ s₀ (s.noteActive ok) := (Keeps.ite h.upd h).setFlag.setFlag

theorem Keeps.chooseDomain (h : Keeps μ s₀ s) : Keeps μ s₀ s.chooseDomain :=
  (Keeps.ite (.ite h.switchTo h) (.ite h.switchTo h)).noteActive

theorem Keeps.steerBase (h : Keeps μ s₀ s) : Keeps μ s₀ s.steerBase := .ite h.upd h

theorem Keeps.steerHold (h : Keeps μ s₀ s) : Keeps μ s₀ s.steerHold := .ite h.steerBase h

theorem Keeps.refreshClock (h : Keeps μ s₀ s) : Keeps μ s₀ s.refreshClock :=
  (Keeps.ite h.refreshHealth.noteActive h.refreshHealth).steerHold.refreshLock

theorem Keeps.dropMaster {d} (h : Keeps μ s₀ s) : Keeps μ s₀ (s.dropMaster d) := h.setDomain.setFlag

theorem Keeps.domainWritten {d old} (h : Keeps μ s₀ s) : Keeps μ s₀ (s.domainWritten d old) :=
  .ite (Keeps.ite h.setDomain h).dropMaster (.ite h.setDomain h)

theorem Answers.ptpAnnounce {d port master best utc} (h : Keeps μ s₀ s) : Answers μ s₀ (execPtpAnnounce d port master best utc s) :=
  .ite (.ite (Keeps.ite h.bump h).setFlag.setFld.setEnt.setEnt.setDomain.refreshClock h) h

theorem Keeps.nextSeq {q typ} (h : Keeps μ s₀ s) : Keeps μ s₀ (s.nextSeq q typ).2 := h.upd

theorem Answers.delayReqSend {d} (h : Keeps μ s₀ s) : Answers μ s₀ (execDelayReqSend d s) :=
  .ite (.ite h.nextSeq.upd.setDomain.emit h) h

theorem Keeps.updateBase {d o oPrev a sNs} (h : Keeps μ s₀ s) : Keeps μ s₀ (s.updateBase d o oPrev a sNs) := h.setEnt

theorem Keeps.steer {d sNs o} (h : Keeps μ s₀ s) : Keeps μ s₀ (s.steer d sNs o) := h.upd

theorem Keeps.servoStep {o} (h : Keeps μ s₀ s) : Keeps μ s₀ (s.servoStep o) := .ite h.upd h

theorem Keeps.syncHeard {d logSync} (h : Keeps μ s₀ s) : Keeps μ s₀ (s.syncHeard d logSync) := h.setDomain.setFld

theorem Keeps.exchanged {d o sNs} (h : Keeps μ s₀ s) : Keeps μ s₀ (s.exchanged d o sNs) := by
  unfold State.exchanged
  extract_lets x timed s1 s2 s3 a s4 s5 s6
  have h4 : Keeps μ s₀ s4 := (Keeps.ite h.updateBase h).setDomain.bump.setEnt.refreshHealth.chooseDomain
  have h5 : Keeps μ s₀ s5 := .ite h4.steer (.ite h4.steerBase h4)
  have h6 : Keeps μ s₀ s6 := .ite (.ite (.ite h5 h5.servoStep) h4) (.ite h4.steerBase h4)
  exact h6.steerHold.refreshLock

theorem Answers.ptpExchange {d x sNs ident logSync} (h : Keeps μ s₀ s) :
    Answers μ s₀ (execPtpExchange d x sNs ident logSync s) := by
  dsimp only [execPtpExchange]
  split
  · split
    · split
      · exact .ite h.syncHeard.exchanged h.syncHeard.refreshClock
      · exact h.syncHeard.refreshClock
    · exact h
  · exact h

theorem Answers.domainTimeout {d} (h : Keeps μ s₀ s) : Answers μ s₀ (execDomainTimeout d s) :=
  .ite (.ite h (.ite h.setDomain.refreshClock h.dropMaster.refreshClock)) h

theorem Answers.holdoverExpiry (h : Keeps μ s₀ s) : Answers μ s₀ (execHoldoverExpiry s) := .ite h.setLock h

theorem Answers.ptpLinkChange {port up} (h : Keeps μ s₀ s) : Answers μ s₀ (execPtpLinkChange port up s) := .ite h.setFlag h

theorem Answers.ptpFrameForward {port f} (h : Keeps μ s₀ s) : Answers μ s₀ (execPtpFrameForward port f s) :=
  .ite (.ite h (.ite h.bump (.ite h (.ite h.bump h.emit)))) h

theorem Answers.serveSync {port} (h : Keeps μ s₀ s) : Answers μ s₀ (execServeSync port s) := .ite (.ite h.nextSeq.upd.emit h) h

theorem Answers.serveAnnounce {port} (h : Keeps μ s₀ s) : Answers μ s₀ (execServeAnnounce port s) :=
  .ite (.ite h.nextSeq.emit h) h

theorem Keeps.mainInstant (h : Keeps μ s₀ s) : Keeps μ s₀ s.mainInstant.2 := h.fresh (w := 16)

theorem Answers.serveDelayResp {port reqId} (h : Keeps μ s₀ s) : Answers μ s₀ (execServeDelayResp port reqId s) :=
  .ite (.ite h.mainInstant.emit h) h

theorem Keeps.loseStamp {port ident d} (h : Keeps μ s₀ s) : Keeps μ s₀ (s.loseStamp port ident d) := .ite h.setDomain h

theorem Keeps.syncDone {port ident} (h : Keeps μ s₀ s) : Keeps μ s₀ (s.syncDone port ident) := h.upd

theorem Keeps.reqDone {port ident} (h : Keeps μ s₀ s) : Keeps μ s₀ (s.reqDone port ident) := h.upd

theorem Answers.txStamp [Fact (μ ≤ 1)] [Fact (μ ≤ 0)] {port msgType ident stamp} (h : Keeps μ s₀ s) :
    Answers μ s₀ (execTxStamp port msgType ident stamp s) :=
  .ite (.ite h (.ite (Keeps.ite h.syncDone h.reqDone.loseStamp.loseStamp).setFlag.bump.timeEvent (Keeps.ite h
    h.reqDone).updAny.setFld)) h

theorem Keeps.reqSent {port ident t d} (h : Keeps μ s₀ s) : Keeps μ s₀ (s.reqSent port ident t d) := .ite h.setDomain h

theorem Keeps.readStamp [Fact (μ ≤ 1)] [Fact (μ ≤ 0)] (h : Keeps μ s₀ s) : Keeps μ s₀ s.readStamp := by
  dsimp only [State.readStamp]
  split
  · exact h
  · exact .ite (.ite h.updAny.setFld.syncDone.emit h.updAny.setFld) h.updAny.setFld.reqSent.reqSent

theorem Answers.trigEdge {i rising bin} (h : Keeps μ s₀ s) : Answers μ s₀ (execTrigEdge i rising bin s) :=
  .ite (.ite (.ite h.upd.bump (.ite h.upd.bump.setEnt.upd.timelineEnter h.upd.bump.setEnt)) h) h

theorem Answers.timelineRelease (h : Keeps μ s₀ s) : Answers μ s₀ (execTimelineRelease s) := by
  dsimp only [execTimelineRelease]
  split
  · exact h
  · exact .ite h.upd.releaseEntry h

theorem OkKeeps.timelineWrite {v} (h : Keeps μ s₀ s) : OkKeeps μ s₀ (s.timelineWrite v) := .ite trivial h.setEnt

theorem Answers.timelineConsumerWrite {v} (h : Keeps μ s₀ s) : Answers μ s₀ (execTimelineConsumerWrite v s) :=
  .ite (.orSame h (.timelineWrite h)) h

/-! ### Dict -/

theorem Keeps.laneWrite {e c v} (h : Keeps μ s₀ s) : Keeps μ s₀ (s.laneWrite e c v) := by
  unfold State.laneWrite
  extract_lets k p sl s1 s2 s3
  have h2 : Keeps μ s₀ s2 := .ite h.setEnt (.ite h.setEnt.requestPower h.setEnt)
  have h3 : Keeps μ s₀ s3 := .ite h2 h2.putSlip
  split
  · split
    · next e => exact (OkKeeps.startBringup h3).keeps e
    · exact h3
  · exact h3

theorem Keeps.groupMoved {q g} (h : Keeps μ s₀ s) : Keeps μ s₀ (s.groupMoved q g) := h.setGroup.setFld.refreshGroup

theorem Keeps.applyWrite [Fact (μ ≤ 1)] [Fact (μ ≤ 0)] {e i sub v} (h : Keeps μ s₀ s) : Keeps μ s₀ (s.applyWrite e i sub v) := by
  dsimp only [State.applyWrite]
  split
  · exact h.laneWrite
  · exact .ite h.setEnt.remapped (.ite h.setEnt.remapped (.ite (.ite h.setEnt h.setEnt.groupMoved) (.ite (.ite h.setEnt
    h.setEnt.newRetired) (.ite h.setEnt.refreshHold (.ite h.setEnt.upd (.ite h.setEnt.refreshQueue (.ite h.setEnt.setEnt.updAny
    (.ite h.setEnt.refreshClock.refreshTimeDoubt (.ite h.setEnt.domainWritten.refreshClock.refreshTimeDoubt h.setEnt)))))))))

theorem OkKeeps.storeAll {k ok} (h : Keeps μ s₀ s) : OkKeeps μ s₀ (s.storeAll k ok) := .ite h.writeStore.upd trivial

theorem OkKeeps.storeClear {k} (h : Keeps μ s₀ s) : OkKeeps μ s₀ (s.storeClear k) := .ite h.upd trivial

theorem Keeps.answer {x : Except Nat State} (h : Keeps μ s₀ s) (hx : OkKeeps μ s₀ x) : Keeps μ s₀ (answer s x).1 := by
  unfold Machine.answer
  split
  · exact hx
  · exact h

theorem OkKeeps.emcyConsume {v} (h : Keeps μ s₀ s) : OkKeeps μ s₀ (s.emcyConsume v) := .ite trivial h.setEnt

theorem Keeps.hostCaptureWrite [Fact (μ ≤ 1)] [Fact (μ ≤ 0)] {e i sub v} (h : Keeps μ s₀ s) :
    Keeps μ s₀ (s.hostCaptureWrite e i sub v).1 := by
  dsimp only [State.hostCaptureWrite]
  split
  · split
    · exact h.hostCapture
    · exact h.hostCapture.applyWrite
  · exact h.applyWrite

theorem Keeps.actionEffect [Fact (μ ≤ 1)] [Fact (μ ≤ 0)] {e i sub v} (h : Keeps μ s₀ s) :
    Keeps μ s₀ (s.actionEffect e i sub v).1 := by
  unfold State.actionEffect
  extract_lets f t
  have hf : Keeps μ s₀ f.2 := h.fresh
  have ht : Keeps μ s₀ t := h.applyWrite
  refine .ite_fst (h.answer (.storeAll hf)) ?_
  refine .ite_fst (h.answer (.storeClear h)) ?_
  refine .ite_fst (.ite ht.rearm ht) ?_
  refine .ite_fst h.hostCaptureWrite ?_
  refine .ite_fst (.ite ht.registerAbort ht) ?_
  refine .ite_fst (h.answer (.consumerWrite h)) ?_
  refine .ite_fst (h.answer (.incWrite h)) ?_
  refine .ite_fst (h.answer (.timeWrite h)) ?_
  refine .ite_fst (h.answer (.adjustWrite h)) ?_
  refine .ite_fst h.upd ?_
  exact .ite_fst (h.answer (.timelineWrite h)) (h.answer (.emcyConsume h))

theorem OkKeeps.settingWrite [Fact (μ ≤ 1)] [Fact (μ ≤ 0)] {i sub len v} (h : Keeps μ s₀ s) :
    OkKeeps μ s₀ (s.settingWrite i sub len v) := by
  unfold State.settingWrite
  split
  · exact .ite trivial (.ite trivial h.setEnt)
  split
  · exact trivial
  · next e _ =>
    split
    · exact trivial
    · extract_lets r
      have hr : Keeps μ s₀ r.1 := by
        unfold r
        split
        · exact h.actionEffect
        · exact h.applyWrite
      split
      · exact .ite trivial trivial
      · exact .ite trivial hr

/-! ### Recorder -/

theorem Answers.recorderOperation (h : Keeps μ s₀ s) : Answers μ s₀ (execRecorderOperation s) := by
  dsimp only [execRecorderOperation]
  split
  · exact h
  · exact .ite h h.upd

theorem Keeps.tearRecorder (h : Keeps μ s₀ s) : Keeps μ s₀ s.tearRecorder := by
  unfold State.tearRecorder
  split
  · exact h
  · next r _ _ =>
    extract_lets f _ _ s1 w
    have h1 : Keeps μ s₀ s1 := (h.fresh (w := 2)).upd
    have hw : Keeps μ s₀ w.2 := h1.fresh
    split
    · exact h1
    · exact .ite h1 (.ite h1.upd hw.upd)

theorem Keeps.bootRecorder (h : Keeps μ s₀ s) : Keeps μ s₀ s.bootRecorder := h.upd

theorem Keeps.snapshot {can slot} (h : Keeps μ s₀ s) : Keeps μ s₀ (s.snapshot can slot) := .ite h.setEnt.upd h.setEnt.upd

theorem Keeps.setChunk {can off} (h : Keeps μ s₀ s) : Keeps μ s₀ (s.setChunk can off) := .ite h.setEnt.upd h.setEnt.upd

theorem Keeps.fomRecords {n} (h : Keeps μ s₀ s) : Keeps μ s₀ (s.fomRecords n) :=
  h.foldl (fun _ _ k => k.foldl (fun _ _ k2 => .ite k2.record k2))

theorem Keeps.marginRecords {n} (h : Keeps μ s₀ s) : Keeps μ s₀ (s.marginRecords n) :=
  h.foldl (fun _ _ k => k.foldl (fun _ _ k2 => .ite k2 k2.record))

theorem Answers.summaryInterval (h : Keeps μ s₀ s) : Answers μ s₀ (execSummaryInterval s) :=
  .ite (h.record.foldl (fun _ _ k => k.record)).fomRecords.marginRecords.upd h

/-! ### Image -/

theorem Keeps.clearJobClass (h : Keeps μ s₀ s) : Keeps μ s₀ s.clearJobClass := by
  unfold State.clearJobClass
  exact (h.setDict fun hd => hd.sublist List.filter_sublist).foldl fun _ _ k => k.foldl fun _ _ k => k.setFld

theorem Keeps.retirePending (h : Keeps μ s₀ s) : Keeps μ s₀ s.retirePending :=
  h.foldl fun _ _ k => .ite k.setFld.setFlag.setFld.persist.newRetired k

theorem Keeps.clearGrid [Fact (μ ≤ 1)] [Fact (μ ≤ 0)] (h : Keeps μ s₀ s) : Keeps μ s₀ s.clearGrid := by
  unfold State.clearGrid
  exact (h.updMemAny (zeroRange_wf _ _ _)).foldl fun _ _ k => k.setFld.setFld.foldl fun _ _ k => k.setEnt

theorem Keeps.spareRecords {r a b} (h : Keeps μ s₀ s) : Keeps μ s₀ (s.spareRecords r a b) :=
  .ite (.ite h h.record) (Keeps.ite h h.record).record

theorem Keeps.place (h : Keeps μ s₀ s) : Keeps μ s₀ s.place := by
  unfold State.place
  extract_lets s1 n s2
  have h1 : Keeps μ s₀ s1 := h.foldl fun _ _ k => k.spareRecords
  clear_value s1
  have h2 : Keeps μ s₀ s2 := h1.upd
  exact h2.foldl fun _ _ k => k.foldl fun _ _ k2 => k2.setFld.setFld

theorem Keeps.writeSection [Fact (μ ≤ 1)] {img x} (h : Keeps μ s₀ s) : Keeps μ s₀ (s.writeSection img x) := by
  dsimp only [State.writeSection]
  split
  · exact h.upd
  · exact h.upd
  · exact h.upd
  · exact h.foldl fun _ _ k => k.setEnt
  · exact h.write
  · exact h.setTile
  · exact h.setTile
  · exact h.setTile
  · exact h.rewrite
  · exact h

theorem Keeps.writeSettings [Fact (μ ≤ 1)] [Fact (μ ≤ 0)] {ws : List (Setting × Nat)} (h : Keeps μ s₀ s) :
    Keeps μ s₀ (s.writeSettings ws).1 := by
  induction ws generalizing s with
  | nil => exact h
  | cons w ws ih =>
    unfold State.writeSettings
    split
    · exact h
    · next e => exact ih ((OkKeeps.settingWrite h).keeps e)

theorem Keeps.takeHeader {img} (h : Keeps μ s₀ s) : Keeps μ s₀ (s.takeHeader img) :=
  h.upd.setFld.setFld.setFld.setEnt.setEnt.setEnt.setEnt

theorem Keeps.placeImage [Fact (μ ≤ 1)] [Fact (μ ≤ 0)] {img restart} (h : Keeps μ s₀ s) : Keeps μ s₀ (s.placeImage img restart).1 :=
  (h.clearJobClass.retirePending.clearGrid.place.takeHeader.foldl (fun _ _ k => k.writeSection)).upd.writeSettings

theorem SomeKeeps.patch [Fact (μ ≤ 1)] {img v} (h : Keeps μ s₀ s) : SomeKeeps μ s₀ (s.patch img v) := by
  dsimp only [State.patch]
  split
  · exact trivial
  · split
    · exact trivial
    · split
      · exact .ite trivial (.ite trivial h.write)
      · split
        · exact trivial
        · split
          · split
            · exact .ite trivial h.upd
            · exact trivial
          · exact trivial
      · exact .ite trivial (.ite trivial h.setTile)
      · exact trivial

theorem OkKeeps.patchAll [Fact (μ ≤ 1)] {img} {vs : List (Nat × Nat)} (h : Keeps μ s₀ s) : OkKeeps μ s₀ (s.patchAll img vs) := by
  induction vs generalizing s with
  | nil => exact h
  | cons v vs ih =>
    unfold State.patchAll
    split
    · exact trivial
    · next e => exact ih ((SomeKeeps.patch h).keeps e)

theorem SomeKeeps.libraryBad {n} (h : Keeps μ s₀ s) : SomeKeeps μ s₀ (s.libraryBad n) := by
  unfold State.libraryBad
  cases s.firstBad (ddrBase + s.ent kLib) n with
  | none => exact trivial
  | some w => exact h.memFault

theorem Keeps.loadSteps [Fact (μ ≤ 1)] [Fact (μ ≤ 0)] {restart} (h : Keeps μ s₀ s) : Keeps μ s₀ (s.loadSteps restart).1 := by
  unfold State.loadSteps
  split
  · exact h
  · split
    · next e => exact (SomeKeeps.libraryBad h).keeps e
    · split
      · exact h
      · have hp := h.placeImage (img := ‹_›) (restart := restart)
        split
        · next e => exact e ▸ hp
        · next e =>
          rw [e] at hp
          split
          · exact hp
          · next e =>
            have ha := (OkKeeps.patchAll hp).keeps e
            split
            · exact ha
            · split
              · exact ha
              · exact (Keeps.ite ha.setFld (ha.setFld.foldl fun _ _ k => k.setEnt)).upd

theorem Keeps.loadStatus {e} (h : Keeps μ s₀ s) : Keeps μ s₀ (s.loadStatus e) := by
  dsimp only [State.loadStatus]
  split
  · exact h.setEnt.setEnt
  · exact h.setEnt.setEnt
  · exact h.setEnt.setEnt.setEnt

/-! ### Save -/

theorem Keeps.setSave {st restore cause bytes} (h : Keeps μ s₀ s) : Keeps μ s₀ (s.setSave st restore cause bytes) := h.setEnt

theorem Keeps.noteBadRestore (h : Keeps μ s₀ s) : Keeps μ s₀ s.noteBadRestore := h.fresh.setFlag.memFault

/-- What an item puts back keeps what the state has. -/
def SaveItem.Sound (μ : Nat) (x : SaveItem) : Prop := ∀ (s₀ s : State) (v : Nat), Keeps μ s₀ s → Keeps μ s₀ (x.put s v)

/-- Every item of a list is sound. -/
def AllSound (μ : Nat) (l : List SaveItem) : Prop := ∀ x ∈ l, x.Sound μ

theorem AllSound.nil : AllSound μ [] := List.forall_mem_nil _

theorem AllSound.cons {x : SaveItem} {l} (hx : x.Sound μ) (hl : AllSound μ l) : AllSound μ (x :: l) :=
  List.forall_mem_cons.mpr ⟨hx, hl⟩

theorem AllSound.append {l m} (hl : AllSound μ l) (hm : AllSound μ m) : AllSound μ (l ++ m) := List.forall_mem_append.mpr ⟨hl, hm⟩

theorem AllSound.map {α : Type} {f : α → SaveItem} {l : List α} (h : ∀ a, (f a).Sound μ) : AllSound μ (l.map f) :=
  List.forall_mem_map.mpr fun a _ => h a

theorem AllSound.flatMap {α : Type} {f : α → List SaveItem} {l : List α} (h : ∀ a, AllSound μ (f a)) : AllSound μ (l.flatMap f) :=
  List.forall_mem_flatMap.mpr fun a _ => h a

theorem tileItem_sound [Fact (μ ≤ 1)] {p n get put} : (tileItem p n get put).Sound μ := fun _ _ _ h => h.setTile

theorem signedItem_sound [Fact (μ ≤ 1)] {p n get put} : (signedItem p n get put).Sound μ := tileItem_sound

theorem entItem_sound {k n} : (entItem k n).Sound μ := fun _ _ _ h => h.setEnt

theorem State.saveRegions_sound (s : State) (p : Nat) : AllSound μ (s.saveRegions p) := by
  intro x hx
  obtain ⟨i, -, hi⟩ := List.mem_filterMap.mp hx
  dsimp only at hi
  split at hi
  · cases hi
    exact fun _ _ _ h => h.write.freshWords
  · cases hi

theorem bankItems_sound [Fact (μ ≤ 1)] (p b : Nat) : AllSound μ (bankItems p b) := .map fun _ => tileItem_sound

theorem fileItems_sound [Fact (μ ≤ 1)] (p f : Nat) : AllSound μ (fileItems p f) :=
  .append (.map fun _ => signedItem_sound) (.cons signedItem_sound (.cons tileItem_sound .nil))

theorem sbufItems_sound [Fact (μ ≤ 1)] (p b : Nat) : AllSound μ (sbufItems p b) := by
  refine .append ?_ (.flatMap fun _ => .cons tileItem_sound (.cons tileItem_sound (.cons tileItem_sound .nil)))
  simp only [AllSound, List.forall_mem_cons, tileItem_sound, signedItem_sound, List.not_mem_nil, false_implies, implies_true,
    and_self]

theorem State.tileItems_sound [Fact (μ ≤ 1)] (s : State) (p : Nat) : AllSound μ (s.tileItems p) := by
  refine .append ?_ (.map fun _ => tileItem_sound)
  refine .append ?_ (.cons tileItem_sound (.cons tileItem_sound .nil))
  refine .append (.append ?_ (sbufItems_sound p 0)) (sbufItems_sound p 1)
  refine .append (.append ?_ (.flatMap (fileItems_sound p))) (.map fun _ => tileItem_sound)
  refine .append ?_ (.cons tileItem_sound (.cons tileItem_sound .nil))
  refine .append (.append ?_ (bankItems_sound p 0)) (bankItems_sound p 1)
  exact (((s.saveRegions_sound p).append (.map fun _ => tileItem_sound)).append (.map fun _ => tileItem_sound)).append
    (.map fun _ => tileItem_sound)

theorem ridgeItems_sound : AllSound μ ridgeItems :=
  .append (.flatMap fun _ => .cons entItem_sound (.cons entItem_sound (.cons entItem_sound .nil))) (.map fun _ => entItem_sound)

theorem State.avgItems_sound (s : State) : AllSound μ s.avgItems :=
  .flatMap fun _ => .cons (fun _ _ _ h => h.upd) (.map fun _ => fun _ _ _ h => h.upd)

theorem counterItems_sound (l : List Nat) : AllSound μ (counterItems l) :=
  .append (.append (.flatMap fun _ => .cons entItem_sound (.cons entItem_sound .nil))
    (.flatMap fun _ => .map fun _ => fun _ _ _ h => h.upd)) (.flatMap fun _ => .map fun _ => fun _ _ _ h => h.setFld)

theorem State.saveItems_sound [Fact (μ ≤ 1)] (s : State) : AllSound μ s.saveItems :=
  .append (.append (.append (.flatMap s.tileItems_sound) ridgeItems_sound) s.avgItems_sound) (counterItems_sound _)

theorem Keeps.readItems {l : List SaveItem} {b} (h : Keeps μ s₀ s) (hl : AllSound μ l) : Keeps μ s₀ (s.readItems l b) := by
  induction l generalizing s b with
  | nil => exact h
  | cons x l ih =>
    obtain ⟨hx, hl⟩ := List.forall_mem_cons.mp hl
    exact ih (hx _ _ _ h) hl

theorem Keeps.readSave [Fact (μ ≤ 1)] (h : Keeps μ s₀ s) : Keeps μ s₀ s.readSave := h.readItems s.saveItems_sound

/-! ### Arming -/

theorem Keeps.layRings (h : Keeps μ s₀ s) : Keeps μ s₀ s.layRings := .ite h h.upd.setEnt.setEnt

theorem Keeps.armRates (h : Keeps μ s₀ s) : Keeps μ s₀ s.armRates := h.upd

theorem Keeps.notePast (h : Keeps μ s₀ s) : Keeps μ s₀ s.notePast := h.foldl fun _ _ k => .ite k.setGroup k

theorem Keeps.flushWait (h : Keeps μ s₀ s) : Keeps μ s₀ s.flushWait :=
  h.foldl (fun _ _ k => k.setGroup.foldl (fun _ _ k2 => (Keeps.ite k2 k2.gutter).courseReason))

theorem Keeps.armed (h : Keeps μ s₀ s) : Keeps μ s₀ s.armed :=
  (Keeps.ite h.setFld (h.setFld.foldl
    (fun _ _ k => k.setEnt))).setFld.setFlag.setFld.setEnt.setEnt.setFlag.setFld.upd.layRings.setFlag.setJob.armRates.refreshLaneDoubt.refreshHold

theorem Keeps.beginBerth (h : Keeps μ s₀ s) : Keeps μ s₀ s.beginBerth :=
  .ite (h.setFld.foldl (fun _ _ k => k.setFld.setFld.setFlag)).setEnt.upd h

theorem Keeps.arm (h : Keeps μ s₀ s) : Keeps μ s₀ s.arm.1 := by
  dsimp only [State.arm]
  split
  · exact h.setEnt
  · split
    · exact h.setEnt.armed.fault
    · exact h.setEnt.armed

/-! ### Berth -/

theorem Keeps.berthFault {cause frame k} (h : Keeps μ s₀ s) : Keeps μ s₀ (s.berthFault cause frame k) := h.fault

theorem Keeps.sendSummary {r} (h : Keeps μ s₀ s) : Keeps μ s₀ (s.sendSummary r) := .ite (h.foldl (fun _ _ k => k.sendSumm)).upd h

theorem Keeps.unmeasured {k} (h : Keeps μ s₀ s) : Keeps μ s₀ (s.unmeasured k) := h.setFld.setFld.setFlag.upd

theorem Keeps.measureBundle {k n} (h : Keeps μ s₀ s) : Keeps μ s₀ (s.measureBundle k n) := h.setFld.setFld.upd

theorem Keeps.rejoinNote {k p m} (h : Keeps μ s₀ s) : Keeps μ s₀ (s.rejoinNote k p m) := by
  dsimp only [State.rejoinNote]
  split
  · exact .ite h.upd.unmeasured h
  · exact .ite (Keeps.ite h.upd.unmeasured h).upd.measureBundle (.ite h.upd.unmeasured h)

theorem Answers.summaryMessage {k m} (h : Keeps μ s₀ s) : Answers μ s₀ (execSummaryMessage k m s) :=
  .ite (.ite h.hearSumm.fault (.ite (Keeps.ite (.ite h.hearSumm.upd.measureBundle h.hearSumm.upd) h.hearSumm.upd.rejoinNote).upd
    h.hearSumm)) h

theorem Keeps.judgeBundle {k} (h : Keeps μ s₀ s) : Keeps μ s₀ (s.judgeBundle k) := h.setFlag

theorem Keeps.sendReport {k r} (h : Keeps μ s₀ s) : Keeps μ s₀ (s.sendReport k r) := h.sendBlocks

theorem Keeps.rejoinTell {k} (h : Keeps μ s₀ s) : Keeps μ s₀ (s.rejoinTell k) := h.judgeBundle.upd.sendReport

theorem Answers.berthCalibrationEnd (h : Keeps μ s₀ s) : Answers μ s₀ (execBerthCalibrationEnd s) :=
  .ite ((h.foldl (fun _ _ k => k.judgeBundle)).upd.foldl (fun _ _ k => k.sendReport)) (.ite (h.foldl (fun _ _ k => k.rejoinTell))
    h)

theorem Keeps.rejoinFails {k} (h : Keeps μ s₀ s) : Keeps μ s₀ (s.rejoinFails k) := h.upd.setFlag

theorem Keeps.rejoinReport {k dMax unstable} (h : Keeps μ s₀ s) : Keeps μ s₀ (s.rejoinReport k dMax unstable) := by
  dsimp only [State.rejoinReport]
  split
  · exact h
  · exact .ite h (.ite h.upd h.rejoinFails)

theorem Answers.calibrationReport {k dMax dMin unstable moored patient} (h : Keeps μ s₀ s) :
    Answers μ s₀ (execCalibrationReport k dMax dMin unstable moored patient s) :=
  .ite (.ite (.ite h.hearLane.upd h.hearLane.rejoinReport) h.hearLane) h

theorem Keeps.beginRunning {n} (h : Keeps μ s₀ s) : Keeps μ s₀ (s.beginRunning n) :=
  .ite (Keeps.ite h.bump.setFld.upd h).upd.setEnt.setFlag.setJob.refreshHold (Keeps.ite h.bump.setFld.upd h).setJob.refreshHold

theorem Answers.berthReportFramesEnd (h : Keeps μ s₀ s) : Answers μ s₀ (execBerthReportFramesEnd s) :=
  .ite (.ite h.setFld.setFld.upd.setFld.setFld.beginRunning h.setFld.setFld.setFld.fault) h

theorem Keeps.mooredPeer {f p x} (h : Keeps μ s₀ s) : Keeps μ s₀ (s.mooredPeer f p x) := by
  unfold State.mooredPeer
  split
  · split
    · exact h.berthFault
    · exact .ite h.berthFault h
  · exact h

theorem Keeps.judgePeer {f p} (h : Keeps μ s₀ s) : Keeps μ s₀ (s.judgePeer f p) := by
  unfold State.judgePeer
  split
  · exact h
  · split
    · exact .ite h.rejoinFails h
    · exact h

theorem Keeps.closeBerth {f c} (h : Keeps μ s₀ s) : Keeps μ s₀ (s.closeBerth f c) :=
  ((Keeps.ite (h.setFld.foldl (fun _ _ k => k.mooredPeer)) h.setFld.bumpBy).foldl (fun _ _ k => k.judgePeer)).upd

theorem Answers.berthCombineClose (h : Keeps μ s₀ s) : Answers μ s₀ (execBerthCombineClose s) := .ite h.upd.closeBerth h

theorem Keeps.berthResult {r} (h : Keeps μ s₀ s) : Keeps μ s₀ (s.berthResult r) :=
  .ite (.ite (Keeps.ite h.acceptRequest h).upd (.ite (Keeps.ite h.acceptRequest h).sendSumm (.ite h.acceptRequest h))) (.ite
    h.acceptRequest h)

theorem Keeps.tickBerth (h : Keeps μ s₀ s) : Keeps μ s₀ s.tickBerth := .ite h (h.upd.foldl (fun _ _ k => k.berthResult))

theorem Answers.berthWordSend {port} (h : Keeps μ s₀ s) : Answers μ s₀ (execBerthWordSend port s) := by
  dsimp only [execBerthWordSend]
  split
  · split
    · exact h
    · exact .ite h.upd.sendBlocks h
  · exact h

theorem Answers.berthWord {k word sent} (h : Keeps μ s₀ s) : Answers μ s₀ (execBerthWord k word sent s) :=
  .ite (.ite (.ite (Keeps.ite h.hearWord.berthFault h.hearWord) h.hearWord.upd) h.hearWord) h

theorem Keeps.deliverWord {k} (h : Keeps μ s₀ s) : Keeps μ s₀ (s.deliverWord k) := by
  dsimp only [State.deliverWord]
  split
  · exact h
  · split
    · split
      · exact h.upd
      · exact .ite h.upd.berthFault h.upd.upd
    · exact h

theorem Answers.berthWordDelivery {k} (h : Keeps μ s₀ s) : Answers μ s₀ (execBerthWordDelivery k s) :=
  .ite (Keeps.ite h.berthFault h.deliverWord) h

theorem Answers.relayMessage {m kind} (h : Keeps μ s₀ s) : Answers μ s₀ (execRelayMessage m kind s) :=
  .ite h.hearSumm.sendSumm h.hearSumm

theorem Answers.uplinkSummary {m kind src} (h : Keeps μ s₀ s) : Answers μ s₀ (execUplinkSummary m kind src s) :=
  .ite h.hearSumm (.ite h.hearSumm.fault (.ite (Keeps.ite h.hearSumm.upd.upd h.hearSumm.upd) (.ite (Keeps.ite h.hearSumm.upd.upd
    h.hearSumm.upd) h.hearSumm)))

theorem Answers.jettyCombineClose (h : Keeps μ s₀ s) : Answers μ s₀ (execJettyCombineClose s) :=
  .ite (.ite h.upd.upd (Keeps.ite h.upd.sendSumm h.upd)) h

theorem Keeps.takeCombine [Fact (μ ≤ 1)] {m} (h : Keeps μ s₀ s) : Keeps μ s₀ (s.takeCombine m) :=
  .ite (h.bumpBy.foldl (fun _ _ k => .ite k.bump k)).releaseSlots.acceptRequest (h.bumpBy.foldl (fun _ _ k => .ite k.bump k))

theorem Keeps.toPeers {m} (h : Keeps μ s₀ s) : Keeps μ s₀ (s.toPeers m) := h.foldl fun _ _ k => k.sendSumm

theorem Answers.harbourCombineClose [Fact (μ ≤ 1)] (h : Keeps μ s₀ s) : Answers μ s₀ (execHarbourCombineClose s) :=
  .ite h.upd.toPeers.takeCombine h

theorem Answers.harbourCombine [Fact (μ ≤ 1)] {m} (h : Keeps μ s₀ s) : Answers μ s₀ (execHarbourCombine m s) :=
  .ite (Keeps.ite h.hearSumm.toPeers (.ite h.hearSumm.sendSumm h.hearSumm)).takeCombine h.hearSumm

theorem Answers.harbourCalibrationEnd (h : Keeps μ s₀ s) : Answers μ s₀ (execHarbourCalibrationEnd s) :=
  .ite (Keeps.ite h.setFld.setFld h.setFld).upd h

/-! ### TileArray -/

theorem Keeps.actSource [Fact (μ ≤ 1)] {p paddr src ptr offset slice} {k : State → List Nat → State} (h : Keeps μ s₀ s)
    (hk : ∀ s b, Keeps μ s₀ s → Keeps μ s₀ (k s b)) : Keeps μ s₀ (s.actSource p paddr src ptr offset slice k) := by
  have hp (r c : Nat) : Keeps μ s₀ (match s.reg (regKey p r) with
      | some w => k (s.markRead (regKey p r)) (sliceOf w.word slice)
      | none => s.emptyReceive p paddr c) := by
    split
    · exact hk _ _ h.markRead
    · exact h.emptyReceive
  unfold State.actSource
  split
  · exact hk _ _ h
  · exact h.checked (hk _ _ h)
  · exact hp 5 4
  · exact hp 6 5
  · exact hp 7 4

theorem Answers.xld [Fact (μ ≤ 1)] {t src ptr postInc slice offset} (h : Keeps μ s₀ s) : Answers μ s₀ (execXld t src ptr postInc
  slice offset s) :=
  .issue h fun _ _ k => k.actSource fun _ _ k => k.plan

theorem Answers.wld [Fact (μ ≤ 1)] {t ptr laneBase chunksM zpSram zwImm} (h : Keeps μ s₀ s) :
    Answers μ s₀ (execWld t ptr laneBase chunksM zpSram zwImm s) :=
  .issue h (fun _ _ k => k.checked k.setTile.plan)

theorem Answers.wswp [Fact (μ ≤ 1)] {t} (h : Keeps μ s₀ s) : Answers μ s₀ (execWswp t s) :=
  .issue h (fun _ _ k => .ite k.noWrites.tileFault k.plan)

theorem Keeps.macEffect [Fact (μ ≤ 1)] {t o clear tag a} (h : Keeps μ s₀ s) : Keeps μ s₀ (s.macEffect t o clear tag a) := by
  unfold State.macEffect
  exact h.actSource fun _ _ k => k.plan

theorem Answers.mac [Fact (μ ≤ 1)] {t o} (h : Keeps μ s₀ s) : Answers μ s₀ (execMac t o s) := .issue h (fun _ _ k => k.macEffect)

theorem Answers.cmac [Fact (μ ≤ 1)] {t o phaseReg position} (h : Keeps μ s₀ s) : Answers μ s₀ (execCmac t o phaseReg position s) :=
  .issue h (fun _ _ k => k.macEffect)

/-! ### TileMove -/

theorem Answers.rsnd [Fact (μ ≤ 1)] {t dir ptr lenM postInc} (h : Keeps μ s₀ s) : Answers μ s₀ (execRsnd t dir ptr lenM postInc s) :=
  .issue h (fun _ _ k => k.checked k.plan)

theorem Keeps.receive [Fact (μ ≤ 1)] {p a dir ptr lenM postInc tagEn sdst pdst} (h : Keeps μ s₀ s) :
    Keeps μ s₀ (s.receive p a dir ptr lenM postInc tagEn sdst pdst) := by
  dsimp only [State.receive]
  split
  · exact h.emptyReceive
  · split
    · split
      · exact h.markRead.tileFault
      · exact h.markRead.checked h.markRead.plan
    · exact h.markRead.checked h.markRead.plan

theorem Answers.rrcv [Fact (μ ≤ 1)] {t dir ptr lenM postInc} (h : Keeps μ s₀ s) : Answers μ s₀ (execRrcv t dir ptr lenM postInc s) :=
  .issue h (fun _ _ k => k.receive)

theorem Answers.srcv [Fact (μ ≤ 1)] {t dir ptr lenM postInc tagEn sdst pdst} (h : Keeps μ s₀ s) :
    Answers μ s₀ (execSrcv t dir ptr lenM postInc tagEn sdst pdst s) :=
  .issue h (fun _ _ k => k.receive)

theorem Keeps.tideSend [Fact (μ ≤ 1)] {p a ptr kind postInc} (h : Keeps μ s₀ s) : Keeps μ s₀ (s.tideSend p a ptr kind postInc) :=
  h.checked h.plan

theorem Answers.tsnd [Fact (μ ≤ 1)] {t ptr postInc} (h : Keeps μ s₀ s) : Answers μ s₀ (execTsnd t ptr postInc s) :=
  .issue h (fun _ _ k => k.tideSend)

theorem Answers.tdi [Fact (μ ≤ 1)] {t ptr postInc} (h : Keeps μ s₀ s) : Answers μ s₀ (execTdi t ptr postInc s) :=
  .issue h (fun _ _ k => k.tideSend)

theorem Answers.trcv [Fact (μ ≤ 1)] {t ptr postInc} (h : Keeps μ s₀ s) : Answers μ s₀ (execTrcv t ptr postInc s) := by
  dsimp only [execTrcv]
  refine .issue h fun _ _ k => ?_
  split
  · exact k.emptyReceive
  · exact k.markRead.checked k.markRead.plan

theorem Keeps.headerCheck {p a buf expected img} {k : State} (h : Keeps μ s₀ s) (hk : Keeps μ s₀ k) :
    Keeps μ s₀ (s.headerCheck p a buf expected img k) := .ite h.scaleFault (.ite h.scaleFault hk)

theorem Answers.slld [Fact (μ ≤ 1)] {t buf ptr phaseReg position} (h : Keeps μ s₀ s) :
    Answers μ s₀ (execSlld t buf ptr phaseReg position s) :=
  .issue h (fun _ _ k => k.checked (k.headerCheck k.plan))

theorem Answers.slst [Fact (μ ≤ 1)] {t buf ptr} (h : Keeps μ s₀ s) : Answers μ s₀ (execSlst t buf ptr s) := by
  dsimp only [execSlst]
  refine .issue h fun _ _ k => ?_
  split
  · exact k.scaleFault
  · exact k.checked k.plan

theorem Answers.slsnd [Fact (μ ≤ 1)] {t buf port} (h : Keeps μ s₀ s) : Answers μ s₀ (execSlsnd t buf port s) := by
  dsimp only [execSlsnd]
  refine .issue h fun _ _ k => ?_
  split
  · exact k.scaleFault
  · exact .ite k.plan k.plan

theorem Answers.slrcv [Fact (μ ≤ 1)] {t buf port phaseReg position} (h : Keeps μ s₀ s) :
    Answers μ s₀ (execSlrcv t buf port phaseReg position s) := by
  dsimp only [execSlrcv]
  refine .issue h fun _ _ k => ?_
  split
  · split
    · exact k.emptyReceive
    · exact k.markRead.headerCheck k.markRead.plan
  · split
    · exact k.emptyReceive
    · exact k.markRead.headerCheck k.markRead.plan

/-! ### TilePost -/

theorem Answers.bias [Fact (μ ≤ 1)] {t file nM ptr} (h : Keeps μ s₀ s) : Answers μ s₀ (execBias t file nM ptr s) :=
  .issue h (fun _ _ k => k.checked k.plan)

theorem Answers.scan [Fact (μ ≤ 1)] {t file nM sdst} (h : Keeps μ s₀ s) : Answers μ s₀ (execScan t file nM sdst s) :=
  .issue h (fun _ _ k => k.plan)

theorem Answers.sbtrk [Fact (μ ≤ 1)] {t buf ptr trackExp kM frac} (h : Keeps μ s₀ s) :
    Answers μ s₀ (execSbtrk t buf ptr trackExp kM frac s) :=
  .issue h (fun _ _ k => k.plan)

theorem Answers.sbopn [Fact (μ ≤ 1)] {t o} (h : Keeps μ s₀ s) : Answers μ s₀ (execSbopn t o s) :=
  .issue h (fun _ _ k => .ite k.plan (k.checked k.plan))

theorem Answers.rq [Fact (μ ≤ 1)] {t o} (h : Keeps μ s₀ s) : Answers μ s₀ (execRq t o s) := by
  dsimp only [execRq]
  refine .issue h fun _ _ k => ?_
  split
  · exact k.scaleFault
  · split
    · exact k.scaleFault
    · split
      · exact k.scaleFault
      · exact k.checked (.ite k.plan k.plan)

theorem Answers.ltld [Fact (μ ≤ 1)] {t table ptr} (h : Keeps μ s₀ s) : Answers μ s₀ (execLtld t table ptr s) :=
  .issue h (fun _ _ k => k.checked k.plan)

theorem Answers.lut [Fact (μ ≤ 1)] {t src dst nM table inFmt outFmt} (h : Keeps μ s₀ s) :
    Answers μ s₀ (execLut t src dst nM table inFmt outFmt s) :=
  .issue h (fun _ _ k => k.checked k.plan)

theorem Keeps.alignedEffect [Fact (μ ≤ 1)] {p dest nM mx ox oy a} (h : Keeps μ s₀ s) :
    Keeps μ s₀ (s.alignedEffect p dest nM mx ox oy a) := by
  dsimp only [State.alignedEffect]
  split
  · exact h.scaleFault
  · split
    · exact h.scaleFault
    · exact h.checked h.plan

theorem Answers.aadd [Fact (μ ≤ 1)] {t dest nM x y} (h : Keeps μ s₀ s) : Answers μ s₀ (execAadd t dest nM x y s) :=
  .issue h (fun _ _ k => k.alignedEffect)

theorem Answers.amax [Fact (μ ≤ 1)] {t dest nM x y} (h : Keeps μ s₀ s) : Answers μ s₀ (execAmax t dest nM x y s) :=
  .issue h (fun _ _ k => k.alignedEffect)

theorem Answers.gath [Fact (μ ≤ 1)] {t src idx dst nM nsrcM fmt zp} (h : Keeps μ s₀ s) :
    Answers μ s₀ (execGath t src idx dst nM nsrcM fmt zp s) :=
  .issue h (fun _ _ k => k.checked k.plan)

/-! ### TileScalar -/

theorem Answers.scalar [Fact (μ ≤ 1)] {c t f} (h : Keeps μ s₀ s) : Answers μ s₀ (s.scalar c t f) := .issue h (fun _ _ k => k.plan)

theorem Answers.add [Fact (μ ≤ 1)] {t sd sa sb} (h : Keeps μ s₀ s) : Answers μ s₀ (execAdd t sd sa sb s) := .scalar h

theorem Answers.sub [Fact (μ ≤ 1)] {t sd sa sb} (h : Keeps μ s₀ s) : Answers μ s₀ (execSub t sd sa sb s) := .scalar h

theorem Answers.andR [Fact (μ ≤ 1)] {t sd sa sb} (h : Keeps μ s₀ s) : Answers μ s₀ (execAndR t sd sa sb s) := .scalar h

theorem Answers.orR [Fact (μ ≤ 1)] {t sd sa sb} (h : Keeps μ s₀ s) : Answers μ s₀ (execOrR t sd sa sb s) := .scalar h

theorem Answers.xorR [Fact (μ ≤ 1)] {t sd sa sb} (h : Keeps μ s₀ s) : Answers μ s₀ (execXorR t sd sa sb s) := .scalar h

theorem Answers.shl [Fact (μ ≤ 1)] {t sd sa sb} (h : Keeps μ s₀ s) : Answers μ s₀ (execShl t sd sa sb s) := .scalar h

theorem Answers.shr [Fact (μ ≤ 1)] {t sd sa sb} (h : Keeps μ s₀ s) : Answers μ s₀ (execShr t sd sa sb s) := .scalar h

theorem Answers.sra [Fact (μ ≤ 1)] {t sd sa sb} (h : Keeps μ s₀ s) : Answers μ s₀ (execSra t sd sa sb s) := .scalar h

theorem Answers.addi [Fact (μ ≤ 1)] {t sd sa imm} (h : Keeps μ s₀ s) : Answers μ s₀ (execAddi t sd sa imm s) := .scalar h

theorem Answers.movi [Fact (μ ≤ 1)] {t sd imm} (h : Keeps μ s₀ s) : Answers μ s₀ (execMovi t sd imm s) := .scalar h

theorem Answers.cmp [Fact (μ ≤ 1)] {t pd c sa sb} (h : Keeps μ s₀ s) : Answers μ s₀ (execCmp t pd c sa sb s) := .scalar h

theorem Answers.cmpi [Fact (μ ≤ 1)] {t pd c sa imm} (h : Keeps μ s₀ s) : Answers μ s₀ (execCmpi t pd c sa imm s) := .scalar h

theorem Answers.pfop [Fact (μ ≤ 1)] {t pd pa pb op} (h : Keeps μ s₀ s) : Answers μ s₀ (execPfop t pd pa pb op s) := .scalar h

theorem Answers.pset [Fact (μ ≤ 1)] {t pd imm} (h : Keeps μ s₀ s) : Answers μ s₀ (execPset t pd imm s) := .scalar h

theorem Answers.padd [Fact (μ ≤ 1)] {t pd pa useReg sb imm} (h : Keeps μ s₀ s) : Answers μ s₀ (execPadd t pd pa useReg sb imm s) :=
  .scalar h

theorem Answers.pmov [Fact (μ ≤ 1)] {t toP sreg preg} (h : Keeps μ s₀ s) : Answers μ s₀ (execPmov t toP sreg preg s) := .scalar h

theorem Answers.sld [Fact (μ ≤ 1)] {t sreg ptr offset} (h : Keeps μ s₀ s) : Answers μ s₀ (execSld t sreg ptr offset s) :=
  .issue h (fun _ _ k => k.checked k.plan)

theorem Answers.sst [Fact (μ ≤ 1)] {t sreg ptr offset} (h : Keeps μ s₀ s) : Answers μ s₀ (execSst t sreg ptr offset s) :=
  .issue h (fun _ _ k => k.checked k.plan)

/-! ### Image -/

theorem Answers.ofTile [Fact (μ ≤ 1)] {i} (h : Keeps μ s₀ s) : Answers μ s₀ (tileEffect i s) := by
  unfold tileEffect
  split
  · exact .xld h
  · exact .wld h
  · exact .wswp h
  · exact .mac h
  · exact .cmac h
  · exact .bias h
  · exact .scan h
  · exact .sbtrk h
  · exact .sbopn h
  · exact .rq h
  · exact .ltld h
  · exact .lut h
  · exact .aadd h
  · exact .amax h
  · exact .gath h
  · exact .pad h
  · exact .fwait h
  · exact .loop h
  · exact .halt h
  · exact .fsel h
  · exact .mark h
  · exact .mchk h
  · exact .add h
  · exact .sub h
  · exact .andR h
  · exact .orR h
  · exact .xorR h
  · exact .shl h
  · exact .shr h
  · exact .sra h
  · exact .addi h
  · exact .movi h
  · exact .cmp h
  · exact .cmpi h
  · exact .pfop h
  · exact .pset h
  · exact .padd h
  · exact .pmov h
  · exact .sld h
  · exact .sst h
  · exact .rsnd h
  · exact .rrcv h
  · exact .srcv h
  · exact .tsnd h
  · exact .trcv h
  · exact .tdi h
  · exact .slld h
  · exact .slst h
  · exact .slsnd h
  · exact .slrcv h
  · exact h

/-! ### Clk -/

theorem Keeps.runTile [Fact (μ ≤ 1)] {p n} (h : Keeps μ s₀ s) : Keeps μ s₀ (s.runTile p n) := by
  induction n generalizing s with
  | zero => exact h
  | succ n ih =>
    unfold State.runTile
    split
    · split
      · exact ih (h.acts .ofTile)
      · exact h
    · exact h

theorem Keeps.runGrid [Fact (μ ≤ 1)] (h : Keeps μ s₀ s) : Keeps μ s₀ s.runGrid :=
  .ite (((((h.acts .tideSlot).foldl (fun _ _ k => k.acts .eavesInboundWord)).foldl (fun _ _ k => k.acts .eavesSlot)).foldl
    (fun _ _ k => k.acts .tenderDataWord)).foldl (fun _ _ k => k.runTile)) h

theorem Keeps.readProg {p} (h : Keeps μ s₀ s) : Keeps μ s₀ (s.readProg p) := by
  dsimp only [State.readProg]
  split
  · split
    · exact h.syndrome.tileFault
    · exact h
  · exact h

theorem Keeps.readTables (h : Keeps μ s₀ s) : Keeps μ s₀ s.readTables :=
  .ite ((h.foldl (fun _ _ k => (Keeps.ite k.memFault k).readProg)).foldl (fun _ _ k => .ite k.memFault k)) h

theorem Keeps.idleBg (h : Keeps μ s₀ s) : Keeps μ s₀ s.idleBg := .ite h.moveBg h

theorem Keeps.runBerth [Fact (μ ≤ 1)] (h : Keeps μ s₀ s) : Keeps μ s₀ s.runBerth :=
  .ite (.ite (((((h.foldl (fun _ _ k => k.deliverWord)).acts .berthCombineClose).acts .jettyCombineClose).acts
    .harbourCombineClose).acts .harbourCalibrationEnd) ((((h.foldl (fun _ _ k => k.deliverWord)).acts .berthCombineClose).acts
    .jettyCombineClose).acts .harbourCombineClose)) h

theorem Keeps.runSlots [Fact (μ ≤ 1)] (h : Keeps μ s₀ s) : Keeps μ s₀ s.runSlots :=
  .ite (((h.acts .scheduleBind).acts .windowSlotBind).foldl (fun _ _ k => k.acts .slotRelease)) ((h.acts .scheduleBind).acts
    .windowSlotBind)

theorem Keeps.runJobTimed [Fact (μ ≤ 1)] (h : Keeps μ s₀ s) : Keeps μ s₀ s.runJobTimed :=
  ((((((h.foldl (fun _ _ k => k.acts .calWindowClose)).foldl (fun _ _ k => k.acts .markArrival)).foldl (fun _ _ k => k.acts
    .verdictMark)).foldl (fun _ _ k => k.acts .verdictDeadline)).foldl (fun _ _ k => .ite (k.foldl (fun _ _ k2 => k2.acts
    .fragmentTimeout)) k)).acts .ridgeEvaluate).runBerth

theorem Keeps.runTimed (h : Keeps μ s₀ s) : Keeps μ s₀ s.runTimed := by
  unfold State.runTimed
  extract_lets s1 s2 s3 s4
  have h2 : Keeps μ s₀ s2 := ((h.acts .mainClockTick).acts .holdoverExpiry).enterEdges
  have h3 : Keeps μ s₀ s3 := h2.foldl fun _ _ k => k.acts .timelineRelease
  have h4 : Keeps μ s₀ s4 := h3.foldl fun _ _ k => k.acts .acceptPulseEnd
  exact (h4.acts .releaseHoldEnd).acts .holdoffRelease

theorem Keeps.runPin (h : Keeps μ s₀ s) : Keeps μ s₀ s.runPin :=
  h.leaveFlashing.foldl (fun _ _ k => (k.acts .pinRelease).leaveFlashing)

theorem Keeps.jobClk [Fact (μ ≤ 1)] (h : Keeps μ s₀ s) : Keeps μ s₀ s.jobClk :=
  (Keeps.ite (h.acts .berthReportFramesEnd) h).runSlots.settleAll.runGrid.runJobTimed

theorem Keeps.endClk [Fact (μ ≤ 1)] [Fact (μ ≤ 0)] (h : Keeps μ s₀ s) : Keeps μ s₀ s.endClk := by
  unfold State.endClk
  extract_lets s1 s2 s3
  have h1 : Keeps μ s₀ s1 := h.jobClk.idleBg.runTimed
  have h2 : Keeps μ s₀ s2 := h1.tickTiles.clearRegs.runPin.runAborts
  have h3 : Keeps μ s₀ s3 := h2.tellFaults.readStamp
  exact .ite h3.raiseTimeline h3

/-! ### Jobs -/

theorem Keeps.layerRecords (h : Keeps μ s₀ s) : Keeps μ s₀ s.layerRecords := h.foldl fun _ _ k => .ite k k.record

theorem Keeps.endSchedule (h : Keeps μ s₀ s) : Keeps μ s₀ s.endSchedule :=
  h.flushWait.notePast.raiseAllCal.freeDropped.upd.withdrawTenders

theorem Keeps.clearJobFlags (h : Keeps μ s₀ s) : Keeps μ s₀ s.clearJobFlags := h.setFlag.setFlag.setFlag.setFlag

theorem Keeps.clearJobDoubts (h : Keeps μ s₀ s) : Keeps μ s₀ s.clearJobDoubts := h.setDoubt.setDoubt.setDoubt

theorem Keeps.clearImage (h : Keeps μ s₀ s) : Keeps μ s₀ s.clearImage := (h.foldl (fun _ _ k => k.setEnt)).setFld.setFld

theorem Keeps.empty [Fact (μ ≤ 1)] [Fact (μ ≤ 0)] (h : Keeps μ s₀ s) : Keeps μ s₀ s.empty :=
  h.clearGrid.clearImage.clearJobFlags.updAny.setJob.clearJobDoubts.refreshLaneDoubt.refreshHold

theorem Keeps.unloadJob [Fact (μ ≤ 1)] [Fact (μ ≤ 0)] (h : Keeps μ s₀ s) : Keeps μ s₀ s.unloadJob :=
  h.jobClk.refreshTotals.layerRecords.registerAbort.failSave.endSchedule.empty

theorem Keeps.repairRow {p row} (h : Keeps μ s₀ s) : Keeps μ s₀ (s.repairRow p row) :=
  .ite h.markRetire h.upd.setFld.persist.record.freshWords

theorem Keeps.repairRows (h : Keeps μ s₀ s) : Keeps μ s₀ s.repairRows :=
  (h.foldl (fun _ _ k => (k.foldl (fun _ _ k2 => k2.repairRow)).setFlag)).upd

theorem Keeps.repairStacks (h : Keeps μ s₀ s) : Keeps μ s₀ s.repairStacks := by
  dsimp only [State.repairStacks]
  refine Keeps.upd ?_
  refine Keeps.foldl ?_ ?_
  · exact h
  · intro _ _ k
    split
    · exact k.bump.persist.record
    · exact k.bump.persist.record
    · exact k

theorem Keeps.clearReports [Fact (μ ≤ 1)] [Fact (μ ≤ 0)] (h : Keeps μ s₀ s) : Keeps μ s₀ s.clearReports :=
  h.blankReports.setFld.setFld.updAny

theorem Keeps.beforeLoad [Fact (μ ≤ 1)] [Fact (μ ≤ 0)] (h : Keeps μ s₀ s) : Keeps μ s₀ s.beforeLoad :=
  (Keeps.ite h h.unloadJob).clearReports.setFlag.setFld.setFld.leaveFallback.repairRows.repairStacks.emptyQueue.upd

theorem Keeps.runLoad [Fact (μ ≤ 1)] [Fact (μ ≤ 0)] (h : Keeps μ s₀ s) : Keeps μ s₀ s.runLoad := by
  dsimp only [State.runLoad]
  split
  · exact h.beforeLoad.loadSteps.loadStatus.setJob
  · exact h.beforeLoad.loadSteps.loadStatus.empty

theorem Keeps.accepted {code} (h : Keeps μ s₀ s) : Keeps μ s₀ (s.accepted code) := h.setFld.setFld

theorem Keeps.cmdLoad [Fact (μ ≤ 1)] [Fact (μ ≤ 0)] (h : Keeps μ s₀ s) : Keeps μ s₀ s.cmdLoad.1 := by
  dsimp only [State.cmdLoad]
  split
  · exact h.runLoad.accepted
  · exact h

theorem Keeps.cmdUnload [Fact (μ ≤ 1)] [Fact (μ ≤ 0)] (h : Keeps μ s₀ s) : Keeps μ s₀ s.cmdUnload.1 := by
  dsimp only [State.cmdUnload]
  split
  · exact h.unloadJob.setFld.setFld.accepted
  · exact h

theorem Keeps.cmdArm (h : Keeps μ s₀ s) : Keeps μ s₀ s.cmdArm.1 := by
  dsimp only [State.cmdArm]
  split
  · split
    · exact h.arm.accepted
    · exact h.arm
  · exact h

theorem Keeps.cmdDisarm (h : Keeps μ s₀ s) : Keeps μ s₀ s.cmdDisarm.1 := by
  dsimp only [State.cmdDisarm]
  split
  · exact h.setJob.refreshLaneDoubt.refreshHold.accepted
  · exact h

theorem Keeps.begin (h : Keeps μ s₀ s) : Keeps μ s₀ s.begin := h.settleAll.beginBerth.setFlag

theorem Keeps.cmdStart (h : Keeps μ s₀ s) : Keeps μ s₀ s.cmdStart.1 := by
  dsimp only [State.cmdStart]
  split
  · exact h.begin.accepted
  · exact h

theorem Keeps.cmdPause (h : Keeps μ s₀ s) : Keeps μ s₀ s.cmdPause.1 := by
  dsimp only [State.cmdPause]
  split
  · exact h.upd.setEnt.accepted
  · exact h

theorem Keeps.cmdResume (h : Keeps μ s₀ s) : Keeps μ s₀ s.cmdResume.1 := by
  dsimp only [State.cmdResume]
  split
  · split
    · exact h.accepted
    · split
      · exact h.settleAll.flushWait.notePast.upd.emptyQueue.setFlag.accepted
      · exact h.upd.setEnt.accepted
  · exact h

theorem Keeps.cmdSave {agreed} (h : Keeps μ s₀ s) : Keeps μ s₀ (s.cmdSave agreed).1 := by
  dsimp only [State.cmdSave]
  split
  · exact (Keeps.ite h h.setSave).upd.accepted
  · exact h

theorem Keeps.cmdRestore {agreed} (h : Keeps μ s₀ s) : Keeps μ s₀ (s.cmdRestore agreed).1 := by
  dsimp only [State.cmdRestore]
  split
  · split
    · exact h.accepted
    · split
      · exact h.setSave
      · exact h.setSave.upd.accepted
  · exact h

theorem Answers.load [Fact (μ ≤ 1)] [Fact (μ ≤ 0)] (h : Keeps μ s₀ s) : Answers μ s₀ (execLoad s) := h.cmdLoad

theorem Answers.unload [Fact (μ ≤ 1)] [Fact (μ ≤ 0)] (h : Keeps μ s₀ s) : Answers μ s₀ (execUnload s) := h.cmdUnload

theorem Answers.arm (h : Keeps μ s₀ s) : Answers μ s₀ (execArm s) := h.cmdArm

theorem Answers.disarm (h : Keeps μ s₀ s) : Answers μ s₀ (execDisarm s) := h.cmdDisarm

theorem Answers.start (h : Keeps μ s₀ s) : Answers μ s₀ (execStart s) := h.cmdStart

theorem Answers.pause (h : Keeps μ s₀ s) : Answers μ s₀ (execPause s) := h.cmdPause

theorem Answers.resume (h : Keeps μ s₀ s) : Answers μ s₀ (execResume s) := h.cmdResume

theorem Answers.save (h : Keeps μ s₀ s) : Answers μ s₀ (execSave s) := h.cmdSave

theorem Answers.restore (h : Keeps μ s₀ s) : Answers μ s₀ (execRestore s) := h.cmdRestore

theorem Keeps.pausePends (h : Keeps μ s₀ s) : Keeps μ s₀ s.pausePends := .ite h.setFlag.refreshHold h

theorem Answers.pauseTakesEffect (h : Keeps μ s₀ s) : Answers μ s₀ (execPauseTakesEffect s) := by
  dsimp only [execPauseTakesEffect]
  split
  · exact .ite h.upd.setFlag.setJob.refreshHold h
  · exact h

theorem Answers.resumeTakesEffect (h : Keeps μ s₀ s) : Answers μ s₀ (execResumeTakesEffect s) := by
  dsimp only [execResumeTakesEffect]
  split
  · exact .ite h.upd.setJob.refreshHold h
  · exact h

theorem Answers.savePark (h : Keeps μ s₀ s) : Answers μ s₀ (execSavePark s) := .ite h.upd h

theorem Answers.saveCopyDone {cause} (h : Keeps μ s₀ s) : Answers μ s₀ (execSaveCopyDone cause s) :=
  .ite (.ite h.upd.setFlag.setSave.raise (.ite h.upd.setFlag.setSave.raise h.upd.setFlag.ddrWrite.setSave.raise)) h

theorem Answers.restoreDone [Fact (μ ≤ 1)] {cause} (h : Keeps μ s₀ s) : Answers μ s₀ (execRestoreDone cause s) :=
  .ite (.ite h.upd.noteBadRestore.setSave.raise h.upd.readSave.setFlag.setSave.raise) h

/-! ### Restart -/

theorem Keeps.planRepair {p row} (h : Keeps μ s₀ s) : Keeps μ s₀ (s.planRepair p row) := .ite h h.upd.setFlag

theorem SomeKeeps.substitute {l : List FaultRec} (h : Keeps μ s₀ s) : SomeKeeps μ s₀ (s.substitute l) := by
  induction l generalizing s with
  | nil => exact h
  | cons f l ih =>
    unfold State.substitute
    split
    · exact ih h
    · exact .ite (ih h.markRetire) trivial
    · exact ih h.planRepair

theorem SomeKeeps.substituted (h : Keeps μ s₀ s) : SomeKeeps μ s₀ s.substituted := by
  unfold State.substituted
  split
  · next e => exact .ite ((SomeKeeps.substitute h).keeps e) trivial
  · exact trivial

theorem Keeps.refuseRestart {code} (h : Keeps μ s₀ s) : Keeps μ s₀ (s.refuseRestart code) :=
  (Keeps.ite h h.setJob.setDoubt).setFld.setFld

theorem Keeps.restartFrame (h : Keeps μ s₀ s) : Keeps μ s₀ s.restartFrame := by
  unfold State.restartFrame
  split
  · split
    · exact h.setEnt
    · exact h.setEnt
  · exact h

theorem Keeps.restartDecide (h : Keeps μ s₀ s) : Keeps μ s₀ s.restartDecide := by
  have hu : Keeps μ s₀ { s with job := { s.job with restarts := s.clk :: s.recentRestarts, lastReport := some s.reportKey } } :=
    h.upd
  have hd (t : State) (ht : Keeps μ s₀ t) : Keeps μ s₀ (t.substituted.getD t) := by
    cases e : t.substituted with
    | none => exact ht
    | some u => exact (SomeKeeps.substituted ht).keeps e
  exact (hd _ hu).restartFrame.setFld

theorem Keeps.reload [Fact (μ ≤ 1)] [Fact (μ ≤ 0)] (h : Keeps μ s₀ s) : Keeps μ s₀ s.reload.1 := by
  dsimp only [State.reload]
  split
  · exact
    h.refreshTotals.layerRecords.endSchedule.clearJobFlags.leaveFallback.repairRows.emptyQueue.upd.loadSteps.loadStatus.setJob.clearJobDoubts
  · exact h.refreshTotals.layerRecords.endSchedule.clearJobFlags.leaveFallback.repairRows.emptyQueue.upd.loadSteps.loadStatus

theorem Keeps.restartReload [Fact (μ ≤ 1)] [Fact (μ ≤ 0)] (h : Keeps μ s₀ s) : Keeps μ s₀ s.restartReload :=
  .ite h.reload.setFld h.reload.refuseRestart

theorem Keeps.restartRead [Fact (μ ≤ 1)] (h : Keeps μ s₀ s) : Keeps μ s₀ s.restartRead.1 := by
  dsimp only [State.restartRead]
  split
  · exact h.setSave
  · split
    · exact h.noteBadRestore.setSave
    · exact h.readSave.setFlag.setSave

theorem Keeps.restartRestore [Fact (μ ≤ 1)] (h : Keeps μ s₀ s) : Keeps μ s₀ s.restartRestore :=
  .ite h.restartRead.setFld h.restartRead.refuseRestart

theorem Keeps.restartStart {started paused} (h : Keeps μ s₀ s) : Keeps μ s₀ (s.restartStart started paused) :=
  .ite (.ite h.begin.upd.setFlag.refreshHold h.begin.upd) h.upd

theorem Keeps.restartArm (h : Keeps μ s₀ s) : Keeps μ s₀ s.restartArm :=
  .ite h.arm.refuseRestart (.ite h.arm h.arm.restartStart.setFld.setFld)

theorem Answers.restart [Fact (μ ≤ 1)] [Fact (μ ≤ 0)] (h : Keeps μ s₀ s) : Answers μ s₀ (execRestart s) :=
  .ite (.ite h.refuseRestart (.ite h.setFld h.restartDecide)) (.ite h.restartReload (.ite h.restartRestore (.ite h.restartArm h)))

theorem Answers.berthRestartFrame (h : Keeps μ s₀ s) : Answers μ s₀ (execBerthRestartFrame s) := by
  dsimp only [execBerthRestartFrame]
  split
  · split
    · exact h
    · exact .ite h.upd.setEnt (.ite h h.refuseRestart)
  · exact h

/-! ### Background -/

theorem Keeps.rowUncorrectable {p row} (h : Keeps μ s₀ s) : Keeps μ s₀ (s.rowUncorrectable p row) := h.upd

theorem Keeps.tileUncorrectable {p cause addr} (h : Keeps μ s₀ s) : Keeps μ s₀ (s.tileUncorrectable p cause addr) :=
  .ite h.memRecord h.memFault

theorem Keeps.passEntry {k n bad} (h : Keeps μ s₀ s) : Keeps μ s₀ (s.passEntry k n bad) := .ite h.upd.bump h.upd

theorem Keeps.patrols {k} (h : Keeps μ s₀ s) : Keeps μ s₀ (s.patrols k) := h.upd

theorem Keeps.passRow {p row bad} (h : Keeps μ s₀ s) : Keeps μ s₀ (s.passRow p row bad) :=
  .ite (Keeps.ite h.planRepair h).upd.bump (Keeps.ite h.planRepair h).upd

theorem Answers.sramPatrol {p row corrected uncorrected} (h : Keeps μ s₀ s) :
    Answers μ s₀ (execSramPatrol p row corrected uncorrected s) :=
  .ite (.ite (Keeps.ite h.patrols.bumpBy.passRow.rowUncorrectable.tileUncorrectable h.patrols.bumpBy.passRow) h) h

theorem Answers.tablePatrol {kind unit idx corrected uncorrectable} (h : Keeps μ s₀ s) :
    Answers μ s₀ (execTablePatrol kind unit idx corrected uncorrectable s) :=
  .ite (.ite (Keeps.ite (.ite h.patrols.passEntry.bump h.patrols.passEntry) (.ite (Keeps.ite h.patrols.passEntry.bump
    h.patrols.passEntry).tileUncorrectable (Keeps.ite h.patrols.passEntry.bump h.patrols.passEntry).memFault)) h) h

theorem Answers.memoryPatrol {kind unit addr corrected uncorrectable} (h : Keeps μ s₀ s) :
    Answers μ s₀ (execMemoryPatrol kind unit addr corrected uncorrectable s) :=
  .ite (.ite h (Keeps.ite (.ite h.bumpBy.upd h.bumpBy) (.ite (Keeps.ite h.bumpBy.upd h.bumpBy).setFlag.upd.memFault (Keeps.ite
    h.bumpBy.upd h.bumpBy).setFlag.upd.memRecord))) h

theorem Answers.unitOutOfService {kind unit} (h : Keeps μ s₀ s) : Answers μ s₀ (execUnitOutOfService kind unit s) :=
  .ite (.ite (Keeps.ite h.setFlag.setFld.fault h.setFlag.setFld) h) h

theorem Answers.spareSelfTest {p ok} (h : Keeps μ s₀ s) : Answers μ s₀ (execSpareSelfTest p ok s) :=
  .ite (.ite h (Keeps.ite (.ite h.upd.bump.setFlag (.ite h.upd.bump.setFlag h.upd.bump)) (.ite h.upd.bump.setFlag h.upd.bump))) h

theorem Keeps.exhaust {bank l} (h : Keeps μ s₀ s) : Keeps μ s₀ (s.exhaust bank l) :=
  .ite h (h.setFlag.foldl (fun _ _ k => k.record))

theorem Answers.laserWearSample {bank src wear weak} (h : Keeps μ s₀ s) : Answers μ s₀ (execLaserWearSample bank src wear weak s) :=
  .ite (.ite (.ite (Keeps.ite h.setFld.upd.setFlag h.setFld.upd.setFlag.exhaust) h.setFld) h) h

theorem Answers.laserSwapDone {bank ok} (h : Keeps μ s₀ s) : Answers μ s₀ (execLaserSwapDone bank ok s) := by
  dsimp only [execLaserSwapDone]
  split
  · split
    · exact h
    · exact .ite (.ite h.upd.setFlag.setFld.setFld.persist.record.exhaust h.setFld.persist.exhaust) h
  · exact h

theorem Answers.supplyDoubt {rail reading} (h : Keeps μ s₀ s) : Answers μ s₀ (execSupplyDoubt rail reading s) :=
  .ite (.ite h h.supplyDoubt) h

theorem Answers.supplyDoubtClear (h : Keeps μ s₀ s) : Answers μ s₀ (execSupplyDoubtClear s) := .ite h.setDoubt.setFlag h

theorem Keeps.readSensor {n t} (h : Keeps μ s₀ s) : Keeps μ s₀ (s.readSensor n t) :=
  .ite (.ite h.setEnt.upd.setFlag h.setEnt.upd.setFlag.upd.emcy) (.ite h.setEnt.upd.upd h.setEnt.upd)

theorem Keeps.readRail {r uv ma} (h : Keeps μ s₀ s) : Keeps μ s₀ (s.readRail r uv ma) := h.upd.setEnt

theorem Keeps.readPower {mw} (h : Keeps μ s₀ s) : Keeps μ s₀ (s.readPower mw) :=
  .ite h.setFld.setFld.upd.setFlag.emcy h.setFld.setFld.upd

theorem Keeps.refreshThermal (h : Keeps μ s₀ s) : Keeps μ s₀ s.refreshThermal := by
  dsimp only [State.refreshThermal]
  split
  · exact (Keeps.ite h.setFlag h.setFlag.setDoubt).setFlag.setFld
  · exact (Keeps.ite h.setFlag h.setFlag.setDoubt).setFlag

theorem Keeps.trip {was n t} (h : Keeps μ s₀ s) : Keeps μ s₀ (s.trip was n t) := .ite h.upd.setFlag.fault h.upd.setFlag

theorem Keeps.sampleTime (h : Keeps μ s₀ s) : Keeps μ s₀ s.sampleTime := .ite h.upd.bump h.upd

theorem Answers.telemetrySample {temps rails power} (h : Keeps μ s₀ s) : Answers μ s₀ (execTelemetrySample temps rails power s) :=
  .ite (((h.sampleTime.foldl (fun _ _ k => k.readSensor)).foldl (fun _ _ k => k.readRail)).readPower.refreshThermal.foldl
    (fun _ _ k => .ite k.trip k)) h

/-! ### Security -/

theorem OkKeeps.fwBegin (h : Keeps μ s₀ s) : OkKeeps μ s₀ s.fwBegin := .ite trivial h.upd.setFld

theorem OkKeeps.fwData {v} (h : Keeps μ s₀ s) : OkKeeps μ s₀ (s.fwData v) := .ite trivial (.ite trivial h.write.upd.setFld)

theorem OkKeeps.fwGo {t} (h : Keeps μ s₀ s) : OkKeeps μ s₀ (s.fwGo t) := by
  unfold State.fwGo
  extract_lets s1 s2
  have h1 : Keeps μ s₀ s1 := h.setFld
  have h2 : Keeps μ s₀ s2 := h1.setFld.setFlag
  exact .ite trivial (.ite (h2.updMem (zeroRange_wf _ _ _)) h1.setFld.setFlag)

theorem Answers.firmwareBegin (h : Keeps μ s₀ s) : Answers μ s₀ (execFirmwareBegin s) := .ite (.orSame h (.fwBegin h)) h

theorem Answers.firmwareData {v} (h : Keeps μ s₀ s) : Answers μ s₀ (execFirmwareData v s) := .ite (.orSame h (.fwData h)) h

theorem Answers.firmwareGo {t} (h : Keeps μ s₀ s) : Answers μ s₀ (execFirmwareGo t s) := .ite (.orSame h (.fwGo h)) h

theorem Answers.firmwareWriteDone (h : Keeps μ s₀ s) : Answers μ s₀ (execFirmwareWriteDone s) := by
  dsimp only [execFirmwareWriteDone]
  split
  · exact h
  · exact h.write.upd.setFld.record

theorem Keeps.msgEffect {ty tgt v keyv} (h : Keeps μ s₀ s) : Keeps μ s₀ (s.msgEffect ty tgt v keyv) := by
  unfold State.msgEffect
  split
  · exact h.setEnt.setEnt
  · exact h.setEnt
  · exact h.setFld.setFld
  · exact h.setFld.setFld
  · exact h.setFld.bump

theorem Keeps.msgGo (h : Keeps μ s₀ s) : Keeps μ s₀ s.msgGo := (Keeps.ite h.msgEffect.setFld.record h.setFld.record).upd.setFld

theorem Keeps.msgBegin (h : Keeps μ s₀ s) : Keeps μ s₀ s.msgBegin := h.updMem (zeroRange_wf _ _ _)

theorem Keeps.msgAppend {v} (h : Keeps μ s₀ s) : Keeps μ s₀ (s.msgAppend v) := h.write.upd

theorem Answers.messageBegin (h : Keeps μ s₀ s) : Answers μ s₀ (execMessageBegin s) := Keeps.ite h.msgBegin h

theorem Answers.messageData {v} (h : Keeps μ s₀ s) : Answers μ s₀ (execMessageData v s) := Keeps.ite h.msgAppend h

theorem Keeps.onMessage {ty} (h : Keeps μ s₀ s) : Keeps μ s₀ (s.onMessage ty) := .ite h.msgGo h

theorem Answers.keyInstall (h : Keeps μ s₀ s) : Answers μ s₀ (execKeyInstall s) := h.onMessage

theorem Answers.keyRevoke (h : Keeps μ s₀ s) : Answers μ s₀ (execKeyRevoke s) := h.onMessage

theorem Answers.imageFloor (h : Keeps μ s₀ s) : Answers μ s₀ (execImageFloor s) := h.onMessage

theorem Answers.firmwareFloor (h : Keeps μ s₀ s) : Answers μ s₀ (execFirmwareFloor s) := h.onMessage

theorem Answers.debugOpen (h : Keeps μ s₀ s) : Answers μ s₀ (execDebugOpen s) := h.onMessage

theorem Keeps.dbgClose (h : Keeps μ s₀ s) : Keeps μ s₀ s.dbgClose := h.setFld

theorem Answers.debugClose (h : Keeps μ s₀ s) : Answers μ s₀ (execDebugClose s) := Keeps.ite h.dbgClose h

theorem OkKeeps.attestGo (h : Keeps μ s₀ s) : OkKeeps μ s₀ s.attestGo := .ite trivial h.upd.setFld

theorem Answers.attestationGo (h : Keeps μ s₀ s) : Answers μ s₀ (execAttestationGo s) := .ite (.orSame h (.attestGo h)) h

theorem Answers.attestationReady (h : Keeps μ s₀ s) : Answers μ s₀ (execAttestationReady s) := .ite h.upd.setFld h

/-! ### Reset -/

theorem Keeps.readStore {m} (h : Keeps μ s₀ s) : Keeps μ s₀ (s.readStore m) := h.foldl fun _ _ k => .ite k k.setEnt

theorem Keeps.loadStore (h : Keeps μ s₀ s) : Keeps μ s₀ s.loadStore :=
  .ite h.readStore (h.upd.foldl (fun _ _ k => k.setFld.setFld))

theorem Rising.keptDict {power} (h : Rising (dflt s.grade s.stepping) s.dict) :
    Rising (dflt s.grade s.stepping) (s.keptDict power) := by
  unfold State.keptDict
  generalize s.dict = m at h
  induction m with
  | nil => exact h
  | cons e m ih =>
    obtain ⟨hlt, -, hm⟩ := Rising.cons_iff.mp h
    rw [List.filterMap_cons]
    split
    · exact ih hm
    · next b hb =>
      dsimp only at hb
      split at hb
      · cases hb
      · next hv =>
        cases hb
        refine Rising.cons_iff.mpr ⟨fun x hx => ?_, hv, ih hm⟩
        obtain ⟨y, hy, he⟩ := List.mem_filterMap.mp hx
        dsimp only at he
        split at he
        · cases he
        · cases he
          exact hlt y hy

theorem Keeps.resetDict {power} (h : Keeps μ s₀ s) : Keeps μ s₀ (s.resetDict power) := (h.setDict .keptDict).upd

theorem Keeps.noteCause {c} (h : Keeps μ s₀ s) : Keeps μ s₀ (s.noteCause c) :=
  (Keeps.ite (h.setEnt.foldl (fun _ _ k => k.setFlag.bumpBy)) h.bump).setFlag.setFld.upd

theorem Keeps.clearBlock [Fact (μ ≤ 1)] [Fact (μ ≤ 0)] {power} (h : Keeps μ s₀ s) : Keeps μ s₀ (s.clearBlock power) := by
  have hm (hs : Memory.wf s.mem = true) : Memory.wf (s.clearBlock power).mem = true := by
    unfold State.clearBlock
    extract_lets hold mem
    have hz : Memory.wf mem = true := zeroRange_wf _ _ _ (zeroRange_wf _ _ _ (zeroRange_wf _ _ _ hs))
    show Memory.wf (if power then zeroRange mem ddrBase (2 ^ 52) else mem) = true
    split
    · exact zeroRange_wf _ _ _ hz
    · exact hz
  exact h.updMemAny hm

theorem Keeps.releasePins (h : Keeps μ s₀ s) : Keeps μ s₀ s.releasePins := by
  dsimp only [State.releasePins]
  split
  · exact .ite h.upd h
  · exact h

theorem Keeps.fullReset [Fact (μ ≤ 1)] [Fact (μ ≤ 0)] {c} (h : Keeps μ s₀ s) : Keeps μ s₀ (s.fullReset c) :=
  .ite h (.ite h.noteCause (Keeps.ite h.abortAll.setDoubt.tearRecorder.clearBlock.resetDict.setFlag
    h.abortAll.setDoubt.tearRecorder.clearBlock.resetDict).upd.noteCause.refreshTimeDoubt)

theorem Answers.powerOnReset [Fact (μ ≤ 1)] [Fact (μ ≤ 0)] (h : Keeps μ s₀ s) : Answers μ s₀ (execPowerOnReset s) := h.fullReset

theorem Answers.powerOnResetRelease (h : Keeps μ s₀ s) : Answers μ s₀ (execPowerOnResetRelease s) := .ite h.upd h

theorem Answers.resetN [Fact (μ ≤ 1)] [Fact (μ ≤ 0)] (h : Keeps μ s₀ s) : Answers μ s₀ (execResetN s) :=
  Keeps.ite h h.fullReset.upd

theorem Answers.resetNRelease (h : Keeps μ s₀ s) : Answers μ s₀ (execResetNRelease s) := h.upd

theorem Answers.watchdogExpiry [Fact (μ ≤ 1)] [Fact (μ ≤ 0)] (h : Keeps μ s₀ s) : Answers μ s₀ (execWatchdogExpiry s) :=
  .ite h.fullReset h

theorem OkKeeps.resetCommand [Fact (μ ≤ 1)] [Fact (μ ≤ 0)] {v} (h : Keeps μ s₀ s) : OkKeeps μ s₀ (s.resetCommand v) :=
  .ite h.updAny trivial

theorem Answers.softwareReset [Fact (μ ≤ 1)] [Fact (μ ≤ 0)] {v} (h : Keeps μ s₀ s) : Answers μ s₀ (execSoftwareReset v s) :=
  .ite (.orSame h (.resetCommand h)) h

theorem Keeps.softDue [Fact (μ ≤ 1)] [Fact (μ ≤ 0)] (h : Keeps μ s₀ s) : Keeps μ s₀ s.softDue := by
  dsimp only [State.softDue]
  split
  · exact .ite h.updAny.fullReset h
  · exact h

theorem Keeps.clearLink (h : Keeps μ s₀ s) : Keeps μ s₀ s.clearLink := h.upd.setEnt.setFld.setFld

theorem Keeps.trainLink (h : Keeps μ s₀ s) : Keeps μ s₀ s.trainLink := h.fresh.fresh.setFld.setFld

theorem Answers.perstAssert (h : Keeps μ s₀ s) : Answers μ s₀ (execPerstAssert s) := .ite h.upd h.clearLink.setFlag.upd

theorem Answers.perstRelease (h : Keeps μ s₀ s) : Answers μ s₀ (execPerstRelease s) := .ite (Keeps.ite h.upd.trainLink h.upd) h

theorem Answers.trimAttemptDone {ok} (h : Keeps μ s₀ s) : Answers μ s₀ (execTrimAttemptDone ok s) :=
  .ite (.ite h.upd.setFld h.upd) h

theorem Keeps.applyNode (h : Keeps μ s₀ s) : Keeps μ s₀ s.applyNode := h.setFld.setFld

theorem Keeps.makeAvailable (h : Keeps μ s₀ s) : Keeps μ s₀ s.makeAvailable := .ite h h.upd.setFld.applyNode.setFld.emit.record

theorem Keeps.runFirmware {a} (h : Keeps μ s₀ s) : Keeps μ s₀ (s.runFirmware a) := h.upd

theorem Keeps.slotFailed {k} (h : Keeps μ s₀ s) : Keeps μ s₀ (s.slotFailed k) := h.record

theorem Keeps.recover (h : Keeps μ s₀ s) : Keeps μ s₀ s.recover := h.upd.setFlag.setFld.makeAvailable

theorem Keeps.bootSlot [Fact (μ ≤ 1)] [Fact (μ ≤ 0)] {k} (h : Keeps μ s₀ s) : Keeps μ s₀ (s.bootSlot k) :=
  .ite h.runFirmware.setFld.updAny (.ite h.slotFailed.runFirmware.setFld.updAny.setFlag h.slotFailed.slotFailed.recover)

theorem Keeps.bootRom (h : Keeps μ s₀ s) : Keeps μ s₀ s.bootRom := by
  dsimp only [State.bootRom]
  split
  · exact (Keeps.ite h h.trainLink).upd
  · exact (Keeps.ite h h.trainLink).recover
  · exact (Keeps.ite h h.trainLink).upd

theorem Keeps.pllDone {ok} (h : Keeps μ s₀ s) : Keeps μ s₀ (s.pllDone ok) :=
  .ite (.ite h.setFlag.upd.makeAvailable h.setFlag.upd.upd) h.setFlag.makeAvailable

theorem Keeps.memoryDone {alike mask hbm ddr} (h : Keeps μ s₀ s) : Keeps μ s₀ (s.memoryDone alike mask hbm ddr) := by
  unfold State.memoryDone
  extract_lets _ _ _ _ _ s1 s2 s3 s4 s5 s6
  have h3 : Keeps μ s₀ s3 := (h.loadStore.upd.foldl fun _ _ k => k.setFlag).foldl fun _ _ k => k.setFlag
  have h5 : Keeps μ s₀ s5 := h3.setFld.setFld.setFlag.setFlag.bootRecorder
  have h6 : Keeps μ s₀ s6 := .ite h5 h5.setFlag.record
  exact h6.repairStacks.makeAvailable.upd

theorem Answers.startupStepDone [Fact (μ ≤ 1)] [Fact (μ ≤ 0)] {ok a hbmMask ddrMask} (h : Keeps μ s₀ s) :
    Answers μ s₀ (execStartupStepDone ok a hbmMask ddrMask s) := by
  dsimp only [execStartupStepDone]
  split
  · exact h
  · split
    · exact h.upd
    · exact h.setEnt.upd
    · exact h.bootRom
    · exact Keeps.ite h h.bootSlot
    · exact Keeps.ite h h.pllDone
    · exact h.memoryDone
    · exact h

theorem Answers.pllRetry {ok} (h : Keeps μ s₀ s) : Answers μ s₀ (execPllRetry ok s) := .ite h.pllDone h

theorem Keeps.bootCheck {bytes} (h : Keeps μ s₀ s) : Keeps μ s₀ (s.bootCheck bytes) := .ite h.runFirmware.setFld.upd h.upd

theorem Answers.bootGo {bytes image} (h : Keeps μ s₀ s) : Answers μ s₀ (execBootGo bytes image s) := by
  unfold execBootGo
  split
  · exact Keeps.bootCheck (h.updMem fun hs => writeBytes_wf _ _ _ (zeroRange_wf _ _ _ hs))
  · exact h

theorem Answers.ddrReady (h : Keeps μ s₀ s) : Answers μ s₀ (execDdrReady s) := by
  unfold execDdrReady
  split
  · exact (h.updMem (zeroRange_wf _ _ _)).setFlag
  · exact h

theorem Keeps.sleepEngine {e} (h : Keeps μ s₀ s) : Keeps μ s₀ (s.sleepEngine e) :=
  h.upd.foldl (fun _ _ k => (Keeps.ite k.setFld k).setChan.sleep)

theorem Keeps.blockFault {kind n l} (h : Keeps μ s₀ s) : Keeps μ s₀ (s.blockFault kind n l) := h.fault

theorem Keeps.resetQuay {q} (h : Keeps μ s₀ s) : Keeps μ s₀ (s.resetQuay q) :=
  (h.sleepEngine.foldl (fun _ _ k => k.setParser)).foldl fun _ _ k => k.setGroup.setFld

theorem Keeps.failWindowCopy {r k t} (h : Keeps μ s₀ s) : Keeps μ s₀ (s.failWindowCopy r k t) :=
  .ite h.leaveTender.putReq h.leaveTender.capCount.putReq

theorem Keeps.failCopies {t} (h : Keeps μ s₀ s) : Keeps μ s₀ (s.failCopies t) := by
  dsimp only [State.failCopies]
  refine Keeps.upd ?_
  refine Keeps.foldl ?_ ?_
  · exact h
  · intro _ _ k
    split
    · exact .ite k.failWindowCopy k.endCopy
    · exact k

theorem Keeps.drainTender {t} (h : Keeps μ s₀ s) : Keeps μ s₀ (s.drainTender t) :=
  (Keeps.ite h.blockFault h).bumpBy.failCopies.setTender.setTender.setFld

theorem Keeps.resetTile {p} (h : Keeps μ s₀ s) : Keeps μ s₀ (s.resetTile p) := by
  unfold State.resetTile
  refine Keeps.foldl (h.updMem (zeroRange_wf _ _ _) (hi := fun i => ⟨i.1, fun q => ?_⟩)) fun _ _ k => k.setEnt
  show (mget {} (mset {} s.tiles p {}) q).pend = []
  rw [mget_mset]
  split
  · rfl
  · exact i.2 q

theorem Keeps.fenceBlock [Fact (μ ≤ 1)] [Fact (μ ≤ 0)] {kind n} (h : Keeps μ s₀ s) : Keeps μ s₀ (s.fenceBlock kind n) := by
  unfold State.fenceBlock
  split
  · exact .ite h.blockFault h
  · exact h.drainTender
  · exact h
  · exact .ite (.ite h.blockFault (.ite h.unloadJob h)) h

theorem Keeps.resetBlock {kind n} (h : Keeps μ s₀ s) : Keeps μ s₀ (s.resetBlock kind n) := by
  unfold State.resetBlock
  split
  · exact h.resetQuay
  · exact h
  · exact h.sleepEngine
  · exact h.resetTile

theorem Keeps.holdBlock (h : Keeps μ s₀ s) : Keeps μ s₀ s.holdBlock := by
  unfold State.holdBlock
  split
  · exact .ite h.resetBlock h
  · exact h

theorem OkKeeps.blockGo [Fact (μ ≤ 1)] [Fact (μ ≤ 0)] {kind n} (h : Keeps μ s₀ s) : OkKeeps μ s₀ (s.blockGo kind n) :=
  .ite trivial (.ite trivial h.setFld.setFld.setFlag.upd.fenceBlock)

theorem Answers.blockReset [Fact (μ ≤ 1)] [Fact (μ ≤ 0)] {kind n} (h : Keeps μ s₀ s) : Answers μ s₀ (execBlockReset kind n s) :=
  .ite (.orSame h (.blockGo h)) h

theorem Answers.blockResetRelease (h : Keeps μ s₀ s) : Answers μ s₀ (execBlockResetRelease s) := by
  dsimp only [execBlockResetRelease]
  split
  · exact .ite h h.upd.setFlag.setFlag
  · exact h

/-! ### Link -/

theorem Keeps.afterRead {i sub} (h : Keeps μ s₀ s) : Keeps μ s₀ (s.afterRead i sub) := .ite h.setFld h

theorem Keeps.readEntry {p : Path} {i sub : Nat} {x : Nat × State} (h : Keeps μ s₀ s) (e : s.readEntry p i sub = .ok x) :
    Keeps μ s₀ x.2 := by
  unfold State.readEntry at e
  split at e
  · cases e
  · split at e
    · cases e
    · split at e
      · cases e
      · cases e
        exact h.afterRead

theorem Answers.storeParameters {k ok} (h : Keeps μ s₀ s) : Answers μ s₀ (execStoreParameters k ok s) :=
  .ite (.orSame h (.storeAll h)) h

theorem Answers.restoreDefaultParameters {k} (h : Keeps μ s₀ s) : Answers μ s₀ (execRestoreDefaultParameters k s) :=
  .ite (.orSame h (.storeClear h)) h

theorem Keeps.jobCommand [Fact (μ ≤ 1)] [Fact (μ ≤ 0)] {p v} (h : Keeps μ s₀ s) : Keeps μ s₀ (s.jobCommand p v).1 := by
  unfold State.jobCommand
  split
  · exact h.cmdLoad
  · exact h.cmdUnload
  · exact h.cmdArm
  · exact h.cmdDisarm
  · exact h.cmdStart
  · exact h.cmdPause
  · exact h.cmdResume
  · exact h.cmdSave
  · exact h.cmdRestore
  · exact h

theorem OkKeeps.firmwareWrite {v} (h : Keeps μ s₀ s) : OkKeeps μ s₀ (s.firmwareWrite v) := by
  unfold State.firmwareWrite
  extract_lets r
  have hr : OkKeeps μ s₀ r := .ite (.fwBegin h) h
  clear_value r
  split
  · exact trivial
  · exact .ite (.fwGo hr) (Keeps.setFld hr)

theorem Keeps.messageWrite {v} (h : Keeps μ s₀ s) : Keeps μ s₀ (s.messageWrite v) :=
  .ite (Keeps.ite h.msgBegin h).msgGo (.ite h.msgBegin h)

theorem Keeps.entryEffect [Fact (μ ≤ 1)] [Fact (μ ≤ 0)] {p e i sub v} (h : Keeps μ s₀ s) :
    Keeps μ s₀ (s.entryEffect p e i sub v).1 := by
  unfold State.entryEffect
  refine .ite_fst h.jobCommand ?_
  refine .ite_fst h.actionEffect ?_
  refine .ite_fst h.snapshot ?_
  refine .ite_fst h.setChunk ?_
  refine .ite_fst (h.answer (.firmwareWrite h)) ?_
  refine .ite_fst (h.answer (.fwData h)) ?_
  refine .ite_fst h.msgAppend ?_
  refine .ite_fst h.messageWrite ?_
  refine .ite_fst (.ite_fst (h.answer (.attestGo h)) h) ?_
  refine .ite_fst (.ite h.dbgClose h) ?_
  refine .ite_fst (h.answer (.resetCommand h)) ?_
  exact .ite_fst (.ite_fst (h.answer (.blockGo h)) h.applyWrite) h.applyWrite

theorem Keeps.writeEntry [Fact (μ ≤ 1)] [Fact (μ ≤ 0)] {p i sub len v} (h : Keeps μ s₀ s) :
    Keeps μ s₀ (s.writeEntry p i sub len v).1 := by
  dsimp only [State.writeEntry]
  split
  · exact h
  · split
    · exact h
    · split
      · exact h
      · split
        · exact h
        · split
          · exact h.entryEffect
          · split
            · exact h
            · exact h.entryEffect

theorem Keeps.canWrite [Fact (μ ≤ 1)] [Fact (μ ≤ 0)] {idx sub len value} (h : Keeps μ s₀ s) :
    Keeps μ s₀ (s.canWrite idx sub len value) :=
  .ite h.writeEntry.emit h

theorem Answers.usdoDownload [Fact (μ ≤ 1)] [Fact (μ ≤ 0)] {idx sub len value} (h : Keeps μ s₀ s) :
    Answers μ s₀ (execUsdoDownload idx sub len value s) :=
  h.canWrite

theorem Answers.usdoUpload {idx sub} (h : Keeps μ s₀ s) : Answers μ s₀ (execUsdoUpload idx sub s) := by
  unfold execUsdoUpload
  split
  · split
    · next e => exact (h.readEntry e).emit
    · exact h.emit
  · exact h

theorem Keeps.nmt {n} (h : Keeps μ s₀ s) : Keeps μ s₀ (s.nmt n) := .ite h.setFld h

theorem Answers.nmtStart (h : Keeps μ s₀ s) : Answers μ s₀ (execNmtStart s) := h.nmt

theorem Answers.nmtStop (h : Keeps μ s₀ s) : Answers μ s₀ (execNmtStop s) := h.nmt

theorem Answers.nmtPreOperational (h : Keeps μ s₀ s) : Answers μ s₀ (execNmtPreOperational s) := h.nmt

theorem Answers.nmtResetCommunication (h : Keeps μ s₀ s) : Answers μ s₀ (execNmtResetCommunication s) :=
  .ite h.nmt.applyNode.emit h

theorem Answers.nmtResetNode [Fact (μ ≤ 1)] [Fact (μ ≤ 0)] (h : Keeps μ s₀ s) : Answers μ s₀ (execNmtResetNode s) :=
  .ite h.fullReset h

theorem Answers.classicalFrame (h : Keeps μ s₀ s) : Answers μ s₀ (execClassicalFrame s) := .ite h.bump h

theorem Answers.heartbeat (h : Keeps μ s₀ s) : Answers μ s₀ (execHeartbeat s) := .ite h.emit h

theorem Answers.emcyTransmit (h : Keeps μ s₀ s) : Answers μ s₀ (execEmcyTransmit s) := by
  dsimp only [execEmcyTransmit]
  split
  · exact h
  · exact .ite (Keeps.ite h.upd.emit h.upd.emit.emcy.upd) h

theorem Keeps.latch (h : Keeps μ s₀ s) : Keeps μ s₀ s.latch := .ite h.setEnt.upd h

theorem Answers.featureLatch {driver} (h : Keeps μ s₀ s) : Answers μ s₀ (execFeatureLatch driver s) := .ite h.setEnt.latch h

theorem Keeps.hotWrite [Fact (μ ≤ 1)] [Fact (μ ≤ 0)] {i sub len v} (h : Keeps μ s₀ s) : Keeps μ s₀ (s.hotWrite i sub len v) := by
  dsimp only [State.hotWrite]
  split
  · exact h.writeEntry.upd
  · exact h.writeEntry

theorem Keeps.slotEnd {n st code} (h : Keeps μ s₀ s) : Keeps μ s₀ (s.slotEnd n st code) := h.upd

theorem Keeps.setSlotBytes {n v} (h : Keeps μ s₀ s) : Keeps μ s₀ (s.setSlotBytes n v) := h.upd

theorem Keeps.slotServe [Fact (μ ≤ 1)] [Fact (μ ≤ 0)] {n idx sub write len} (h : Keeps μ s₀ s) :
    Keeps μ s₀ (s.slotServe n idx sub write len) := by
  unfold State.slotServe
  split
  · exact h.slotEnd
  split
  · have hw := h.writeEntry (p := .slot n) (i := idx) (sub := sub) (len := len) (v := s.slotBytes n % 2 ^ (8 * len))
    dsimp only
    split
    · exact hw.slotEnd
    · exact hw.slotEnd
  · split
    · next e => exact (h.readEntry e).setSlotBytes.slotEnd
    · exact h.slotEnd

theorem Keeps.slotGo [Fact (μ ≤ 1)] [Fact (μ ≤ 0)] {slot idx sub write notify len} (h : Keeps μ s₀ s) :
    Keeps μ s₀ (s.slotGo slot idx sub write notify len) :=
  .ite h.upd.slotServe.raise h.upd.slotServe

theorem Keeps.slotRun [Fact (μ ≤ 1)] [Fact (μ ≤ 0)] {slot idx sub write notify len value} (h : Keeps μ s₀ s) :
    Keeps μ s₀ (s.slotRun slot idx sub write notify len value) :=
  (Keeps.ite h.setSlotBytes h).slotGo

theorem Keeps.slotCommandWrite [Fact (μ ≤ 1)] [Fact (μ ≤ 0)] {n v} (h : Keeps μ s₀ s) : Keeps μ s₀ (s.slotCommandWrite n v) :=
  .ite h.slotEnd (.ite h.slotGo h.upd)

theorem Keeps.bar0Write [Fact (μ ≤ 1)] [Fact (μ ≤ 0)] {off v} (h : Keeps μ s₀ s) : Keeps μ s₀ (s.bar0Write off v) :=
  .ite (.ite h.setEnt h) (.ite (.ite h.latch h) (.ite (.ite h.slotCommandWrite (.ite h.setSlotBytes h)) (.ite h.upd h)))

theorem Answers.hotRefusalRead (h : Keeps μ s₀ s) : Answers μ s₀ (execHotRefusalRead s) := .ite h.upd.emit h.emit

theorem Keeps.bootWrite {off v} (h : Keeps μ s₀ s) : Keeps μ s₀ (s.bootWrite off v) :=
  .ite (.ite h (.ite h.bootCheck h.upd)) (.ite h.write h)

theorem Answers.hotRegisterWrite [Fact (μ ≤ 1)] [Fact (μ ≤ 0)] {off value} (h : Keeps μ s₀ s) :
    Answers μ s₀ (execHotRegisterWrite off value s) := by
  unfold execHotRegisterWrite
  split
  · exact h.bootWrite
  · split
    · exact Keeps.ite h.hotWrite h
    · exact h.bar0Write

theorem Answers.slotAccess [Fact (μ ≤ 1)] [Fact (μ ≤ 0)] {slot idx sub write notify len value} (h : Keeps μ s₀ s) :
    Answers μ s₀ (execSlotAccess slot idx sub write notify len value s) :=
  .ite h.slotRun h

theorem Answers.registerWrite [Fact (μ ≤ 1)] [Fact (μ ≤ 0)] {path idx sub len value} (h : Keeps μ s₀ s) :
    Answers μ s₀ (execRegisterWrite path idx sub len value s) := by
  unfold execRegisterWrite
  split
  · exact h.canWrite
  · exact .ite h.slotRun h
  · exact .ite h.hotWrite h

theorem Answers.recorderSlot [Fact (μ ≤ 1)] [Fact (μ ≤ 0)] {path slot} (h : Keeps μ s₀ s) :
    Answers μ s₀ (execRecorderSlot path slot s) := by
  unfold execRecorderSlot
  split
  · exact h
  · exact h.canWrite
  · exact .ite h.slotRun h

theorem Answers.bar2Write {off bytes} (h : Keeps μ s₀ s) : Answers μ s₀ (execBar2Write off bytes s) :=
  .ite h.ddrWrite.setFlag h.bump

/-! ### Dispatch -/

theorem Answers.ofExec [Fact (μ ≤ 1)] [Fact (μ ≤ 0)] {i} (h : Keeps μ s₀ s) : Answers μ s₀ (exec i s) := by
  unfold exec
  split
  · exact .xld h
  · exact .wld h
  · exact .wswp h
  · exact .mac h
  · exact .cmac h
  · exact .bias h
  · exact .scan h
  · exact .sbtrk h
  · exact .sbopn h
  · exact .rq h
  · exact .ltld h
  · exact .lut h
  · exact .aadd h
  · exact .amax h
  · exact .gath h
  · exact .pad h
  · exact .fwait h
  · exact .loop h
  · exact .halt h
  · exact .fsel h
  · exact .mark h
  · exact .mchk h
  · exact .add h
  · exact .sub h
  · exact .andR h
  · exact .orR h
  · exact .xorR h
  · exact .shl h
  · exact .shr h
  · exact .sra h
  · exact .addi h
  · exact .movi h
  · exact .cmp h
  · exact .cmpi h
  · exact .pfop h
  · exact .pset h
  · exact .padd h
  · exact .pmov h
  · exact .sld h
  · exact .sst h
  · exact .rsnd h
  · exact .rrcv h
  · exact .srcv h
  · exact .tsnd h
  · exact .trcv h
  · exact .tdi h
  · exact .slld h
  · exact .slst h
  · exact .slsnd h
  · exact .slrcv h
  · exact .tideSlot h
  · exact .crossingComplete h
  · exact .eavesSlot h
  · exact .eavesInboundWord h
  · exact .descriptorIntake h
  · exact .tenderWord h
  · exact .tenderCopyDone h
  · exact .tenderDataWord h
  · exact .completionDelivery h
  · exact .signalDetectChange h
  · exact .dataBlock h
  · exact .damagedBlock h
  · exact .invalidControlBlock h
  · exact .idleBlock h
  · exact .frameOpen h
  · exact .frameClose h
  · exact .laneMarker h
  · exact .trainingBlock h
  · exact .markerMissed h
  · exact .skewOverrun h
  · exact .blockLockSet h
  · exact .blockLockLoss h
  · exact .relockDone h
  · exact .blockLockSearchStep h
  · exact .dfeUpdate h
  · exact .fomMeasure h
  · exact .ctleTrack h
  · exact .startBringup h
  · exact .bringupStepDone h
  · exact .bringupStateOverrun h
  · exact .bringupTimeout h
  · exact .powerStateWrite h
  · exact .powerStateReached h
  · exact .slipWrite h
  · exact .laneMapWrite h
  · exact .scheduleBind h
  · exact .slotRelease h
  · exact .replayCourseRead h
  · exact .courseHeaderWrite h
  · exact .calWindowClose h
  · exact .calibrationEvent h
  · exact .layerTotalsRefresh h
  · exact .markArrival h
  · exact .ridgeEvaluate h
  · exact .pinRelease h
  · exact .acceptPulseEnd h
  · exact .menuCheck h
  · exact .doubtRegister h
  · exact .releaseHoldEnd h
  · exact .holdoffRelease h
  · exact .hostCapture h
  · exact .requestStart h
  · exact .fragmentCopyDone h
  · exact .fragmentRereadDone h
  · exact .fragmentTimeout h
  · exact .recordPublish h
  · exact .hostRingNotify h
  · exact .linkEgressRecord h
  · exact .windowSlotBind h
  · exact .verdictMark h
  · exact .verdictDeadline h
  · exact .windowCopyDone h
  · exact .captureAbort h
  · exact .rearm h
  · exact .hostConsumerWrite h
  · exact .berthCalibrationEnd h
  · exact .calibrationReport h
  · exact .berthReportFramesEnd h
  · exact .summaryMessage h
  · exact .berthCombineClose h
  · exact .berthWordSend h
  · exact .berthWord h
  · exact .berthWordDelivery h
  · exact .relayMessage h
  · exact .uplinkSummary h
  · exact .jettyCombineClose h
  · exact .harbourCombineClose h
  · exact .harbourCombine h
  · exact .harbourCalibrationEnd h
  · exact .mainIncrementWrite h
  · exact .mainTime h
  · exact .timeAdjust h
  · exact .fallbackCommit h
  · exact .fallbackRefit h
  · exact .clockFault h
  · exact .ptpFrameForward h
  · exact .ptpAnnounce h
  · exact .delayReqSend h
  · exact .ptpExchange h
  · exact .domainTimeout h
  · exact .holdoverExpiry h
  · exact .serveSync h
  · exact .serveAnnounce h
  · exact .serveDelayResp h
  · exact .txStamp h
  · exact .trigEdge h
  · exact .timelineRelease h
  · exact .timelineConsumerWrite h
  · exact .load h
  · exact .unload h
  · exact .arm h
  · exact .disarm h
  · exact .start h
  · exact .pause h
  · exact .pauseTakesEffect h
  · exact .resume h
  · exact .resumeTakesEffect h
  · exact .save h
  · exact .savePark h
  · exact .saveCopyDone h
  · exact .restore h
  · exact .restart h
  · exact .berthRestartFrame h
  · exact .usdoDownload h
  · exact .usdoUpload h
  · exact .nmtStart h
  · exact .nmtStop h
  · exact .nmtPreOperational h
  · exact .nmtResetCommunication h
  · exact .nmtResetNode h
  · exact .classicalFrame h
  · exact .heartbeat h
  · exact .emcyTransmit h
  · exact .slotAccess h
  · exact .hotRegisterWrite h
  · exact .featureLatch h
  · exact .bar2Write h
  · exact .storeParameters h
  · exact .restoreDefaultParameters h
  · exact .registerWrite h
  · exact .powerOnReset h
  · exact .resetN h
  · exact .resetNRelease h
  · exact .watchdogExpiry h
  · exact .softwareReset h
  · exact .perstAssert h
  · exact .blockReset h
  · exact .blockResetRelease h
  · exact .trimAttemptDone h
  · exact .startupStepDone h
  · exact .pllRetry h
  · exact .bootGo h
  · exact .ddrReady h
  · exact .supplyDoubt h
  · exact .supplyDoubtClear h
  · exact .telemetrySample h
  · exact .sramPatrol h
  · exact .tablePatrol h
  · exact .memoryPatrol h
  · exact .spareSelfTest h
  · exact .laserWearSample h
  · exact .laserSwapDone h
  · exact .recorderOperation h
  · exact .summaryInterval h
  · exact .recorderSlot h
  · exact .firmwareBegin h
  · exact .firmwareData h
  · exact .firmwareGo h
  · exact .firmwareWriteDone h
  · exact .messageBegin h
  · exact .messageData h
  · exact .keyInstall h
  · exact .keyRevoke h
  · exact .imageFloor h
  · exact .firmwareFloor h
  · exact .debugOpen h
  · exact .debugClose h
  · exact .attestationGo h
  · exact .attestationReady h
  · exact .mainClockTick h
  · exact .powerOnResetRelease h
  · exact .perstRelease h
  · exact .ptpLinkChange h
  · exact .unitOutOfService h
  · exact .islandGeneratorLocked h
  · exact .restoreDone h
  · exact .hotRefusalRead h

/-! ### Tick -/

theorem Keeps.beginDue (h : Keeps μ s₀ s) : Keeps μ s₀ s.beginDue :=
  .ite h (.ite h.beginRunning (.ite h.upd.setJob.refreshHold h))

theorem Keeps.markSlips (h : Keeps μ s₀ s) : Keeps μ s₀ s.markSlips := h.upd.foldl fun _ _ k => k.ridgeSlip

theorem Keeps.summaries (h : Keeps μ s₀ s) : Keeps μ s₀ s.summaries := h.foldl fun _ _ k => k.sendSummary

theorem Keeps.beginClk [Fact (μ ≤ 1)] [Fact (μ ≤ 0)] (h : Keeps μ s₀ s) : Keeps μ s₀ s.beginClk :=
  ((((h.releasePins.softDue.holdBlock.beginDue.pausePends).acts .pauseTakesEffect).acts .resumeTakesEffect).acts
    .savePark).arrivals.markSlips.summaries.tickPin.tickBerth.issueAll.readTables

theorem Keeps.tick [Fact (μ ≤ 1)] [Fact (μ ≤ 0)] (h : Keeps μ s₀ s) : Keeps μ s₀ s.tick := h.sendMarkers.endClk.updAny.beginClk

/-! ### A step -/

/-- Every effect a command may have is allowed at `μ` 0. -/
theorem Answers.exec (i : Instr) (s : State) : Answers 0 s (exec i s) :=
  have : Fact (0 ≤ 0) := ⟨le_rfl⟩
  have : Fact (0 ≤ 1) := ⟨zero_le_one⟩
  .ofExec (.refl s)

/-- A step keeps the part and the forms, and the queue loses its front. -/
theorem step_answers (s : State) : Answers 0 { s with pending := s.pending.tail } (step s) := by
  have : Fact (0 ≤ 0) := ⟨le_rfl⟩
  have : Fact (0 ≤ 1) := ⟨zero_le_one⟩
  unfold step
  split
  · next e =>
    have hs : ({ s with pending := s.pending.tail } : State) = s := by rw [e, List.tail_nil, ← e]
    rw [hs]
    exact (Keeps.refl s).tick
  · next c rest e =>
    rw [e]
    exact .exec c _

end Sys2Proof.Machine
end

section
/-! CLAIM. The statements about a step, the queue and the forms that every step keeps. -/

open Sys2Proof Sys2Proof.Machine

/-- Settles O1: it is what a step is. -/
theorem stepRunsTheFrontCommand : Obligations.StepRunsTheFrontCommand := fun _ _ _ => rfl

/-- Settles O5: a step is made of operations that each keep the forms (`step_answers`). -/
theorem everyStepKeepsTheForm : Obligations.EveryStepKeepsTheForm := by
  intro s t h
  obtain ⟨hp, hg, hs, hc⟩ := (step_answers s).keeps h
  exact ⟨hg, hs, hp, hc⟩

end
section
namespace Sys2Proof.Machine

/-- A tile that does not exist, or that may not issue in this clk, issues nothing (R202, R206). -/
theorem State.issue_idle {s : State} {c : Instr} {i : Iss} {r occ : Nat} {eff : State → Nat → State}
    (h : tileOk s.grade i.tile = false ∨ s.mayIssue i.tile = false) : s.issue c i r occ eff = .next s := by
  unfold State.issue
  rcases h with h | h <;> simp [h]

/-- An instruction of a tile that does not exist, or that may not issue in this clk, changes nothing (R202, R206). -/
theorem exec_idle {s : State} {i : Instr} {t : Iss} (hi : issueOf i = some t)
    (ht : tileOk s.grade t.tile = false ∨ s.mayIssue t.tile = false) : exec i s = .next s := by
  cases i <;> cases hi
  case loop => rcases ht with h | h <;> simp [exec, execLoop, h]
  all_goals
    simp only [exec, execXld, execWld, execWswp, execMac, execCmac, execBias, execScan, execSbtrk, execSbopn, execRq, execLtld,
      execLut, execAadd, execAmax, execGath, execPad, execFwait, execHalt, execFsel, execMark, execMchk, execAdd, execSub,
      execAndR, execOrR, execXorR, execShl, execShr, execSra, execAddi, execMovi, execCmp, execCmpi, execPfop, execPset, execPadd,
      execPmov, execSld, execSst, execRsnd, execRrcv, execSrcv, execTsnd, execTrcv, execTdi, execSlld, execSlst, execSlsnd,
      execSlrcv, State.scalar]
    exact State.issue_idle ht

end Sys2Proof.Machine

open Sys2Proof Sys2Proof.Machine

/-- Settles O7: each command answers (`Answers.exec`), and each names its unit before it acts. -/
theorem everyCommandAnswers : Obligations.EveryCommandAnswers := by
  intro s p c n
  refine ⟨fun i => (Answers.exec i s).next, fun i t hi ht => ?_, ?_, ?_, ?_, ?_, ?_, ?_⟩
  · exact exec_idle hi ht
  · intro hp
    exact ⟨fun ok => by simp [exec, execSpareSelfTest, hp], by simp [exec, execSramPatrol, hp]⟩
  · intro hp
    simp [exec, execBerthWordSend, hp]
  · intro hp
    exact ⟨fun m => by simp [exec, execSummaryMessage, Nat.not_lt.mpr hp], by simp [exec, execBerthWord, Nat.not_lt.mpr hp]⟩
  · intro hp
    exact ⟨by simp [exec, execServeSync, Nat.not_lt.mpr hp], by simp [exec, execDelayReqSend, Nat.not_lt.mpr hp]⟩
  · intro hp up
    simp [exec, execTrigEdge, Nat.not_lt.mpr hp]
  · intro hp
    simp [exec, execClockFault, hp]
end
section
namespace Sys2Proof.Machine

/-! ### Counters, flags and bytes -/

/-- A count advances by one and saturates (every chapter's counters). -/
theorem State.bump_fld_same (s : State) (k : Nat) (f : Fld) : (s.bump k f).fld k f = s.oneMore k f := by
  have hw : 0 < 2 ^ f.w := Nat.two_pow_pos _
  have hlt : min (s.fld k f + 1) (2 ^ f.w - 1) < 2 ^ f.w := by omega
  show (s.setFld k f (min (s.fld k f + 1) (2 ^ f.w - 1))).fld k f = _
  rw [State.fld_setFld_same, Nat.mod_eq_of_lt hlt, State.oneMore]

/-- A flag reads what was set. -/
theorem State.flag_setFlag_same (s : State) (k : Nat) (f : Fld) (b : Bool) (hw : f.w = 1) :
    (s.setFlag k f b).flag k f = b := by
  cases b <;> simp [State.flag, State.setFlag, State.fld_setFld_same, hw]

/-- A write of an entry is confined to it. -/
theorem State.setFld_onlyEntry (s : State) (k : Nat) (f : Fld) (v : Nat) : onlyEntry s (s.setFld k f v) k :=
  ⟨rfl, fun j hj => s.setFld_ent_other k f v j hj⟩

theorem length_leBytes (n v : Nat) : (leBytes n v).length = n := by
  induction n generalizing v with
  | zero => rfl
  | succ n ih => simp [leBytes, ih]

theorem getElem_leBytes (n v i : Nat) (h : i < (leBytes n v).length) : (leBytes n v)[i] = v / 2 ^ (8 * i) % 256 := by
  induction n generalizing v i with
  | zero => simp [leBytes] at h
  | succ n ih =>
    cases i with
    | zero => simp [leBytes]
    | succ i =>
      simp only [leBytes, List.getElem_cons_succ]
      rw [ih, Nat.div_div_eq_div_mul, Nat.mul_succ, Nat.pow_add, Nat.mul_comm (2 ^ (8 * i))]

/-- Where DDR4 is zeroed, a write of bytes stores them (R488). -/
theorem State.stores_ddrWrite (s : State) (a : Nat) (bytes : List Byte) (h : s.rst.ddrZero = true) :
    stores s.mem (s.ddrWrite a (bytes.map (fun b => b.toNat))).mem (ddrBase + a) bytes := by
  have hm : (s.ddrWrite a (bytes.map (fun b => b.toNat))).mem = writeBytes s.mem (ddrBase + a) (bytes.map (fun b => b.toNat)) := by
    simp only [State.ddrWrite, State.ddrDefined, h, if_true, State.rewrite, State.freshMem]
    split <;> rfl
  rw [hm]
  refine ⟨fun i hi => ?_, fun b hb => readByte_writeBytes_out _ _ _ _ (by simpa using hb)⟩
  rw [readByte_writeBytes_in _ _ _ _ (by simpa using hi)]
  simp

/-- A DDR4 write leaves every entry and every tile. -/
theorem State.ddrWrite_frame (s : State) (a : Nat) (bs : List Nat) :
    (s.ddrWrite a bs).dict = s.dict ∧ (s.ddrWrite a bs).tiles = s.tiles ∧ (s.ddrWrite a bs).grade = s.grade ∧
      (s.ddrWrite a bs).stepping = s.stepping := by
  unfold State.ddrWrite State.rewrite State.freshMem
  split <;> split <;> exact ⟨rfl, rfl, rfl, rfl⟩

theorem State.ent_congr {s u : State} (hd : u.dict = s.dict) (hg : u.grade = s.grade) (hs : u.stepping = s.stepping) (k : Nat) :
    u.ent k = s.ent k := by
  unfold State.ent; rw [hd, hg, hs]

/-! ### Access slots -/

/-- `s` with the command of an access in slot `n` (R448). -/
def State.slotTook (s : State) (n i sub : Nat) (w notify : Bool) (len : Nat) : State :=
  { s with ctl := { s.ctl with slotCmd := mset 0 s.ctl.slotCmd n (slotCommand i sub w notify len) } }

/-- The end of an access: its state and code, and its vector where it asks for one. -/
def State.slotDone (s : State) (n : Nat) (notify : Bool) (st c : Nat) : State :=
  if notify = true then (s.slotEnd n st c).raise 5 else s.slotEnd n st c

theorem slotGo_eq (s : State) (n i sub : Nat) (w notify : Bool) (len : Nat) :
    s.slotGo n i sub w notify len =
      if notify = true then ((s.slotTook n i sub w notify len).slotServe n i sub w len).raise 5
      else (s.slotTook n i sub w notify len).slotServe n i sub w len := rfl

/-- Before the dictionary is available a slot ends refused (R487). -/
theorem slotRun_unavailable (s : State) (n i sub : Nat) (w notify : Bool) (len v : Nat) (h : s.rst.available = false) :
    s.slotRun n i sub w notify len v = (s.slotTook n i sub w notify len).slotDone n notify 3 abState := by
  have hs : (s.slotTook n i sub w notify len).slotServe n i sub w len = (s.slotTook n i sub w notify len).slotEnd n 3 abState := by
    have : (s.slotTook n i sub w notify len).rst.available = false := h
    simp [State.slotServe, this]
  unfold State.slotRun
  rw [if_neg (by simp [h]), slotGo_eq, hs]
  rfl

/-- The state from which a write through slot `n` reaches its entry: command and data taken. -/
def State.slotLoaded (s : State) (n i sub : Nat) (notify : Bool) (len v : Nat) : State :=
  (s.setSlotBytes n v).slotTook n i sub true notify len

/-- New data words leave what tells whether the dictionary is available. -/
theorem slotData_rst (s : State) (m : SMap Nat) : ({ s with ctl := { s.ctl with slotData := m } } : State).rst = s.rst := rfl

theorem slotLoaded_available (s : State) (n i sub : Nat) (notify : Bool) (len v : Nat) :
    (s.slotLoaded n i sub notify len v).rst.available = s.rst.available :=
  congrArg Rst.available (slotData_rst s (mset 0 s.ctl.slotData n (v % 2 ^ 512)))

theorem slotLoaded_slotBytes (s : State) (n i sub : Nat) (notify : Bool) (len v : Nat) :
    (s.slotLoaded n i sub notify len v).slotBytes n = v % 2 ^ 512 :=
  mget_mset_same 0 s.ctl.slotData n (v % 2 ^ 512)

/-- The end that an answer of the dictionary gives an access: done, or refused with its code. -/
def slotAnswer (n : Nat) (notify : Bool) (r : State × Option Nat) : State :=
  match r.2 with
  | none => r.1.slotDone n notify 2 0
  | some c => r.1.slotDone n notify 3 c

theorem slotAnswer_none (n : Nat) (notify : Bool) {r : State × Option Nat} (h : r.2 = none) :
    slotAnswer n notify r = r.1.slotDone n notify 2 0 := by
  simp only [slotAnswer, h]

theorem slotAnswer_some (n : Nat) (notify : Bool) {r : State × Option Nat} {c : Nat} (h : r.2 = some c) :
    slotAnswer n notify r = r.1.slotDone n notify 3 c := by
  simp only [slotAnswer, h]

theorem slotServe_write (s : State) (n i sub : Nat) (notify : Bool) (len : Nat) (h : s.rst.available = true) :
    (if notify = true then (s.slotServe n i sub true len).raise 5 else s.slotServe n i sub true len) =
      slotAnswer n notify (s.writeEntry (.slot n) i sub len (s.slotBytes n % 2 ^ (8 * len))) := by
  simp only [State.slotServe, h, Bool.not_true, Bool.false_eq_true, if_false, if_true, slotAnswer, State.slotDone]
  generalize s.writeEntry (.slot n) i sub len (s.slotBytes n % 2 ^ (8 * len)) = r
  obtain ⟨t, c⟩ := r
  cases c <;> rfl

/-- A write through a slot ends with what the dictionary answers (R448). -/
theorem slotRun_write (s : State) (n i sub : Nat) (notify : Bool) (len v : Nat) (h : s.rst.available = true) :
    s.slotRun n i sub true notify len v = slotAnswer n notify
      ((s.slotLoaded n i sub notify len v).writeEntry (.slot n) i sub len (v % 2 ^ 512 % 2 ^ (8 * len))) := by
  have ha := (slotLoaded_available s n i sub notify len v).trans h
  rw [← slotLoaded_slotBytes s n i sub notify len v, ← slotServe_write _ _ _ _ _ _ ha]
  unfold State.slotRun
  rw [if_pos ⟨rfl, h⟩, slotGo_eq]
  rfl

/-- A read through a slot leaves the entry's first bytes in its data (R448). -/
theorem slotRun_read (s : State) (n i sub : Nat) (notify : Bool) (len v : Nat) (e : Entry) (h : s.rst.available = true)
    (hl : (s.slotTook n i sub false notify len).lookup i sub = .ok e) (he : e.bytes ≤ 64) (hu : s.unserved i = false) :
    let t := s.slotTook n i sub false notify len
    let a := t.afterRead i sub
    s.slotRun n i sub false notify len v =
      (a.setSlotBytes n (t.readWord false i sub % 2 ^ (8 * len) + a.slotBytes n / 2 ^ (8 * len) * 2 ^ (8 * len))).slotDone n notify 2 0 := by
  intro t a
  have ha : t.rst.available = true := h
  have hb : a.slotBytes n = t.slotBytes n := by
    show (t.afterRead i sub).slotBytes n = _
    unfold State.afterRead; split <;> rfl
  have hr : t.readEntry (.slot n) i sub = .ok (t.readWord false i sub, a) := by
    have hu' : t.unserved i = false := hu
    have hl' : t.lookup i sub = .ok e := hl
    simp only [State.readEntry, hl', hu', isSlot, isCan]
    rw [if_neg (by simp; omega), if_neg (by simp)]
  unfold State.slotRun
  rw [if_neg (by simp), slotGo_eq]
  change (if notify = true then (t.slotServe n i sub false len).raise 5 else t.slotServe n i sub false len) = _
  simp only [State.slotServe, ha, hr, hb]
  rfl

/-! ### Hot registers and the BAR0 layout -/

/-- The hot registers are the nine of R449. -/
theorem hotEntry_some {off j k : Nat} (h : hotEntry off = some (j, k)) :
    (List.range 9).any (fun m => hotEntry (0x1000 + 8 * m) == some (j, k)) = true := by
  unfold hotEntry at h
  split at h <;> cases h <;> decide

theorem hotEntry_window (k : Nat) (h : k < 9) : hotEntry (0x1000 + 8 * k) ≠ none := by
  interval_cases k <;> decide

/-- A hot register reads its entry where hot registers read, else 0 (R449, R452). -/
theorem bar0Read_hot (s : State) (k : Nat) (hk : k < 9) (hw : s.rst.waitHost = false) :
    s.bar0Read (0x1000 + 8 * k) = if s.rst.available = true ∧
        (s.ctl.latched = true → bit s.agreed 0 = true ∧ bit s.agreed (hotFeature (0x1000 + 8 * k)) = true) then
      (match hotEntry (0x1000 + 8 * k) with | some e => s.readWord false e.1 e.2 | none => 0) else 0 := by
  have hr : s.hotReads (0x1000 + 8 * k) = true ↔ s.rst.available = true ∧
      (s.ctl.latched = true → bit s.agreed 0 = true ∧ bit s.agreed (hotFeature (0x1000 + 8 * k)) = true) := by
    unfold State.hotReads
    cases s.rst.available <;> cases s.ctl.latched <;> simp
  unfold State.bar0Read
  rw [if_neg (by simp [hw]), if_neg (by omega), if_neg (by omega), if_pos (by omega)]
  cases hotEntry (0x1000 + 8 * k) with
  | none => simp
  | some e => simp only [hr]

/-- A command word without go keeps its fields (R448). -/
theorem slotCommand_of_word (v : Nat) (h : v / 2 ^ 26 % 2 = 0) :
    slotCommand (bits v 0 16) (bits v 16 8) (bit v 24) (bit v 25) (bits v 32 7) = v % 2 ^ 26 + v / 2 ^ 32 % 2 ^ 7 * 2 ^ 32 := by
  simp only [slotCommand, bits, bit, beq_iff_eq]
  split <;> split <;> omega

end Sys2Proof.Machine
end

section
namespace Sys2Proof.Machine

/-! ### What the commands of the host link do -/

/-- A hot register's write keeps the code of a refusal (R449). -/
theorem exec_hotRegisterWrite_entry (s : State) {off j k v : Nat} (he : hotEntry off = some (j, k))
    (ha : s.rst.available = true) (hw : s.rst.waitHost = false) :
    exec (.hotRegisterWrite off v) s = .next (s.hotWrite j k (entryBytes j k) v) := by
  simp [exec, execHotRegisterWrite, hw, he, ha]

theorem hotWrite_none {s : State} {j k l v : Nat} (h : (s.writeEntry .hot j k l v).2 = none) :
    s.hotWrite j k l v = (s.writeEntry .hot j k l v).1 := by
  simp only [State.hotWrite, h]

theorem hotWrite_some {s : State} {j k l v c : Nat} (h : (s.writeEntry .hot j k l v).2 = some c) :
    s.hotWrite j k l v = { (s.writeEntry .hot j k l v).1 with ctl := { (s.writeEntry .hot j k l v).1.ctl with hotRefusal := c } } := by
  simp only [State.hotWrite, h]

theorem exec_registerWrite_hot (s : State) {off j k v : Nat} (he : hotEntry off = some (j, k))
    (ha : s.rst.available = true) (hw : s.rst.waitHost = false) :
    exec (.registerWrite .hot j k (entryBytes j k) v) s = exec (.hotRegisterWrite off v) s := by
  rw [exec_hotRegisterWrite_entry s he ha hw]
  show execRegisterWrite .hot j k (entryBytes j k) v s = _
  simp only [execRegisterWrite]
  rw [if_pos ⟨ha, hotEntry_some he⟩]

/-- Another BAR0 offset than a hot register's is the BAR0 write it is (R447). -/
theorem exec_hotRegisterWrite_bar0 (s : State) {off v : Nat} (he : hotEntry off = none) (hw : s.rst.waitHost = false) :
    exec (.hotRegisterWrite off v) s = .next (s.bar0Write off v) := by
  simp [exec, execHotRegisterWrite, hw, he]

theorem exec_hotRegisterWrite_boot (s : State) {off v : Nat} (hw : s.rst.waitHost = true) :
    exec (.hotRegisterWrite off v) s = .next (s.bootWrite off v) := by
  simp [exec, execHotRegisterWrite, hw]

theorem bar0Write_slotCommand (s : State) {n v : Nat} (hn : n < 64) :
    s.bar0Write (0x10000 + 256 * n) v = s.slotCommandWrite n v := by
  have hd : (0x10000 + 256 * n - 0x10000) / 256 = n := by omega
  have hm : (0x10000 + 256 * n) % 256 = 0 := by omega
  simp only [State.bar0Write, hd, hm]
  rw [if_neg (by omega), if_neg (by omega), if_pos (by omega), if_pos trivial]

theorem bar0Write_msix (s : State) {n v : Nat} (hn : n < 128) :
    s.bar0Write (0x80000 + 8 * n) v =
      { s with ctl := { s.ctl with msix := mset 0 s.ctl.msix n (v % 2 ^ 64) } } := by
  have hd : (0x80000 + 8 * n - 0x80000) / 8 = n := by omega
  simp only [State.bar0Write, hd]
  rw [if_neg (by omega), if_neg (by omega), if_neg (by omega), if_pos (by omega)]

theorem bar0Write_other (s : State) {off v : Nat} (h1 : 0x18 < off) (h2 : off < 0x10000 ∨ 0x80400 ≤ off) :
    s.bar0Write off v = s := by
  simp only [State.bar0Write]
  rw [if_neg (by omega), if_neg (by omega), if_neg (by omega), if_neg (by omega)]

theorem slotCommandWrite_reserved (s : State) {n v : Nat} (h : slotReserved v = true) :
    s.slotCommandWrite n v = s.slotEnd n 3 (if s.rst.available = true then abRange else abState) := by
  simp only [State.slotCommandWrite, h, if_true]

theorem slotCommandWrite_fields (s : State) {n v : Nat} (h : slotReserved v = false) (hg : v / 2 ^ 26 % 2 = 0) :
    s.slotCommandWrite n v = { s with ctl := { s.ctl with
      slotCmd := mset 0 s.ctl.slotCmd n (v % 2 ^ 26 + v / 2 ^ 32 % 2 ^ 7 * 2 ^ 32) } } := by
  have hb : bit v 26 = false := by rw [bit, hg]; rfl
  simp only [State.slotCommandWrite, h, hb, slotCommand_of_word v hg, Bool.false_eq_true, if_false]

theorem slotCmd_set (s : State) (n d : Nat) :
    let u : State := { s with ctl := { s.ctl with slotCmd := mset 0 s.ctl.slotCmd n d } }
    mget 0 u.ctl.slotCmd n = d ∧ { u with ctl := { u.ctl with slotCmd := s.ctl.slotCmd } } = s :=
  ⟨mget_mset_same 0 s.ctl.slotCmd n d, rfl⟩

/-- In host-only boot the boot control word's count is kept (R484). -/
theorem bootWrite_control (s : State) {v : Nat} (h1 : v / 2 ^ 24 % 2 = 0) (h2 : bits v 26 38 = 0) :
    s.bootWrite 0x7FF000 v = { s with rst := { s.rst with bootBytes := v % 2 ^ 24 } } := by
  have hb : bit v 24 = false := by rw [bit, h1]; rfl
  simp [State.bootWrite, h2, hb]

theorem bootWrite_image (s : State) {off v : Nat} (h1 : 0x800000 ≤ off) (h2 : off < 0x1000000) :
    s.bootWrite off v = s.write (bootBase + (off - 0x800000)) (leBytes 8 v) := by
  simp only [State.bootWrite]
  rw [if_neg (by omega), if_pos ⟨h1, h2⟩]

theorem bootWrite_other (s : State) {off v : Nat} (h1 : off ≠ 0x7FF000) (h2 : off < 0x800000 ∨ 0x1000000 ≤ off) :
    s.bootWrite off v = s := by
  simp only [State.bootWrite]
  rw [if_neg h1, if_neg (by omega)]

/-- The first latch agrees what both sides have (R452). -/
theorem featureLatch_first (s : State) (v : Nat) (ha : s.rst.available = true) (hl : s.ctl.latched = false) :
    ∃ u, exec (.featureLatch v) s = .next u ∧ u.ctl = { s.ctl with latched := true } ∧
      u.ent (key 0x2F10 2) = v % 2 ^ 64 ∧ u.ent (key 0x2F10 3) = (s.ent (key 0x2F10 1) &&& v % 2 ^ 64) ∧
      (∀ j, j ≠ key 0x2F10 2 → j ≠ key 0x2F10 3 → u.ent j = s.ent j) ∧ u.mem = s.mem := by
  have k12 : key 0x2F10 1 ≠ key 0x2F10 2 := by decide
  have k23 : key 0x2F10 2 ≠ key 0x2F10 3 := by decide
  let t := s.setEnt (key 0x2F10 2) (v % 2 ^ 64)
  let w := t.setEnt (key 0x2F10 3) (t.ent (key 0x2F10 1) &&& t.ent (key 0x2F10 2))
  have he : exec (.featureLatch v) s = .next { w with ctl := { w.ctl with latched := true } } := by
    simp [exec, execFeatureLatch, State.latch, ha, hl, w, t]
  refine ⟨_, he, rfl, ?_, ?_, fun j h2 h3 => ?_, rfl⟩
  · show w.ent _ = _
    simp [w, t, State.setEnt_ent, k23]
  · show w.ent _ = _
    simp [w, t, State.setEnt_ent, k12]
  · show w.ent j = _
    simp [w, t, State.setEnt_ent, h2, h3]

/-- BAR2 bytes land in the library partition and mark it (R450, R541). -/
theorem library_stored (s : State) (a : Nat) (bytes : List Byte) (hz : s.rst.ddrZero = true) :
    let u := (s.ddrWrite a (bytes.map (fun b => b.toNat))).setFlag kRsts rsts_library_touched true
    stores s.mem u.mem (ddrBase + a) bytes ∧ u.flag kRsts rsts_library_touched = true ∧
      (∀ j, j ≠ kRsts → u.ent j = s.ent j) ∧ u.tiles = s.tiles := by
  obtain ⟨hd, ht, hg, hs⟩ := s.ddrWrite_frame a (bytes.map (fun b => b.toNat))
  refine ⟨s.stores_ddrWrite a bytes hz, State.flag_setFlag_same _ _ _ _ rfl, fun j hj => ?_, ht⟩
  exact (State.setFld_ent_other _ _ _ _ _ hj).trans (State.ent_congr hd hg hs j)

end Sys2Proof.Machine

open Sys2Proof Sys2Proof.Machine

/-- Settles O51: each access is the write or read of its entry, ended as R448 and R449 have it. -/
theorem hostLinkReachesTheDictionary : Obligations.HostLinkReachesTheDictionary := by
  intro s n i sub len v notify took ended done
  refine ⟨fun hn ha => ⟨⟨fun hr => ?_, fun c hr => ?_⟩, fun e hl he hu => ?_, fun hf => ?_⟩, fun hn ha w => ?_,
    fun off j k he ha hw => ⟨fun hr => ?_, fun c hr => ?_, exec_registerWrite_hot s he ha hw⟩,
    fun off he hw => ⟨?_, ?_, ?_, ?_, fun h1 h2 => ?_⟩, fun hw => ⟨fun h1 h2 => ?_, ?_, fun off h1 h2 => ?_, fun off h1 h2 => ?_⟩,
    fun k hk hw => bar0Read_hot s k hk hw, ?_, featureLatch_first s v, fun hl => ?_, fun off bytes => ⟨fun hl hz => ?_, fun hl => ?_⟩⟩
  · have hx : exec (.slotAccess n i sub true notify len v) s = .next (s.slotRun n i sub true notify len v) := if_pos hn
    rw [hx, slotRun_write s n i sub notify len v ha]
    exact congrArg Host.Outcome.next (slotAnswer_none n notify hr)
  · have hx : exec (.slotAccess n i sub true notify len v) s = .next (s.slotRun n i sub true notify len v) := if_pos hn
    rw [hx, slotRun_write s n i sub notify len v ha]
    exact congrArg Host.Outcome.next (slotAnswer_some n notify hr)
  · have hx : exec (.slotAccess n i sub false notify len v) s = .next (s.slotRun n i sub false notify len v) := if_pos hn
    rw [hx, slotRun_read s n i sub notify len v e ha hl he hu]
    rfl
  · subst hf; rfl
  · have hx : exec (.slotAccess n i sub w notify len v) s = .next (s.slotRun n i sub w notify len v) := if_pos hn
    rw [hx, slotRun_unavailable s n i sub w notify len v ha]
    rfl
  · rw [exec_hotRegisterWrite_entry s he ha hw, hotWrite_none hr]
  · rw [exec_hotRegisterWrite_entry s he ha hw, hotWrite_some hr]
  · rintro rfl
    rw [exec_hotRegisterWrite_bar0 s he hw]
    rfl
  · rintro rfl hn hv
    rw [exec_hotRegisterWrite_bar0 s he hw, bar0Write_slotCommand s hn, slotCommandWrite_reserved s hv]
    rfl
  · rintro rfl hn hv hg
    rw [exec_hotRegisterWrite_bar0 s he hw, bar0Write_slotCommand s hn, slotCommandWrite_fields s hv hg]
    exact ⟨_, rfl, slotCmd_set s n _⟩
  · rintro rfl hn
    rw [exec_hotRegisterWrite_bar0 s he hw, bar0Write_msix s hn]
    exact ⟨_, rfl, mget_mset_same .., rfl⟩
  · rw [exec_hotRegisterWrite_bar0 s he hw, bar0Write_other s h1 h2]
  · rw [exec_hotRegisterWrite_boot s hw, bootWrite_control s h1 h2]
  · simp [State.bar0Read, hw]
  · rw [exec_hotRegisterWrite_boot s hw, bootWrite_image s h1 h2]
    refine ⟨_, rfl, rfl, fun i hi => ?_, fun a ha => readByte_writeBytes_out _ _ _ _ (by rwa [length_leBytes])⟩
    have hl : i < (leBytes 8 v).length := by rwa [length_leBytes]
    rw [show (s.write (bootBase + (off - 0x800000)) (leBytes 8 v)).mem = writeBytes s.mem _ (leBytes 8 v) from rfl,
      readByte_writeBytes_in _ _ _ _ hl, getElem_leBytes, BitVec.toNat_ofNat, Nat.mod_mod]
  · rw [exec_hotRegisterWrite_boot s hw, bootWrite_other s h1 h2]
  · show execHotRefusalRead s = _
    unfold execHotRefusalRead
    split <;> rfl
  · simp [exec, execFeatureLatch, hl]
  · have hx : exec (.bar2Write off bytes) s = .next ((s.ddrWrite (s.library.1 + _) (bytes.map (fun b => b.toNat))).setFlag
        kRsts rsts_library_touched true) := if_pos hl
    exact ⟨_, hx, library_stored s _ bytes hz⟩
  · have hx : exec (.bar2Write off bytes) s = .next (s.bump kHls hls_bar2_discards) := if_neg hl
    exact ⟨_, hx, State.setFld_onlyEntry .., State.bump_fld_same ..⟩
end
section
namespace Sys2Proof.Machine

/-- After reset, one tick's time later, in safe hold: the time block does not run (R482). -/
def heldClock : State := { State.reset with clk := 4, rst := { State.reset.rst with safeHold := true } }

/-- In safe hold a tick does nothing (R409, R482). -/
theorem heldClock_tick : exec .mainClockTick heldClock = .next heldClock := rfl

/-- Global time of the present clk is then one increment past the clock, which no tick has advanced. -/
theorem heldClock_globalTime : heldClock.globalTime 4 = 13743895347 ∧ heldClock.time.main = 0 ∧
    heldClock.flag kTime tsts_on_fallback = false := by decide +kernel

end Sys2Proof.Machine

open Sys2Proof Sys2Proof.Machine

/-- Refutes O42: the last clause does not ask that the block is out of safe hold, where a tick does nothing and the main
clock stays behind the line of global time. -/
theorem not_mainAndFallbackClocks : ¬ Obligations.MainAndFallbackClocks := by
  rintro ⟨-, h⟩
  obtain ⟨-, -, -, -, -, hline⟩ := h heldClock 0 0
  obtain ⟨u, hu, hafter, -⟩ := hline rfl (by decide) (by decide)
  obtain rfl : heldClock = u := Host.Outcome.next.inj (heldClock_tick.symm.trans hu)
  obtain ⟨hg, hm, hf⟩ := heldClock_globalTime
  have := hafter 4 (le_refl 4)
  simp [hg, hm, hf, show heldClock.clk = 4 from rfl] at this
end
section
/-! SUPPORT. States with a landed frame of a quay that no grade has: its gutter counter is Job Status by its key. -/

namespace Sys2Proof.Machine

open Sys2Proof.Tests

/-- A lane group of quay 3,264 with one frame ready, whose gutter reason is 2: `key (0x2240 + 3264) 2` is `kJob`. -/
def strayLand : Land :=
  { groups := [(4 * 3264, { ready := [{ frame := 0, ready := 0, reason := 2, counted := false, flags := 0, data := [] }] })] }

/-- The stray group's gutter counter is Job Status. -/
theorem strayGutter_eq_kJob : key (0x2240 + 3264) 2 = kJob := by decide

/-- An armed job beside a stray group. -/
def strayArmed : State :=
  { put State.reset [(kJob, jst_job_state, ARMED)] with clk := 100, rst := { available := true }, land := strayLand }

/-- Nothing refuses the start of `strayArmed`. -/
theorem strayArmed_starts : strayArmed.jobState = ARMED ∧ strayArmed.jobOpen = true ∧ strayArmed.flag kJob jst_started = false ∧
    strayArmed.job.bound = false ∧ strayArmed.berthSize ≤ 1 := by decide +kernel

/-- The start settles the stray frame, whose count takes the job's state from ARMED to RUNNING. -/
theorem strayArmed_started : strayArmed.cmdStart.1.jobState = RUNNING := by decide +kernel

/-- A started job that restarts, come to its arming checks, beside a stray group. -/
def strayRearm : State :=
  { rearm [] with clk := 100, job := { period := 1000, fper := 1000, wasStarted := true }, land := strayLand }

/-- The CRC of its menu. -/
theorem strayRearm_menu : crc32c strayRearm.menuImage = 1291955814 :=
  crc_of_menu _ (menu_of _ ⟨by decide, by decide⟩ (by decide +kernel))

/-- No arming check refuses it. -/
theorem strayRearm_checks : strayRearm.jobState = LOADED ∧ strayRearm.fld kRsts rsts_restart_state = 4 ∧
    (strayRearm.setEnt kMenuCrc 1291955814).armRefused = false ∧ (strayRearm.setEnt kMenuCrc 1291955814).harbourBroken = false := by
  decide +kernel

/-- What an arming that no check refuses and no harbour breaks leaves. -/
theorem State.arm_of_checks {s : State} {n : Nat} (hn : crc32c s.menuImage = n) (hr : (s.setEnt kMenuCrc n).armRefused = false)
    (hb : (s.setEnt kMenuCrc n).harbourBroken = false) : s.arm = ((s.setEnt kMenuCrc n).armed, true) := by
  simp only [State.arm, hn, hr, hb, Bool.false_eq_true, if_false]

/-- The last phase of a restart that may arm (R543). -/
theorem exec_restart_of_checks {s : State} {n : Nat} (hn : crc32c s.menuImage = n) (hr : (s.setEnt kMenuCrc n).armRefused = false)
    (hb : (s.setEnt kMenuCrc n).harbourBroken = false) (hs : s.jobState = LOADED) (hp : s.fld kRsts rsts_restart_state = 4)
    (ha : (s.setEnt kMenuCrc n).armed.jobState ≠ FAULTED) :
    exec .restart s = .next ((((s.setEnt kMenuCrc n).armed.restartStart s.job.wasStarted s.job.wasPaused).setFld kRsts
      rsts_restart_state 0).setFld kRsts rsts_refusal 0) := by
  have hl : LOADED ≠ FAULTED := by decide
  show execRestart s = _
  simp [execRestart, State.restartState, State.restartArm, State.arm_of_checks hn hr hb, hs, hp, ha, hl]

/-- The start of the restarted job settles the stray frame. -/
theorem strayRearm_started : (strayRearm.setEnt kMenuCrc 1291955814).armed.jobState ≠ FAULTED ∧
    ((((strayRearm.setEnt kMenuCrc 1291955814).armed.restartStart true false).setFld kRsts
      rsts_restart_state 0).setFld kRsts rsts_refusal 0).jobState = RUNNING := by decide +kernel

end Sys2Proof.Machine
end

section
/-! CLAIM. The statements about the job commands and the restart do not ask that the landed groups are of quays that exist. -/

open Sys2Proof Sys2Proof.Machine

/-- Refutes O46: it is stated of every state, and where `land.groups` names a group of quay 3,264 the start's settling of
its frame counts in a gutter counter that is Job Status (`strayArmed_started`). -/
theorem not_jobCommandsMoveTheState : ¬ Obligations.JobCommandsMoveTheState := by
  intro h
  obtain ⟨ha, ho, hf, hb, hz⟩ := strayArmed_starts
  obtain ⟨-, -, -, -, -, -, -, -, -, -, hstart⟩ := h strayArmed
  obtain ⟨u, hu, -, hj, -⟩ := hstart ⟨List.mem_singleton.mpr ha, ho⟩ hf hb (.inl hz)
  obtain rfl : strayArmed.cmdStart.1 = u := Host.Outcome.next.inj hu
  exact absurd (strayArmed_started.symm.trans hj) (by decide)

/-- Refutes O49: as for O46, a restart that starts its job anew settles the frame of a group that no quay has
(`strayRearm_started`). -/
theorem not_restartsTakeTheJobBack : ¬ Obligations.RestartsTakeTheJobBack := by
  intro h
  obtain ⟨hl, hp, hr, hb⟩ := strayRearm_checks
  obtain ⟨hf, hs⟩ := strayRearm_started
  obtain ⟨-, -, -, harm, -⟩ := h strayRearm
  obtain ⟨-, -, hok⟩ := harm hl hp
  rw [strayRearm_menu] at hok
  obtain ⟨u, hu, hj, -⟩ := hok hr hb
  have he := exec_restart_of_checks strayRearm_menu hr hb hl hp hf
  obtain rfl := Host.Outcome.next.inj (he.symm.trans hu)
  exact absurd (hs.symm.trans hj) (by decide)

end
section
/-! SUPPORT. What one clk does by itself: the faults it tells, the transmit stamp it reads, the software reset at its edge, and
what its other parts keep (O2). -/

namespace Sys2Proof.Machine

/-- What the telling of the faults and the clk's edge keep: the queue, the grade, the clk and the stamps that wait; a software
reset that is due may register, and a grid that stands still does so. -/
structure Edge (s t : State) : Prop where
  pending : t.pending = s.pending
  grade : t.grade = s.grade
  clk : t.clk = s.clk
  stamps : t.time.txq = s.time.txq
  soft : t.rst.soft = s.rst.soft ∨ t.rst.soft = none
  idle : Idle s.net s.tiles → Idle t.net t.tiles

variable {s t u : State}

theorem Edge.trans (h : Edge s t) (k : Edge t u) : Edge s u where
  pending := k.pending.trans h.pending
  grade := k.grade.trans h.grade
  clk := k.clk.trans h.clk
  stamps := k.stamps.trans h.stamps
  soft := k.soft.elim (fun e => h.soft.imp e.trans e.trans) .inr
  idle i := k.idle (h.idle i)

theorem Keeps.edge (h : Keeps 2 s t) : Edge s t where
  pending := h.pending
  grade := h.grade
  clk := (h.within (by omega)).clk
  stamps := (h.within (by omega)).stamps
  soft := .inl (h.within (by omega)).soft
  idle := h.idle le_rfl

theorem Edge.soft_none (h : Edge s t) (hs : s.rst.soft = none) : t.rst.soft = none := by
  rcases h.soft with e | e
  · rw [e, hs]
  · exact e

/-- What is read of a map holds where it holds of the default and of what the map lists. -/
theorem mget_forall {α : Type} {P : α → Prop} {d : α} {m : SMap α} (k : Nat) (hd : P d) (hm : ∀ e ∈ m, P e.2) : P (mget d m k) := by
  induction m with
  | nil => exact hd
  | cons e m ih =>
    obtain ⟨he, hm⟩ := List.forall_mem_cons.mp hm
    unfold mget
    split
    · exact he
    · split
      · exact hd
      · exact ih hm

/-- No act is planned in tiles whose acts were all dropped. -/
theorem pend_mmap (m : SMap Tile) (p : Nat) : (mget {} (mmap ({} : Tile) (fun t => { t with pend := [] }) m) p).pend = [] := by
  refine mget_forall (P := fun t : Tile => t.pend = []) p rfl fun e he => ?_
  obtain ⟨x, -, rfl⟩ := List.mem_map.mp (List.mem_filter.mp he).1
  rfl

/-- After a fault clk nothing is in flight and no act is planned (R533). -/
theorem State.stopGrid_idle (s : State) : Idle s.stopGrid.net s.stopGrid.tiles :=
  (Keeps.refl (μ := 2) _).withdrawTenders.idle le_rfl ⟨rfl, pend_mmap s.tiles⟩

theorem State.stopGrid_edge (s : State) : Edge s s.stopGrid :=
  have : Fact (1 ≤ 1) := ⟨le_rfl⟩
  have h := (Keeps.refl (μ := 1) s).stopGrid
  have w := h.within le_rfl
  ⟨h.pending, h.grade, w.clk, w.stamps, .inl w.soft, fun _ => s.stopGrid_idle⟩

theorem State.tellFaults_edge (s : State) : Edge s s.tellFaults := by
  unfold State.tellFaults
  split
  · extract_lets n s1 s2
    have h2 : Keeps 2 s.stopGrid s2 := (Keeps.refl _).refreshTotals.raise.foldl fun _ _ k => k.tellFault
    obtain ⟨hp, hg, hc, ht, hs, hi⟩ := s.stopGrid_edge.trans h2.edge
    exact ⟨hp, hg, hc, ht, hs, hi⟩
  · exact (Keeps.refl s).edge

/-- The telling of the clk's faults leaves the grid idle (R533). -/
theorem State.tellFaults_idle {s : State} (h : s.flt.active = true) : Idle s.tellFaults.net s.tellFaults.tiles := by
  unfold State.tellFaults
  rw [if_pos h]
  extract_lets n s1 s2
  have h2 : Keeps 2 s.stopGrid s2 := (Keeps.refl _).refreshTotals.raise.foldl fun _ _ k => k.tellFault
  exact h2.idle le_rfl s.stopGrid_idle

/-- The state without the transmit stamp that a clk reads. -/
def State.popStamp (s : State) : State := { s with time := { s.time with txq := s.time.txq.tail } }

theorem State.popStamp_of_nil {s : State} (h : s.time.txq = []) : s.popStamp = s := by
  unfold State.popStamp
  rw [h, List.tail_nil, ← h]

theorem State.readStamp_keeps (s : State) : Keeps 2 s.popStamp s.readStamp := by
  unfold State.readStamp
  split
  · next e =>
    rw [State.popStamp_of_nil e]
    exact .refl s
  · next e es h =>
    unfold State.popStamp
    rw [h, List.tail_cons]
    extract_lets _ s1 q n
    have h1 : Keeps 2 { s with time := { s.time with txq := es } } s1 := (Keeps.refl _).setFld
    split
    · exact .ite h1.syncDone.emit h1
    · exact h1.reqSent.reqSent

/-- A full reset other than that of power-on clears the grid and keeps the clk. -/
theorem State.clearBlock_edge (s : State) : Edge s (s.clearBlock false) where
  pending := rfl
  grade := rfl
  clk := rfl
  stamps := rfl
  soft := by
    show s.rst.soft.filter _ = s.rst.soft ∨ s.rst.soft.filter _ = none
    cases s.rst.soft with
    | none => exact .inl rfl
    | some c => simpa using em _
  idle _ := ⟨rfl, fun _ => rfl⟩

theorem State.fullReset_edge (s : State) : Edge s (s.fullReset 5) := by
  unfold State.fullReset
  split
  · exact (Keeps.refl s).edge
  split
  · exact (Keeps.refl s).noteCause.edge
  · extract_lets t t'
    have h0 : Keeps 2 s (s.abortAll.setDoubt 0 true).tearRecorder := (Keeps.refl s).abortAll.setDoubt.tearRecorder
    have h1 : Keeps 2 ((s.abortAll.setDoubt 0 true).tearRecorder.clearBlock false) t := (Keeps.refl _).resetDict
    have h2 : Keeps 2 t t' := .ite (Keeps.refl t).setFlag (.refl t)
    exact (h0.edge.trans (State.clearBlock_edge _)).trans ((h1.trans h2).upd.noteCause.refreshTimeDoubt).edge

/-- A software reset that is due registers, and none is due after it (R494). -/
theorem State.softDue_edge (s : State) : Edge s s.softDue := by
  unfold State.softDue
  split
  · split
    · have h : Edge s { s with rst := { s.rst with soft := none } } := ⟨rfl, rfl, rfl, rfl, .inr rfl, id⟩
      exact h.trans (State.fullReset_edge _)
    · exact (Keeps.refl s).edge
  · exact (Keeps.refl s).edge

theorem State.softDue_soft {s : State} {c : Nat} (h : s.rst.soft = some c) (hc : c ≤ s.clk) : s.softDue.rst.soft = none := by
  unfold State.softDue
  rw [h]
  simp only [hc, if_true]
  exact (State.fullReset_edge _).soft_none rfl

/-! ### A clk -/

/-- What a clk does before the telling of its faults keeps what stands within a clk. -/
theorem State.beforeTelling_keeps (s : State) :
    Keeps 1 s s.sendMarkers.jobClk.idleBg.runTimed.tickTiles.clearRegs.runPin.runAborts :=
  have : Fact (1 ≤ 1) := ⟨le_rfl⟩
  (Keeps.refl s).sendMarkers.jobClk.idleBg.runTimed.tickTiles.clearRegs.runPin.runAborts

/-- After the telling of its faults a clk reads a transmit stamp, and keeps the rest. -/
theorem State.endClk_edge (s : State) :
    Edge (s.jobClk.idleBg.runTimed.tickTiles.clearRegs.runPin.runAborts).tellFaults.popStamp s.endClk := by
  unfold State.endClk
  extract_lets s1 s2 s3
  have h3 : Keeps 2 s2.tellFaults.popStamp s3 := State.readStamp_keeps _
  exact (Keeps.ite h3.raiseTimeline h3).edge

/-- What comes after the software reset at a clk's edge keeps what it left. -/
theorem State.beginClk_edge (s : State) : Edge s.releasePins.softDue s.beginClk :=
  (((((Keeps.refl s.releasePins.softDue).holdBlock.beginDue.pausePends).acts .pauseTakesEffect).acts .resumeTakesEffect).acts
    .savePark).arrivals.markSlips.summaries.tickPin.tickBerth.issueAll.readTables.edge

theorem State.releasePins_edge (s : State) : Edge s s.releasePins := (Keeps.refl s).releasePins.edge

/-- A software reset that is due at a clk's edge is none after it. -/
theorem State.beginClk_soft {s : State} (h : s.rst.soft = none ∨ ∃ c, s.rst.soft = some c ∧ c ≤ s.clk) :
    s.beginClk.rst.soft = none := by
  have hr := s.releasePins_edge
  refine s.beginClk_edge.soft_none ?_
  rcases h with h | ⟨c, h, hc⟩
  · exact (State.softDue_edge _).soft_none (hr.soft_none h)
  · rcases hr.soft with e | e
    · exact State.softDue_soft (e.trans h) (hr.clk ▸ hc)
    · exact (State.softDue_edge _).soft_none e

/-- What one clk keeps and changes whatever the block does in it. -/
theorem State.tick_facts (s : State) :
    s.tick.clk = s.clk + 1 ∧ s.tick.pending = s.pending ∧ s.tick.grade = s.grade ∧
      (s.flt.active = true → Idle s.tick.net s.tick.tiles) ∧ s.tick.time.txq = s.time.txq.tail ∧
      ∀ c, s.rst.soft = some c → c ≤ s.clk + 1 → s.tick.rst.soft = none := by
  have hd := s.beforeTelling_keeps
  have he := s.sendMarkers.endClk_edge
  generalize s.sendMarkers.jobClk.idleBg.runTimed.tickTiles.clearRegs.runPin.runAborts = d at hd he
  have hs : s.tick = { s.sendMarkers.endClk with clk := s.sendMarkers.endClk.clk + 1 }.beginClk := rfl
  generalize s.sendMarkers.endClk = e at he hs
  have ht := d.tellFaults_edge
  have hw := hd.within le_rfl
  have hb : Edge { e with clk := e.clk + 1 } s.tick := by
    rw [hs]
    exact ((State.releasePins_edge _).trans (State.softDue_edge _)).trans (State.beginClk_edge _)
  have hclk : e.clk = s.clk := (he.clk.trans ht.clk).trans hw.clk
  have hsoft : e.rst.soft = s.rst.soft ∨ e.rst.soft = none := by
    rcases ht.soft with h | h
    · exact he.soft.imp_left fun h' => h'.trans (h.trans hw.soft)
    · exact .inr (he.soft_none h)
  have hstamps : e.time.txq = s.time.txq.tail := by
    rw [← hw.stamps, ← ht.stamps]
    exact he.stamps
  refine ⟨?_, hb.pending.trans (he.pending.trans (ht.pending.trans hd.pending)),
    hb.grade.trans (he.grade.trans (ht.grade.trans hd.grade)), fun hf => hb.idle (he.idle (State.tellFaults_idle (hw.faulted hf))),
    ?_, fun c h hc => ?_⟩
  · rw [hb.clk, hclk]
  · rw [hb.stamps]
    exact hstamps
  · rw [hs]
    refine State.beginClk_soft ?_
    show e.rst.soft = none ∨ ∃ c, e.rst.soft = some c ∧ c ≤ e.clk + 1
    rw [hclk]
    exact hsoft.symm.imp_right fun h' => ⟨c, h'.trans h, hc⟩

/-! ### The parts of a clk -/

/-- A word of a tile's program means the command it is. -/
theorem tileEffect_eq_exec {i : Instr} {t : Iss} (h : issueOf i = some t) : tileEffect i = exec i := by
  cases i <;> cases h <;> rfl

theorem State.runTile_word {s : State} {p n : Nat} {i : Instr} {t : Iss} (hm : s.mayIssue p = true)
    (hd : decodeWord p (s.wordHere p) = some i) (hi : issueOf i = some t) :
    s.runTile p (n + 1) = (s.acts (exec i)).runTile p n := by
  rw [State.runTile, if_pos hm, hd, ← tileEffect_eq_exec hi]

theorem State.runSlots_eq (s : State) :
    let w := (s.acts execScheduleBind).acts execWindowSlotBind
    (w.job.bound = true → s.runSlots = w.slipQuays.foldl (fun s q => s.acts (execSlotRelease q)) w) ∧
      (w.job.bound = false → s.runSlots = w) :=
  ⟨fun h => if_pos h, fun h => if_neg (by simp [h])⟩

/-- With no window open, no mark on its way and nothing under capture the schedule times the evaluation and the berth alone. -/
theorem State.runJobTimed_idle {s : State} (hw : s.job.layerWin = []) (hm : s.dec.marks = []) (hc : s.cap.slots = [])
    (hr : s.cap.reqs = []) : s.runJobTimed = (s.acts execRidgeEvaluate).runBerth := by
  have hd (window : Bool) : s.marksDue window = [] := by simp [State.marksDue, hm]
  simp only [State.runJobTimed, hw, hd, hc, hr, List.map_nil, List.foldl_nil]

/-- One write due in a clk takes effect (R206). -/
theorem State.tickTile_write {s : State} {p : Nat} {x : Pend} (hx : (s.tile p).pend.filter (fun y => y.due == s.clk) = [x])
    (hr : x.act.isRead = false) (hn : (s.tile p).noWrite ≠ some s.clk) :
    s.tickTile p =
      ((s.setTile p { s.tile p with pend := (s.tile p).pend.filter (fun y => y.due != s.clk) }).applyAct p x.act, []) := by
  have hw : [x].filter (fun d => !d.act.setsMark) ++ [x].filter (fun d => d.act.setsMark) = [x] := by
    cases h : x.act.setsMark <;> simp [h]
  simp [State.tickTile, hx, hr, hw, hn, clashes, lowestClash]

theorem State.freshWords_mem (s : State) (p a n : Nat) : (s.freshWords p a n).mem = s.mem := by
  unfold State.freshWords
  split <;> rfl

theorem State.applyAct_sram_mem (s : State) (p a : Nat) (bs : List Nat) :
    (s.applyAct p (.sram a bs)).mem = writeBytes s.mem (sramBase p + a) bs := State.freshWords_mem _ _ _ _

/-- A write of tile SRAM replaces its bytes and no other. -/
theorem State.readByte_applyAct_sram (s : State) (p a : Nat) (bs : List Nat) (hb : ∀ x ∈ bs, x < 256) :
    (∀ i, i < bs.length → (readByte (s.applyAct p (.sram a bs)).mem (sramBase p + a + i)).toNat = bs.getD i 0) ∧
      ∀ j, j < sramBase p + a ∨ sramBase p + a + bs.length ≤ j → readByte (s.applyAct p (.sram a bs)).mem j = readByte s.mem j := by
  rw [State.applyAct_sram_mem]
  refine ⟨fun i hi => ?_, fun j hj => readByte_writeBytes_out _ _ _ _ hj⟩
  rw [readByte_writeBytes_in _ _ _ _ hi, BitVec.toNat_ofNat, Nat.mod_eq_of_lt (hb _ (List.getElem_mem hi)),
    List.getD_eq_getElem _ _ hi]

/-! ### The pin -/

section Pin

theorem foldl_pin {α : Type} {f : State → α → State} (hf : ∀ s a, (f s a).dec.pin = s.dec.pin) (l : List α) (s : State) :
    (l.foldl f s).dec.pin = s.dec.pin := by
  induction l generalizing s with
  | nil => rfl
  | cons a l ih => rw [List.foldl_cons, ih, hf]

theorem State.pulse_pin (s : State) (o : Nat) : (s.pulse o).dec.pin = s.dec.pin := by
  unfold State.pulse
  extract_lets a b
  split
  · split <;> rfl
  · rfl

theorem ite_pin {c : Prop} [Decidable c] {s t : State} (h : t.dec.pin = s.dec.pin) :
    (if c then t else s).dec.pin = s.dec.pin := by
  split
  · exact h
  · rfl

theorem State.countClasses_pin (s : State) (k a : Nat) : (s.countClasses k a).dec.pin = s.dec.pin :=
  by
  unfold State.countClasses
  refine foldl_pin (fun s c => ?_) _ s
  exact ite_pin rfl

theorem State.sendAccept_pin (s : State) (m : Nat) : (s.sendAccept m).dec.pin = s.dec.pin := by
  unfold State.sendAccept
  refine foldl_pin (fun s k => ?_) _ s
  rfl

theorem State.passRecord_pin (s : State) (r : PinRec) : (s.passRecord r).dec.pin = s.dec.pin :=
  (foldl_pin (fun s _ => ite_pin (s.pulse_pin _)) _ _).trans (foldl_pin (fun s _ => ite_pin (s.pulse_pin _)) _ s)

/-- The record that leaves the flashing is none of the pin's. -/
theorem State.leaveFlashing_pin (s : State) : s.leaveFlashing.dec.pin = s.dec.pin := by
  unfold State.leaveFlashing
  split
  · rfl
  · extract_lets _ s1 flashed s2
    have h2 : s2.dec.pin = s.dec.pin := by
      unfold s2
      split
      · exact State.countClasses_pin _ _ _
      · exact State.passRecord_pin _ _
    split
    · exact (State.sendAccept_pin _ _).trans h2
    · exact h2

theorem State.leaveFlashing_clk (s : State) : s.leaveFlashing.clk = s.clk :=
  ((Keeps.refl (μ := 1) s).leaveFlashing.within le_rfl).clk

theorem State.leaveFlashing_of_none {s : State} (h : s.dec.leaving = none) : s.leaveFlashing = s := by
  unfold State.leaveFlashing
  rw [h]

/-- No record of the pin is due: none is released. -/
theorem State.runPin_none {s : State} (h : ∀ r ∈ s.dec.pin, r.out ≠ s.clk) : s.runPin = s.leaveFlashing := by
  have hf : s.dec.pin.filter (fun r => r.out == s.clk) = [] := by simpa [List.filter_eq_nil_iff] using h
  simp only [State.runPin, s.leaveFlashing_pin, s.leaveFlashing_clk, hf, List.foldl_nil]

/-- The one record of the pin is due, and none is in the flashing: it is released. -/
theorem State.runPin_one {s : State} {r : PinRec} (hl : s.dec.leaving = none) (hp : s.dec.pin = [r]) (hr : r.out = s.clk) :
    s.runPin = (s.acts execPinRelease).leaveFlashing := by
  simp [State.runPin, State.leaveFlashing_of_none hl, hp, hr]

end Pin

end Sys2Proof.Machine

end
section
/-! CLAIM. The statement about a clk that passes with an empty queue. -/

open Sys2Proof Sys2Proof.Machine

/-- Settles O2: a clk is made of the parts the statement lists, and each keeps what stands within a clk (`State.tick_facts`). -/
theorem emptyQueuePassesOneClk : Obligations.EmptyQueuePassesOneClk := by
  intro s hq
  have hstep : step s = .next s.tick := by
    unfold step
    rw [hq]
  obtain ⟨hclk, hpend, hgrade, hidle, htx, hsoft⟩ := s.tick_facts
  refine ⟨s.tick, hstep, hclk, hpend.trans hq, hgrade, hidle, fun e es h => ?_, hsoft, ?_⟩
  · rw [htx, h, List.tail_cons]
  intro run a b c d e f g
  refine ⟨hstep.trans ?_, State.runSlots_eq b, ?_, ?_, ?_, ?_, ?_, ?_, ?_, ?_, ?_⟩
  · have hb : (if 1 < a.berthSize then a.acts execBerthReportFramesEnd else a) = b := rfl
    have hj : a.jobClk = (c.settleAll c.clk).runGrid.runJobTimed := by
      unfold State.jobClk
      rw [hb]
    clear_value b
    have he : a.endClk = e := by
      unfold State.endClk
      rw [hj]
    have ht : s.tick = { e with clk := e.clk + 1 }.beginClk := congrArg (fun e : State => { e with clk := e.clk + 1 }.beginClk) he
    rw [ht]
    clear_value e
    rfl
  · intro h
    simp [State.runGrid, h]
  · exact fun p n i t hm hd hi => State.runTile_word hm hd hi
  · exact State.runJobTimed_idle
  · exact fun p x hx hr hn => State.tickTile_write hx hr hn
  · intro p r v
    refine ⟨State.setTile_tile_same _ _ _, fun o ho => ?_⟩
    exact (State.setTile_tile _ _ _ _).trans (if_neg ho)
  · exact fun p a bs hb => s.readByte_applyAct_sram p a bs hb
  · intro late m hm
    unfold State.markSlips
    rw [hm]
    rfl
  · exact State.runPin_none
  · exact fun r hl hp hr => State.runPin_one hl hp hr

end
section
/-! SUPPORT. The words of the tile's instructions, read both ways. From an instruction to its word: a word is a sum of fields,
each read back where it was put. From a word that a load takes to its instruction: the fields it is read by, put together
again, leave no bit out. -/

namespace Sys2Proof.Machine

section Words

@[simp] theorem bits_fieldAt_add {k v y n : Nat} (hv : v < 2 ^ n) (hy : y < 2 ^ k) : bits (fieldAt k v + y) k n = v := by
  unfold bits fieldAt
  rw [Nat.mul_add_div (Nat.two_pow_pos k), Nat.div_eq_of_lt hy, Nat.add_zero, Nat.mod_eq_of_lt hv]

@[simp] theorem bits_fieldAt_add_low {k v y lo n : Nat} (h : lo + n ≤ k) : bits (fieldAt k v + y) lo n = bits y lo n := by
  obtain ⟨d, rfl⟩ := Nat.exists_eq_add_of_le h
  unfold bits fieldAt
  rw [show 2 ^ (lo + n + d) * v = 2 ^ lo * (2 ^ n * (2 ^ d * v)) by rw [Nat.pow_add, Nat.pow_add]; ring,
    Nat.mul_add_div (Nat.two_pow_pos lo), Nat.mul_add_mod]

@[simp] theorem bits_fieldAt_same {k v n : Nat} (hv : v < 2 ^ n) : bits (fieldAt k v) k n = v :=
  bits_fieldAt_add (y := 0) hv (Nat.two_pow_pos k)

@[simp] theorem bits_fieldAt_low {k v lo n : Nat} (h : lo + n ≤ k) : bits (fieldAt k v) lo n = 0 :=
  (bits_fieldAt_add_low (y := 0) h).trans (by simp [bits])

theorem bits_of_lt {y lo n : Nat} (h : y < 2 ^ lo) : bits y lo n = 0 := by
  unfold bits
  rw [Nat.div_eq_of_lt h, Nat.zero_mod]

theorem bits_zero_of_lt {y n : Nat} (h : y < 2 ^ n) : bits y 0 n = y := by
  unfold bits
  rw [Nat.pow_zero, Nat.div_one, Nat.mod_eq_of_lt h]

theorem flagAt_eq_fieldAt (k : Nat) (b : Bool) : flagAt k b = fieldAt k (b.toNat % 2) := by
  cases b <;> simp [flagAt, fieldAt]

@[simp] theorem fieldAt_zero (k : Nat) : fieldAt k 0 = 0 := by simp [fieldAt]

theorem bit_eq_bits (w i : Nat) : bit w i = (bits w i 1 == 1) := rfl

@[simp] theorem toNat_beq_one (b : Bool) : (b.toNat % 2 == 1) = b := by cases b <;> rfl

theorem headOf_eq (op : Nat) (t : Iss) : headOf op t = fieldAt 52 (16 * op + 8 * t.neg.toNat + t.pred) := by
  cases h : t.neg <;> simp [headOf, flagAt, fieldAt, h] <;> omega

/-- A load takes the word `w` of a program of `f` frames: every field passes (R204), and a control word is not predicated
    (R229). -/
def Accepted (w f : Nat) : Prop := wordErr w f = some {} ∧ (1 ≤ opcodeOf w → opcodeOf w ≤ 4 → bits w 52 4 = 0)

/-- `w` is a word of the instruction `i` that issues as `t`: it decodes to `i` and every load takes it. -/
def Spells (i : Instr) (t : Iss) (w : Nat) : Prop :=
  w < 2 ^ 64 ∧ decodeWord t.tile w = some i ∧ ∀ f, 2048 ≤ f → Accepted w f

variable {op y : Nat} {t : Iss} {i : Instr}

theorem opcodeOf_headOf_add (hp : t.wf = true) (hy : y < 2 ^ 52) (hop : op < 256) : opcodeOf (headOf op t + y) = op := by
  have hb := t.neg.toNat_le
  simp only [Iss.wf, Bool.and_eq_true, decide_eq_true_eq] at hp
  simp only [opcodeOf, bits, headOf_eq, fieldAt]
  omega

theorem iss_headOf_add (hp : t.wf = true) (hy : y < 2 ^ 52)  :
    ({ tile := t.tile, pred := bits (headOf op t + y) 52 3, neg := bits (headOf op t + y) 55 1 == 1 } : Iss) = t := by
  have hb := t.neg.toNat_le
  simp only [Iss.wf, Bool.and_eq_true, decide_eq_true_eq] at hp
  have h1 : bits (headOf op t + y) 52 3 = t.pred := by
    simp only [bits, headOf_eq, fieldAt]
    omega
  have h2 : bits (headOf op t + y) 55 1 = t.neg.toNat := by
    simp only [bits, headOf_eq, fieldAt]
    omega
  rw [h1, h2]; cases t; cases ‹Bool› <;> rfl

theorem bits_headOf_add {lo n : Nat} (h : lo + n ≤ 52) : bits (headOf op t + y) lo n = bits y lo n := by
  rw [headOf_eq, bits_fieldAt_add_low h]

/-- What a word with the opcode `op`, the issue fields `t` and the operand fields `y` spells is read off its operand fields. -/
theorem spells_headOf_add (hp : t.wf = true) (hop : op < 256) (hy : y < 2 ^ 52) (hb : 1 ≤ op → op ≤ 4 → t.bare = true)
    (h : ∀ w, opcodeOf w = op → ({ tile := t.tile, pred := bits w 52 3, neg := bits w 55 1 == 1 } : Iss) = t →
      (∀ {lo n}, lo + n ≤ 52 → bits w lo n = bits y lo n) →
      decodeWord t.tile w = some i ∧ ∀ f, 2048 ≤ f → wordErr w f = some {}) :
    Spells i t (headOf op t + y) := by
  have hopc := opcodeOf_headOf_add hp hy hop
  have hiss := iss_headOf_add (op := op) hp hy
  obtain ⟨hd, he⟩ := h _ hopc hiss bits_headOf_add
  refine ⟨?_, hd, fun f hf => ⟨he f hf, fun h1 h4 => ?_⟩⟩
  · have hb := t.neg.toNat_le
    simp only [Iss.wf, Bool.and_eq_true, decide_eq_true_eq] at hp
    simp only [headOf_eq, fieldAt]
    omega
  · rw [hopc] at h1 h4
    have := hb h1 h4
    simp only [Iss.bare, Bool.and_eq_true, beq_iff_eq, Bool.not_eq_true'] at this
    obtain ⟨⟨-, hz⟩, hn⟩ := this
    simp only [headOf_eq, hz, hn, bits, fieldAt, Bool.toNat_false]
    omega

theorem Instr.wf_iss (hi : issueOf i = some t) (h : i.wf = true) : t.wf = true := by
  cases i <;> cases hi <;> simp_all [Instr.wf, threeS, Iss.bare]

/-- R245 to R254: the words of the control and scalar instructions. -/
theorem encodeControl_spells (hi : issueOf i = some t) (h : i.wf = true) {w : Nat}
    (he : encodeControl i = some w) : Spells i t w := by
  have ht := Instr.wf_iss hi h
  cases i <;> simp only [encodeControl, Nat.add_assoc, flagAt_eq_fieldAt, threeBits, reduceCtorEq, Option.some.injEq] at he
  all_goals
    cases hi
    subst he
    simp only [Instr.wf, threeS, Bool.and_eq_true, Bool.or_eq_true, decide_eq_true_eq, beq_iff_eq] at h
  case halt =>
    refine spells_headOf_add (y := 0) ht (by decide) (by decide) (fun _ _ => h) fun w hop hiss hbits => ⟨?_, fun f hf => ?_⟩
    · simp [decodeWord, controlWord, hiss, hop, bit_eq_bits]
    · simp only [wordErr, controlErr, low, hop, hbits (lo := 0) (n := 52) (by decide)]
      rfl
  case' fsel lag wr sd pd => cases wr <;> simp at h
  case' padd d a u b imm => cases u <;> simp at h
  case' mark o =>
    obtain ⟨src, ptr, off, sreg, fmt, score, zp⟩ := o
    obtain rfl | rfl : src = 0 ∨ src = 1 := by simp only at h; omega
    all_goals simp at h
  all_goals
    refine spells_headOf_add ht (by decide) (by simp only [fieldAt]; omega) (by simp_all)
      fun w hop hiss hbits => ⟨?_, fun f hf => ?_⟩
    · simp (disch := (try simp only [fieldAt]); omega) [decodeWord, controlWord, hiss, hop, hbits, bit_eq_bits, bits_of_lt]
          <;> omega
    · simp (disch := (try simp only [fieldAt]); omega) [wordErr, controlErr, low, hop, hbits, bits_of_lt] <;> omega

theorem alnBits_lt {o : AlnOp} (h : o.wf = true) : alnBits o < 2 ^ 21 := by
  unfold alnBits
  unfold AlnOp.wf at h
  split at h <;> simp_all [fieldAt] <;> omega

theorem alnBits_row {o : AlnOp} (h : o.row = true) :
    alnBits o = fieldAt 20 1 + (fieldAt 16 o.ptr + (fieldAt 15 o.buf + (fieldAt 10 o.slot + (fieldAt 8 o.fmt + o.zp)))) := by
  simp only [alnBits, h, if_true, fieldAt]
  omega

theorem alnOp_alnBits {o : AlnOp} (h : o.wf = true) : alnOp (alnBits o) = o ∧ alnErr (alnBits o) = {} := by
  obtain ⟨row, file, ptr, buf, slot, fmt, zp⟩ := o
  cases row <;> simp [AlnOp.wf] at h
  · simp (disch := (try simp only [fieldAt]); omega) [alnBits, alnOp, alnErr, bit_eq_bits, bits_of_lt]
    omega
  · rw [alnBits_row rfl]
    simp (disch := (try simp only [fieldAt]); omega) [alnOp, alnErr, bit_eq_bits, bits_zero_of_lt]
    omega

theorem unsignedOf_lt (n : Nat) (x : Int) : unsignedOf n x < 2 ^ n := by
  unfold unsignedOf
  have := Int.emod_lt_of_pos x (show (0 : Int) < 2 ^ n by positivity)
  have := Int.emod_nonneg x (show (2 : Int) ^ n ≠ 0 by positivity)
  zify
  omega

theorem signed_unsignedOf {x : Int} (h1 : -64 ≤ x) (h2 : x < 64) : signed 7 (unsignedOf 7 x) = x := by
  unfold signed unsignedOf
  split <;> simp <;> omega

/-- R213, R238 to R243: the words of the mover's instructions. -/
theorem encodeMover_spells (hi : issueOf i = some t) (h : i.wf = true) {w : Nat}
    (he : encodeMover i = some w) : Spells i t w := by
  have ht := Instr.wf_iss hi h
  cases i <;> simp only [encodeMover, Nat.add_assoc, flagAt_eq_fieldAt, reduceCtorEq, Option.some.injEq] at he
  all_goals
    cases hi
    subst he
    simp only [Instr.wf, Bool.and_eq_true, Bool.or_eq_true, decide_eq_true_eq, beq_iff_eq] at h
  case' xld src ptr inc sl off =>
    obtain rfl | rfl | rfl | rfl : src = 1 ∨ src = 2 ∨ src = 3 ∨ src = 4 := by omega
    all_goals cases inc <;> simp [sliceWf] at h
  case' srcv d ptr l inc te sd pd => cases te <;> simp at h
  all_goals
    refine spells_headOf_add ht (by decide) (by simp only [fieldAt]; omega) (by simp_all)
      fun w hop hiss hbits => ⟨?_, fun f hf => ?_⟩
    · simp (disch := (try simp only [fieldAt]); omega) [decodeWord, controlWord, moverWord, hiss, hop, hbits, bit_eq_bits,
          bits_of_lt] <;> omega
    · simp (disch := (try simp only [fieldAt]); omega) [wordErr, controlErr, moverErr, low, hop, hbits, bits_of_lt] <;> omega

theorem macBits_add_lt {o : MacOps} (h : o.wf = true) {r : Nat} (hr : r < 2 ^ 27) : macBits o + r < 2 ^ 52 := by
  simp only [MacOps.wf, sliceWf, Bool.and_eq_true, decide_eq_true_eq] at h
  obtain ⟨⟨⟨⟨hd, hz⟩, hs⟩, hsl⟩, hp⟩ := h
  have hp : o.ptr < 16 := by
    split at hp <;> simp at hp <;> omega
  have hsl : o.slice < 16 := by
    refine Nat.lt_of_lt_of_le hsl ?_
    split <;> [skip; split] <;> decide
  simp only [macBits, flagAt_eq_fieldAt, fieldAt]
  omega

/-- The operand fields of MAC and CMAC, above 27 bits `r` of the instruction's own, are read back as they were written. -/
theorem bits_macBits {o : MacOps} (h : o.wf = true) {w r : Nat} (hr : r < 2 ^ 27)
    (hbits : ∀ {lo n}, lo + n ≤ 52 → bits w lo n = bits (macBits o + r) lo n) :
    macOps w = o ∧ (∀ {n}, n ≤ 27 → bits r 0 n = 0 → macErr w n = {}) ∧ ∀ {lo n}, lo + n ≤ 27 → bits w lo n = bits r lo n := by
  obtain ⟨dest, k4, xs, ws, zx, src, ptr, inc, slice⟩ := o
  have hsrc : src = 0 ∨ src = 1 ∨ src = 2 ∨ src = 3 ∨ src = 4 := by simp [MacOps.wf] at h; omega
  simp only [macBits, Nat.add_assoc, flagAt_eq_fieldAt] at hbits
  have hlow : ∀ {lo n}, lo + n ≤ 27 → bits w lo n = bits r lo n := fun h => by
    rw [hbits (by omega)]
    simp (disch := (try simp only [fieldAt]); omega)
  obtain rfl | rfl | rfl | rfl | rfl := hsrc
  all_goals cases inc <;> simp [MacOps.wf, sliceWf] at h
  all_goals
    refine ⟨?_, fun hn h0 => ?_, hlow⟩
    · simp (disch := (try simp only [fieldAt]); omega) [macOps, bit_eq_bits, hbits, bits_of_lt]
      omega
    · simp (disch := (try simp only [fieldAt]); omega) [macErr, hbits, bits_of_lt, h0] <;> omega

/-- R212 to R227: the words of the array's and the lanes' instructions. -/
theorem encodeCompute_spells (hi : issueOf i = some t) (h : i.wf = true) {w : Nat}
    (he : encodeCompute i = some w) : Spells i t w := by
  have ht := Instr.wf_iss hi h
  cases i <;> simp only [encodeCompute, Nat.add_assoc, flagAt_eq_fieldAt, reduceCtorEq, Option.some.injEq] at he
  all_goals
    cases hi
    subst he
    simp only [Instr.wf, sameWidth, Bool.and_eq_true, Bool.or_eq_true, decide_eq_true_eq, beq_iff_eq, decide_eq_decide] at h
  case wswp =>
    refine spells_headOf_add (y := 0) ht (by decide) (by decide) (by simp_all) fun w hop hiss hbits => ⟨?_, fun f hf => ?_⟩
    · simp [decodeWord, controlWord, moverWord, computeWord, hiss, hop, bit_eq_bits]
    · simp only [wordErr, controlErr, moverErr, computeErr, low, hop, hbits (lo := 0) (n := 52) (by decide)]
      rfl
  case mac o =>
    obtain ⟨-, ho⟩ := h
    refine spells_headOf_add ht (by decide) (macBits_add_lt (r := 0) ho (by decide)) (by simp_all) fun w hop hiss hbits => ?_
    obtain ⟨hops, herr, -⟩ := bits_macBits (r := 0) ho (by decide) hbits
    refine ⟨?_, fun f hf => ?_⟩
    · simp [decodeWord, controlWord, moverWord, computeWord, bit_eq_bits, hiss, hop, hops]
    · simp [wordErr, controlErr, moverErr, computeErr, hop, herr, bits]
  case cmac o ph pos =>
    obtain ⟨⟨⟨-, ho⟩, hph⟩, hpos⟩ := h
    have hr : fieldAt 22 ph + fieldAt 10 pos < 2 ^ 27 := by simp only [fieldAt]; omega
    refine spells_headOf_add ht (by decide) (macBits_add_lt ho hr) (by simp_all) fun w hop hiss hbits => ?_
    obtain ⟨hops, herr, hlow⟩ := bits_macBits ho hr hbits
    refine ⟨?_, fun f hf => ?_⟩
    · simp (disch := (try simp only [fieldAt]); omega) [decodeWord, controlWord, moverWord, computeWord, bit_eq_bits, hiss, hop,
          hops, hlow]
    · simp [wordErr, controlErr, moverErr, computeErr, hop, herr]
  case rq o =>
    obtain ⟨file, nM, ptr, dbuf, dslot, unit, slot, mK, eK, fmt, zp, en, lut⟩ := o
    simp at h
    have hlt := unsignedOf_lt 7 eK
    have hsg := signed_unsignedOf h.1.1.1.1.1.1.1.2 h.1.1.1.1.1.1.2
    refine spells_headOf_add ht (by decide) (by simp only [fieldAt]; omega) (by simp_all)
      fun w hop hiss hbits => ⟨?_, fun f hf => ?_⟩
    · simp (disch := (try simp only [fieldAt]); omega) [decodeWord, controlWord, moverWord, computeWord, hiss, hop, hbits,
          bit_eq_bits, bits_zero_of_lt, hsg]
    · simp (disch := (try simp only [fieldAt]); omega) [wordErr, controlErr, moverErr, computeErr, hop, hbits, bits_zero_of_lt]
      cases unit <;> cases en <;> simp at h ⊢ <;> omega
  case sbtrk b p e k f =>
    obtain ⟨⟨⟨⟨h, he⟩, he'⟩, hk⟩, hf⟩ := h
    have hlt := unsignedOf_lt 7 e
    refine spells_headOf_add ht (by decide) (by simp only [fieldAt]; omega) (by simp_all)
      fun w hop hiss hbits => ⟨?_, fun f hf => ?_⟩
    · simp (disch := (try simp only [fieldAt]); omega) [decodeWord, controlWord, moverWord, computeWord, hiss, hop, hbits,
          bit_eq_bits, signed_unsignedOf he he']
    · simp (disch := (try simp only [fieldAt]); omega) [wordErr, controlErr, moverErr, computeErr, low, hop, hbits]
  case' aadd d n x y =>
    have hop : (0x67 : Nat) < 256 := by decide
  case' amax d n x y =>
    have hop : (0x68 : Nat) < 256 := by decide
  case aadd | amax =>
    obtain ⟨⟨⟨⟨-, hd⟩, hn⟩, hx⟩, hy⟩ := h
    have hxl := alnBits_lt hx
    have hyl := alnBits_lt hy
    obtain ⟨hxo, hxe⟩ := alnOp_alnBits hx
    obtain ⟨hyo, hye⟩ := alnOp_alnBits hy
    refine spells_headOf_add ht hop (by simp only [fieldAt]; omega) (by simp_all) fun w hop hiss hbits => ⟨?_, fun f hf => ?_⟩
    · simp (disch := (try simp only [fieldAt]); omega) [decodeWord, controlWord, moverWord, computeWord, hiss, hop, hbits,
          bit_eq_bits, hxo, hyo]
    · simp (disch := (try simp only [fieldAt]); omega) [wordErr, controlErr, moverErr, computeErr, aluErr, hop, hbits, hxe, hye]
  case' wld ptr lb cm z zw => cases z <;> simp at h
  all_goals
    refine spells_headOf_add ht (by decide) (by simp only [fieldAt]; omega) (by simp_all)
      fun w hop hiss hbits => ⟨?_, fun f hf => ?_⟩
    · simp (disch := (try simp only [fieldAt]); omega) [decodeWord, controlWord, moverWord, computeWord, hiss, hop, hbits,
          bit_eq_bits, bits_of_lt] <;> omega
    · simp (disch := (try simp only [fieldAt]); omega) [wordErr, controlErr, moverErr, computeErr, low, hop, hbits, bits_of_lt]
          <;> omega

theorem flagAt_bit (w k : Nat) : flagAt k (bit w k) = fieldAt k (bits w k 1) := by
  rw [flagAt_eq_fieldAt, bit_eq_bits]
  congr 1
  unfold bits
  rcases Nat.mod_two_eq_zero_or_one (w / 2 ^ k) with h | h <;> simp [h]

theorem bits_lt (w lo n : Nat) : bits w lo n < 2 ^ n := Nat.mod_lt _ (Nat.two_pow_pos n)

/-- The lowest bits of a word are put together again from its fields. -/
theorem fieldAt_bits_add {w lo n y : Nat} (h : y = w % 2 ^ lo) : fieldAt lo (bits w lo n) + y = w % 2 ^ (lo + n) := by
  rw [h, fieldAt, bits, Nat.pow_add, Nat.mod_mul]
  omega

theorem fieldAt_bits {w lo n : Nat} (h : bits w 0 lo = 0) : fieldAt lo (bits w lo n) = w % 2 ^ (lo + n) :=
  fieldAt_bits_add (y := 0) (by simpa [bits] using h.symm)

theorem headOf_bits_add {w p : Nat} (hw : w < 2 ^ 64) (hop : opcodeOf w = op) (h : y = w % 2 ^ 52) :
    headOf op ⟨p, bits w 52 3, bit w 55⟩ + y = w := by
  subst hop
  simp only [headOf, opcodeOf, flagAt_bit, Nat.add_assoc]
  exact (fieldAt_bits_add (n := 8) (fieldAt_bits_add (n := 1) (fieldAt_bits_add (n := 3) h))).trans (Nat.mod_eq_of_lt hw)

/-- Bits of a range that is 0. -/
theorem bits_zero_of_sub {w lo n lo' n' : Nat} (h : bits w lo n = 0) (h1 : lo ≤ lo') (h2 : lo' + n' ≤ lo + n) :
    bits w lo' n' = 0 := by
  obtain ⟨d, rfl⟩ := Nat.exists_eq_add_of_le h1
  obtain ⟨e, he⟩ := Nat.exists_eq_add_of_le (show d + n' ≤ n by omega)
  unfold bits at *
  have h3 : w / 2 ^ lo % 2 ^ (d + n') = 0 := by
    rw [he, Nat.pow_add _ (d + n')] at h
    rw [← Nat.mod_mul_right_mod, h, Nat.zero_mod]
  rw [Nat.pow_add, ← Nat.div_div_eq_div_mul, ← Nat.mod_mul_right_div_self, ← Nat.pow_add, h3, Nat.zero_div]

theorem bits_lt_of_le {w lo n m : Nat} (h : 2 ^ n ≤ m) : bits w lo n < m := Nat.lt_of_lt_of_le (bits_lt w lo n) h

/-- `w` is, at the tile `p`, the word of one well-formed instruction. -/
def Spelled (p w : Nat) : Prop :=
  ∃ i, decodeWord p w = some i ∧ issueOf i = some ⟨p, bits w 52 3, bit w 55⟩ ∧ i.wf = true ∧ encodeWord i = some w

theorem issue_wf {p : Nat} (hp : p < 104) (w : Nat) : (Iss.wf ⟨p, bits w 52 3, bit w 55⟩) = true := by
  simpa [Iss.wf, hp] using bits_lt w 52 3

/-- R229: a control word that is taken issues on the tile without a predicate. -/
theorem issue_bare {p w : Nat} (hp : p < 104) (h : bits w 52 4 = 0) : (Iss.bare ⟨p, bits w 52 3, bit w 55⟩) = true := by
  have h1 : bits w 52 3 = 0 := bits_zero_of_sub h (by omega) (by omega)
  have h2 : bits w 55 1 = 0 := bits_zero_of_sub h (by omega) (by omega)
  simp [Iss.bare, Iss.wf, hp, h1, bit_eq_bits, h2]

theorem ite_eq_of_or {c : Prop} [Decidable c] {x : Nat} (h : c ∨ x = 0) : (if c then x else 0) = x := by
  split
  · rfl
  · next hc => exact (h.resolve_left hc).symm

theorem bit_or {w k : Nat} {q : Prop} (h : bits w k 1 = 0 → q) : bit w k = true ∨ q := by
  have := bits_lt w k 1
  simp only [bit_eq_bits, beq_iff_eq]
  by_cases hz : bits w k 1 = 0
  · exact .inr (h hz)
  · exact .inl (by omega)

/-- A word is the word of `i` where its opcode is `i`'s and its operand fields are those of `i`. -/
theorem Spelled.intro {p w op y : Nat} {i : Instr} (hw : w < 2 ^ 64) (hop : opcodeOf w = op) (hd : decodeWord p w = some i)
    (hi : issueOf i = some ⟨p, bits w 52 3, bit w 55⟩) (hwf : i.wf = true)
    (he : encodeWord i = some (headOf op ⟨p, bits w 52 3, bit w 55⟩ + y)) (hy : y = w % 2 ^ 52) : Spelled p w :=
  ⟨i, hd, hi, hwf, he.trans (congrArg some (headOf_bits_add hw hop hy))⟩

theorem bit_imp {w k : Nat} {q : Prop} (h : bits w k 1 = 1 → q) : bit w k = false ∨ q := by
  by_cases e : bits w k 1 = 1
  · exact .inr (h e)
  · exact .inl (by simp [bit_eq_bits, e])

/-- R204, R229, R245 to R254: a control or scalar word that is taken drops no bit. -/
theorem Spelled.of_control {p w op f : Nat} (hp : p < 104) (hw : w < 2 ^ 64) (hop : opcodeOf w = op)
    (h : controlErr op w f = some {})
    (hb : 1 ≤ op → op ≤ 4 → bits w 52 4 = 0) : Spelled p w := by
  have ht := issue_wf hp w
  unfold controlErr at h
  split at h
  case' h_18 =>
    split at h <;> [rename_i hrange; simp at h]
    obtain ⟨h1, h2⟩ := hrange
    interval_cases op
  all_goals simp [low] at h
  case' h_1 | h_2 | h_3 | h_4 => replace hb := issue_bare hp (hb (by decide) (by decide))
  case h_4 =>
    exact .intro (y := 0) (i := .halt _) hw hop (by simp only [decodeWord, controlWord, hop]) rfl hb rfl
        (by simpa [bits] using h.symm)
  case h_5 =>
    obtain ⟨h, hi⟩ := h
    have hor := bit_or hi
    have hif := ite_eq_of_or hor
    refine .intro hw hop (i := .fsel _ (bits w 44 8) (bit w 43) (bits w 38 5) (bits w 35 3))
        (by simp only [decodeWord, controlWord, hop, hif]) rfl ?_
      (by simp only [encodeWord, encodeControl, Nat.add_assoc, flagAt_bit]; rfl) ?_
    · simp (disch := decide) [Instr.wf, ht, bits_lt_of_le, hor]
    · repeat' refine fieldAt_bits_add ?_
      exact fieldAt_bits h
  case h_6 =>
    obtain ⟨⟨⟨h, h1⟩, h0⟩, ⟨hs, hf⟩, h2⟩ := h
    have hs : bits w 50 2 = 0 ∨ bits w 50 2 = 1 := by omega
    have hptr : (if bits w 50 2 = 0 then bits w 46 4 else 0) = bits w 46 4 :=
      ite_eq_of_or (hs.imp_right fun e => bits_zero_of_sub (h1 e) (by omega) (by omega))
    have hoff : (if bits w 50 2 = 0 then bits w 30 16 else 0) = bits w 30 16 :=
      ite_eq_of_or (hs.imp_right fun e => bits_zero_of_sub (h1 e) (by omega) (by omega))
    have hreg : (if bits w 50 2 = 0 then 0 else bits w 25 5) = bits w 25 5 := by
      split
      · next e => exact (h0 e).symm
      · rfl
    refine .intro hw hop (i := .mark _ ⟨bits w 50 2, bits w 46 4, bits w 30 16, bits w 25 5, bits w 23 2, bits w 13 10,
        bits w 5 8⟩) (by simp only [decodeWord, controlWord, hop, hptr, hoff, hreg]) rfl ?_
            (by simp only [encodeWord, encodeControl, Nat.add_assoc]; rfl) ?_
    · have := bits_lt w 23 2
      simp (disch := decide) [Instr.wf, ht, bits_lt_of_le]
      refine ⟨by omega, ?_⟩
      rcases hs with e | e
      · simp [e, h0 e]
      · simp [e, h2 e, ← hptr, ← hoff]
    · repeat' refine fieldAt_bits_add ?_
      exact fieldAt_bits h
  case h_14 =>
    obtain ⟨h, hi⟩ := h
    have hreg : bit w 43 = true ∨ bits w 38 5 = 0 := bit_or fun e => by simpa [e] using hi
    have himm : ¬ bit w 43 = true ∨ bits w 13 25 = 0 := by
      by_cases e : bits w 43 1 = 0
      · simp [bit_eq_bits, e]
      · exact .inr (by simpa [e] using hi)
    have hif : (if bit w 43 = true then 0 else bits w 13 25) = bits w 13 25 := by
      rw [← ite_not]; exact ite_eq_of_or himm
    refine .intro hw hop (i := .padd _ (bits w 48 4) (bits w 44 4) (bit w 43) (bits w 38 5) (bits w 13 25))
      (by simp only [decodeWord, controlWord, hop, ite_eq_of_or hreg, hif]) rfl ?_
          (by simp only [encodeWord, encodeControl, Nat.add_assoc, flagAt_bit]; rfl) ?_
    · simp (disch := decide) [Instr.wf, ht, bits_lt_of_le]
      split
      · next e => exact himm.resolve_left (not_not.mpr e)
      · next e => exact hreg.resolve_left e
    · repeat' refine fieldAt_bits_add ?_
      exact fieldAt_bits h
  case' h_2 | h_10 | h_11 => obtain ⟨h, hc⟩ := h
  all_goals
    refine .intro hw hop (by simp only [decodeWord, controlWord, hop]; rfl) rfl ?_
        (by simp only [encodeWord, encodeControl, Nat.add_assoc, flagAt_bit, threeBits]; rfl) ?_
    · simp (disch := decide) [Instr.wf, threeS, *, bits_lt_of_le] <;> omega
    · repeat' refine fieldAt_bits_add ?_
      exact fieldAt_bits h

theorem bit_zero_of {w k : Nat} (h : bits w k 1 = 0) : bit w k = false := by rw [bit_eq_bits, h]; rfl

@[simp] theorem bits_one_le (w k : Nat) : bits w k 1 ≤ 1 := Nat.le_of_lt_succ (bits_lt w k 1)

/-- R204, R213, R238 to R243: a mover's word that is taken drops no bit. -/
theorem Spelled.of_mover {p w op : Nat} (hp : p < 104) (hw : w < 2 ^ 64) (hop : opcodeOf w = op) (h : moverErr op w = some {}) :
    Spelled p w := by
  have ht := issue_wf hp w
  unfold moverErr at h
  split at h
  all_goals simp [low] at h
  case h_1 =>
    obtain ⟨⟨h, hr⟩, ⟨h0, h4⟩, h2⟩ := h
    have hptr : bits w 49 3 = 1 ∨ bits w 45 4 = 0 ∧ bits w 44 1 = 0 ∧ bits w 24 16 = 0 := by
      by_cases e : bits w 49 3 = 1
      · exact .inl e
      · simp only [e, if_false] at hr; exact .inr ⟨hr.1.1, hr.1.2, hr.2⟩
    have hsl : 2 ≤ bits w 49 3 ∨ bits w 40 4 = 0 := by
      by_cases e : bits w 49 3 = 1
      · simp only [e, if_true] at hr; exact .inr hr
      · exact .inl (by omega)
    have hinc : (bits w 49 3 == 1 && bit w 44) = bit w 44 := by
      rcases hptr with e | e
      · simp [e]
      · simp [bit_zero_of e.2.1]
    refine .intro hw hop (i := .xld _ (bits w 49 3) (bits w 45 4) (bit w 44) (bits w 40 4) (bits w 24 16))
      (by simp only [decodeWord, controlWord, moverWord, hop, hinc, ite_eq_of_or (hptr.imp_right And.left), ite_eq_of_or hsl,
          ite_eq_of_or (hptr.imp_right fun e => e.2.2)]) rfl ?_
      (by simp only [encodeWord, encodeControl, encodeMover, Nat.add_assoc, flagAt_bit]; rfl) ?_
    · have : bits w 49 3 = 1 ∨ bits w 49 3 = 2 ∨ bits w 49 3 = 3 ∨ bits w 49 3 = 4 := by omega
      simp only [Instr.wf, ht, sliceWf, Bool.true_and, Bool.and_eq_true, decide_eq_true_eq]
      refine ⟨⟨⟨by omega, by omega⟩, ?_⟩, ?_⟩
      · split
        · next e => exact Nat.lt_succ_of_le (h2 e)
        · split
          · exact bits_lt_of_le (by decide)
          · next e => rw [hsl.resolve_left (by omega)]; decide
      · split
        · simp (disch := decide) [bits_lt_of_le]
        · next e =>
          obtain ⟨e1, e2, e3⟩ := hptr.resolve_left e
          simp [e1, bit_zero_of e2, e3]
    · repeat' refine fieldAt_bits_add ?_
      exact fieldAt_bits h
  case h_6 =>
    obtain ⟨h, hi⟩ := h
    have hsd := bit_or (q := bits w 37 5 = 0) fun e => bits_zero_of_sub (hi e) (by omega) (by omega)
    have hpd := bit_or (q := bits w 34 3 = 0) fun e => bits_zero_of_sub (hi e) (by omega) (by omega)
    refine .intro hw hop (i := .srcv _ (bits w 51 1) (bits w 47 4) (bits w 44 3) (bit w 43) (bit w 42) (bits w 37 5)
        (bits w 34 3))
      (by simp only [decodeWord, controlWord, moverWord, hop, ite_eq_of_or hsd, ite_eq_of_or hpd]) rfl ?_
      (by simp only [encodeWord, encodeControl, encodeMover, Nat.add_assoc, flagAt_bit]; rfl) ?_
    · simp (disch := decide) [Instr.wf, ht, bits_lt_of_le]
      exact or_and_left.mpr ⟨hsd, hpd⟩
    · repeat' refine fieldAt_bits_add ?_
      exact fieldAt_bits h
  case' h_9 | h_10 =>
    obtain ⟨h, hc⟩ := h
    replace hc : bits w 49 2 < 3 := by have := bits_lt w 49 2; omega
  all_goals
    refine .intro hw hop (by simp only [decodeWord, controlWord, moverWord, hop]; rfl) rfl ?_
      (by simp only [encodeWord, encodeControl, encodeMover, Nat.add_assoc, flagAt_bit]; rfl) ?_
    · simp (disch := decide) [Instr.wf, *, bits_lt_of_le]
    · repeat' refine fieldAt_bits_add ?_
      exact fieldAt_bits h

/-- The word `w`'s fields of MAC and CMAC where `macErr` finds none wrong: they are those of well-formed operands. -/
theorem macOps_accepted {w n : Nat} (h : macErr w n = {}) :
    macOps w = ⟨bits w 50 2, bit w 49, bit w 48, bit w 47, bits w 39 8, bits w 36 3, bits w 32 4, bit w 31, bits w 27 4⟩ ∧
      (macOps w).wf = true ∧ bits w 0 n = 0 := by
  simp [macErr] at h
  obtain ⟨⟨h, hr⟩, h4, h2⟩ := h
  have hptr : bits w 36 3 = 1 ∨ bits w 32 4 = 0 ∧ bits w 31 1 = 0 := by
    by_cases e : bits w 36 3 = 1
    · exact .inl e
    · have h5 : bits w 31 5 = 0 := by
        split at hr
        · exact bits_zero_of_sub hr (by omega) (by omega)
        · exact hr
      exact .inr ⟨bits_zero_of_sub h5 (by omega) (by omega), bits_zero_of_sub h5 (by omega) (by omega)⟩
  have hsl : 2 ≤ bits w 36 3 ∨ bits w 27 4 = 0 := by
    split at hr
    · exact .inr (bits_zero_of_sub hr (by omega) (by omega))
    · split at hr
      · exact .inr hr
      · exact .inl (by omega)
  have hinc : (bits w 36 3 == 1 && bit w 31) = bit w 31 := by
    rcases hptr with e | e
    · simp [e]
    · simp [bit_zero_of e.2]
  have hops : macOps w = ⟨bits w 50 2, bit w 49, bit w 48, bit w 47, bits w 39 8, bits w 36 3, bits w 32 4, bit w 31,
      bits w 27 4⟩ := by
    simp only [macOps, hinc, ite_eq_of_or (hptr.imp_right And.left), ite_eq_of_or hsl]
  refine ⟨hops, ?_, h⟩
  rw [hops]
  simp (disch := decide) only [MacOps.wf, sliceWf, bits_lt_of_le, Bool.and_eq_true, decide_eq_true_eq, decide_true,
      Bool.true_and]
  refine ⟨⟨by omega, ?_⟩, ?_⟩
  · split
    · next e => exact Nat.lt_succ_of_le (h2 e)
    · split
      · exact bits_lt_of_le (by decide)
      · next e => rw [hsl.resolve_left (by omega)]; decide
  · split
    · simp
    · next e =>
      obtain ⟨e1, e2⟩ := hptr.resolve_left e
      simp [e1, bit_zero_of e2]

theorem alnErr_eq {v : Nat} (hr : (alnErr v).rsvd = false) (ho : (alnErr v).ops = false) : alnErr v = {} := by
  unfold alnErr at *
  split at hr <;> simp_all

theorem alnOp_accepted {v : Nat} (hv : v < 2 ^ 21) (h : alnErr v = {}) : (alnOp v).wf = true ∧ alnBits (alnOp v) = v := by
  have hb := bits_lt v 20 1
  have hvm : v % 2 ^ 21 = v := Nat.mod_eq_of_lt hv
  by_cases e : bits v 20 1 = 0
  · simp [alnErr, e] at h
    have hop : alnOp v = ⟨false, bits v 18 2, 0, 0, 0, 0, 0⟩ := by simp [alnOp, bit_zero_of e]
    rw [hop]
    refine ⟨by simp (disch := decide) [AlnOp.wf, bits_lt_of_le], ?_⟩
    have hw := fieldAt_bits_add (n := 1) (fieldAt_bits (n := 2) h)
    rw [e, fieldAt_zero, Nat.zero_add] at hw
    exact hw.trans hvm
  · have e1 : bits v 20 1 = 1 := by omega
    have hop : alnOp v = ⟨true, 0, bits v 16 4, bits v 15 1, bits v 10 5, bits v 8 2, bits v 0 8⟩ := by
      simp [alnOp, bit_eq_bits, e1]
    simp [alnErr, e] at h
    rw [hop]
    refine ⟨?_, ?_⟩
    · simp (disch := decide) [AlnOp.wf, bits_lt_of_le]
      omega
    · rw [alnBits_row rfl, show fieldAt 20 1 = fieldAt 20 (bits v 20 1) by rw [e1]]
      refine Eq.trans ?_ hvm
      repeat' refine fieldAt_bits_add ?_
      simp [bits]

theorem unsignedOf_signed {x : Nat} (h : x < 2 ^ 7) : unsignedOf 7 (signed 7 x) = x ∧ -64 ≤ signed 7 x ∧ signed 7 x < 64 := by
  unfold signed unsignedOf
  split <;> simp <;> omega

/-- R204, R212 to R227: a word of the array or the lanes that is taken drops no bit. -/
theorem Spelled.of_compute {p w op : Nat} (hp : p < 104) (hw : w < 2 ^ 64) (hop : opcodeOf w = op)
    (h : computeErr op w = some {}) :
    Spelled p w := by
  have ht := issue_wf hp w
  unfold computeErr at h
  split at h
  all_goals simp [low] at h
  case h_1 =>
    obtain ⟨h, hl, hz⟩ := h
    refine .intro hw hop (i := .wld _ (bits w 48 4) (bits w 43 5) (bits w 38 5) (bit w 37) (bits w 29 8))
      (by simp only [decodeWord, controlWord, moverWord, computeWord, hop]) rfl ?_
      (by simp only [encodeWord, encodeControl, encodeMover, encodeCompute, Nat.add_assoc, flagAt_bit]; rfl) ?_
    · simp (disch := decide) [Instr.wf, ht, hl, bits_lt_of_le, bit_imp hz]
    · repeat' refine fieldAt_bits_add ?_
      exact fieldAt_bits h
  case h_2 =>
    exact .intro (y := 0) (i := .wswp _) hw hop (by simp only [decodeWord, controlWord, moverWord, computeWord, hop]) rfl ht rfl
        (by simpa [bits] using h.symm)
  case h_3 =>
    obtain ⟨hops, hwf, h⟩ := macOps_accepted h
    refine .intro hw hop (i := .mac _ (macOps w)) (by simp only [decodeWord, controlWord, moverWord, computeWord, hop]) rfl
        (by simp [Instr.wf, ht, hwf])
      (by simp only [encodeWord, encodeControl, encodeMover, encodeCompute, macBits, hops, Nat.add_assoc, flagAt_bit]; rfl) ?_
    repeat' refine fieldAt_bits_add ?_
    exact fieldAt_bits h
  case h_4 =>
    obtain ⟨hops, hwf, h⟩ := macOps_accepted h
    refine .intro hw hop (i := .cmac _ (macOps w) (bits w 22 5) (bits w 10 12))
        (by simp only [decodeWord, controlWord, moverWord, computeWord, hop]) rfl
      (by simp (disch := decide) [Instr.wf, ht, hwf, bits_lt_of_le])
      (by simp only [encodeWord, encodeControl, encodeMover, encodeCompute, macBits, hops, Nat.add_assoc, flagAt_bit]; rfl) ?_
    repeat' refine fieldAt_bits_add ?_
    exact fieldAt_bits h
  case h_7 =>
    obtain ⟨hu, h1, h2⟩ := unsignedOf_signed (bits_lt w 40 7)
    refine .intro hw hop (i := .sbtrk _ (bits w 51 1) (bits w 47 4) (signed 7 (bits w 40 7)) (bits w 37 3) (bits w 29 8))
        (by simp only [decodeWord, controlWord, moverWord, computeWord, hop]) rfl
      (by simp (disch := decide) [Instr.wf, ht, h1, h2, bits_lt_of_le])
      (by simp only [encodeWord, encodeControl, encodeMover, encodeCompute, hu, Nat.add_assoc]; rfl) ?_
    repeat' refine fieldAt_bits_add ?_
    exact fieldAt_bits h
  case h_9 =>
    obtain ⟨hu, h1, h2⟩ := unsignedOf_signed (bits_lt w 14 7)
    obtain ⟨hfmt, ⟨⟨hunit, hf4⟩, hlut⟩, hf2⟩ := h
    refine .intro hw hop (i := .rq _ ⟨bits w 50 2, bits w 45 5, bits w 41 4, bits w 40 1, bits w 35 5, bit w 34, bits w 29 5,
        bits w 21 8,
        signed 7 (bits w 14 7), bits w 11 3, bits w 3 8, bit w 2, bits w 0 2⟩)
      (by simp only [decodeWord, controlWord, moverWord, computeWord, hop]) rfl ?_
      (by simp only [encodeWord, encodeControl, encodeMover, encodeCompute, hu, Nat.add_assoc, flagAt_bit]; rfl) ?_
    · simp (disch := decide) [Instr.wf, ht, h1, h2, bits_lt_of_le, bit_imp hunit, bit_imp hf4, bit_or hlut]
      omega
    · repeat' refine fieldAt_bits_add ?_
      simp [bits]
  case h_12 | h_13 =>
    simp [aluErr] at h
    obtain ⟨⟨⟨h, hxr⟩, hyr⟩, hxo, hyo⟩ := h
    obtain ⟨hx, hxb⟩ := alnOp_accepted (bits_lt w 24 21) (alnErr_eq hxr hxo)
    obtain ⟨hy, hyb⟩ := alnOp_accepted (bits_lt w 3 21) (alnErr_eq hyr hyo)
    refine .intro hw hop (by simp only [decodeWord, controlWord, moverWord, computeWord, hop]; rfl) rfl ?_
      (by simp only [encodeWord, encodeControl, encodeMover, encodeCompute, hxb, hyb, Nat.add_assoc]; rfl) ?_
    · simp (disch := decide) [Instr.wf, ht, hx, hy, bits_lt_of_le]
    · repeat' refine fieldAt_bits_add ?_
      exact fieldAt_bits h
  case' h_8 =>
    obtain ⟨h, hs, ht0⟩ := h
    replace hs : bits w 49 2 < 3 := by have := bits_lt w 49 2; omega
  case' h_11 =>
    obtain ⟨h, hc⟩ := h
    have hsame : sameWidth (bits w 35 2) (bits w 33 2) = true := by
      have h1 := bits_lt w 35 2
      have h2 := bits_lt w 33 2
      simp [sameWidth]
      omega
  case' h_14 => obtain ⟨h, hc⟩ := h
  all_goals
    refine .intro hw hop (by simp only [decodeWord, controlWord, moverWord, computeWord, hop]; rfl) rfl ?_
      (by simp only [encodeWord, encodeControl, encodeMover, encodeCompute, Nat.add_assoc]; rfl) ?_
    · simp (disch := decide) [Instr.wf, *, bits_lt_of_le] <;> omega
    · repeat' refine fieldAt_bits_add ?_
      exact fieldAt_bits h

/-- R35: the word of a tile's instruction is found among the three groups of opcodes, and spells it. -/
theorem encodeWord_spells (hi : issueOf i = some t) (h : i.wf = true) : ∃ w, encodeWord i = some w ∧ Spells i t w := by
  unfold encodeWord
  cases hc : encodeControl i with
  | some w => exact ⟨w, rfl, encodeControl_spells hi h hc⟩
  | none =>
    cases hm : encodeMover i with
    | some w => exact ⟨w, rfl, encodeMover_spells hi h hm⟩
    | none =>
      cases hw : encodeCompute i with
      | some w => exact ⟨w, rfl, encodeCompute_spells hi h hw⟩
      | none => cases i <;> simp_all [issueOf, encodeControl, encodeMover, encodeCompute]

/-- R204: the opcode of a word that a load takes is one of the three groups. -/
theorem Spelled.of_accepted {p w f : Nat} (hp : p < 104) (hw : w < 2 ^ 64) (h : Accepted w f) : Spelled p w := by
  obtain ⟨he, hb⟩ := h
  unfold wordErr at he
  split at he
  case h_1 e hc => exact .of_control hp hw rfl (hc.trans he) hb
  split at he
  case h_1 e hm => exact .of_mover hp hw rfl (hm.trans he)
  exact .of_compute hp hw rfl he

end Words

end Sys2Proof.Machine

end
section
/-! CLAIM. The statement about the words of the tile's instructions. -/

open Sys2Proof Sys2Proof.Machine

/-- Settles O60: each instruction's word is read back field by field (`encodeWord_spells`), and the fields of a word that a load
takes are the whole word (`Spelled.of_accepted`). -/
theorem wordsSpellTheirInstructions : Obligations.WordsSpellTheirInstructions := by
  unfold Obligations.WordsSpellTheirInstructions
  refine ⟨fun i t hi hwf => encodeWord_spells hi hwf, fun p w f hp hw h => ?_⟩
  obtain ⟨i, hd, hi, hwf, he⟩ := Spelled.of_accepted hp hw h
  exact ⟨i, _, hd, hi, rfl, hwf, he⟩

end
section
/-! SUPPORT. The place of a tile in its program: what a control word leaves of it, and when the tile may issue again. -/

namespace Sys2Proof.Machine

section Place

variable {s : State} {t : Iss} {p : Nat} {x y : Tile}

theorem onlyTile_setTile (s : State) (p : Nat) (y : Tile) : onlyTile s (s.setTile p y) p :=
  ⟨rfl, fun _ hq => (State.setTile_tile _ _ _ _).trans (if_neg hq)⟩

@[simp] theorem State.begun_period : (s.begun x).period = s.periodsAt s.clk + 1 := by
  unfold State.begun
  split <;> simp_all

/-- R253: a tile that has begun its period is as it stands. -/
theorem State.begun_of_period (h : x.period = s.periodsAt s.clk + 1) : s.begun x = x := if_pos h

/-- The word that a tile issues next is the one it is put at, where its period has begun. -/
theorem State.wordAt_setTile (h : y.period = s.periodsAt s.clk + 1) : (s.setTile p y).wordAt p = y.pc := by
  unfold State.wordAt
  rw [State.setTile_tile_same]
  exact congrArg Tile.pc (s.begun_of_period h)

/-- R245 to R247: a control word occupies nothing, and the next word may issue in the clk after it. -/
theorem State.issued_control : s.issued t 0 0 [] = s.setTile t.tile ((s.begun (s.tile t.tile)).advance s.clk 1) := by
  simp only [State.issued, List.map_nil, List.append_nil]
  rfl

/-- A control word issues, and what it does to its tile after the issue is the one change. -/
theorem State.issue_control {c : Instr} (f : Tile → Tile) {eff : State → Nat → State}
    (he : eff (s.issued t 0 0 []) (s.wordAt t.tile) =
      (s.issued t 0 0 []).setTile t.tile (f ((s.issued t 0 0 []).tile t.tile)))
    (h : s.ready t 0) (hc : s.spells c t.tile = true) :
    s.issue c t 0 0 eff = .next (s.setTile t.tile (f ((s.begun (s.tile t.tile)).advance s.clk 1))) := by
  have hne : (s.begun (s.tile t.tile)).advance s.clk 1 ≠ {} := fun h => Nat.succ_ne_zero s.clk (congrArg Tile.next h)
  rw [s.issue_ready t 0 0 c eff h hc, he, State.issued_control, State.setTile_tile_same]
  unfold State.setTile
  rw [mset_mset _ _ _ _ _ hne]

theorem execPad_ready {n : Nat} (h : s.ready t 0) (hc : s.spells (.pad t n) t.tile = true) :
    execPad t n s = .next (s.setTile t.tile { (s.begun (s.tile t.tile)).advance s.clk 1 with next := s.clk + n + 1 }) :=
  State.issue_control (fun y => { y with next := s.clk + n + 1 }) (by rfl) h hc

/-- R245: the clk until the word after an FWAIT to the offset `off`. -/
def State.fwaitClks (s : State) (off : Nat) : Nat := (((off : Int) - s.slotAt s.clk - 1) % s.F).toNat + 1

theorem execFwait_ready {off : Nat} (h : s.ready t 0) (hc : s.spells (.fwait t off) t.tile = true) :
    execFwait t off s = .next (s.setTile t.tile { (s.begun (s.tile t.tile)).advance s.clk 1 with
      next := s.clk + s.fwaitClks off }) :=
  State.issue_control (fun y => { y with next := s.clk + s.fwaitClks off }) (by rfl) h hc

theorem execHalt_ready (h : s.ready t 0) (hc : s.spells (.halt t) t.tile = true) :
    execHalt t s = .next (s.setTile t.tile { (s.begun (s.tile t.tile)).advance s.clk 1 with halted := true }) :=
  State.issue_control (fun y => { y with halted := true }) (by rfl) h hc

/-- R246: LOOP takes no clk: the tile issues the word after it in the same clk. -/
theorem execLoop_ready {n l : Nat} (h : s.ready t 0) (hc : s.spells (.loop t n l) t.tile = true) :
    execLoop t n l s = .next (s.setTile t.tile { s.begun (s.tile t.tile) with
      pc := s.wordAt t.tile + 1
      loops := (s.wordAt t.tile + 1, s.wordAt t.tile + l + 2, n) :: (s.begun (s.tile t.tile)).loops }) := by
  obtain ⟨hok, hmay, -, -⟩ := h
  simp only [execLoop, hok, hmay, hc, Bool.and_self, if_true]
  rfl

theorem State.mayIssue_iff : s.mayIssue p = true ↔ s.gridRuns = true ∧ s.placed p = true ∧ (s.tile p).halted = false ∧
    (s.tile p).next ≤ s.clk ∧ s.wordAt p < mget 0 s.net.plen p := by
  simp [State.mayIssue, and_assoc]

/-- Before the clk of its next word a tile does not issue. -/
theorem State.mayIssue_early (h : s.clk < y.next) : (s.setTile p y).mayIssue p = false := by
  have hn : ¬ y.next ≤ (s.setTile p y).clk := Nat.not_le.mpr h
  simp only [State.mayIssue, State.setTile_tile_same, hn, decide_false, Bool.and_false, Bool.false_and]

/-- A tile that has halted does not issue. -/
theorem State.mayIssue_halted (h : y.halted = true) : (s.setTile p y).mayIssue p = false := by
  simp only [State.mayIssue, State.setTile_tile_same, h, Bool.not_true, Bool.and_false, Bool.false_and]

/-- A tile that keeps its place still issues in the clk of its next word, while its program has that word. -/
theorem State.mayIssue_setTile (hp : s.placed p = true) (hh : y.halted = false) (hn : y.next ≤ s.clk) :
    (s.setTile p y).mayIssue p = ((s.setTile p y).gridRuns && decide ((s.setTile p y).wordAt p < mget 0 s.net.plen p)) := by
  have hp : (s.setTile p y).placed p = true := hp
  have hn : y.next ≤ (s.setTile p y).clk := hn
  have hl : (s.setTile p y).net = s.net := rfl
  simp only [State.mayIssue, hp, State.setTile_tile_same, hh, hn, hl, Bool.not_false, Bool.and_true, decide_true]

/-- R245: the word after an FWAIT issues in the first later clk whose slot is `off` modulo F. -/
theorem State.fwaitClks_slot {off : Nat} (hoff : off < s.F) :
    1 ≤ s.fwaitClks off ∧ s.fwaitClks off ≤ s.F ∧ (s.slotAt s.clk + s.fwaitClks off) % s.F = off := by
  have hF : (0 : Int) < s.F := by omega
  have h0 := Int.emod_nonneg ((off : Int) - s.slotAt s.clk - 1) hF.ne'
  have h1 := Int.emod_lt_of_pos ((off : Int) - s.slotAt s.clk - 1) hF
  have hd := Int.emod_add_mul_ediv ((off : Int) - s.slotAt s.clk - 1) s.F
  have hw : s.fwaitClks off = (((off : Int) - s.slotAt s.clk - 1) % s.F).toNat + 1 := rfl
  refine ⟨by omega, by omega, ?_⟩
  have hs : ((s.slotAt s.clk + s.fwaitClks off : Nat) : Int) = off + s.F * -(((off : Int) - s.slotAt s.clk - 1) / s.F) := by
    rw [mul_neg]
    omega
  have hmod : ((s.slotAt s.clk + s.fwaitClks off : Nat) : Int) % s.F = off := by
    rw [hs, Int.add_mul_emod_self_left, Int.emod_eq_of_lt (by omega) (by omega)]
  exact_mod_cast hmod

end Place

end Sys2Proof.Machine

end
section
/-! CLAIM. The statement about the control words and the end of a loop body. -/

open Sys2Proof Sys2Proof.Machine

/-- Settles O11: a control word sets its tile's place alone (`State.issue_control`, `onlyTile_setTile`), and the tile
may issue from the clk it names (`State.mayIssue_early`, `State.mayIssue_setTile`). -/
theorem controlWordsSetTheIssueClk : Obligations.ControlWordsSetTheIssueClk := by
  unfold Obligations.ControlWordsSetTheIssueClk
  refine ⟨fun s t n off l hr => ?_, fun st en rem pc ls => ?_⟩
  · intro p x here place last
    obtain ⟨hgrid, hplaced, hhalt, hnext, -⟩ := State.mayIssue_iff.mp hr.2.1
    have hx := s.begun_eq x
    have hplace : ∀ y : Tile, { y with pc := x.pc, next := x.next, loops := x.loops, period := x.period, halted := x.halted } = x →
        place (s.setTile p y) := fun y hy => ⟨onlyTile_setTile s p y, by rw [State.setTile_tile_same]; exact hy⟩
    have htile : ∀ y : Tile, (s.setTile p y).tile p = y := s.setTile_tile_same p
    refine ⟨fun hc => ⟨_, execPad_ready hr hc, hplace _ (by rw [hx]; rfl), ?_⟩,
      fun hc hoff => ⟨_, s.fwaitClks off, execFwait_ready hr hc, hplace _ (by rw [hx]; rfl), ?_⟩,
      fun hc => ⟨_, execLoop_ready hr hc, hplace _ (by rw [hx]), ?_⟩,
      fun hc => ⟨_, execHalt_ready hr hc, hplace _ (by rw [hx]; rfl), ?_⟩⟩
    · rw [htile]
      refine ⟨rfl, by rw [hx]; rfl, fun c _ h => State.mayIssue_early (s := { s with clk := c }) h, ?_⟩
      exact State.mayIssue_setTile (s := { s with clk := s.clk + n + 1 }) hplaced (by rw [hx]; exact hhalt) le_rfl
    · rw [htile]
      obtain ⟨h1, h2, h3⟩ := s.fwaitClks_slot hoff
      refine ⟨rfl, by rw [hx]; rfl, h1, h2, h3, fun c _ h => State.mayIssue_early (s := { s with clk := c }) h⟩
    · rw [htile]
      refine ⟨(State.mayIssue_setTile hplaced ?_ ?_).trans ?_, rfl, by rw [hx], by rw [hx], rfl⟩
      · rw [hx]; exact hhalt
      · rw [hx]; exact hnext
      rw [State.wordAt_setTile (by exact s.begun_period)]
      exact congrArg (· && _) hgrid
    · rw [htile]
      exact ⟨rfl, fun c => State.mayIssue_halted (s := { s with clk := c }) rfl⟩
  · refine ⟨by simp [loopStep], by simp [loopStep], fun h => by simp [loopStep, h], rfl⟩

end
section
/-! CLAIM. The statement about scaled rows fails: it asks nothing of an RQ's format, and a reserved one (5, R120) spells. Its codes
are stored one byte each but placed as if 16 bits wide, so that the second chunk of the row is not where the statement has it. -/

open Sys2Proof Sys2Proof.Machine Sys2Proof.Tests

/-- An RQ of 96 lanes of file 0 to SRAM address 0, with the slot 0 of scale buffer 0, a unit input scale and the format 5. -/
def rqReserved : RqOps :=
  { file := 0, nM := 2, ptr := 0, dbuf := 0, dslot := 0, inUnit := true, inSlot := 0, mK := 0, eK := 0, fmt := 5, zp := 0,
    lutEn := false, lut := 0 }

/-- A tile with that RQ, one slot in its scale buffer, and a row of zeros but for a 1 in lane 64, the first of the second chunk. -/
def rqReservedState : State :=
  spelling (withTile { a := [(0, { vals := [(64, 1)] })], sb0 := { count := 1 } }) (.rq t0 rqReserved)

theorem rqReservedState_meets : Meets rqReservedState (.rq t0 rqReserved) 4 := .of (by decide +kernel)

/-- The bytes that the statement has in the row: its codes with the scale that is 1's. -/
def rqReservedBytes : List Byte :=
  let o := rqReserved
  let x := rqReservedState.tile t0.tile
  let b := x.sb o.dbuf
  let row := (x.file o.file).lanes 0 (32 * (o.nM + 1))
  let r := rowScale (x.rqCap o 0 0) (if b.src = 0 then maxMag row else 1)
  let zero := decide (b.src = 0) && r.ent.zero
  let raw := row.map (fun a => unsignedOf (fmtBits o.fmt) (requantise a (x.file o.file).exp r.mA r.eA zero o.fmt o.zp).1)
  let codes := if o.lutEn then raw.map (lookup (x.lut o.lut) (fmtK4 o.fmt)) else raw
  (packCodes o.fmt codes).map (BitVec.ofNat 8)

/-- The scale of the row keeps its 1 as a code of 1. -/
theorem rqReservedBytes_64 : rqReservedBytes[64]? = some 1 := by decide +kernel

/-- Byte 64 of the row is not written: the second chunk is stored from byte 128 on. -/
theorem rqReserved_byte : ∀ u, exec (.rq t0 rqReserved) rqReservedState = .next u →
    readByte (u.run 0 10).mem (sramBase 0 + 64) = 0 := by
  intro u hu
  have : u = (match exec (.rq t0 rqReserved) rqReservedState with | .next v => v | _ => rqReservedState) := by rw [hu]
  rw [this]
  decide +kernel

/-- Refutes O15: lane 64's code, 1, is not at byte 64 of the row where the format is 5. -/
theorem not_scaledRowsCompute : ¬ Obligations.ScaledRowsCompute := by
  unfold Obligations.ScaledRowsCompute
  intro h
  obtain ⟨hr, hq, hs⟩ := rqReservedState_meets
  let unused : AlnOp := ⟨false, 0, 0, 0, 0, 0, 0⟩
  obtain ⟨-, -, -, -, hrow⟩ := (h rqReservedState t0 rqReserved 0 0 unused unused hr).1 hs
  obtain ⟨u, hu, -, -, -, -, -, hstored, -⟩ := hrow (by decide +kernel) hq 0 0 (.inl (by decide)) (by decide +kernel)
  have hstored : stores rqReservedState.mem (u.run 0 10).mem (sramBase 0 + 0) rqReservedBytes := hstored (by decide +kernel)
  obtain ⟨hlt, hcode⟩ := List.getElem?_eq_some_iff.mp rqReservedBytes_64
  have hbyte : (0 : Byte) = 1 := (rqReserved_byte u hu).symm.trans ((hstored.1 64 hlt).trans hcode)
  exact absurd hbyte (by decide)

end
section
/-! CLAIM. The statement about what the mover moves fails: an SLST that writes over a bad word clears it from `tend.badWords`,
which the statement's frame keeps. -/

open Sys2Proof Sys2Proof.Machine Sys2Proof.Tests

/-- A tile with an SLST of an empty scale buffer to SRAM address 0, whose word 0 is known to be uncorrectable. -/
def slstOverBadWord : State :=
  spelling { running with tend := { running.tend with badWords := [(0, [0])] } } (.slst t0 0 0)

theorem slstOverBadWord_meets : Meets slstOverBadWord (.slst t0 0 0) 3 := .of (by decide +kernel)

/-- R240, R261: the 68 bytes of the block cover the bad word, which is good again once they are written. -/
theorem slstOverBadWord_clears : ∀ u, exec (.slst t0 0 0) slstOverBadWord = .next u → (u.run 0 1).tend.badWords = [] := by
  intro u hu
  have : u = (match exec (.slst t0 0 0) slstOverBadWord with | .next v => v | _ => slstOverBadWord) := by rw [hu]
  rw [this]
  decide +kernel

/-- Refutes O16: of SLST the statement says that nothing but the clk, the tile and memory changes, but the words it writes are
no longer bad. -/
theorem not_moverMovesWordsAndScaleBlocks : ¬ Obligations.MoverMovesWordsAndScaleBlocks := by
  unfold Obligations.MoverMovesWordsAndScaleBlocks
  intro h
  obtain ⟨hr, hq, hs⟩ := slstOverBadWord_meets
  obtain ⟨-, -, -, hwritten, -⟩ := h.2 slstOverBadWord t0 0 0 0 0 0 { word := 0 } hr hq (by decide)
  obtain ⟨u, hu, ⟨hsame, -⟩, -⟩ := (hwritten (by decide +kernel)).1 hs (by decide +kernel)
  have hkept : (u.run 0 1).tend.badWords = slstOverBadWord.tend.badWords := congrArg (·.tend.badWords) hsame
  rw [slstOverBadWord_clears u hu] at hkept
  exact absurd hkept (by decide)

end
section
/-! SUPPORT. A tender's word (R267, R272, R275): where the copy reads and writes it, when it waits, and what the state is once
the tender is past it. -/

namespace Sys2Proof.Machine

section TenderWord

/-- The two readings of a two's complement field are the same. -/
theorem signed_eq_toInt {w : Nat} (hw : 0 < w) (x : Nat) : signed w x = (BitVec.ofNat w x).toInt := by
  obtain ⟨v, rfl⟩ := Nat.exists_eq_succ_of_ne_zero hw.ne'
  have hlt : x % 2 ^ (v + 1) < 2 ^ v ↔ 2 * (x % 2 ^ (v + 1)) < 2 ^ (v + 1) := by rw [Nat.pow_succ]; omega
  simp only [signed, BitVec.toInt, BitVec.toNat_ofNat, Nat.add_sub_cancel, hlt, Nat.succ_eq_add_one]
  split
  · rfl
  · push_cast; rfl

theorem signed_bits {w : Nat} (hw : 0 < w) (x k : Nat) : signed w (bits x k w) = (BitVec.ofNat w (x / 2 ^ k)).toInt := by
  rw [signed_eq_toInt hw]
  exact congrArg BitVec.toInt (BitVec.eq_of_toNat_eq (by simp [bits]))

theorem leBytes_eq_map (n v : Nat) :
    leBytes n v = ((List.range n).map (fun b => BitVec.ofNat 8 (v / 2 ^ (8 * b)))).map (fun b => b.toNat) := by
  refine List.ext_getElem (by simp [length_leBytes]) fun i h _ => ?_
  rw [getElem_leBytes]
  simp

theorem readBytes_eq_map (m : List Host.Cell) (a n : Nat) :
    readBytes m a n = ((List.range n).map (fun b => readByte m (a + b))).map (fun b => b.toNat) := by
  simp [readBytes]

variable {s : State} {t l : Nat} {r : DescRec} {rs : List DescRec} {c : Ecc}

@[simp] theorem State.tender_setTender_same (x : Tender) : (s.setTender t x).tender t = x := mget_mset_same _ _ _ _

/-- The memory at an address of HBM or DDR4 of a die. -/
def spaceBase (die space a : Nat) : Nat := if space = 1 then hbmBase die + a else ddrBase + a

/-- HBM, or DDR4 once it has been zeroed since power-on, holds what is written (R488). -/
def State.holds (s : State) (space : Nat) : Prop := space = 1 ∨ space = 2 ∧ s.rst.ddrZero = true

theorem State.holds.ne {space : Nat} (h : s.holds space) : space ≠ 4 ∧ space ≠ 3 := by
  rcases h with h | ⟨h, -⟩ <;> omega

theorem State.spaceRead_holds {die space : Nat} (a : Nat) (h : s.holds space) :
    s.spaceRead die space a = readBytes s.mem (spaceBase die space a) 64 := by
  rcases h with rfl | ⟨rfl, hz⟩
  · rfl
  · simp [State.spaceRead, State.ddrRead, State.ddrDefined, hz, spaceBase]

theorem State.stores_rewrite (s : State) (a : Nat) (bytes : List Byte) :
    stores s.mem (s.rewrite a (bytes.map (fun b => b.toNat))).mem a bytes := by
  have hm : (s.rewrite a (bytes.map (fun b => b.toNat))).mem = writeBytes s.mem a (bytes.map (fun b => b.toNat)) := by
    simp only [State.rewrite, State.freshMem]
    split <;> rfl
  rw [hm]
  refine ⟨fun i hi => ?_, fun b hb => readByte_writeBytes_out _ _ _ _ (by simpa using hb)⟩
  rw [readByte_writeBytes_in _ _ _ _ (by simpa using hi)]
  simp

theorem State.stores_spaceWrite {die space : Nat} (a : Nat) (bytes : List Byte) (h : s.holds space) :
    stores s.mem (s.spaceWrite die space a (bytes.map (fun b => b.toNat))).mem (spaceBase die space a) bytes := by
  rcases h with rfl | ⟨rfl, hz⟩
  · exact s.stores_rewrite _ bytes
  · exact s.stores_ddrWrite a bytes hz

/-- A write of HBM or DDR4 leaves the tenders, the network and every entry. -/
theorem State.spaceWrite_frame (s : State) (die space a : Nat) (bs : List Nat) :
    let u := s.spaceWrite die space a bs
    (∀ l, u.tender l = s.tender l) ∧ u.net = s.net ∧ u.dict = s.dict ∧ u.grade = s.grade ∧ u.stepping = s.stepping := by
  unfold State.spaceWrite State.ddrWrite State.rewrite State.freshMem
  split <;> [skip; split] <;> split <;> exact ⟨fun _ => rfl, rfl, rfl, rfl, rfl⟩

/-- The address at which the tender that stands at `x` reads the word of descriptor `d`. -/
def Tender.srcAt (x : Tender) (d : Nat) : Nat := (elemAt (descSrcAddr d) (descSrcStride d) x.i).toNat + 64 * x.w

/-- The address at which it writes it. -/
def Tender.dstAt (x : Tender) (d : Nat) : Nat := (elemAt (descDstAddr d) (descDstStride d) x.i).toNat + 64 * x.w

/-- The inbound queue of descriptor `d`. -/
def descIn (d : Nat) : Nat := 16 * (descSrcAddr d % 64) + descSrcAddr d / 64 % 16

/-- The outbound queue of descriptor `d`. -/
def descOut (d : Nat) : Nat := 16 * bits d 208 6 + bits d 214 4

/-- R272: no word to read or no room for it. -/
def State.wordWaits (s : State) (r : DescRec) : Prop :=
  descSrc r.word = 4 ∧ (mget [] s.net.inq (descIn r.word)).isEmpty = true ∨
    descDst r.word = 3 ∧ r.card.isNone = true ∧ 32 ≤ (mget [] s.net.outq (descOut r.word)).length

/-- R275: a word that the copy may not move. -/
def State.wordFails (s : State) (t : Nat) (x : Tender) (d : Nat) (c : Ecc) : Prop :=
  (c == .bad || s.readsBad (t / 8) (descSrc d) (x.srcAt d)) = true ∨ s.unitDown (t / 8) (descSrc d) (x.srcAt d) = true ∨
    s.unitDown (t / 8) (descDst d) (x.dstAt d) = true

/-- The state once tender queue `l` of tender `t` has read its word: past it, and a corrected bit counted. -/
def State.wordRead (s : State) (t l : Nat) (d : Nat) (c : Ecc) : State :=
  let x := s.tender l
  let s := if descSrc d = 4 then { s with net := { s.net with
    inq := mset [] s.net.inq (descIn d) ((mget [] s.net.inq (descIn d)).drop 1) } } else s
  let s := s.setTender l { x.past d with last := some s.clk }
  if c = .corrected ∧ descSrc d ≠ 4 then s.bump (s.unitOf (t / 8) (descSrc d) (x.srcAt d)) munit_corrected else s

/-- The bytes of the word that tender queue `l` of tender `t` reads. -/
def State.wordBytes (s : State) (t l d : Nat) : List Nat :=
  if descSrc d = 4 then leBytes 64 (((mget [] s.net.inq (descIn d)).head?.map (fun w => w.word)).getD 0)
  else s.spaceRead (t / 8) (descSrc d) ((s.tender l).srcAt d)

/-- The sideband of a word that tender `t`, which stands at `x`, pushes: kind 2, last, cm_en, cm, tag, row and tender (R272). -/
def Tender.wordSide (x : Tender) (t d : Nat) : Nat :=
  2 + (if x.i == descCount d && x.w == descElem d then 4 else 0) + (if bit d 223 then 8 else 0) + 2 ^ 4 * bits d 218 5
    + 2 ^ 9 * bits d 192 8 + 2 ^ 17 * (x.dstAt d / 64) + 2 ^ 36 * t

/-- `s` with the token `w` after those of `out` in outbound queue `q`. -/
def State.pushWord (s : State) (q : Nat) (out : List Token) (w : Token) : State :=
  { s with net := { s.net with outq := mset [] s.net.outq q (out ++ [w]) } }

theorem Tender.past_eq (x : Tender) (d clk : Nat) : { x.past d with last := some clk } =
    if x.w < descElem d then { x with w := x.w + 1, last := some clk } else { x with w := 0, i := x.i + 1, last := some clk } := by
  unfold Tender.past
  split <;> rfl

/-- R26, R267: one word in a clk, and a management copy's only when no earlier descriptor is left. -/
theorem State.tenderMoves_iff (hl : s.tenderLane t = l) : s.tenderMoves t r = true ↔ (s.tender l).last ≠ some s.clk ∧
    r.frag = none ∧ (r.source = 2 → ∀ y ∈ (s.tender t).queue, seqBefore y.seq r.seq = false) := by
  simp only [State.tenderMoves, hl, Bool.and_eq_true, Bool.or_eq_true, bne_iff_ne, Option.isNone_iff_eq_none, List.all_eq_true,
    Bool.not_eq_true', and_assoc, ne_eq]
  tauto

/-- R272: where no word may move, the state stays. -/
theorem execTenderWord_still (ht : t < 16) (hl : s.tenderLane t = l) (hq : (s.tender l).queue = r :: rs)
    (h : s.tenderMoves t r = false ∨ descCount r.word < (s.tender l).i ∨ s.wordWaits r) : execTenderWord t c s = .next s := by
  unfold execTenderWord
  simp only [ht, if_true, hl, hq]
  exact if_pos h

section Moves

variable (ht : t < 16) (hl : s.tenderLane t = l) (hq : (s.tender l).queue = r :: rs)
  (hm : ¬ (s.tenderMoves t r = false ∨ descCount r.word < (s.tender l).i ∨ s.wordWaits r))

include ht hl hq hm

/-- R339: a window card is the one word of its descriptor. -/
theorem execTenderWord_card {v : Nat} (hc : r.card = some v) :
    execTenderWord t c s =
      .next ((s.setTender l { (s.tender l).past r.word with last := some s.clk }).sendCard t r.seq r.word v) := by
  unfold execTenderWord
  simp only [ht, if_true, hl, hq]
  refine (if_neg hm).trans ?_
  simp only [hc, Option.isSome_some, if_true, Option.getD_some]

/-- R275: a word that may not move ends the copy failed. -/
theorem execTenderWord_fails (hc : r.card = none) (hf : s.wordFails t (s.tender l) r.word c) :
    execTenderWord t c s =
      .next (s.copyFails t r (c == .bad || s.readsBad (t / 8) (descSrc r.word) ((s.tender l).srcAt r.word))) := by
  unfold execTenderWord
  simp only [ht, if_true, hl, hq]
  refine (if_neg hm).trans ?_
  simp only [hc, Option.isSome_none, Bool.false_eq_true, if_false]
  exact if_pos hf

/-- R272: a word that moves is read, and pushed or written. -/
theorem execTenderWord_word (hc : r.card = none) (hf : ¬ s.wordFails t (s.tender l) r.word c) :
    execTenderWord t c s = .next (
      if descDst r.word = 3 then (s.wordRead t l r.word c).pushWord (descOut r.word) (mget [] s.net.outq (descOut r.word))
        ⟨leNat (s.wordBytes t l r.word), (s.tender l).wordSide t r.word, some r.seq⟩
      else (s.wordRead t l r.word c).spaceWrite (t / 8) (descDst r.word) ((s.tender l).dstAt r.word)
          (s.wordBytes t l r.word)) := by
  unfold execTenderWord
  simp only [ht, if_true, hl, hq]
  refine (if_neg hm).trans ?_
  simp only [hc, Option.isSome_none, Bool.false_eq_true, if_false]
  refine (if_neg hf).trans ?_
  exact (apply_ite Host.Outcome.next _ _ _).symm

end Moves

/-- A word taken from the inbound queue: the queue loses it, and the tender is past it. -/
theorem State.wordRead_queue (s : State) (t l d : Nat) (c : Ecc) (h4 : descSrc d = 4) :
    s.wordRead t l d c =
      ({ s with net := { s.net with
        inq := mset [] s.net.inq (descIn d) ((mget [] s.net.inq (descIn d)).drop 1) } } : State).setTender l
          { (s.tender l).past d with last := some s.clk } := by
  simp only [State.wordRead, h4, if_true, ne_eq, not_true, and_false, if_false]

/-- A word read from memory: the tender is past it, and memory and the network are left. -/
theorem State.wordRead_memory (s : State) (t l d : Nat) (c : Ecc) (h4 : descSrc d ≠ 4) :
    let u := s.wordRead t l d c
    u.tender l = { (s.tender l).past d with last := some s.clk } ∧ u.mem = s.mem ∧ u.rst = s.rst ∧ u.net = s.net := by
  have ht : ∀ x, (s.setTender l x).tender l = x := fun _ => State.tender_setTender_same _
  simp only [State.wordRead, h4, if_false]
  split
  · exact ⟨ht _, rfl, rfl, rfl⟩
  · exact ⟨ht _, rfl, rfl, rfl⟩

/-- R288: a corrected bit of a word read counts at its stack or channel, and nothing else of the dictionary changes. -/
theorem State.wordRead_counts (s : State) (t l d : Nat) (c : Ecc) (h4 : descSrc d ≠ 4) :
    let u := s.wordRead t l d c
    let k := s.unitOf (t / 8) (descSrc d) ((s.tender l).srcAt d)
    (∀ j, c ≠ .corrected ∨ j ≠ k → u.ent j = s.ent j) ∧ (c = .corrected → u.fld k munit_corrected = s.oneMore k
        munit_corrected) := by
  have hent : ∀ j x, (s.setTender l x).ent j = s.ent j := fun _ _ => rfl
  by_cases hc : c = .corrected
  · subst hc
    simp only [State.wordRead, h4, if_false, ne_eq, not_false_eq_true, and_self, if_true, not_true, false_or]
    exact ⟨fun j hj => State.setFld_ent_other _ _ _ _ _ hj, fun _ => State.bump_fld_same _ _ _⟩
  · simp only [State.wordRead, h4, hc, if_false, false_and]
    exact ⟨fun j _ => rfl, fun h => absurd h id⟩

/-- The stacks and channels are none of the tenders' entries. -/
theorem State.unitOf_ne_kTend (s : State) (ht : t < 16) (space a : Nat) : s.unitOf (t / 8) space a ≠ kTend t := by
  have hch : ∀ i, s.ddrChannels.getD i 0 < 12 := fun i => by
    rw [List.getD_eq_getElem?_getD]
    cases h : s.ddrChannels[i]? with
    | none => decide
    | some c => exact List.mem_range.mp (List.mem_filter.mp (List.mem_of_getElem? h)).1
  have hc := hch (a / 4096 % max 1 s.ddrChannels.length)
  unfold State.unitOf kTend stackOf key
  split <;> omega

/-- A count that falls by one. -/
theorem State.fld_setFld_pred (s : State) (k : Nat) (f : Fld) : (s.setFld k f (s.fld k f - 1)).fld k f = s.fld k f - 1 := by
  have hlt : s.fld k f < 2 ^ f.w := Nat.mod_lt _ (Nat.two_pow_pos _)
  rw [State.fld_setFld_same, Nat.mod_eq_of_lt (by omega)]

/-- R275: an uncorrectable word of HBM or DDR4 is seen at its stack or channel. -/
def State.wordSeen (s : State) (t l : Nat) (r : DescRec) (seen : Bool) : State :=
  if !seen || descSrc r.word = 4 then s
  else s.setFlag (s.unitOf (t / 8) (descSrc r.word) ((s.tender l).srcAt r.word)) munit_uncorrected_seen true

/-- The state once the copy `r` of tender `t` has left its queue `l` (R275). -/
def State.copyEnded (s : State) (t l : Nat) (r : DescRec) (seen : Bool) : State :=
  let u := (s.wordSeen t l r seen).setTender l (s.tender l).rest
  u.setFld (kTend t) tend_outstanding (u.fld (kTend t) tend_outstanding - 1)

theorem State.copyFails_eq (hl : s.tenderLane t = l) (seen : Bool) :
    s.copyFails t r seen = if r.source = 0 then (s.copyEnded t l r seen).tenderFault t 8 r.seq else s.copyEnded t l r seen := by
  subst hl
  simp only [State.copyFails, State.copyEnded, State.wordSeen, Tender.srcAt]

theorem State.wordSeen_frame (s : State) (ht : t < 16) (l : Nat) (r : DescRec) (seen : Bool) :
    let u := s.wordSeen t l r seen
    u.mem = s.mem ∧ u.net = s.net ∧ u.fld (kTend t) tend_outstanding = s.fld (kTend t) tend_outstanding := by
  unfold State.wordSeen
  split
  · exact ⟨rfl, rfl, rfl⟩
  · refine ⟨State.setFlag_mem _ _ _ _, State.setFlag_net _ _ _ _, ?_⟩
    unfold State.setFlag
    rw [State.fld_setFld_ne _ _ _ _ _ _ (s.unitOf_ne_kTend ht _ _).symm]

theorem State.copyEnded_frame (s : State) (ht : t < 16) (l : Nat) (r : DescRec) (seen : Bool) :
    let v := s.copyEnded t l r seen
    v.tender l = (s.tender l).rest ∧ v.mem = s.mem ∧ v.net = s.net ∧
      v.fld (kTend t) tend_outstanding = s.fld (kTend t) tend_outstanding - 1 := by
  obtain ⟨hmem, hnet, hfld⟩ := s.wordSeen_frame ht l r seen
  refine ⟨State.tender_setTender_same (s := s.wordSeen t l r seen) _, hmem, hnet, ?_⟩
  unfold State.copyEnded
  rw [State.fld_setFld_pred]
  exact congrArg (· - 1) hfld

theorem State.unitDown_iff {die space a : Nat} : s.unitDown die space a = true ↔
    (space = 1 ∨ space = 2) ∧ ¬ s.fld (s.unitOf die space a) munit_in_service = 1 := by
  simp [State.unitDown, State.flag]

/-- R272: the address of a word, where its element starts in the space. -/
theorem elemAt_toNat {a i w k d : Nat} (h : 0 ≤ (a : Int) + i * (BitVec.ofNat 32 (d / 2 ^ k)).toInt) :
    (elemAt a (signed 32 (bits d k 32)) i).toNat + 64 * w = (a + i * (BitVec.ofNat 32 (d / 2 ^ k)).toInt + 64 * w :
        Int).toNat := by
  rw [signed_bits (by decide), elemAt]
  omega

section Copies

variable (ht : t < 16) (hl : s.tenderLane t = l) (hq : (s.tender l).queue = r :: rs)
  (hm : ¬ (s.tenderMoves t r = false ∨ descCount r.word < (s.tender l).i ∨ s.wordWaits r)) (hc : r.card = none)
  (hf : ¬ s.wordFails t (s.tender l) r.word c)

include ht hl hq hm hc hf

/-- R272: a word goes from memory to memory. -/
theorem execTenderWord_copies (hs : s.holds (descSrc r.word)) (hd : s.holds (descDst r.word)) :
    ∃ u, execTenderWord t c s = .next u ∧ u.tender l = { (s.tender l).past r.word with last := some s.clk } ∧ u.net = s.net ∧
      (∀ j, u.ent j = (s.wordRead t l r.word c).ent j) ∧
      stores s.mem u.mem (spaceBase (t / 8) (descDst r.word) ((s.tender l).dstAt r.word))
        ((List.range 64).map fun b => readByte s.mem (spaceBase (t / 8) (descSrc r.word) ((s.tender l).srcAt r.word) + b)) := by
  have h4 : descSrc r.word ≠ 4 := hs.ne.1
  have h3 : descDst r.word ≠ 3 := hd.ne.2
  obtain ⟨hten, hmem, hrst, hnet⟩ := s.wordRead_memory t l r.word c h4
  have hex := execTenderWord_word ht hl hq hm hc hf
  rw [if_neg h3, State.wordBytes, if_neg h4, State.spaceRead_holds _ hs, readBytes_eq_map] at hex
  obtain ⟨htend, hnet', hdict, hgrade, hstep⟩ := State.spaceWrite_frame (s.wordRead t l r.word c) (t / 8) (descDst r.word)
    ((s.tender l).dstAt r.word) (((List.range 64).map fun b => readByte s.mem
      (spaceBase (t / 8) (descSrc r.word) ((s.tender l).srcAt r.word) + b)).map fun b => b.toNat)
  refine ⟨_, hex, (htend l).trans hten, hnet'.trans hnet, fun j => State.ent_congr hdict hgrade hstep j, ?_⟩
  have hd : (s.wordRead t l r.word c).holds (descDst r.word) := by rwa [State.holds, hrst]
  rw [← hmem]
  exact State.stores_spaceWrite _ _ hd

/-- R272: a word goes from memory to the outbound queue. -/
theorem execTenderWord_pushes (hs : s.holds (descSrc r.word)) (hd : descDst r.word = 3) :
    ∃ u, execTenderWord t c s = .next u ∧ u.tender l = { (s.tender l).past r.word with last := some s.clk } ∧ u.mem = s.mem ∧
      (∀ j, u.ent j = (s.wordRead t l r.word c).ent j) ∧
      u.net = { s.net with outq := mset [] s.net.outq (descOut r.word) (mget [] s.net.outq (descOut r.word) ++
        [⟨leNat (readBytes s.mem (spaceBase (t / 8) (descSrc r.word) ((s.tender l).srcAt r.word)) 64),
          (s.tender l).wordSide t r.word, some r.seq⟩]) } := by
  have h4 : descSrc r.word ≠ 4 := hs.ne.1
  obtain ⟨hten, hmem, -, hnet⟩ := s.wordRead_memory t l r.word c h4
  have hex := execTenderWord_word ht hl hq hm hc hf
  rw [if_pos hd, State.wordBytes, if_neg h4, State.spaceRead_holds _ hs] at hex
  refine ⟨_, hex, hten, hmem, fun j => rfl, ?_⟩
  unfold State.pushWord
  rw [hnet]

/-- R272: a word goes from the inbound queue to memory. -/
theorem execTenderWord_stores {w : Token} {ws : List Token} (hs : descSrc r.word = 4) (hd : s.holds (descDst r.word))
    (hin : mget [] s.net.inq (descIn r.word) = w :: ws) :
    ∃ u, execTenderWord t c s = .next u ∧ u.tender l = { (s.tender l).past r.word with last := some s.clk } ∧ u.dict = s.dict ∧
      u.net = { s.net with inq := mset [] s.net.inq (descIn r.word) ws } ∧
      stores s.mem u.mem (spaceBase (t / 8) (descDst r.word) ((s.tender l).dstAt r.word))
        ((List.range 64).map fun b => BitVec.ofNat 8 (w.word / 2 ^ (8 * b))) := by
  have h3 : descDst r.word ≠ 3 := hd.ne.2
  have hex := execTenderWord_word ht hl hq hm hc hf
  rw [if_neg h3, State.wordBytes, if_pos hs, State.wordRead_queue _ _ _ _ _ hs, hin] at hex
  simp only [List.head?_cons, Option.map_some, Option.getD_some, leBytes_eq_map, List.drop_one, List.tail_cons] at hex
  refine ⟨_, hex, ?_⟩
  obtain ⟨htend, hnet, hdict, -, -⟩ := State.spaceWrite_frame
    (({ s with net := { s.net with inq := mset [] s.net.inq (descIn r.word) ws } } : State).setTender l
      { (s.tender l).past r.word with last := some s.clk }) (t / 8) (descDst r.word)
    ((s.tender l).dstAt r.word) (((List.range 64).map fun b => BitVec.ofNat 8 (w.word / 2 ^ (8 * b))).map fun b => b.toNat)
  refine ⟨(htend l).trans (State.tender_setTender_same _), hdict, hnet, ?_⟩
  exact State.stores_spaceWrite (s := State.setTender _ _ _) _ _ hd

end Copies

/-- R272: the sideband's kind is 2, and its next bit tells the copy's last word. -/
theorem Tender.wordSide_last (x : Tender) (t d : Nat) :
    x.wordSide t d % 4 = 2 ∧ (x.wordSide t d / 4 % 2 = 1 ↔ x.i = descCount d ∧ x.w = descElem d) := by
  have hlast : (x.i == descCount d && x.w == descElem d) = true ↔ x.i = descCount d ∧ x.w = descElem d := by simp
  rw [← hlast]
  unfold Tender.wordSide
  refine ⟨?_, ?_⟩
  · split <;> split <;> omega
  · split <;> split <;> simp_all <;> omega

end TenderWord

end Sys2Proof.Machine

end
section
/-! CLAIM. The statement about the words of a copy. -/

open Sys2Proof Sys2Proof.Machine

/-- Settles O21: where a word may not move the state stays (`execTenderWord_still`); a card sets out, a failed word ends the copy
(`execTenderWord_fails`), and any other is read and stored or pushed (`execTenderWord_word`). -/
theorem tendersCopyWordByWord : Obligations.TendersCopyWordByWord := by
  unfold Obligations.TendersCopyWordByWord
  intro s t r rs ht l hq x d sp dp sa da elem count at_ unit up ok down waits qi qo past moves good counts out
  have hl : s.tenderLane t = l := rfl
  have hpast : { x.past d with last := some s.clk } = past := x.past_eq d s.clk
  have hmoves : moves ↔ s.tenderMoves t r = true := (State.tenderMoves_iff hl).symm
  have hwaits : waits (mget [] s.net.inq qi) out ↔ s.wordWaits r := by
    simp only [State.wordWaits, List.isEmpty_iff, Option.isNone_iff_eq_none]
    rfl
  have hgo : moves → x.i ≤ count → ¬ waits (mget [] s.net.inq qi) out →
      ¬ (s.tenderMoves t r = false ∨ descCount r.word < (s.tender l).i ∨ s.wordWaits r) := by
    intro hm hi hw
    rw [hmoves] at hm
    rw [hwaits] at hw
    have : ¬ descCount r.word < (s.tender l).i := Nat.not_lt.mpr hi
    simp [hm, hw, this]
  refine ⟨fun hm c => ?_, fun hm hi v hv hw c => ?_, fun hm hc hi hsa hda => ?_⟩
  · exact execTenderWord_still ht hl hq (.inl (by rwa [hmoves, Bool.not_eq_true] at hm))
  · refine ⟨_, execTenderWord_card ht hl hq (hgo hm hi hw) hv, hpast ▸ State.tender_setTender_same _, rfl, rfl, _, rfl, rfl, ?_⟩
    exact Nat.lt_of_lt_of_le (Nat.lt_succ_self _) (Nat.le_add_right _ _)
  have hsrc : x.srcAt d = sa.toNat := elemAt_toNat (by simp only [sa, add_sub_cancel_right] at hsa; exact hsa)
  have hdst : x.dstAt d = da.toNat := elemAt_toNat (by simp only [da, add_sub_cancel_right] at hda; exact hda)
  have hunit : ∀ space a, unit space a = s.unitOf (t / 8) space a := fun space a => by
    simp only [unit, State.unitOf, stackOf, Nat.add_assoc]
  have hdown : ∀ space (a : Int), s.unitDown (t / 8) space a.toNat = true ↔ down space a := fun space a => by
    simp only [down, up, hunit, State.unitDown_iff]
  have hok : ∀ {space : Nat} {a : Int}, ok space a → s.holds space ∧ ¬ down space a := fun h => ⟨h.1, fun hd => hd.2 h.2⟩
  have hfar : ∀ {space : Nat} {a : Int}, 3 ≤ space → ¬ down space a := fun h ⟨hd, _⟩ => by omega
  have hfails : ∀ c, s.wordFails t x d c ↔
      (c = .bad ∨ s.readsBad (t / 8) sp sa.toNat = true) ∨ down sp sa ∨ down dp da := fun c => by
    rw [State.wordFails, hsrc, hdst, Bool.or_eq_true, beq_iff_eq]
    exact or_congr_right (or_congr (hdown _ _) (hdown _ _))
  have hread : ∀ {c : Ecc} {u : State}, s.holds sp → (∀ j, u.ent j = (s.wordRead t l d c).ent j) →
      counts c u := fun {c u} hs hu => by
    have h4 : descSrc d ≠ 4 := hs.ne.1
    obtain ⟨hent, hfld⟩ := s.wordRead_counts t l d c h4
    have hk : s.unitOf (t / 8) (descSrc d) (x.srcAt d) = unit sp sa.toNat := by rw [hunit, hsrc]; rfl
    rw [hk] at hent hfld
    refine ⟨fun k h => (hu k).trans (hent k (h.imp_right fun h => h.resolve_left h4)), fun h _ => ?_⟩
    rw [← hfld h]
    exact congrArg munit_corrected.of (hu _)
  refine ⟨fun hs hd c hg => ?_, fun hs hd hout c hg => ?_, fun hs hd w ws hin c hg => ?_, fun hw c => ?_, fun hw c hbad => ?_⟩
  · have hw : ¬ waits (mget [] s.net.inq qi) out := fun h =>
      h.elim (fun h => (hok hs).1.ne.1 h.1) (fun h => (hok hd).1.ne.2 h.1)
    have hf : ¬ s.wordFails t x d c := by
      rw [hfails]
      rintro ((hb | hb) | hb | hb)
      exacts [hg.1 hb, Bool.eq_false_iff.mp hg.2 hb, (hok hs).2 hb, (hok hd).2 hb]
    obtain ⟨u, hu, hten, hnet, hent, hst⟩ := execTenderWord_copies ht hl hq (hgo hm hi hw) hc hf (hok hs).1 (hok hd).1
    refine ⟨u, hu, hten.trans hpast, hnet, hread (hok hs).1 hent, ?_⟩
    rw [← hsrc, ← hdst]
    exact hst
  · have hw : ¬ waits (mget [] s.net.inq qi) out := fun h =>
      h.elim (fun h => (hok hs).1.ne.1 h.1) (fun h => Nat.not_le.mpr hout h.2.2)
    have hf : ¬ s.wordFails t x d c := by
      rw [hfails]
      rintro ((hb | hb) | hb | hb)
      exacts [hg.1 hb, Bool.eq_false_iff.mp hg.2 hb, (hok hs).2 hb, hfar (Nat.le_of_eq hd.symm) hb]
    obtain ⟨u, hu, hten, hmem, hent, hnet⟩ := execTenderWord_pushes ht hl hq (hgo hm hi hw) hc hf (hok hs).1 hd
    refine ⟨u, x.wordSide t d, hu, hten.trans hpast, hmem, hread (hok hs).1 hent, ?_, x.wordSide_last t d⟩
    rw [← hsrc]
    exact hnet
  · have hw : ¬ waits (mget [] s.net.inq qi) out := fun h =>
      h.elim (fun h => List.cons_ne_nil _ _ (hin.symm.trans h.2)) (fun h => (hok hd).1.ne.2 h.1)
    have hf : ¬ s.wordFails t x d c := by
      rw [hfails]
      rintro ((hb | hb) | hb | hb)
      exacts [hg hb, absurd hb (by rw [hs]; simp [State.readsBad]), hfar (hs.symm ▸ by decide) hb, (hok hd).2 hb]
    obtain ⟨u, hu, hten, hdict, hnet, hst⟩ := execTenderWord_stores ht hl hq (hgo hm hi hw) hc hf hs (hok hd).1 hin
    refine ⟨u, hu, hten.trans hpast, hdict, hnet, ?_⟩
    rw [← hdst]
    exact hst
  · exact execTenderWord_still ht hl hq (.inr (.inr (hwaits.mp hw)))
  · obtain ⟨hten, hmem, hnet, hfld⟩ := s.copyEnded_frame ht l r (c == .bad || s.readsBad (t / 8) (descSrc d) (x.srcAt d))
    refine ⟨_, hten.trans ?_, hmem, hnet, hfld, ?_⟩
    · simp [Tender.rest, hq, x]
    · have hf : s.wordFails t x d c := (hfails c).mpr (or_assoc.mpr hbad)
      refine (execTenderWord_fails ht hl hq (hgo hm hi hw) hc hf).trans ?_
      rw [State.copyFails_eq hl]

end
section
/-! SUPPORT. A tile passing its clks (R206, R209): of what an issue plans, the acts that change the tile alone, the reads that
plan on, and the clks with nothing due. -/

namespace Sys2Proof.Machine

section Passing

/-- An act that changes its tile alone and sets no completion mark. -/
def Act.inTile : Act → Bool
  | .mac _ clear _ _ => clear
  | .sreg .. | .preg .. | .pflag .. | .latch .. | .bank .. | .swap | .fctx .. => true
  | .cmark _ v => !v
  | _ => false

/-- The tile after such an act. -/
def Act.onTile (t : Tile) : Act → Tile
  | .mac f _ d tag => t.setFile f { vals := d, exp := 0, tag := tag }
  | .sreg r v => t.setS r v
  | .preg r v => t.setP r v
  | .pflag r v => t.setF r v
  | .latch bs => { t with x := bs }
  | .bank b lane ls => t.setBank b (msetList zeroLane (t.bankOf b) lane ls)
  | .swap => { t with active := 1 - t.active }
  | .fctx n v => { t with fnum := n, fvoid := v }
  | .cmark c v => { t with cm := mset false t.cm c v }
  | _ => t

theorem State.applyAct_inTile {a : Act} (h : a.inTile = true) (s : State) (p : Nat) :
    s.applyAct p a = s.setTile p (a.onTile (s.tile p)) := by
  cases a
  case mac f clear d tag =>
    obtain rfl : clear = true := h
    rfl
  case cmark => rfl
  all_goals cases h <;> rfl

/-- `u` is `s` but for its clk, which is `c`, and tile `p`, which is `y`. -/
structure State.With (s : State) (p c : Nat) (y : Tile) (u : State) : Prop where
  same : { u with tiles := s.tiles, clk := s.clk } = s
  clk : u.clk = c
  tile : u.tile p = y
  others : ∀ q, q ≠ p → u.tile q = s.tile q

variable {s u : State} {p c : Nat} {y : Tile} {d : Pend} {l : List Pend}

theorem State.With.onlyTile (h : s.With p c y u) : onlyTile s u p := ⟨h.same, h.others⟩

theorem State.With.mem (h : s.With p c y u) : u.mem = s.mem := by
  have := congrArg State.mem h.same
  exact this

theorem State.With.setTile (h : s.With p c y u) (z : Tile) : s.With p c z (u.setTile p z) where
  same := h.same
  clk := h.clk
  tile := State.setTile_tile_same _ _ _
  others q hq := ((State.setTile_tile _ _ _ _).trans (if_neg hq)).trans (h.others q hq)

theorem State.With.next (h : s.With p c y u) : s.With p (c + 1) y { u with clk := u.clk + 1 } where
  same := h.same
  clk := congrArg (· + 1) h.clk
  tile := h.tile
  others := h.others

theorem State.With.act (h : s.With p c y u) {a : Act} (ha : a.inTile = true) : s.With p c (a.onTile y) (u.applyAct p a) := by
  rw [State.applyAct_inTile ha, h.tile]
  exact h.setTile _

/-- Tile `y` after the acts of `l`, in their order. -/
def Tile.after (y : Tile) (l : List Pend) : Tile := l.foldl (fun y d => d.act.onTile y) y

theorem State.With.acts (h : s.With p c y u) (hl : ∀ d ∈ l, d.act.inTile = true) :
    s.With p c (y.after l) (l.foldl (fun u d => u.applyAct p d.act) u) := by
  induction l generalizing y u with
  | nil => exact h
  | cons d l ih =>
    obtain ⟨hd, hl⟩ := List.forall_mem_cons.mp hl
    exact ih (h.act hd) hl

theorem Act.inTile_facts {a : Act} (h : a.inTile = true) : a.isRead = false ∧ a.setsMark = false := by
  cases a
  case cmark c v => exact ⟨rfl, (Bool.not_eq_eq_eq_not.mp h : v = false)⟩
  all_goals cases h <;> exact ⟨rfl, rfl⟩

/-- The acts of a tile that are due in clk `c`, and the others. -/
def Tile.due (y : Tile) (c : Nat) : List Pend := y.pend.filter (fun d => d.due == c)

/-- Tile `y` with the acts due in clk `c` taken from those planned. -/
def Tile.took (y : Tile) (c : Nat) : Tile := { y with pend := y.pend.filter (fun d => d.due != c) }

theorem Tile.took_idle (h : y.due c = []) : y.took c = y := by
  have : y.pend.filter (fun d => d.due != c) = y.pend := by
    refine List.filter_eq_self.mpr fun d hd => ?_
    have := List.filter_eq_nil_iff.mp h d hd
    simpa using this
  unfold Tile.took
  rw [this]

/-- The kind of place an act writes, as `Act.places` numbers them; 7 for an act that writes no such place. -/
def Act.kind : Act → Nat
  | .mac .. | .acc .. => 0
  | .sram .. | .codes .. => 1
  | .sreg .. => 2
  | .preg .. => 3
  | .pflag .. => 4
  | .sbOpen .. | .sbEnt .. | .sbLoad .. => 5
  | .fctx .. => 6
  | _ => 7

theorem Act.places_kind (a : Act) : ∀ x ∈ a.places, x.1 = a.kind := by
  intro x hx
  cases a
  case sreg r v | pflag r v =>
    obtain ⟨-, hx⟩ := Option.ite_none_left_eq_some.mp hx
    cases hx
    rfl
  all_goals cases hx <;> rfl

/-- Writes to places of different kinds do not meet. -/
theorem clash_of_kind {a b : Pend} (h : a.act.kind ≠ b.act.kind) : clash a b = none := by
  unfold clash
  split
  · next k lo n k' lo' n' ha hb =>
    have hk : k ≠ k' := fun e => h ((a.act.places_kind _ ha).symm.trans (e.trans (b.act.places_kind _ hb)))
    rw [if_neg (fun hc => hk hc.1)]
  · rfl

theorem clashes_of_kinds : ∀ {l : List Pend}, (l.map fun d => d.act.kind).Nodup → clashes l = []
  | [], _ => rfl
  | a :: l, h => by
    obtain ⟨ha, hl⟩ := List.nodup_cons.mp h
    have hnone : ∀ b ∈ l, clash a b = none := fun b hb => clash_of_kind fun e => ha (List.mem_map.mpr ⟨b, hb, e.symm⟩)
    rw [clashes, clashes_of_kinds hl, List.append_nil]
    exact List.filterMap_eq_nil_iff.mpr fun b hb => by rw [hnone b hb]; rfl

/-- A clk in which the acts due change the tile alone, and no two of them meet (R209). -/
theorem State.With.tick (h : s.With p c y u) (hd : y.due c = l) (hl : ∀ d ∈ l, d.act.inTile = true) (hcl : clashes l = [])
    (hn : y.noWrite ≠ some c) : s.With p c ((y.took c).after l) (u.tickTile p).1 := by
  have hreads : l.filter (fun d => d.act.isRead) = [] :=
    List.filter_eq_nil_iff.mpr fun d m => by simp [(Act.inTile_facts (hl d m)).1]
  have hwrites : l.filter (fun d => !d.act.isRead) = l :=
    List.filter_eq_self.mpr fun d m => by simp [(Act.inTile_facts (hl d m)).1]
  have hmarks : l.filter (fun d => d.act.setsMark) = [] :=
    List.filter_eq_nil_iff.mpr fun d m => by simp [(Act.inTile_facts (hl d m)).2]
  have hothers : l.filter (fun d => !d.act.setsMark) = l :=
    List.filter_eq_self.mpr fun d m => by simp [(Act.inTile_facts (hl d m)).2]
  have hd' : y.pend.filter (fun d => d.due == c) = l := hd
  unfold State.tickTile
  simp only [h.tile, h.clk, hd', hreads, hwrites, hmarks, hothers, List.flatMap_nil, List.filter_nil, List.append_nil, hcl]
  split
  · next he =>
    obtain rfl : l = [] := List.isEmpty_iff.mp he
    rw [Tile.took_idle hd]
    exact h
  · have hgo : (lowestClash []).isEmpty = true ∧ y.noWrite ≠ some (u.setTile p (y.took c)).clk := ⟨rfl, h.clk.symm ▸ hn⟩
    split
    case isFalse hno => exact absurd hgo hno
    exact (h.setTile _).acts hl

/-- A clk in which nothing is due. -/
theorem State.With.idle (h : s.With p c y u) (hd : y.due c = []) : s.With p c y (u.tickTile p).1 := by
  unfold State.tickTile
  have hd' : y.pend.filter (fun d => d.due == c) = [] := hd
  simp only [h.tile, h.clk, hd', List.isEmpty_nil, if_true]
  exact h

/-- A clk in which one read is due, whose results fall due later. -/
theorem State.With.read (h : s.With p c y u) (hd : y.due c = [d]) (hr : d.act.isRead = true)
    (hlater : ∀ e ∈ u.runRead p d, e.due ≠ c) :
    s.With p c { y with pend := (y.took c).pend ++ u.runRead p d } (u.tickTile p).1 := by
  have hnow : (u.runRead p d).filter (fun e => e.due == c) = [] :=
    List.filter_eq_nil_iff.mpr fun e m => by simpa using hlater e m
  have hrest : (u.runRead p d).filter (fun e => e.due != c) = u.runRead p d :=
    List.filter_eq_self.mpr fun e m => by simpa using hlater e m
  have hd' : y.pend.filter (fun d => d.due == c) = [d] := hd
  unfold State.tickTile
  simp only [h.tile, h.clk, hd', List.isEmpty_cons, Bool.false_eq_true, if_false, List.filter_cons, hr, if_true,
      List.filter_nil,
    Bool.not_true, List.flatMap_cons, List.flatMap_nil, List.append_nil, hnow, hrest, clashes, lowestClash, List.dedup_nil,
    List.foldl_nil, ite_self]
  exact h.setTile _

/-- The last of some clks comes after the others. -/
theorem State.run_last (u : State) (p n : Nat) :
    u.run p (n + 1) = (({ u.run p n with clk := (u.run p n).clk + 1 } : State).tickTile p).1 := by
  induction n generalizing u with
  | zero => rfl
  | succ n ih => exact ih { (u.tickTile p).1 with clk := (u.tickTile p).1.clk + 1 }

theorem State.With.run_tick {n : Nat} (h : s.With p c y (u.run p n)) (hd : y.due (c + 1) = l)
    (hl : ∀ d ∈ l, d.act.inTile = true) (hcl : clashes l = []) (hn : y.noWrite ≠ some (c + 1)) :
    s.With p (c + 1) ((y.took (c + 1)).after l) (u.run p (n + 1)) := by
  rw [State.run_last]
  exact h.next.tick hd hl hcl hn

theorem State.With.run_idle {n : Nat} (h : s.With p c y (u.run p n)) (hd : y.due (c + 1) = []) :
    s.With p (c + 1) y (u.run p (n + 1)) := by
  rw [State.run_last]
  exact h.next.idle hd

/-! ### A tile's registers -/

theorem Tile.setS_eq (t : Tile) (r v : Nat) : t.setS r v = { t with s := (t.setS r v).s } := by
  unfold Tile.setS
  split <;> rfl

theorem Tile.setF_eq (t : Tile) (r : Nat) (v : Bool) : t.setF r v = { t with pf := (t.setF r v).pf } := by
  unfold Tile.setF
  split <;> rfl

theorem Tile.sreg_setS (t : Tile) (r v q : Nat) :
    (t.setS r v).sreg q = if q = r then (if r = 0 then 0 else v % 2 ^ 32) else t.sreg q := by
  by_cases hr : r = 0
  · subst hr
    by_cases hq : q = 0 <;> simp [Tile.sreg, Tile.setS, hq]
  · by_cases hq : q = r
    · subst hq
      simp [Tile.sreg, Tile.setS, hr, mget_mset_same]
    · simp [Tile.sreg, Tile.setS, hr, hq, mget_mset_other]

theorem Tile.flag_setF (t : Tile) (r : Nat) (v : Bool) (q : Nat) :
    (t.setF r v).flag q = if q = r then (if r = 0 then true else v) else t.flag q := by
  by_cases hr : r = 0
  · subst hr
    by_cases hq : q = 0 <;> simp [Tile.flag, Tile.setF, hq]
  · by_cases hq : q = r
    · subst hq
      simp [Tile.flag, Tile.setF, hr, mget_mset_same]
    · simp [Tile.flag, Tile.setF, hr, hq, mget_mset_other]

theorem Tile.preg_setP (t : Tile) (r v q : Nat) : (t.setP r v).preg q = if q = r then v % 2 ^ 25 else t.preg q := by
  unfold Tile.preg Tile.setP
  by_cases hq : q = r
  · simp [hq, mget_mset_same]
  · simp [hq, mget_mset_other]

/-! ### The clk of an issue -/

variable {t : Iss} {r occ : Nat} {a : List (Nat × Nat × Act)}

/-- The acts that an issue plans. -/
def State.planned (s : State) (t : Iss) (a : List (Nat × Nat × Act)) : List Pend :=
  a.map fun x => { due := s.clk + x.2.1, addr := s.wordAt t.tile, unit := x.1, act := x.2.2 }

theorem State.issued_with : s.With t.tile s.clk ((s.issued t r occ a).tile t.tile) (s.issued t r occ a) where
  same := rfl
  clk := rfl
  tile := rfl
  others _ hq := (State.setTile_tile _ _ _ _).trans (if_neg hq)

theorem State.quiet.pend (hq : s.quiet t.tile) : ((s.issued t r occ a).tile t.tile).pend = s.planned t a := by
  rw [State.issued_tile]
  exact congrArg (· ++ _) hq.1

theorem State.quiet.noWrite (hq : s.quiet t.tile) {n : Nat} : ((s.issued t r occ a).tile t.tile).noWrite ≠ some
    (s.clk + n) := by
  rw [State.issued_tile]
  intro h
  exact absurd (hq.2 _ h) (by omega)

theorem State.plan_issued {l : List Pend}
    (hl : l = a.map fun x => (s.issued t r occ []).pendAt (s.wordAt t.tile) x.1 x.2.1 x.2.2) :
    (s.issued t r occ []).plan t.tile l = s.issued t r occ a := by
  rw [hl]
  exact State.issued_plan _ _ _ _ _

theorem State.planned_filter (f : Nat → Bool) :
    (s.planned t a).filter (fun d => f d.due) = s.planned t (a.filter fun x => f (s.clk + x.2.1)) := by
  simp only [State.planned, List.filter_map]
  rfl

theorem State.planned_inTile (ha : ∀ x ∈ a, x.2.2.inTile = true) : ∀ d ∈ s.planned t a, d.act.inTile = true := by
  intro d hd
  obtain ⟨x, hx, rfl⟩ := List.mem_map.mp hd
  exact ha x hx

theorem State.quiet.due (hq : s.quiet t.tile) (n : Nat) :
    ((s.issued t r occ a).tile t.tile).due (s.clk + n) = s.planned t (a.filter fun x => x.2.1 == n) := by
  rw [Tile.due, hq.pend, State.planned_filter (f := (· == s.clk + n))]
  exact congrArg (s.planned t) (List.filter_congr fun x _ => by rw [Bool.eq_iff_iff]; simp)

theorem State.quiet.took (hq : s.quiet t.tile) :
    (((s.issued t r occ a).tile t.tile).took s.clk).pend = s.planned t (a.filter fun x => x.2.1 != 0) := by
  rw [Tile.took, hq.pend, State.planned_filter (f := (· != s.clk))]
  exact congrArg (s.planned t) (List.filter_congr fun x _ => by rw [Bool.eq_iff_iff]; simp)

/-- R206: a quiet tile makes the acts that an issue plans for its own clk. -/
theorem State.quiet.run_now (hq : s.quiet t.tile) (ha : ∀ x ∈ a, x.2.1 = 0 ∧ x.2.2.inTile = true)
    (hcl : clashes (s.planned t a) = []) :
    s.With t.tile s.clk ((((s.issued t r occ a).tile t.tile).took s.clk).after (s.planned t a))
      ((s.issued t r occ a).run t.tile 0) := by
  refine State.issued_with.tick ((hq.due 0).trans ?_) (State.planned_inTile fun x hx => (ha x hx).2) hcl (hq.noWrite (n := 0))
  rw [List.filter_eq_self.mpr fun x hx => by simp [(ha x hx).1]]

end Passing

end Sys2Proof.Machine

end
section
/-! SUPPORT. What FSEL, MARK and MCHK do once they issue (R248, R251, R252, R340). -/

namespace Sys2Proof.Machine

section Frames

variable {s : State} {t : Iss}

/-- What FSEL plans in its clk (R248). -/
def fselActs (f : Nat × Bool) (wr : Bool) (sd pd : Nat) : List (Nat × Nat × Act) :=
  [(4, 0, .fctx f.1 f.2), (4, 0, .pflag pd f.2)] ++ if wr then [(4, 0, .sreg sd (f.1 % 2 ^ 32))] else []

theorem execFsel_ready {lag sd pd : Nat} {wr : Bool} (h : s.ready t 0) (hc : s.spells (.fsel t lag wr sd pd) t.tile = true) :
    execFsel t lag wr sd pd s = .next (s.issued t 0 0 (fselActs (s.fselOf t.tile lag) wr sd pd)) := by
  refine (s.issue_ready t 0 0 _ _ h hc).trans (congrArg _ (State.plan_issued ?_))
  cases wr <;> rfl

theorem fselActs_run {f : Nat × Bool} {wr : Bool} {sd pd : Nat} (hq : s.quiet t.tile) :
    s.With t.tile s.clk ((((s.issued t 0 0 (fselActs f wr sd pd)).tile t.tile).took s.clk).after
        (s.planned t (fselActs f wr sd pd)))
      ((s.issued t 0 0 (fselActs f wr sd pd)).run t.tile 0) := by
  refine hq.run_now ?_ ?_
  · cases wr <;> simp [fselActs, Act.inTile]
  · refine clashes_of_kinds ?_
    cases wr <;> simp [fselActs, State.planned, Act.kind]

/-- What FSEL's acts leave in a tile: frame context, the flag, and with `wr` the register. -/
theorem fselActs_after (y : Tile) (f : Nat × Bool) (wr : Bool) (sd pd : Nat) :
    let z := y.after (s.planned t (fselActs f wr sd pd))
    z.fnum = f.1 ∧ z.fvoid = f.2 ∧ (∀ r, z.flag r = if r = pd then (if pd = 0 then true else f.2) else y.flag r) ∧
      (∀ r, z.sreg r = if wr = true ∧ r = sd then (if sd = 0 then 0 else f.1 % 2 ^ 32) else y.sreg r) ∧
      (wr = false → z.s = y.s) ∧ z.p = y.p ∧ z.a = y.a ∧ z.cm = y.cm := by
  let v : Tile := ({ y with fnum := f.1, fvoid := f.2 } : Tile).setF pd f.2
  have hafter : y.after (s.planned t (fselActs f wr sd pd)) = if wr = true then v.setS sd (f.1 % 2 ^ 32) else v := by
    cases wr <;> rfl
  have hv : v = { y with fnum := f.1, fvoid := f.2, pf := v.pf } := Tile.setF_eq _ _ _
  have hflag : ∀ r, v.flag r = if r = pd then (if pd = 0 then true else f.2) else y.flag r := fun r => Tile.flag_setF _ _ _ _
  have hsreg : ∀ r, v.sreg r = y.sreg r := fun r => by rw [hv]; rfl
  have hkept : v.fnum = f.1 ∧ v.fvoid = f.2 ∧ v.s = y.s ∧ v.p = y.p ∧ v.a = y.a ∧ v.cm = y.cm := by
    rw [hv]
    exact ⟨rfl, rfl, rfl, rfl, rfl, rfl⟩
  clear_value v
  obtain ⟨hnum, hvoid, hs, hp, ha, hcm⟩ := hkept
  cases wr
  · rw [hafter, if_neg Bool.false_ne_true]
    exact ⟨hnum, hvoid, hflag, fun r => by simpa using hsreg r, fun _ => hs, hp, ha, hcm⟩
  · rw [hafter, if_pos rfl]
    have hz : v.setS sd (f.1 % 2 ^ 32) = { v with s := (v.setS sd (f.1 % 2 ^ 32)).s } := Tile.setS_eq _ _ _
    have hset := Tile.sreg_setS v sd (f.1 % 2 ^ 32)
    generalize v.setS sd (f.1 % 2 ^ 32) = z at hz hset ⊢
    rw [hz]
    refine ⟨hnum, hvoid, hflag, fun r => ?_, by simp, hp, ha, hcm⟩
    rw [← hz, hset, hsreg]
    simp

/-- R248, R340: what FSEL leaves in its tile. -/
theorem execFsel_tile {lag sd pd : Nat} {wr : Bool} (h : s.ready t 0) (hq : s.quiet t.tile)
    (hc : s.spells (.fsel t lag wr sd pd) t.tile = true) :
    ∃ u, execFsel t lag wr sd pd s = .next u ∧
      let f := s.fselOf t.tile lag
      let x := s.tile t.tile
      let y := (u.run t.tile 0).tile t.tile
      onlyTile s (u.run t.tile 0) t.tile ∧ y.fnum = f.1 ∧ y.fvoid = f.2 ∧
        (∀ r, y.flag r = if r = pd then (if pd = 0 then true else f.2) else x.flag r) ∧
        (∀ r, y.sreg r = if wr = true ∧ r = sd then (if sd = 0 then 0 else f.1 % 2 ^ 32) else x.sreg r) ∧
        (wr = false → y.s = x.s) ∧ y.p = x.p ∧ y.a = x.a ∧ y.cm = x.cm := by
  have hrun := fselActs_run (f := s.fselOf t.tile lag) (wr := wr) (sd := sd) (pd := pd) hq
  refine ⟨_, execFsel_ready h hc, hrun.onlyTile, ?_⟩
  rw [hrun.tile]
  obtain ⟨hnum, hvoid, hflag, hsreg, hs, hp, ha, hcm⟩ := fselActs_after (s := s) (t := t)
    (((s.issued t 0 0 (fselActs (s.fselOf t.tile lag) wr sd pd)).tile t.tile).took s.clk) (s.fselOf t.tile lag) wr sd pd
  refine ⟨hnum, hvoid, fun r => (hflag r).trans ?_, fun r => (hsreg r).trans ?_, fun h => (hs h).trans ?_, hp.trans ?_, ha.trans
      ?_,
    hcm.trans ?_⟩
  · exact congrArg (ite _ _) (State.issued_flag _ _ _ _ _ _)
  · exact congrArg (ite _ _) (State.issued_sreg _ _ _ _ _ _)
  · exact State.issued_s _ _ _ _ _
  · exact State.issued_p _ _ _ _ _
  · exact State.issued_a _ _ _ _ _
  · exact State.issued_cm _ _ _ _ _

theorem State.checked_of_alloc {p a : Nat} {acc : List (Nat × Nat × Bool)} {reach : List Reach} {k : State}
    (h : s.alloc p acc = none) : s.checked p a acc reach k = k := by
  simp only [State.checked, h]

/-- R251: the state once MARK has sent its value, read as `v`. -/
def State.markSent (s : State) (t : Iss) (o : MarkOps) (v : Nat) : State :=
  { s.issued t 0 0 [] with dec := { s.dec with marks := s.dec.marks ++
    [⟨s.clk + 20, t.tile, s.wordAt t.tile, (s.tile t.tile).fnum, o.score, markValue o.fmt o.zp v, s.windowTile t.tile, false⟩] }
        }

theorem State.issued_fnum : ((s.issued t 0 0 []).tile t.tile).fnum = (s.tile t.tile).fnum := by
  rw [State.issued_tile]

/-- R251: MARK from a register. -/
theorem execMark_register {o : MarkOps} (h : s.ready t 0) (hc : s.spells (.mark t o) t.tile = true) (ho : o.src = 1) :
    execMark t o s = .next (s.markSent t o ((s.tile t.tile).sreg o.sreg)) := by
  refine (s.issue_ready t 0 0 _ _ h hc).trans (congrArg _ ?_)
  simp only [ho, if_true, State.issued_fnum, State.issued_sreg]
  rfl

/-- R251: MARK from SRAM. -/
theorem execMark_memory {o : MarkOps} (h : s.ready t 0) (hc : s.spells (.mark t o) t.tile = true) (ho : o.src ≠ 1) {a n : Nat}
    (hat : a = ((s.tile t.tile).preg o.ptr + o.offset) % 2 ^ 25) (hn : n = if o.fmt = 2 then 2 else 1)
    (hal : s.alloc t.tile [(a, n, false)] = none) :
    execMark t o s = .next (s.markSent t o (leNat (s.sram t.tile a n))) := by
  subst hat hn
  refine (s.issue_ready t 0 0 _ _ h hc).trans (congrArg _ ?_)
  simp only [ho, if_false, State.issued_preg, State.issued_sram, State.issued_fnum]
  refine State.checked_of_alloc ?_
  rwa [State.issued_alloc]

theorem leNat_sram_one (s : State) (p a : Nat) : leNat (s.sram p a 1) = (readByte s.mem (sramBase p + a)).toNat := by
  have := (readByte s.mem (sramBase p + a)).isLt
  simp [State.sram, readBytes, leNat, Nat.mod_eq_of_lt this]

theorem leNat_sram_two (s : State) (p a : Nat) : BitVec.ofNat 16 (leNat (s.sram p a 2)) =
    readByte s.mem (sramBase p + a + 1) ++ readByte s.mem (sramBase p + a) := by
  have h0 := (readByte s.mem (sramBase p + a)).isLt
  have h1 := (readByte s.mem (sramBase p + a + 1)).isLt
  refine BitVec.eq_of_toNat_eq ?_
  rw [BitVec.toNat_append, ← Nat.shiftLeft_add_eq_or_of_lt h0]
  simp only [State.sram, readBytes, List.range_succ, List.range_zero, List.nil_append, List.map_cons, List.map_nil,
    List.cons_append, leNat, Nat.add_zero, BitVec.toNat_ofNat, Nat.shiftLeft_eq]
  omega

/-- R252: MCHK clears a mark that is set. -/
theorem execMchk_clears {cm : Nat} (h : s.ready t 0) (hq : s.quiet t.tile) (hc : s.spells (.mchk t cm true) t.tile = true)
    (hcm : mget false (s.tile t.tile).cm cm = true) :
    ∃ u, execMchk t cm true s = .next u ∧ onlyTile s (u.run t.tile 0) t.tile ∧
      let x := s.tile t.tile
      let y := (u.run t.tile 0).tile t.tile
      y.cm = mset false x.cm cm false ∧ y.s = x.s ∧ y.p = x.p ∧ y.pf = x.pf := by
  have hex : execMchk t cm true s = .next (s.issued t 0 0 [(4, 0, .cmark cm false)]) := by
    refine (s.issue_ready t 0 0 _ _ h hc).trans (congrArg _ ?_)
    simp only [State.issued_cm, hcm, if_true]
    exact State.plan_issued rfl
  have hrun := hq.run_now (r := 0) (occ := 0) (a := [(4, 0, .cmark cm false)]) (by simp [Act.inTile])
    (clashes_of_kinds (List.nodup_singleton _))
  refine ⟨_, hex, hrun.onlyTile, ?_⟩
  rw [hrun.tile]
  refine ⟨congrArg (mset false · cm false) (State.issued_cm _ _ _ _ _), State.issued_s _ _ _ _ _, State.issued_p _ _ _ _ _,
    State.issued_pf _ _ _ _ _⟩

/-- R252: MCHK of a mark that is set leaves it without `clear`. -/
theorem execMchk_keeps {cm : Nat} (h : s.ready t 0) (hc : s.spells (.mchk t cm false) t.tile = true)
    (hcm : mget false (s.tile t.tile).cm cm = true) : execMchk t cm false s = .next (s.issued t 0 0 []) := by
  refine (s.issue_ready t 0 0 _ _ h hc).trans (congrArg _ ?_)
  simp only [State.issued_cm, hcm, if_true, Bool.false_eq_true, if_false]

/-- R252: MCHK of a mark that is not set faults. -/
theorem execMchk_unset {cm : Nat} {clear : Bool} (h : s.ready t 0) (hc : s.spells (.mchk t cm clear) t.tile = true)
    (hcm : mget false (s.tile t.tile).cm cm = false) :
    execMchk t cm clear s = .next ((s.issued t 0 0 []).tileFault 6 9 t.tile (s.wordAt t.tile) 0) := by
  refine (s.issue_ready t 0 0 _ _ h hc).trans (congrArg _ ?_)
  simp only [State.issued_cm, hcm, Bool.false_eq_true, if_false]

theorem unsignedOf_cast (w : Nat) (x : Int) : (unsignedOf w x : Int) = x % 2 ^ w :=
  Int.toNat_of_nonneg (Int.emod_nonneg x (by positivity))

end Frames

end Sys2Proof.Machine

end
section
/-! CLAIM. The statement about the frame context and the marks. -/

open Sys2Proof Sys2Proof.Machine

/-- Settles O12: FSEL's acts are made in its clk (`execFsel_tile`), MARK's value sets out (`execMark_register`,
`execMark_memory`), and MCHK clears its mark (`execMchk_clears`). -/
theorem frameContextAndMarks : Obligations.FrameContextAndMarks := by
  unfold Obligations.FrameContextAndMarks
  refine ⟨fun s t lag sd pd cm ptr off sreg zp score hr hq => ?_, fun s t lag pd hr hq hwin hc => ?_⟩
  · intro p x n void a here
    refine ⟨fun hwin wr hc hsd => ?_, fun src fmt v hc hv => ?_, fun hcm => ⟨fun hc => ?_, fun hc => ?_⟩, fun hcm clear hc =>
        ?_⟩
    · obtain ⟨u, hu, honly, hnum, hvoid, hflag, hsreg, -, hp, ha, hcm⟩ := execFsel_tile hr hq hc
      have hf : s.fselOf p lag = (unsignedOf 48 (s.job.n0 + n), void) := by
        rw [State.fselOf, hwin]
        rfl
      rw [hf] at hnum hvoid hflag hsreg
      refine ⟨u, hu, honly, ?_, hvoid, ?_, ?_, ?_, ?_, hp, ha, hcm⟩
      · rw [hnum, unsignedOf_cast]
      · rw [hflag, if_pos rfl]
      · exact fun r hr => (hflag r).trans (if_neg hr)
      · exact fun r hr => (hsreg r).trans (if_neg fun h => hr h.2)
      · rw [hsreg, hnum]
        cases wr
        · simp [hsd rfl, Tile.sreg]
        · simp
    · have hsent : ∀ w, markValue fmt zp w = v →
          let u := s.markSent t ⟨src, ptr, off, sreg, fmt, score, zp⟩ w
          u.dec.marks = s.dec.marks ++ [⟨s.clk + 20, p, s.wordAt p, x.fnum, score, v, s.windowTile p, false⟩] ∧
            { u with dec := { u.dec with marks := s.dec.marks }, tiles := s.tiles } = s := by
        rintro w rfl
        exact ⟨rfl, rfl⟩
      obtain ⟨rfl, rfl, rfl⟩ | ⟨rfl, rfl, hal, rfl⟩ | ⟨rfl, rfl, hal, rfl⟩ | ⟨rfl, rfl, hal, rfl⟩ := hv
      · exact ⟨_, execMark_register hr hc rfl, hsent _ (signed_eq_toInt (by decide) _)⟩
      · refine ⟨_, execMark_memory (a := a) (n := 1) hr hc Nat.zero_ne_one rfl rfl hal, hsent _ ?_⟩
        rw [leNat_sram_one]
        exact congrArg (fun b : Nat => (b : Int) - zp) (Nat.mod_eq_of_lt (BitVec.isLt _))
      · refine ⟨_, execMark_memory (a := a) (n := 1) hr hc Nat.zero_ne_one rfl rfl hal, hsent _ ?_⟩
        rw [leNat_sram_one]
        exact (signed_eq_toInt (by decide) _).trans (by simp [p])
      · refine ⟨_, execMark_memory (a := a) (n := 2) hr hc Nat.zero_ne_one rfl rfl hal, hsent _ ?_⟩
        exact (signed_eq_toInt (by decide) _).trans (congrArg BitVec.toInt (leNat_sram_two s p a))
    · obtain ⟨u, hu, honly, hcm', hs, hp, hpf⟩ := execMchk_clears hr hq hc hcm
      refine ⟨u, hu, honly, ?_, fun c hc => ?_, hs, hp, hpf⟩
      · rw [hcm', mget_mset_same]
      · rw [hcm', mget_mset_other _ _ _ _ _ hc]
    · exact execMchk_keeps hr hc hcm
    · exact execMchk_unset hr hc hcm
  · intro z
    obtain ⟨u, hu, honly, hnum, hvoid, -, -, hs, -⟩ := execFsel_tile hr hq hc
    have hf : s.fselOf t.tile lag = (unsignedOf 48 z, decide (z < 0) || s.slotEmpty z.toNat) := by
      simp only [State.fselOf, hwin, if_true, z, Nat.cast_max, Nat.cast_one]
    rw [hf] at hnum hvoid
    refine ⟨u, hu, honly, ?_, hvoid, hs rfl⟩
    rw [hnum, unsignedOf_cast]

end
section
/-! SUPPORT. Sparse maps written a list at a time. -/

namespace Sys2Proof.Machine

section Lists

variable {α : Type}

theorem mget_msetList [DecidableEq α] (d : α) (l : List α) (m : SMap α) (k j : Nat) :
    mget d (msetList d m k l) j = if k ≤ j ∧ j < k + l.length then l.getD (j - k) d else mget d m j := by
  induction l generalizing m k with
  | nil => rw [msetList, if_neg (by simp only [List.length_nil]; omega)]
  | cons v l ih =>
    rw [msetList, ih]
    by_cases hj : j = k
    · subst hj
      simp
    · rw [mget_mset_other _ _ _ _ _ hj]
      by_cases hin : k + 1 ≤ j ∧ j < k + 1 + l.length
      · rw [if_pos hin, if_pos (by rw [List.length_cons]; omega), show j - k = j - (k + 1) + 1 by omega, List.getD_cons_succ]
      · rw [if_neg hin, if_neg (by rw [List.length_cons]; omega)]

/-- The values `f` of a range of keys, zeros left out, read as `f`. -/
theorem mget_sparse (f : Nat → Int) (n a k : Nat) :
    mget 0 (((List.range' a n).map (fun u => (u, f u))).filter (fun e => e.2 != 0)) k = if a ≤ k ∧ k < a + n then f k else
        0 := by
  induction n generalizing a with
  | zero => rw [if_neg (by omega)]; rfl
  | succ n ih =>
    rw [List.range'_succ, List.map_cons]
    by_cases hf : f a = 0
    · rw [List.filter_cons_of_neg (by simp [hf]), ih]
      by_cases hk : k = a
      · simp [hk, hf]
      · simp only [show a + 1 ≤ k ∧ k < a + 1 + n ↔ a ≤ k ∧ k < a + (n + 1) by omega]
    · rw [List.filter_cons_of_pos (by simp [hf]), mget, ih]
      by_cases hk : k = a
      · simp [hk]
      · by_cases hlt : k < a
        · rw [if_neg hk, if_pos hlt, if_neg (by omega)]
        · simp only [hk, hlt, if_false, show a + 1 ≤ k ∧ k < a + 1 + n ↔ a ≤ k ∧ k < a + (n + 1) by omega]

/-- One lane's product is added with saturation, and clips are counted (R126, R127). -/
def addLane (acc : SMap Int × Nat) (e : Nat × Int) : SMap Int × Nat :=
  let v := accSat (mget 0 acc.1 e.1 + e.2)
  (mset 0 acc.1 e.1 v.1, acc.2 + v.2)

/-- Lanes that are each named once are each added once. -/
theorem mget_addLanes {l : List (Nat × Int)} (hl : (l.map Prod.fst).Nodup) (acc : SMap Int × Nat) :
    (∀ e ∈ l, mget 0 (l.foldl addLane acc).1 e.1 = (accSat (mget 0 acc.1 e.1 + e.2)).1) ∧
      ∀ k, k ∉ l.map Prod.fst → mget 0 (l.foldl addLane acc).1 k = mget 0 acc.1 k := by
  induction l generalizing acc with
  | nil => exact ⟨fun e h => absurd h List.not_mem_nil, fun _ _ => rfl⟩
  | cons a l ih =>
    obtain ⟨ha, hl⟩ := List.nodup_cons.mp hl
    obtain ⟨hin, hout⟩ := ih hl (addLane acc a)
    have hother : ∀ k, k ≠ a.1 → mget 0 (addLane acc a).1 k = mget 0 acc.1 k := fun k hk => mget_mset_other _ _ _ _ _ hk
    refine ⟨fun e he => ?_, fun k hk => ?_⟩
    · obtain rfl | he := List.mem_cons.mp he
      · exact (hout _ ha).trans (mget_mset_same _ _ _ _)
      · rw [List.foldl_cons, hin e he, hother]
        exact fun h => ha (h ▸ List.mem_map_of_mem he)
    · rw [List.map_cons, List.mem_cons, not_or] at hk
      obtain ⟨hne, hk⟩ := hk
      rw [List.foldl_cons, hout k hk, hother k hne]

end Lists

end Sys2Proof.Machine

end
section
/-! SUPPORT. The array's instructions once they issue (R212 to R217): the activation source, and the clks that follow. -/

namespace Sys2Proof.Machine

section Array

variable {s u : State} {t : Iss} {r occ p c src ptr off slice : Nat} {inc : Bool} {bytes : List Nat} {y : Tile}
  {a : List (Nat × Nat × Act)}

/-! ### The activation source -/

/-- `s` with the register of activation source `src` read (R174). -/
def State.reads (s : State) (p src : Nat) : State := { s with net := { s.net with read := readsOf p src ++ s.net.read } }

theorem State.plan_reads (s : State) (q p : Nat) (l : List Pend) : (s.reads q src).plan p l = (s.plan p l).reads q src := rfl

/-- An activation source that holds bytes hands them on. -/
theorem State.actSource_bytes {addr : Nat} {k : State → List Nat → State} (h : s.sourceBytes p src ptr off slice = some bytes) :
    s.actSource p addr src ptr off slice k = k (s.reads p src) bytes := by
  have hport : ∀ {rg cls : Nat}, (s.reg (regKey p rg)).map (fun w => sliceOf w.word slice) = some bytes →
      (match s.reg (regKey p rg) with
        | some w => k (s.markRead (regKey p rg)) (sliceOf w.word slice)
        | none => s.emptyReceive p addr cls) = k (s.markRead (regKey p rg)) bytes := by
    intro rg cls hw
    obtain ⟨w, hreg, rfl⟩ := Option.map_eq_some_iff.mp hw
    rw [hreg]
  match src, h with
  | 0, h => cases h; rfl
  | 1, h =>
    obtain ⟨hal, hb⟩ := Option.ite_none_right_eq_some.mp h
    cases hb
    exact State.checked_of_alloc hal
  | 2, h => exact hport h
  | 3, h => exact hport h
  | _ + 4, h => exact hport h

theorem State.sourceBytes_issued :
    (s.issued t r occ a).sourceBytes t.tile src ptr off slice = s.sourceBytes t.tile src ptr off slice := by
  simp only [State.sourceBytes, State.issued_x, State.issued_preg, State.issued_alloc, State.issued_sram, State.issued_reg]

theorem State.With.reads (h : s.With p c y u) (q : Nat) : (s.reads q src).With p c y (u.reads q src) where
  same := congrArg (State.reads · q src) h.same
  clk := h.clk
  tile := h.tile
  others := h.others

/-- What an activation source leaves in its clk: the latch, and the pointer moved (R214, R217). -/
def sourceActs (x : Tile) (unit src ptr : Nat) (inc : Bool) (bytes : List Nat) : List (Nat × Nat × Act) :=
  (if src ≠ 0 then [(unit, 0, .latch bytes)] else []) ++ if src = 1 ∧ inc = true then [(unit, 0, .preg ptr (x.preg ptr + 32))]
      else []

theorem sourceActs_now {x : Tile} {unit : Nat} : ∀ e ∈ sourceActs x unit src ptr inc bytes, e.2.1 = 0 ∧ e.2.2.inTile =
    true := by
  unfold sourceActs
  split <;> split <;> simp [Act.inTile]

theorem sourceActs_clashes {x : Tile} {unit : Nat} : clashes (s.planned t (sourceActs x unit src ptr inc bytes)) = [] := by
  refine clashes_of_kinds ?_
  unfold sourceActs
  split <;> split <;> simp [State.planned, Act.kind]

theorem sourceActs_after {x : Tile} {unit : Nat} :
    y.after (s.planned t (sourceActs x unit src ptr inc bytes)) = { y with
      x := if src ≠ 0 then bytes else y.x
      p := if src = 1 ∧ inc = true then mset 0 y.p ptr ((x.preg ptr + 32) % 2 ^ 25) else y.p } := by
  unfold sourceActs
  split <;> split <;> rfl

/-! ### XLD and WSWP -/

theorem execXld_ready (h : s.ready t 3) (hc : s.spells (.xld t src ptr inc slice off) t.tile = true) (hsrc : 1 ≤ src)
    (hb : s.sourceBytes t.tile src ptr off slice = some bytes) :
    execXld t src ptr inc slice off s =
      .next ((s.issued t 3 1 (sourceActs (s.tile t.tile) 2 src ptr inc bytes)).reads t.tile src) := by
  refine (s.issue_ready t 3 1 _ _ h hc).trans (congrArg _ ?_)
  rw [State.actSource_bytes (State.sourceBytes_issued.trans hb), State.issued_preg, State.plan_reads]
  refine congrArg (State.reads · t.tile src) (State.plan_issued (a := sourceActs (s.tile t.tile) 2 src ptr inc bytes) ?_)
  have hs : src ≠ 0 := Nat.one_le_iff_ne_zero.mp hsrc
  simp only [sourceActs, hs, ne_eq, not_false_eq_true, if_true]
  split <;> rfl

theorem execWswp_ready (h : s.ready t 0) (hc : s.spells (.wswp t) t.tile = true)
    (hdone : (s.tile t.tile).fillBank ≠ 1 - (s.tile t.tile).active ∨ (s.tile t.tile).fillDone ≤ s.clk) :
    execWswp t s = .next (s.issued t 0 0 [(0, 0, .swap)]) := by
  refine (s.issue_ready t 0 0 _ _ h hc).trans (congrArg _ ?_)
  have hlate : ¬ (((s.issued t 0 0 []).tile t.tile).fillBank = 1 - ((s.issued t 0 0 []).tile t.tile).active ∧
      s.clk < ((s.issued t 0 0 []).tile t.tile).fillDone) := by
    rw [State.issued_tile]
    exact fun h => hdone.elim (fun e => e h.1) (fun e => absurd h.2 (by simpa using e))
  exact (if_neg hlate).trans (State.plan_issued rfl)

/-! ### MAC and CMAC -/

/-- What MAC and CMAC plan: the products for clk t + 4 (R215), and what their source leaves. -/
def macActs (x : Tile) (o : MacOps) (clear : Bool) (tag : Nat) (bytes : List Nat) : List (Nat × Nat × Act) :=
  (0, 4, .mac o.dest clear (x.dots o bytes) tag) :: sourceActs x 0 o.src o.ptr o.postInc bytes

theorem State.macEffect_issued {o : MacOps} {clear : Bool} {tag : Nat}
    (hb : s.sourceBytes t.tile o.src o.ptr 0 o.slice = some bytes) :
    (s.issued t 1 1 []).macEffect t o clear tag (s.wordAt t.tile) =
      (s.issued t 1 1 (macActs (s.tile t.tile) o clear tag bytes)).reads t.tile o.src := by
  unfold State.macEffect
  rw [State.actSource_bytes (State.sourceBytes_issued.trans hb), State.issued_preg, State.plan_reads]
  refine congrArg (State.reads · t.tile o.src) (State.plan_issued (a := macActs (s.tile t.tile) o clear tag bytes) ?_)
  have hdots : ((s.issued t 1 1 []).tile t.tile).dots o bytes = (s.tile t.tile).dots o bytes := by
    rw [State.issued_tile]
    rfl
  rw [macActs, sourceActs, hdots]
  split <;> split <;> rfl

theorem execMac_ready {o : MacOps} (h : s.ready t 1) (hc : s.spells (.mac t o) t.tile = true)
    (hb : s.sourceBytes t.tile o.src o.ptr 0 o.slice = some bytes) :
    execMac t o s = .next ((s.issued t 1 1 (macActs (s.tile t.tile) o false 0 bytes)).reads t.tile o.src) :=
  (s.issue_ready t 1 1 _ _ h hc).trans (congrArg _ (State.macEffect_issued hb))

theorem execCmac_ready {o : MacOps} {ph pos : Nat} (h : s.ready t 1) (hc : s.spells (.cmac t o ph pos) t.tile = true)
    (hb : s.sourceBytes t.tile o.src o.ptr 0 o.slice = some bytes) :
    execCmac t o ph pos s =
      .next ((s.issued t 1 1 (macActs (s.tile t.tile) o true ((s.tile t.tile).tagFrom ph pos) bytes)).reads t.tile o.src) := by
  refine (s.issue_ready t 1 1 _ _ h hc).trans (congrArg _ ?_)
  rw [State.macEffect_issued hb]
  simp only [Tile.tagFrom, State.issued_sreg]

/-- The tile of a MAC or CMAC between the clk of its issue and that of its result. -/
def State.macTile (s : State) (t : Iss) (o : MacOps) (clear : Bool) (tag : Nat) (bytes : List Nat) : Tile :=
  let y := (s.issued t 1 1 (macActs (s.tile t.tile) o clear tag bytes)).tile t.tile
  { y with
    x := if o.src ≠ 0 then bytes else y.x
    p := if o.src = 1 ∧ o.postInc = true then mset 0 y.p o.ptr (((s.tile t.tile).preg o.ptr + 32) % 2 ^ 25) else y.p
    pend := s.planned t [(0, 4, .mac o.dest clear ((s.tile t.tile).dots o bytes) tag)] }

theorem macActs_now {x : Tile} {o : MacOps} {clear : Bool} {tag : Nat} :
    ((macActs x o clear tag bytes).filter fun e => e.2.1 == 0) = sourceActs x 0 o.src o.ptr o.postInc bytes ∧
      ((macActs x o clear tag bytes).filter fun e => e.2.1 != 0) = [(0, 4, .mac o.dest clear (x.dots o bytes) tag)] := by
  unfold macActs
  rw [List.filter_cons_of_neg (by simp), List.filter_cons_of_pos (by simp)]
  refine ⟨List.filter_eq_self.mpr fun e he => ?_, congrArg _ (List.filter_eq_nil_iff.mpr fun e he => ?_)⟩
  · simp [(sourceActs_now e he).1]
  · simp [(sourceActs_now e he).1]

/-- R215: from the clk of its issue to the one before its result, a MAC or CMAC leaves the latch and pointer of its source. -/
theorem State.quiet.run_mac (hq : s.quiet t.tile) {o : MacOps} {clear : Bool} {tag n : Nat} (hn : n < 4) :
    (s.reads t.tile o.src).With t.tile (s.clk + n) (s.macTile t o clear tag bytes)
      (((s.issued t 1 1 (macActs (s.tile t.tile) o clear tag bytes)).reads t.tile o.src).run t.tile n) := by
  induction n with
  | zero =>
    obtain ⟨hnow, hlater⟩ := macActs_now (x := s.tile t.tile) (o := o) (clear := clear) (tag := tag) (bytes := bytes)
    have h0 := (State.issued_with (s := s) (t := t) (r := 1) (occ := 1) (a := macActs (s.tile t.tile) o clear tag bytes)).reads
      (src := o.src) t.tile
    have h := h0.tick ((hq.due 0).trans (congrArg _ hnow)) (State.planned_inTile fun x hx => (sourceActs_now x hx).2)
      sourceActs_clashes (hq.noWrite (n := 0))
    rw [sourceActs_after] at h
    have hp := (hq.took (r := 1) (occ := 1) (a := macActs (s.tile t.tile) o clear tag bytes)).trans (congrArg _ hlater)
    unfold State.macTile
    rw [← hp]
    exact h
  | succ n ih =>
    refine (ih (by omega)).run_idle ?_
    have hne : ¬ (s.clk + 4 == s.clk + n + 1) = true := by simp; omega
    exact List.filter_cons_of_neg hne

theorem State.countClips_tiles (s : State) (p n : Nat) : (s.countClips p n).tiles = s.tiles := by
  simp only [State.countClips, State.countTile]
  split <;> rfl

/-- R215: MAC's act adds each lane of its file with saturation. -/
theorem State.applyAct_mac_tile (u : State) (p f tag : Nat) (d : SMap Int) :
    (u.applyAct p (.mac f false d tag)).tile p =
      (u.tile p).setFile f { (u.tile p).file f with vals := (d.foldl addLane (((u.tile p).file f).vals, 0)).1 } :=
  (congrArg (fun m => mget ({} : Tile) m p) (State.countClips_tiles _ _ _)).trans (State.setTile_tile_same _ _ _)

theorem Tile.file_setFile (y : Tile) (f : Nat) (v : AFile) (g : Nat) : (y.setFile f v).file g = if g = f then v else y.file
    g := by
  by_cases hg : g = f
  · rw [if_pos hg, hg]
    exact mget_mset_same _ _ _ _
  · rw [if_neg hg]
    exact mget_mset_other _ _ _ _ _ hg

/-- R125, R215: the products of the lanes, with a lane of product 0 left out. -/
theorem Tile.mget_dots (x : Tile) (o : MacOps) (bytes : List Nat) {k : Nat} (hk : k < 1024) :
    mget 0 (x.dots o bytes) k = dot o.k4 o.xSigned o.wSigned o.zx bytes (mget zeroLane (x.bankOf x.active) k) := by
  unfold Tile.dots
  rw [List.range_eq_range']
  exact (mget_sparse _ _ _ _).trans (if_pos (by omega))

/-- R215, R126: the lane `k` of a file after MAC's act. -/
theorem Tile.mget_addDots (x : Tile) (o : MacOps) (bytes : List Nat) (m : SMap Int) {k : Nat} (hk : k < 1024) :
    let d := dot o.k4 o.xSigned o.wSigned o.zx bytes (mget zeroLane (x.bankOf x.active) k)
    mget 0 ((x.dots o bytes).foldl addLane (m, 0)).1 k = if d = 0 then mget 0 m k else (accSat (mget 0 m k + d)).1 := by
  intro d
  have hkeys : ((x.dots o bytes).map Prod.fst).Nodup := by
    refine List.Nodup.sublist (List.filter_sublist.map Prod.fst) ?_
    rw [List.map_map]
    exact (List.map_id' _).symm ▸ List.nodup_range
  obtain ⟨hin, hout⟩ := mget_addLanes hkeys (m, 0)
  by_cases hd : d = 0
  · rw [if_pos hd]
    refine hout k fun h => ?_
    obtain ⟨e, he, rfl⟩ := List.mem_map.mp h
    obtain ⟨hm, hne⟩ := List.mem_filter.mp he
    obtain ⟨u, -, rfl⟩ := List.mem_map.mp hm
    exact absurd hd (by simpa using hne)
  · rw [if_neg hd]
    exact hin (k, d) (List.mem_filter.mpr ⟨List.mem_map.mpr ⟨k, List.mem_range.mpr hk, rfl⟩, by simpa using hd⟩)

theorem State.With.onlyTileNet {q : Nat} (h : (s.reads q src).With p c y u) : onlyTileNet s u p := by
  have := congrArg (fun v : State => { v with net := s.net }) h.same
  exact ⟨this, h.others⟩

theorem State.With.tick_mac {d : Pend} {f tag : Nat} {v : SMap Int} (h : s.With p c y u) (hd : y.due c = [d])
    (hact : d.act = .mac f false v tag) (hn : y.noWrite ≠ some c) :
    (u.tickTile p).1.tile p = (y.took c).setFile f { y.file f with vals := (v.foldl addLane ((y.file f).vals, 0)).1 } := by
  have htick : u.tickTile p = ((u.setTile p (y.took c)).applyAct p d.act, []) := by
    have := State.tickTile_write (s := u) (p := p) (x := d) (by rw [h.tile, h.clk]; exact hd) (by rw [hact]; rfl)
      (by rw [h.tile, h.clk]; exact hn)
    rw [h.tile, h.clk] at this
    exact this
  rw [htick, hact, State.applyAct_mac_tile, State.setTile_tile_same]
  rfl

section Results

variable {o : MacOps} {clear : Bool} {tag : Nat}

/-- The result of a MAC or CMAC is what is due in clk t + 4. -/
theorem State.macTile_due : (s.macTile t o clear tag bytes).due (s.clk + 3 + 1) =
    s.planned t [(0, 4, .mac o.dest clear ((s.tile t.tile).dots o bytes) tag)] :=
  List.filter_cons_of_pos (by simp)

/-- What a MAC or CMAC has left of its tile before its result: the latch and a pointer. -/
theorem State.macTile_kept : let y := s.macTile t o clear tag bytes
    y.a = (s.tile t.tile).a ∧ y.s = (s.tile t.tile).s ∧ y.w0 = (s.tile t.tile).w0 ∧ y.w1 = (s.tile t.tile).w1 ∧
      y.x = if o.src ≠ 0 then bytes else (s.tile t.tile).x := by
  unfold State.macTile
  rw [State.issued_tile]
  exact ⟨rfl, rfl, rfl, rfl, rfl⟩

theorem State.quiet.macTile_noWrite (hq : s.quiet t.tile) : (s.macTile t o clear tag bytes).noWrite ≠ some (s.clk + 3 + 1) :=
  hq.noWrite (n := 4)

/-- R215: the tile in clk t + 4 of a CMAC. -/
theorem State.quiet.run_cmac (hq : s.quiet t.tile) :
    (s.reads t.tile o.src).With t.tile (s.clk + 3 + 1)
      (((s.macTile t o true tag bytes).took (s.clk + 3 + 1)).setFile o.dest
        { vals := (s.tile t.tile).dots o bytes, exp := 0, tag := tag })
      (((s.issued t 1 1 (macActs (s.tile t.tile) o true tag bytes)).reads t.tile o.src).run t.tile 4) :=
  (hq.run_mac (n := 3) (by decide)).run_tick State.macTile_due (State.planned_inTile fun x hx => by
    rw [List.mem_singleton.mp hx]; rfl) (clashes_of_kinds (List.nodup_singleton _)) hq.macTile_noWrite

/-- R215: the tile in clk t + 4 of a MAC. -/
theorem State.quiet.run_mac_result (hq : s.quiet t.tile) :
    let y := s.macTile t o false tag bytes
    (((s.issued t 1 1 (macActs (s.tile t.tile) o false tag bytes)).reads t.tile o.src).run t.tile 4).tile t.tile =
      (y.took (s.clk + 3 + 1)).setFile o.dest { y.file o.dest with
        vals := (((s.tile t.tile).dots o bytes).foldl addLane ((y.file o.dest).vals, 0)).1 } := by
  intro y
  rw [State.run_last]
  exact (hq.run_mac (n := 3) (by decide)).next.tick_mac State.macTile_due rfl hq.macTile_noWrite

/-- R215, R130, R162: the file of a CMAC in clk t + 4, and the rest of its tile. -/
theorem State.quiet.run_cmac_tile (hq : s.quiet t.tile) :
    let x := s.tile t.tile
    let y := (((s.issued t 1 1 (macActs x o true tag bytes)).reads t.tile o.src).run t.tile 4).tile t.tile
    y.file o.dest = { vals := x.dots o bytes, exp := 0, tag := tag } ∧ (∀ f, f ≠ o.dest → y.file f = x.file f) ∧
      (o.src ≠ 0 → y.x = bytes) ∧ y.w0 = x.w0 ∧ y.w1 = x.w1 ∧ y.s = x.s := by
  intro x y
  have hy : y = _ := (hq.run_cmac (o := o) (tag := tag) (bytes := bytes)).tile
  obtain ⟨ha, hs, h0, h1, hx⟩ := s.macTile_kept (t := t) (o := o) (clear := true) (tag := tag) (bytes := bytes)
  rw [hy]
  refine ⟨?_, fun f hf => ?_, fun h => hx.trans (if_pos h), h0, h1, hs⟩
  · rw [Tile.file_setFile, if_pos rfl]
  · rw [Tile.file_setFile, if_neg hf]
    exact congrArg (mget ({} : AFile) · f) ha

/-- R215, R126: the file of a MAC in clk t + 4, and the rest of its tile. -/
theorem State.quiet.run_mac_tile (hq : s.quiet t.tile) :
    let x := s.tile t.tile
    let u := (s.issued t 1 1 (macActs x o false tag bytes)).reads t.tile o.src
    let y := (u.run t.tile 4).tile t.tile
    y.file o.dest = { x.file o.dest with vals := ((x.dots o bytes).foldl addLane ((x.file o.dest).vals, 0)).1 } ∧
      (∀ f, f ≠ o.dest → y.file f = x.file f) ∧ ((u.run t.tile 3).tile t.tile).a = x.a ∧ y.s = x.s := by
  intro x u y
  have hy : y = _ := hq.run_mac_result (o := o) (tag := tag) (bytes := bytes)
  obtain ⟨ha, hs, -, -, -⟩ := s.macTile_kept (t := t) (o := o) (clear := false) (tag := tag) (bytes := bytes)
  have hfile : ∀ f, (s.macTile t o false tag bytes).file f = x.file f := fun f => congrArg (mget ({} : AFile) · f) ha
  have h3 := (hq.run_mac (o := o) (clear := false) (tag := tag) (bytes := bytes) (n := 3) (by decide)).tile
  refine ⟨?_, fun f hf => ?_, (congrArg Tile.a h3).trans ha, ?_⟩
  · rw [hy, Tile.file_setFile, if_pos rfl, hfile]
  · rw [hy, Tile.file_setFile, if_neg hf]
    exact hfile f
  · rw [hy]
    exact hs

end Results

/-- R217: the tile in the clk of an XLD. -/
theorem State.quiet.run_xld (hq : s.quiet t.tile) :
    let y := ((s.issued t 3 1 (sourceActs (s.tile t.tile) 2 src ptr inc bytes)).tile t.tile).took s.clk
    (s.reads t.tile src).With t.tile s.clk { y with
        x := if src ≠ 0 then bytes else y.x
        p := if src = 1 ∧ inc = true then mset 0 y.p ptr (((s.tile t.tile).preg ptr + 32) % 2 ^ 25) else y.p }
      (((s.issued t 3 1 (sourceActs (s.tile t.tile) 2 src ptr inc bytes)).reads t.tile src).run t.tile 0) := by
  have h0 := (State.issued_with (s := s) (t := t) (r := 3) (occ := 1)
    (a := sourceActs (s.tile t.tile) 2 src ptr inc bytes)).reads (src := src) t.tile
  have hall : (sourceActs (s.tile t.tile) 2 src ptr inc bytes).filter (fun e => e.2.1 == 0) =
      sourceActs (s.tile t.tile) 2 src ptr inc bytes := List.filter_eq_self.mpr fun e he => by simp [(sourceActs_now e he).1]
  have h := h0.tick ((hq.due 0).trans (congrArg _ hall)) (State.planned_inTile fun x hx => (sourceActs_now x hx).2)
    sourceActs_clashes (hq.noWrite (n := 0))
  rw [sourceActs_after] at h
  exact h

/-- R217: what an XLD leaves in its tile. -/
theorem State.quiet.run_xld_tile (hq : s.quiet t.tile) (hsrc : 1 ≤ src) :
    let x := s.tile t.tile
    let y := (((s.issued t 3 1 (sourceActs x 2 src ptr inc bytes)).reads t.tile src).run t.tile 0).tile t.tile
    y.x = bytes ∧ (∀ r, y.preg r = if (src = 1 ∧ inc = true) ∧ r = ptr then (x.preg ptr + 32) % 2 ^ 25 else x.preg r) ∧
      y.s = x.s ∧ y.a = x.a ∧ y.w0 = x.w0 ∧ y.w1 = x.w1 := by
  intro x y
  have hy : y = _ := (hq.run_xld (src := src) (ptr := ptr) (inc := inc) (bytes := bytes)).tile
  rw [hy, State.issued_tile]
  refine ⟨if_pos (Nat.one_le_iff_ne_zero.mp hsrc), fun r => ?_, rfl, rfl, rfl, rfl⟩
  by_cases hi : src = 1 ∧ inc = true
  · simp only [hi, and_self, if_true, true_and]
    exact (Tile.preg_setP x ptr _ r).trans rfl
  · simp only [hi, if_false, false_and]
    rfl

end Array

end Sys2Proof.Machine

end
section
/-! SUPPORT. The fill of a weight bank (R211, R212): one KiB in a clk, the codes in order and then the zero points. -/

namespace Sys2Proof.Machine

section Fills

/-- A fill: the clk of its first read, its program address, the bank, its first lane, the block's address, the chunks of codes,
whether the zero points follow them, and the zero point where none do. -/
structure Fill where
  start : Nat
  addr : Nat
  bank : Nat
  lane : Nat
  base : Nat
  n : Nat
  zs : Bool
  zw : Nat

/-- The clk that a fill reads in. -/
def Fill.clks (f : Fill) : Nat := f.n + if f.zs then 1 else 0

/-- The codes of the first `32 * j` lanes of a block. -/
def State.fillCodes (s : State) (p base j : Nat) : List (List Nat) := (List.range (32 * j)).map fun i => s.sram p
    (base + 32 * i) 32

/-- The read of a fill that is due `j` clk after its first. -/
def Fill.read (f : Fill) (s : State) (p j : Nat) : Pend :=
  ⟨f.start + j, f.addr, 0, .rdFill f.bank f.lane f.base f.n j f.zs f.zw (s.fillCodes p f.base j)⟩

/-- The lanes of a fill. -/
def Fill.lanes (f : Fill) (s : State) (p : Nat) : List WLane :=
  if f.zs then List.zipWith (fun c w => ⟨c, w⟩) (s.fillCodes p f.base f.n) (s.sram p (f.base + 1024 * f.n) (32 * f.n))
  else (s.fillCodes p f.base f.n).map fun c => ⟨c, f.zw⟩

/-- What a fill has planned once it has read in `j` clk: the next read, or after the last the write of its lanes. -/
def Fill.pend (f : Fill) (s : State) (p j : Nat) : Pend :=
  if j = f.clks then ⟨f.start + j, f.addr, 0, .bank f.bank f.lane (f.lanes s p)⟩ else f.read s p j

variable {f : Fill} {s u : State} {p j : Nat} {y : Tile}

theorem State.fillCodes_succ (s : State) (p base j : Nat) :
    s.fillCodes p base (j + 1) = s.fillCodes p base j ++ (List.range 32).map fun i => s.sram p (base + 32 * (32 * j + i))
        32 := by
  unfold State.fillCodes
  rw [Nat.mul_succ, List.range_add, List.map_append, List.map_map]
  rfl

theorem Fill.pend_due : (f.pend s p j).due = f.start + j := by
  unfold Fill.pend
  split <;> rfl

/-- A read of a fill plans the next, or after the last the write. -/
theorem Fill.runRead (hm : u.mem = s.mem) (hc : u.clk = f.start + j) (hj : j < f.clks) :
    u.runRead p (f.read s p j) = [f.pend s p (j + 1)] := by
  have hsram : ∀ a n, u.sram p a n = s.sram p a n := fun a n => congrArg (readBytes · (sramBase p + a) n) hm
  have hdue : u.clk + 1 = f.start + (j + 1) := by rw [hc]; rfl
  obtain ⟨start, addr, bank, lane, base, n, zs, zw⟩ := f
  simp only [Fill.read, State.runRead, hsram, hdue, ← State.fillCodes_succ]
  unfold Fill.pend Fill.clks Fill.lanes Fill.read
  unfold Fill.clks at hj
  by_cases hn : j < n
  · rw [if_pos hn]
    by_cases hlast : j + 1 = n + if zs = true then 1 else 0
    · rw [if_neg (by omega), if_pos hlast]
      cases zs
      · obtain rfl : j + 1 = n := hlast
        rfl
      · simp only [if_true] at hlast
        omega
    · rw [if_pos (by simp only at hj; omega), if_neg hlast]
  · cases zs
    · exact absurd hj hn
    · obtain rfl : j = n := by simp only [if_true] at hj; omega
      rw [if_neg hn]
      exact congrArg (fun d : Pend => [d]) (if_pos rfl).symm

/-- A clk of a fill before its last. -/
theorem Fill.tick (h : s.With p (f.start + j) { y with pend := [f.pend s p j] } u) (hj : j < f.clks) :
    s.With p (f.start + j) { y with pend := [f.pend s p (j + 1)] } (u.tickTile p).1 := by
  have hread : f.pend s p j = f.read s p j := if_neg (by omega)
  have hnext := f.runRead (p := p) h.mem h.clk hj
  rw [hread] at h
  have hdue : ({ y with pend := [f.read s p j] } : Tile).due (f.start + j) = [f.read s p j] :=
    List.filter_cons_of_pos (by simp [Fill.read])
  have hrest : (({ y with pend := [f.read s p j] } : Tile).took (f.start + j)).pend = [] := by
    simp [Tile.took, Fill.read]
  have hlater : ∀ e ∈ u.runRead p (f.read s p j), e.due ≠ f.start + j := by
    rw [hnext]
    intro e he
    rw [List.mem_singleton.mp he, Fill.pend_due]
    omega
  have := h.read hdue rfl hlater
  rw [hrest, hnext] at this
  exact this

/-- R212: the tile once a fill has read in clk `t + n`. -/
theorem Fill.run (h : s.With p f.start { y with pend := [f.pend s p 0] } u) (n : Nat) (hn : n < f.clks) :
    s.With p (f.start + n) { y with pend := [f.pend s p (n + 1)] } (u.run p n) := by
  induction n with
  | zero => exact Fill.tick (j := 0) h hn
  | succ n ih =>
    rw [State.run_last]
    exact Fill.tick (ih (by omega)).next hn

/-- R212: the fill is complete at the end of clk t + c. -/
theorem Fill.run_write (h : s.With p f.start { y with pend := [f.pend s p 0] } u) (hf : 0 < f.clks)
    (hw : y.noWrite ≠ some (f.start + f.clks)) :
    s.With p (f.start + f.clks)
      (({ y with pend := [] } : Tile).setBank f.bank (msetList zeroLane (y.bankOf f.bank) f.lane (f.lanes s p)))
      (u.run p f.clks) := by
  obtain ⟨n, hn⟩ := Nat.exists_eq_succ_of_ne_zero hf.ne'
  have hlast := Fill.run h n (by omega)
  rw [Nat.succ_eq_add_one] at hn
  rw [hn] at hw ⊢
  have hwrite : f.pend s p (n + 1) = ⟨f.start + (n + 1), f.addr, 0, .bank f.bank f.lane (f.lanes s p)⟩ := if_pos hn.symm
  rw [hwrite] at hlast
  have hdue := List.filter_cons_of_pos (p := fun d : Pend => d.due == f.start + n + 1) (l := [])
    (a := ⟨f.start + (n + 1), f.addr, 0, .bank f.bank f.lane (f.lanes s p)⟩) (by simp [Nat.add_assoc])
  have hrest := List.filter_cons_of_neg (p := fun d : Pend => d.due != f.start + n + 1) (l := [])
    (a := ⟨f.start + (n + 1), f.addr, 0, .bank f.bank f.lane (f.lanes s p)⟩) (by simp [Nat.add_assoc])
  have := hlast.run_tick hdue (by simp [Act.inTile]) (clashes_of_kinds (List.nodup_singleton _)) hw
  unfold Tile.took at this
  rw [hrest] at this
  exact this

theorem Fill.lanes_get (s : State) (p : Nat) (f : Fill) {i : Nat} (hi : i < 32 * f.n) : (f.lanes s p).getD i zeroLane =
    ⟨s.sram p (f.base + 32 * i) 32, if f.zs then (readByte s.mem (sramBase p + f.base + 1024 * f.n + i)).toNat else f.zw⟩ := by
  unfold Fill.lanes State.fillCodes
  rw [List.getD_eq_getElem?_getD]
  cases f.zs
  · simp [hi]
  · simp [hi, State.sram, readBytes, Nat.add_assoc]

theorem Fill.lanes_length (s : State) (p : Nat) (f : Fill) : (f.lanes s p).length = 32 * f.n := by
  unfold Fill.lanes State.fillCodes
  cases f.zs <;> simp [State.sram, readBytes]

theorem State.With.plan {c : Nat} (h : s.With p c y u) (l : List Pend) :
    s.With p c { y with pend := y.pend ++ l } (u.plan p l) := by
  unfold State.plan
  rw [h.tile]
  exact h.setTile _

variable {t : Iss} {ptr lb cm zw : Nat} {z : Bool}

/-- The fill that a WLD starts (R212). -/
def State.wldFill (s : State) (t : Iss) (ptr lb cm zw : Nat) (z : Bool) : Fill :=
  ⟨s.clk, s.wordAt t.tile, 1 - (s.tile t.tile).active, 32 * lb, (s.tile t.tile).preg ptr, cm + 1, z, zw⟩

/-- The tile of a WLD in the clk of its issue, but for the fill. -/
def State.wldTile (s : State) (t : Iss) (f : Fill) : Tile :=
  { (s.issued t 2 f.clks []).tile t.tile with fillBank := f.bank, fillDone := s.clk + f.clks }

theorem execWld_ready (h : s.ready t 2) (hq : s.quiet t.tile) (hc : s.spells (.wld t ptr lb cm z zw) t.tile = true)
    (hal : s.alloc t.tile
      [((s.tile t.tile).preg ptr, 1024 * (cm + 1) + (if z = true then 32 * (cm + 1) else 0), false)] = none) :
    ∃ u, execWld t ptr lb cm z zw s = .next u ∧
      s.With t.tile s.clk { s.wldTile t (s.wldFill t ptr lb cm zw z) with pend := [(s.wldFill t ptr lb cm zw z).pend s t.tile 0]
          } u := by
  have hx : ((s.issued t 2 (s.wldFill t ptr lb cm zw z).clks []).tile t.tile).active = (s.tile t.tile).active := by
    rw [State.issued_tile]
  have hp : ((s.issued t 2 (s.wldFill t ptr lb cm zw z).clks []).tile t.tile).pend = [] := hq.pend (a := [])
  have hread : (s.wldFill t ptr lb cm zw z).pend s t.tile 0 = (s.wldFill t ptr lb cm zw z).read s t.tile 0 :=
    if_neg (by simp only [State.wldFill, Fill.clks]; omega)
  have hex : execWld t ptr lb cm z zw s = .next (((s.issued t 2 (s.wldFill t ptr lb cm zw z).clks []).setTile t.tile
      (s.wldTile t (s.wldFill t ptr lb cm zw z))).plan t.tile [(s.wldFill t ptr lb cm zw z).read s t.tile 0]) := by
    simp only [execWld]
    refine (s.issue_ready t 2 _ _ _ h hc).trans (congrArg _ ?_)
    simp only [State.issued_preg]
    refine (State.checked_of_alloc (by rwa [State.issued_alloc])).trans ?_
    rw [show cm + 1 + (if z = true then 1 else 0) = (s.wldFill t ptr lb cm zw z).clks from rfl]
    simp only [State.wldTile, hx]
    rfl
  have hrun := ((State.issued_with (s := s) (t := t) (r := 2) (occ := (s.wldFill t ptr lb cm zw z).clks) (a := [])).setTile
    (s.wldTile t (s.wldFill t ptr lb cm zw z))).plan [(s.wldFill t ptr lb cm zw z).read s t.tile 0]
  refine ⟨_, hex, ?_⟩
  rw [hread]
  unfold State.wldTile at hrun ⊢
  rw [hp] at hrun
  exact hrun

/-- What a WLD leaves of its tile in the clk of its issue: the banks as they are, and its unit busy. -/
theorem State.wldTile_kept (f : Fill) : let x := s.tile t.tile; let y := s.wldTile t f
    y.active = x.active ∧ y.bankOf f.bank = x.bankOf f.bank ∧ y.bankOf x.active = x.bankOf x.active ∧
      y.fillBank = f.bank ∧ y.fillDone = s.clk + f.clks ∧ y.fill.free = s.clk + f.clks := by
  have hfree : ((s.issued t 2 f.clks []).tile t.tile).fill.free = s.clk + f.clks := by
    unfold State.issued
    rw [State.setTile_tile_same]
    rfl
  intro x y
  refine ⟨?_, ?_, ?_, rfl, rfl, hfree⟩
  · show ((s.issued t 2 f.clks []).tile t.tile).active = _
    rw [State.issued_tile]
  · show ((s.issued t 2 f.clks []).tile t.tile).bankOf f.bank = _
    rw [State.issued_tile]
    rfl
  · show ((s.issued t 2 f.clks []).tile t.tile).bankOf x.active = _
    rw [State.issued_tile]
    rfl

theorem Tile.bankOf_setBank_same (y : Tile) (b : Nat) (w : SMap WLane) : (y.setBank b w).bankOf b = w := by
  unfold Tile.bankOf Tile.setBank
  split <;> rfl

/-- The active bank is never the one a WLD fills. -/
theorem Tile.bankOf_setBank_active (y : Tile) (a : Nat) (w : SMap WLane) : (y.setBank (1 - a) w).bankOf a = y.bankOf a := by
  unfold Tile.bankOf Tile.setBank
  by_cases ha : a = 0
  · subst ha
    rfl
  · rw [if_neg ha, if_neg ha, if_pos (by omega)]

theorem Tile.setBank_active (y : Tile) (b : Nat) (w : SMap WLane) : (y.setBank b w).active = y.active := by
  unfold Tile.setBank
  split <;> rfl

/-- R212: the clks of a WLD: nothing is written before its last, and its lanes after it. -/
theorem State.quiet.run_wld (hq : s.quiet t.tile) {f : Fill} (hs : f.start = s.clk) (hf : 0 < f.clks)
    (hfill : f.bank = 1 - (s.tile t.tile).active)
    (h : s.With t.tile s.clk { s.wldTile t f with pend := [f.pend s t.tile 0] } u) :
    let x := s.tile t.tile
    let y := (u.run t.tile f.clks).tile t.tile
    onlyTile s (u.run t.tile f.clks) t.tile ∧ y.active = x.active ∧ y.bankOf x.active = x.bankOf x.active ∧
      y.bankOf f.bank = msetList zeroLane (x.bankOf f.bank) f.lane (f.lanes s t.tile) ∧
      ((u.run t.tile (f.clks - 1)).tile t.tile).bankOf f.bank = x.bankOf f.bank := by
  obtain ⟨hact, hbank, hother, -, -, -⟩ := State.wldTile_kept (s := s) (t := t) f
  have hnw : (s.wldTile t f).noWrite ≠ some (f.start + f.clks) := hs ▸ hq.noWrite (a := [])
  rw [← hs] at h
  have hdone := Fill.run_write (y := s.wldTile t f) h hf hnw
  have hbefore := Fill.run (y := s.wldTile t f) h (f.clks - 1) (by omega)
  refine ⟨hdone.onlyTile, ?_, ?_, ?_, ?_⟩
  · rw [hdone.tile, Tile.setBank_active]
    exact hact
  · rw [hdone.tile, hfill, Tile.bankOf_setBank_active]
    exact hother
  · rw [hdone.tile, Tile.bankOf_setBank_same, hbank]
  · rw [hbefore.tile]
    exact hbank

end Fills

end Sys2Proof.Machine

end
section
/-! CLAIM. The statement about the array's instructions. -/

open Sys2Proof Sys2Proof.Machine

/-- Settles O13: XLD's source is in the latch in its clk, WSWP swaps the banks, the products of MAC and CMAC arrive in clk t + 4
(`State.quiet.run_mac_result`, `State.quiet.run_cmac`), and a fill reads its block 32 lanes in a clk
    (`Fill.runRead`, `Fill.run_write`). -/
theorem arrayInstructionsCompute : Obligations.ArrayInstructionsCompute := by
  unfold Obligations.ArrayInstructionsCompute
  refine ⟨fun s t o bytes ph pos src ptr off slice inc hq => ?_, fun s t ptr lb cm zw z hr hq => ?_⟩
  · intro p x lane here d
    refine ⟨fun hc hr hsrc hb => ?_, fun hc hr hdone => ?_, fun hr hb => ⟨fun hc => ?_, fun hc => ?_⟩⟩
    · obtain ⟨hx, hp, hrest⟩ := hq.run_xld_tile (ptr := ptr) (inc := inc) (bytes := bytes) hsrc
      refine ⟨_, execXld_ready hr hc hsrc hb, hq.run_xld.onlyTileNet, rfl, rfl, hx, ?_, fun r hr => ?_, hrest⟩
      · rw [hp]
        simp only [and_true]
        rfl
      · exact (hp r).trans (if_neg fun h => hr h.2)
    · have hrun := hq.run_now (r := 0) (occ := 0) (a := [(0, 0, .swap)]) (by simp [Act.inTile])
        (clashes_of_kinds (List.nodup_singleton _))
      refine ⟨_, execWswp_ready hr hc hdone, hrun.onlyTile, ?_⟩
      rw [hrun.tile, State.issued_tile]
      exact ⟨rfl, rfl, rfl, rfl, rfl⟩
    · obtain ⟨hfile, hothers, hx, h0, h1, hs⟩ := hq.run_cmac_tile (o := o) (tag := x.tagFrom ph pos) (bytes := bytes)
      refine ⟨_, execCmac_ready hr hc hb, hq.run_cmac.onlyTileNet, rfl, fun k hk => ?_, ?_, ?_, hothers, hx, h0, h1, hs⟩
      · have hd := x.mget_dots o bytes hk
        rw [hfile]
        dsimp only
        exact hd
      · rw [hfile]
      · rw [hfile]
        rfl
    · obtain ⟨hfile, hothers, hbefore, hs⟩ := hq.run_mac_tile (o := o) (tag := 0) (bytes := bytes)
      refine ⟨_, execMac_ready hr hc hb, fun k hk => ?_, ?_, ?_, hothers, hbefore, hs⟩
      · have hd := x.mget_addDots o bytes (x.file o.dest).vals hk
        rw [hfile]
        dsimp only
        exact hd
      · rw [hfile]
      · rw [hfile]
  · intro p x base n c hc hal
    have hn : 32 * n = 1024 * (cm + 1) := by
      simp only [n]
      omega
    have hlen : 32 * n + (if z = true then n else 0) = 1024 * (cm + 1) + (if z = true then 32 * (cm + 1) else 0) := by
      rw [hn]
    rw [hlen] at hal
    obtain ⟨u, hu, hrun⟩ := execWld_ready hr hq hc hal
    have hpos : 0 < (s.wldFill t ptr lb cm zw z).clks := by
      simp only [State.wldFill, Fill.clks]
      omega
    obtain ⟨honly, hact, hother, hbank, hbefore⟩ := hq.run_wld rfl hpos rfl hrun
    obtain ⟨-, -, -, hfb, hfd, hff⟩ := State.wldTile_kept (s := s) (t := t) (s.wldFill t ptr lb cm zw z)
    have hlanes : ∀ k, mget zeroLane (((u.run p c).tile p).bankOf (1 - x.active)) k =
        if 32 * lb ≤ k ∧ k < 32 * lb + n then ((s.wldFill t ptr lb cm zw z).lanes s p).getD (k - 32 * lb) zeroLane
        else mget zeroLane (x.bankOf (1 - x.active)) k := fun k => by
      refine (congrArg (mget zeroLane · k) hbank).trans ((mget_msetList _ _ _ _ _).trans ?_)
      rw [Fill.lanes_length]
      rfl
    refine ⟨u, hu, honly, ?_, ?_, ?_, hact, hother, fun i hi => ?_, fun k hk => ?_, hbefore⟩
    · rw [hrun.tile]
      exact hfd
    · rw [hrun.tile]
      exact hfb
    · rw [hrun.tile]
      exact hff
    · rw [hlanes, if_pos (by omega), Nat.add_sub_cancel_left]
      refine (Fill.lanes_get s p _ hi).trans ?_
      rw [hn]
      rfl
    · rw [hlanes, if_neg (by omega)]

end

section
/-! SUPPORT. The words of a lane (R72 to R76) among the dictionary's keys. Which lane a channel carries, which unit it belongs to
and whether that is in bring-up are read elsewhere, so that a write of a lane's word leaves them. -/

namespace Sys2Proof.Machine

section LaneWords

variable {s t : State} {e c n k v : Nat} {f : Fld}

theorem engineOk_lt {g : Grade} (h : engineOk g e = true) : e < 24 := by
  unfold engineOk quayOk at h
  cases g <;> simp at h <;> omega

theorem chanOk_lt {g : Grade} (h : chanOk g e c = true) : e < 24 ∧ c < 34 := by
  simp only [chanOk, Bool.and_eq_true, decide_eq_true_eq] at h
  exact ⟨engineOk_lt h.1, h.2⟩

theorem laneOk_lt {g : Grade} (h : laneOk g e n = true) : e < 24 ∧ n < 32 := by
  simp only [laneOk, Bool.and_eq_true, decide_eq_true_eq] at h
  exact ⟨engineOk_lt h.1, h.2⟩

/-! ### Keys -/

/-- Key `k` lies among the words of Lane Control, Status, Counters and Equaliser of the engines (R72 to R76). -/
def laneWord (k : Nat) : Prop := (key 0x2100 0 ≤ k ∧ k < key 0x2180 0) ∨ (key 0x21A0 0 ≤ k ∧ k < key 0x21B4 0)

theorem laneWord_kLctl (he : e < 24) (hc : c < 34) : laneWord (kLctl e c) := by
  unfold laneWord kLctl laneIdx key
  split <;> omega

theorem laneWord_kLstat (he : e < 24) (hc : c < 34) : laneWord (kLstat e c) := by
  unfold laneWord kLstat laneIdx key
  split <;> omega

theorem laneWord_kLcnt (he : e < 24) (hc : c < 34) : laneWord (kLcnt e c) := by
  unfold laneWord kLcnt laneIdx key
  split <;> omega

theorem laneWord_kLeq (he : e < 24) (hc : c < 34) : laneWord (kLeq e c) := by
  unfold laneWord kLeq laneIdx key
  split <;> omega

theorem not_laneWord_kLmap (he : e < 24) (hn : n < 32) : ¬ laneWord (kLmap e n) := by
  unfold laneWord kLmap laneIdx key
  split <;> omega

theorem not_laneWord_of_le (h : key 0x21F0 0 ≤ k) : ¬ laneWord k := by
  unfold laneWord key
  unfold key at h
  omega

theorem kLctl_ne_kLstat : kLctl e c ≠ kLstat e c := by
  unfold kLctl kLstat laneIdx key
  split <;> omega

theorem kLcnt_ne_kLstat : kLcnt e c ≠ kLstat e c := by
  unfold kLcnt kLstat laneIdx key
  split <;> omega

theorem kLctl_ne_kLcnt : kLctl e c ≠ kLcnt e c := by
  unfold kLctl kLcnt laneIdx key
  split <;> omega

theorem kLeq_ne_kLstat : kLeq e c ≠ kLstat e c := by
  unfold kLeq kLstat laneIdx key
  split <;> omega

/-! ### What a lane's words leave alone -/

/-- `t` has the entries of `s` but for the words of the lanes, and its bring-ups. -/
structure State.SameUnits (s t : State) : Prop where
  ent : ∀ k, ¬ laneWord k → t.ent k = s.ent k
  bring : t.land.bring = s.land.bring

theorem State.SameUnits.refl (s : State) : s.SameUnits s := ⟨fun _ _ => rfl, rfl⟩

theorem State.SameUnits.setFld (h : s.SameUnits t) (hk : laneWord k) : s.SameUnits (t.setFld k f v) where
  ent j hj := (t.setFld_ent_other k f v j fun e => hj (e ▸ hk)).trans (h.ent j hj)
  bring := h.bring

theorem State.SameUnits.setChan (h : s.SameUnits t) (x : Chan) : s.SameUnits (t.setChan e c x) := ⟨h.ent, h.bring⟩

theorem State.SameUnits.laneOfChan (h : s.SameUnits t) (he : e < 24) : t.laneOfChan e c = s.laneOfChan e c := by
  unfold State.laneOfChan
  refine List.find?_congr fun n hn => ?_
  rw [State.chanOf, State.chanOf, h.ent _ (not_laneWord_kLmap he (List.mem_range.mp hn))]

theorem State.SameUnits.groupLanes (h : s.SameUnits t) (q g : Nat) : t.groupLanes q g = s.groupLanes q g := by
  have hk : t.ent (key (0x2200 + q) (2 + g)) = s.ent (key (0x2200 + q) (2 + g)) :=
    h.ent _ (not_laneWord_of_le (by unfold key; omega))
  simp only [State.groupLanes, State.laneCount, State.fld, hk]

theorem State.SameUnits.unitLanes (h : s.SameUnits t) (e n : Nat) : t.unitLanes e n = s.unitLanes e n := by
  have hb : t.ent (kBun 31) = s.ent (kBun 31) := h.ent _ (not_laneWord_of_le (by decide))
  simp only [State.unitLanes, State.groupOf, h.groupLanes, State.fld, hb]
  rfl

theorem State.SameUnits.bringAt (h : s.SameUnits t) (he : e < 24) : t.bringAt e c = s.bringAt e c := by
  simp only [State.bringAt, h.laneOfChan he, State.unitKey, h.unitLanes, State.bringOf, h.bring]

theorem State.SameUnits.settled (h : s.SameUnits t) (he : e < 24) : t.settled e c = s.settled e c := by
  simp only [State.settled, h.laneOfChan he, h.bringAt he]

/-! ### The channel word -/

@[simp] theorem State.chan_setChan_same (s : State) (e c : Nat) (x : Chan) : (s.setChan e c x).chan e c = x := mget_mset_same ..

@[simp] theorem State.chan_setFld (s : State) (k v e c : Nat) (f : Fld) : (s.setFld k f v).chan e c = s.chan e c :=
  congrArg (fun l : Land => mget {} l.chans (64 * e + c)) (s.setFld_land k f v)

@[simp] theorem State.fld_setChan (s : State) (e c k : Nat) (x : Chan) (f : Fld) : (s.setChan e c x).fld k f = s.fld k f :=
  congrArg f.of (State.ent_congr rfl rfl rfl k)

@[simp] theorem State.setChan_clk (s : State) (e c : Nat) (x : Chan) : (s.setChan e c x).clk = s.clk := rfl

theorem State.flag_iff (s : State) (k : Nat) (f : Fld) : s.flag k f = true ↔ s.fld k f = 1 := beq_iff_eq

end LaneWords

end Sys2Proof.Machine
end

section
/-! SUPPORT. The writes of a lane's power state, slip and map (R63, R67, R68, R71), each as what it answers. -/

namespace Sys2Proof.Machine

section LaneWrites

variable {s : State} {e c v n : Nat}

/-- R68: a power state that the armed job does not bar. -/
theorem State.powerBarred_eq_false :
    s.powerBarred e c v = false ↔ v = 0 ∨ s.fld (kLctl e c) lctl_power_state ≠ 0 ∨ s.armedLane e c = false := by
  simp only [State.powerBarred, Bool.and_eq_false_iff, bne_eq_false_iff_eq, beq_eq_false_iff_ne, or_assoc]

theorem State.powerWrite_refused (h : 2 < v ∨ s.powerBarred e c v = true) : ∃ a, s.powerWrite e c v = .error a := by
  unfold State.powerWrite
  split
  · exact ⟨_, rfl⟩
  · next hv => exact ⟨_, if_pos (h.resolve_left hv)⟩

theorem State.powerWrite_taken (he : e < 24) (hc : c < 34) (hv : v ≤ 2) (hb : s.powerBarred e c v = false) :
    s.powerWrite e c v = .ok (if (s.laneOfChan e c).isSome then (s.setFld (kLctl e c) lctl_power_state v).requestPower e c v
      else s.setFld (kLctl e c) lctl_power_state v) := by
  have hl := ((State.SameUnits.refl s).setFld (f := lctl_power_state) (v := v) (laneWord_kLctl he hc)).laneOfChan (c := c) he
  simp only [State.powerWrite, if_neg (Nat.not_lt.mpr hv), hb, Bool.false_eq_true, if_false, hl]
  split <;> rfl

/-- R66, R67: a lane that a request takes out of sleep reconverges, unless its relock failed. -/
theorem State.requestPower_eq (s : State) (e c v : Nat) : s.requestPower e c v =
    if v ≠ 2 ∧ s.fld (kLstat e c) lstat_power_state_now = 2 ∧ (s.chan e c).dead = false then
      (s.setChan e c { s.chan e c with request := some v }).reconverge e c
    else s.setChan e c { s.chan e c with request := some v } := by
  simp [State.requestPower]

theorem State.slipWrite_eq (s : State) (e c v : Nat) (h : v ≤ 65) : s.slipWrite e c v =
    .ok (if (s.laneOfChan e c).isSome then s.putSlip e c v else s.setFld (kLctl e c) lctl_slip v) := by
  unfold State.slipWrite
  rw [if_neg (Nat.not_lt.mpr h)]
  split <;> rfl

/-- The map entry of another lane of the direction holds channel `c` (R71). -/
theorem mapTaken_iff (base : Nat) : (List.range 32).any (fun m => m != n && s.ent (base + m) == c) = true ↔
    ¬ ∀ m, m < 32 → m ≠ n → s.ent (base + m) ≠ c := by
  simp

theorem State.laneMapWrite_refused {tx : Bool} (h : s.idle = false ∨
    ¬ (c ≤ 33 ∧ ∀ m, m < 32 → m ≠ n → s.ent (kLmap e 0 + (if tx then 32 else 0) + m) ≠ c)) :
    ∃ a, s.laneMapWrite e tx n c = .error a := by
  unfold State.laneMapWrite
  extract_lets base t
  split
  · exact ⟨_, rfl⟩
  · next hi =>
    split
    · exact ⟨_, rfl⟩
    · next hc =>
      have hbusy := (h.resolve_left (by simpa using hi))
      refine ⟨_, if_pos ((mapTaken_iff base).mpr fun hf => hbusy ⟨by omega, hf⟩)⟩

theorem State.laneMapWrite_taken {tx : Bool} (hi : s.idle = true) (hc : c ≤ 33)
    (hf : ∀ m, m < 32 → m ≠ n → s.ent (kLmap e 0 + (if tx then 32 else 0) + m) ≠ c) :
    s.laneMapWrite e tx n c = .ok (if tx then s.setEnt (kLmap e 0 + (if tx then 32 else 0) + n) c
      else (s.setEnt (kLmap e 0 + (if tx then 32 else 0) + n) c).remapped e n
        (s.ent (kLmap e 0 + (if tx then 32 else 0) + n)) c) := by
  unfold State.laneMapWrite
  extract_lets base t
  rw [if_neg (by simp [hi]), if_neg (by omega), if_neg fun h => (mapTaken_iff base).mp h hf]

end LaneWrites

end Sys2Proof.Machine
end

section
/-! CLAIM. The statement about the writes of a lane's power state, slip and map. -/

open Sys2Proof Sys2Proof.Machine

/-- Settles O24: each write answers what its rule says (`State.powerWrite_taken`, `State.slipWrite_eq`,
`State.laneMapWrite_taken`) or is refused. -/
theorem laneWritesTakeEffectOrAreRefused : Obligations.LaneWritesTakeEffectOrAreRefused := by
  intro s e c v n hc hn k x w
  obtain ⟨he, hc34⟩ := chanOk_lt hc
  have hk : kLstat e c ≠ kLctl e c := kLctl_ne_kLstat.symm
  have hpower : exec (.powerStateWrite e c v) s = orSame s (s.powerWrite e c v) := if_pos hc
  have hslip : exec (.slipWrite e c v) s = orSame s (s.slipWrite e c v) := if_pos hc
  have hreached : exec (.powerStateReached e c) s = (match (s.chan e c).request with
    | none => .next s
    | some v =>
      let s := s.setChan e c { s.chan e c with request := none }
      if v = 2 then .next (s.sleep e c) else .next (s.setFld (kLstat e c) lstat_power_state_now v)) := if_pos hc
  refine ⟨⟨fun hv hb => ?_, fun h => ?_⟩, fun hr => ?_, fun hr hv => ?_, ⟨fun hv hl => ?_, fun hv hl => ?_, fun hv => ?_⟩,
    ?_⟩
  · rw [hpower, State.powerWrite_taken he hc34 hv (State.powerBarred_eq_false.mpr hb)]
    refine ⟨fun hl => ?_, fun hl => ?_⟩
    · rw [if_pos (Option.isSome_iff_ne_none.mpr hl), State.requestPower_eq, State.fld_setFld_ne _ _ _ _ _ _ hk]
      rfl
    · rw [hl]
      rfl
  · have hb : 2 < v ∨ s.powerBarred e c v = true := h.imp_right fun ⟨h0, hp, ha⟩ => by simp [State.powerBarred, h0, hp, ha]
    obtain ⟨a, hx⟩ := State.powerWrite_refused hb
    rw [hpower, hx]
    rfl
  · simp only [hreached, x, hr, if_true, State.sleep, State.chan_setFld, State.chan_setChan_same, k]
  · simp only [hreached, x, hr, if_neg (show v ≠ 2 by omega), k]
  · rw [hslip, State.slipWrite_eq _ _ _ _ hv, if_pos (Option.isSome_iff_ne_none.mpr hl)]
    rfl
  · rw [hslip, State.slipWrite_eq _ _ _ _ hv, hl]
    rfl
  · rw [hslip, State.slipWrite, if_pos hv]
    rfl
  · intro tx htx base free
    have hmap : exec (.laneMapWrite e tx n v) s = orSame s (s.laneMapWrite e tx n v) := if_pos ⟨hn, by simpa using htx⟩
    refine ⟨fun hi hf ht => ?_, fun hi hf ht => ?_, fun h => ?_⟩
    · rw [hmap, State.laneMapWrite_taken hi hf.1 hf.2, if_pos ht]
      rfl
    · rw [hmap, State.laneMapWrite_taken hi hf.1 hf.2, if_neg (by simp [ht])]
      rfl
    · obtain ⟨a, hx⟩ := State.laneMapWrite_refused h
      rw [hmap, hx]
      rfl

end

section
/-! SUPPORT. Block lock lost, gained and searched for (R62 to R66): the loss and the gain are those of `State.lost` and
`State.gained`, each command as what it answers. -/

namespace Sys2Proof.Machine

section BlockLock

variable {s : State} {e c i v : Nat} {b : Bring}

/-- No bring-up of the lane is in its switch state with a countdown seen (R55). -/
def State.calm (s : State) (e c : Nat) : Prop := ∀ b, s.bringAt e c = some b → b.state ≠ 5 ∨ (s.chan e c).cdown = false

theorem State.failedCode_iff : s.failedCode e c = true ↔
    9 ≤ s.fld (kLstat e c) lstat_bringup_state ∧ s.fld (kLstat e c) lstat_bringup_state ≤ 14 := by
  simp [State.failedCode]

theorem State.relockState_eq (s : State) (e c v : Nat) : s.relockState e c v =
    (if 9 ≤ s.fld (kLstat e c) lstat_bringup_state ∧ s.fld (kLstat e c) lstat_bringup_state ≤ 14 then s
      else s.setFld (kLstat e c) lstat_bringup_state v) := by
  unfold State.relockState
  by_cases hf : s.failedCode e c = true
  · rw [if_pos hf, if_pos (State.failedCode_iff.mp hf)]
  · rw [if_neg hf, if_neg fun h => hf (State.failedCode_iff.mpr h)]

/-- A relock of a lane whose words the loss has just changed (R66). -/
theorem State.startRelock_eq (s : State) (e c : Nat) : s.startRelock e c =
    (let w := (if s.failedCode e c then s else s.setFld (kLstat e c) lstat_bringup_state 7).setChan e c
      { s.chan e c with relock := true }
     if s.fld (kLstat e c) lstat_signal_detect = 1 then w.reconverge e c else w) := by
  unfold State.startRelock State.relockState
  by_cases hf : s.failedCode e c = true
  · simp only [hf, if_true, State.flag_iff, State.fld_setChan]
  · simp only [hf, if_false, Bool.false_eq_true, State.flag_iff, State.fld_setChan,
      State.fld_setFld_other _ _ lstat_bringup_state lstat_signal_detect _ (by decide)]

/-- What the loss of block lock sets and counts (R62). -/
def State.lossCounted (s : State) (e c : Nat) : State :=
  ((s.setFld (kLstat e c) lstat_block_lock 0).setFld (kLstat e c) lstat_lock_lost_seen 1).setFld (kLcnt e c) lcnt_lock_losses
    (s.oneMore (kLcnt e c) lcnt_lock_losses)

theorem State.lossCounted_eq (s : State) (e c : Nat) :
    ((s.setFlag (kLstat e c) lstat_block_lock false).setFlag (kLstat e c) lstat_lock_lost_seen true).bump (kLcnt e c)
      lcnt_lock_losses = s.lossCounted e c := by
  simp only [State.bump, State.bumpBy, State.setFlag, State.lossCounted, State.oneMore, if_true, Bool.false_eq_true, if_false,
    State.fld_setFld_ne _ _ _ _ _ _ kLcnt_ne_kLstat]

theorem State.lossCounted_kLstat (s : State) (e c : Nat) {g : Fld} (h1 : g.lo + g.w ≤ 6 ∨ 7 ≤ g.lo) (h2 : g.lo + g.w ≤ 28 ∨ 29 ≤ g.lo) :
    (s.lossCounted e c).fld (kLstat e c) g = s.fld (kLstat e c) g :=
  ((State.fld_setFld_ne _ _ _ _ _ _ kLcnt_ne_kLstat.symm).trans (State.fld_setFld_other _ _ _ _ _ h2)).trans
    (State.fld_setFld_other _ _ _ _ _ h1)

theorem State.lossCounted_kLctl (s : State) (e c : Nat) (g : Fld) : (s.lossCounted e c).fld (kLctl e c) g = s.fld (kLctl e c) g := by
  simp only [State.lossCounted, State.fld_setFld_ne _ _ _ _ _ _ kLctl_ne_kLcnt, State.fld_setFld_ne _ _ _ _ _ _ kLctl_ne_kLstat]

theorem State.lossCounted_chan (s : State) (e c : Nat) : (s.lossCounted e c).chan e c = s.chan e c := by
  simp only [State.lossCounted, State.chan_setFld]

theorem State.lossCounted_settled (he : e < 24) (hc : c < 34) : (s.lossCounted e c).settled e c = s.settled e c :=
  ((((State.SameUnits.refl s).setFld (laneWord_kLstat he hc)).setFld (laneWord_kLstat he hc)).setFld
    (laneWord_kLcnt he hc)).settled he

/-- R62, R66: a locked lane that drops its lock has lost it. -/
theorem State.dropLock_eq_lost (he : e < 24) (hc : c < 34) : s.dropLock e c = s.lost e c := by
  have hfailed : (s.lossCounted e c).failedCode e c = s.failedCode e c := by
    simp only [State.failedCode, s.lossCounted_kLstat e c (g := lstat_bringup_state) (by decide) (by decide)]
  have hsignal := s.lossCounted_kLstat e c (g := lstat_signal_detect) (by decide) (by decide)
  unfold State.dropLock State.lost
  simp only [State.lossCounted_eq, State.startRelock_eq, State.flag_iff, State.lossCounted_kLctl, State.lossCounted_settled he hc,
    hfailed, hsignal, State.lossCounted_chan]
  rfl

theorem State.lockLoss_unlocked (hl : s.fld (kLstat e c) lstat_block_lock = 0) : s.lockLoss e c = s := by
  simp [State.lockLoss, State.flag, hl]

theorem State.lockLoss_calm (he : e < 24) (hc : c < 34) (hl : s.fld (kLstat e c) lstat_block_lock = 1) (hb : s.calm e c) :
    s.lockLoss e c = s.lost e c := by
  simp only [State.lockLoss, State.flag_iff, hl, State.dropLock_eq_lost he hc, if_true]
  split
  · next b h => exact if_neg fun ⟨h5, hd⟩ => (hb b h).elim (· h5) (by simp [hd])
  · rfl

theorem State.lockLoss_switch (he : e < 24) (hc : c < 34) (hl : s.fld (kLstat e c) lstat_block_lock = 1)
    (hb : s.bringAt e c = some b) (h5 : b.state = 5) (hd : (s.chan e c).cdown = true) :
    s.lockLoss e c = (s.lost e c).tune e c b.rate := by
  simp only [State.lockLoss, State.flag_iff, hl, State.dropLock_eq_lost he hc, hb, h5, hd, if_true, and_self]

theorem State.calm_setFld {k : Nat} {f : Fld} (he : e < 24) (hk : laneWord k) (h : s.calm e c) : (s.setFld k f v).calm e c := by
  intro b hb
  rw [((State.SameUnits.refl s).setFld hk).bringAt he] at hb
  exact h b hb

theorem State.gainLock_unlocked (hl : s.fld (kLstat e c) lstat_block_lock = 0) : s.gainLock e c = s.gained e c := by
  have hslip : ((s.setFld (kLstat e c) lstat_block_lock 1).setFld (kLstat e c) lstat_cdr_lock 1).fld (kLstat e c) lstat_slip_now =
      s.fld (kLstat e c) lstat_slip_now :=
    (State.fld_setFld_other _ _ _ _ _ (by decide)).trans (State.fld_setFld_other _ _ _ _ _ (by decide))
  have hflag : s.flag (kLstat e c) lstat_block_lock = false := by simp [State.flag, hl]
  simp only [State.gainLock, hflag, Bool.false_eq_true, if_false, State.setFlag, if_true, hslip]
  rfl

theorem State.gainLock_locked (hl : s.fld (kLstat e c) lstat_block_lock = 1) : s.gainLock e c =
    (s.setChan e c { s.chan e c with lastSlip := s.fld (kLstat e c) lstat_slip_now, search := none }).afterLock e c := by
  simp only [State.gainLock, State.flag_iff, hl, if_true]

/-! ### The commands -/

variable (hc : chanOk s.grade e c = true)
include hc

theorem exec_signalDetectChange_lit (h0 : s.fld (kLstat e c) lstat_signal_detect = 0) :
    exec (.signalDetectChange e c true) s = .next (if (s.chan e c).relock = true then
      (s.setFld (kLstat e c) lstat_signal_detect 1).reconverge e c else s.setFld (kLstat e c) lstat_signal_detect 1) := by
  have hf : s.flag (kLstat e c) lstat_signal_detect = false := by simp [State.flag, h0]
  show execSignalDetectChange e c true s = _
  simp only [execSignalDetectChange, hc, hf, if_true, Bool.false_eq_true, if_false]
  rfl

theorem exec_signalDetectChange_dark (h1 : s.fld (kLstat e c) lstat_signal_detect = 1) :
    exec (.signalDetectChange e c false) s = .next ((s.setFld (kLstat e c) lstat_signal_detect 0).lockLoss e c) := by
  have hf : s.flag (kLstat e c) lstat_signal_detect = true := by simp [State.flag, h1]
  show execSignalDetectChange e c false s = _
  simp only [execSignalDetectChange, hc, hf, if_true, Bool.true_eq_false, Bool.false_eq_true, if_false]
  rfl

theorem exec_blockLockLoss_headers : exec (.blockLockLoss e c false) s = .next (s.lockLoss e c) := if_pos hc

theorem exec_blockLockLoss_cdr :
    exec (.blockLockLoss e c true) s = .next ((s.setFld (kLstat e c) lstat_cdr_lock 0).lockLoss e c) := if_pos hc

theorem exec_blockLockSet_gains (hl : s.fld (kLstat e c) lstat_block_lock = 0) (hd : (s.chan e c).dead = false)
    (hw : s.waited e c 64 = true) (hp : s.fld (kLstat e c) lstat_power_state_now ≠ 2 ∨ (s.chan e c).search ≠ none) :
    exec (.blockLockSet e c) s = .next (s.gained e c) := by
  have hp : ¬ (s.fld (kLstat e c) lstat_power_state_now = 2 ∧ (s.chan e c).search.isNone = true) := by
    rw [Option.isNone_iff_eq_none]
    tauto
  show execBlockLockSet e c s = _
  simp only [execBlockLockSet, hc, State.flag_iff, hl, hd, hw, hp, State.gainLock_unlocked, if_true, Bool.not_true,
    Bool.false_eq_true, or_self, if_false, zero_ne_one]

theorem exec_blockLockSet_stays (h : s.fld (kLstat e c) lstat_block_lock = 1 ∨ (s.chan e c).dead = true ∨ s.waited e c 64 = false) :
    exec (.blockLockSet e c) s = .next s := by
  refine (if_pos hc).trans (if_pos ?_)
  rcases h with h | h | h <;> simp [State.flag, h]

theorem exec_blockLockSearchStep_idle (hs : (s.chan e c).search = none) (ok : Bool) :
    exec (.blockLockSearchStep e c ok) s = .next (if (s.chan e c).conv = true then s.startSearch e c else s) := by
  show execBlockLockSearchStep e c ok s = _
  simp only [execBlockLockSearchStep, hc, hs, if_true]

theorem exec_blockLockSearchStep_early (hw : s.waited e c 72 = false) (hs : (s.chan e c).search ≠ none) (ok : Bool) :
    exec (.blockLockSearchStep e c ok) s = .next s := by
  obtain ⟨i, hi⟩ := Option.ne_none_iff_exists'.mp hs
  show execBlockLockSearchStep e c ok s = _
  simp only [execBlockLockSearchStep, hc, hi, hw, if_true, Bool.not_false]

theorem exec_blockLockSearchStep_locked (hs : (s.chan e c).search = some i) (hw : s.waited e c 72 = true) :
    exec (.blockLockSearchStep e c true) s = .next (s.gainLock e c) := by
  show execBlockLockSearchStep e c true s = _
  simp only [execBlockLockSearchStep, hc, hs, hw, if_true, Bool.not_true, Bool.false_eq_true, if_false]

theorem exec_blockLockSearchStep_next (hs : (s.chan e c).search = some i) (hw : s.waited e c 72 = true) :
    exec (.blockLockSearchStep e c false) s = .next (if i + 1 = 132 then s.setChan e c { s.chan e c with search := none }
      else (s.setChan e c { s.chan e c with search := some (i + 1) }).putSlip e c (((s.chan e c).lastSlip + (i + 1)) % 66)) := by
  show execBlockLockSearchStep e c false s = _
  simp only [execBlockLockSearchStep, hc, hs, hw, if_true, Bool.not_true, Bool.false_eq_true, if_false]
  split <;> rfl

theorem exec_relockDone_locked (hr : (s.chan e c).relock = true) (h1 : s.fld (kLstat e c) lstat_signal_detect = 1)
    (hl : s.fld (kLstat e c) lstat_block_lock = 1) (ok : Bool) : exec (.relockDone e c ok) s =
      .next (((s.setChan e c { s.chan e c with relock := false, conv := false, search := none }).relockState e c 8).afterLock e c) := by
  show execRelockDone e c ok s = _
  simp only [execRelockDone, hc, hr, State.flag_iff, h1, hl, if_true, and_self]

theorem exec_relockDone_unlocked (hr : (s.chan e c).relock = true) (h1 : s.fld (kLstat e c) lstat_signal_detect = 1)
    (hl : s.fld (kLstat e c) lstat_block_lock = 0) (ok : Bool) : exec (.relockDone e c ok) s = .next (if ok then s else
      ((s.setChan e c { s.chan e c with relock := false, dead := true, conv := false, search := none }).relockState e c 12).afterLock
        e c) := by
  show execRelockDone e c ok s = _
  simp only [execRelockDone, hc, hr, State.flag_iff, h1, hl, if_true, and_self, zero_ne_one,
    if_false]
  cases ok <;> rfl

theorem exec_relockDone_none (h : (s.chan e c).relock = false ∨ s.fld (kLstat e c) lstat_signal_detect = 0) (ok : Bool) :
    exec (.relockDone e c ok) s = .next s := by
  refine (if_pos hc).trans (if_neg ?_)
  rcases h with h | h <;> simp [State.flag, h]

end BlockLock

/-- A slip tried by the search (R63, R64). -/
theorem State.putSlip_facts {s : State} {e c v : Nat} (hv : v < 66) :
    let u := s.putSlip e c v
    u.fld (kLstat e c) lstat_slip_now = v ∧ u.fld (kLctl e c) lctl_slip = v ∧
      u.chan e c = { s.chan e c with since := some s.clk } ∧
      u.fld (kLstat e c) lstat_block_lock = s.fld (kLstat e c) lstat_block_lock := by
  have h128 : v % 2 ^ 7 = v := Nat.mod_eq_of_lt (by omega)
  simp only [State.putSlip, State.fld_setChan, State.chan_setChan_same, State.chan_setFld, State.setFld_clk, State.fld_setFld_same,
    State.fld_setFld_ne _ _ _ _ _ _ kLctl_ne_kLstat, State.fld_setFld_ne _ _ _ _ _ _ kLctl_ne_kLstat.symm,
    State.fld_setFld_other _ _ lstat_slip_now lstat_block_lock _ (by decide), and_self, and_true]
  exact ⟨h128, h128⟩

end Sys2Proof.Machine
end

section
/-! SUPPORT. The equalisers (R47 to R52): the taps after an update, the offset at an eye's edge, the figure of merit, and what its
measurement and the CTLE's trial answer. -/

namespace Sys2Proof.Machine

section Equalisers

variable {s t u : State} {e c k n : Nat}

theorem onlyEntry.refl (s : State) (k : Nat) : onlyEntry s s k := ⟨rfl, fun _ _ => rfl⟩

theorem onlyEntry.trans (h : onlyEntry s t k) (h' : onlyEntry t u k) : onlyEntry s u k := by
  refine ⟨?_, fun j hj => (h'.2 j hj).trans (h.2 j hj)⟩
  calc { u with dict := s.dict } = { { u with dict := t.dict } with dict := s.dict } := rfl
    _ = { t with dict := s.dict } := by rw [h'.1]
    _ = s := h.1

/-! ### The DFE (R47 to R49) -/

theorem sgn_eq_sign (x : Int) : sgn x = x.sign := by
  unfold sgn
  split
  · next h => rw [Int.sign_eq_neg_one_of_neg h]
  · split
    · next h => rw [Int.sign_eq_one_of_pos h]
    · rw [show x = 0 by omega]
      rfl

theorem sat_eq_clamp {lo hi : Int} (h : lo ≤ hi) (x : Int) : sat x lo hi = max lo (min hi x) := by
  unfold sat
  split
  · omega
  · split <;> omega

/-- A byte reads back as the number that it spells. -/
theorem toInt_unsignedOf {x : Int} (h1 : -128 ≤ x) (h2 : x ≤ 127) : (BitVec.ofNat 8 (unsignedOf 8 x)).toInt = x := by
  have hi : BitVec.ofNat 8 (unsignedOf 8 x) = BitVec.ofInt 8 x := BitVec.eq_of_toNat_eq (by
    simp only [unsignedOf, BitVec.toNat_ofNat, BitVec.toNat_ofInt]
    omega)
  rw [hi, BitVec.toInt_ofInt]
  exact Int.bmod_eq_of_le (by omega) (by omega)

theorem level3_eq (rate d : Nat) : level3 rate d =
    if rate < 2 then (if d % 2 = 1 then 3 else -3) else ([-3, -1, 3, 1] : List Int).getD (d % 4) 0 := by
  unfold level3
  have h4 : d % 4 < 4 := Nat.mod_lt _ (by decide)
  split
  · rfl
  · interval_cases d % 4 <;> rfl

/-- The signed value of tap `i` of the equaliser word `k` (R76). -/
def State.tap (s : State) (k i : Nat) : Int := (BitVec.ofNat 8 (s.fld k (dfeTap i))).toInt

theorem State.signed_tap (s : State) (k i : Nat) : signed 8 (s.fld k (dfeTap i)) = s.tap k i := signed_eq_toInt (by decide) _

/-- Tap `d.2 + 1` of equaliser word `k` takes its step for the symbol `d.1` (R48, R49). -/
def State.stepTap (k rate : Nat) (err : Int) (s : State) (d : Nat × Nat) : State :=
  s.setFld k (dfeTap (d.2 + 1))
    (unsignedOf 8 (sat (signed 8 (s.fld k (dfeTap (d.2 + 1))) + err * sgn (level3 rate d.1)) (-128) 127))

theorem State.tap_stepTap (s : State) (k rate : Nat) (err : Int) (d : Nat × Nat) (i : Nat) :
    (s.stepTap k rate err d).tap k i =
      if i = d.2 + 1 then max (-128) (min 127 (s.tap k i + err * (level3 rate d.1).sign)) else s.tap k i := by
  unfold State.stepTap
  rw [State.signed_tap, sat_eq_clamp (by decide), sgn_eq_sign]
  split
  · next h =>
    rw [State.tap, h, State.fld_setFld_same, show (dfeTap (d.2 + 1)).w = 8 from rfl, Nat.mod_eq_of_lt (unsignedOf_lt _ _),
      toInt_unsignedOf (by omega) (by omega)]
  · next h => rw [State.tap, State.fld_setFld_other _ _ _ _ _ (by unfold dfeTap; dsimp only; omega), State.tap]

/-- The taps of the symbols `l`, of which the first is tap `n + 1`, take their steps one after another. -/
theorem State.foldl_stepTap (s : State) (k rate : Nat) (err : Int) (l : List Nat) (n : Nat) :
    let u := (l.zipIdx n).foldl (State.stepTap k rate err) s
    onlyEntry s u k ∧ u.fld k leq_ctle_code = s.fld k leq_ctle_code ∧ ∀ i, u.tap k i =
      if n < i ∧ i ≤ n + l.length then max (-128) (min 127 (s.tap k i + err * (level3 rate (l.getD (i - (n + 1)) 0)).sign))
      else s.tap k i := by
  induction l generalizing s n with
  | nil => exact ⟨.refl s k, rfl, fun i => (if_neg (by simp)).symm⟩
  | cons d l ih =>
    obtain ⟨ho, hc, ht⟩ := ih (s.stepTap k rate err (d, n)) (n + 1)
    refine ⟨(State.setFld_onlyEntry s k _ _).trans ho,
      hc.trans (State.fld_setFld_other _ _ _ _ _ (.inl (by simp [leq_ctle_code, dfeTap]))), fun i => ?_⟩
    refine (ht i).trans ?_
    rw [State.tap_stepTap]
    by_cases hi : i = n + 1
    · rw [if_neg (by omega), if_pos hi, if_pos (by simp; omega), hi, Nat.sub_self]
      rfl
    · rw [if_neg (show ¬ i = (d, n).2 + 1 from hi)]
      by_cases hr : n + 1 < i ∧ i ≤ n + 1 + l.length
      · rw [if_pos hr, if_pos (by simp; omega), show i - (n + 1) = (i - (n + 1 + 1)) + 1 by omega, List.getD_cons_succ]
      · rw [if_neg hr, if_neg (by simp; omega)]

theorem zipWith_map_range (f : Nat → Int) (g : Int → Nat → Int) (l : List Nat) (h : n ≤ l.length) :
    List.zipWith g ((List.range n).map f) l = (List.range n).map (fun i => g (f i) (l.getD i 0)) := by
  refine List.ext_getElem (by simp; omega) fun i h1 h2 => ?_
  have hi : i < l.length := by simp at h2; omega
  simp [hi]

/-- What the DFE subtracts (R48). -/
theorem State.dfeSum_tapsOf (s : State) (e c : Nat) (syms : List Nat)
    (h : dfeTaps (s.fld (kLstat e c) lstat_rate_now) ≤ syms.length) :
    dfeSum (s.fld (kLstat e c) lstat_rate_now) (s.tapsOf e c) syms =
      ((List.range (dfeTaps (s.fld (kLstat e c) lstat_rate_now))).map (fun i => s.tap (kLeq e c) (i + 1) *
        level3 (s.fld (kLstat e c) lstat_rate_now) (syms.getD i 0))).sum := by
  unfold dfeSum State.tapsOf
  rw [zipWith_map_range _ _ _ h]
  simp only [State.signed_tap]

theorem State.coarse_iff : s.coarse e c = true ↔ (s.chan e c).conv = true ∨ ∃ b, s.bringAt e c = some b ∧ b.state = 2 := by
  unfold State.coarse
  rw [Bool.or_eq_true]
  cases s.bringAt e c with
  | none => simp
  | some b => simp

/-- R49, R55, R66: the exponent of the step's period. -/
theorem State.muShift_eq (s : State) (e c : Nat) : s.muShift e c =
    if ¬ ((s.chan e c).conv = true ∨ ∃ b, s.bringAt e c = some b ∧ b.state = 2) ∧
        s.fld (key 0x21F0 1) lglb_fom_fine ≤ s.fld (kLstat e c) lstat_fom
      then s.fld (key 0x21F0 1) lglb_mu_shift_fine else s.fld (key 0x21F0 1) lglb_mu_shift_coarse := by
  have hq : (!s.coarse e c) = true ↔ ¬ ((s.chan e c).conv = true ∨ ∃ b, s.bringAt e c = some b ∧ b.state = 2) := by
    rw [← State.coarse_iff, Bool.not_eq_true', Bool.not_eq_true]
  unfold State.muShift
  exact if_congr (and_congr_left' hq) rfl rfl

/-- An update is a step of every tap in use (R48, R49), on a lane that adapts and in its time. -/
theorem exec_dfeUpdate_eq (hc : chanOk s.grade e c = true) (ui : Nat) (x : Sliced) : exec (.dfeUpdate e c ui x) s =
    .next (if (s.fld (kLstat e c) lstat_power_state_now ≠ 2 ∨ (s.chan e c).conv = true) ∧
        s.fld (kLctl e c) lctl_dfe_freeze ≠ 1 ∧ ui = 2 ^ s.muShift e c then
      (x.syms.take (dfeTaps (s.fld (kLstat e c) lstat_rate_now))).zipIdx.foldl (State.stepTap (kLeq e c)
        (s.fld (kLstat e c) lstat_rate_now)
        (sgn (x.diff - dfeSum (s.fld (kLstat e c) lstat_rate_now) (s.tapsOf e c) x.syms))) s
      else s) := by
  refine (if_pos hc).trans ?_
  simp only [State.flag_iff]
  split <;> rfl

end Equalisers

/-! ### Eyes and the figure of merit (R49 to R51) -/

/-- The binary search of R50 over the `n` points with the offsets 2^(n - 1) to 1, from offset `k` on. -/
theorem eyeSearch_facts (counts : List Nat) (n : Nat) (k : Nat) (hk : k = 0 ∨ counts.getD k 65536 ≤ 4) (m : Nat)
    (hm : k + 2 ^ n = m + 1) (ht : m = 127 ∨ 4 < counts.getD (m + 1) 65536) :
    let r := ((List.range n).reverse.map (2 ^ ·)).foldl (fun k d => if pointPasses (counts.getD (k + d) 65536) then k + d else k) k
    r ≤ m ∧ (r = 0 ∨ counts.getD r 65536 ≤ 4) ∧ (r = 127 ∨ 4 < counts.getD (r + 1) 65536) := by
  induction n generalizing k m with
  | zero =>
    obtain rfl : k = m := by simpa using hm
    exact ⟨le_rfl, hk, ht⟩
  | succ n ih =>
    rw [List.range_succ, List.reverse_append, List.reverse_singleton, List.singleton_append, List.map_cons, List.foldl_cons]
    have hp : 0 < 2 ^ n := Nat.two_pow_pos n
    rw [Nat.pow_succ] at hm
    by_cases hd : counts.getD (k + 2 ^ n) 65536 ≤ 4
    · rw [if_pos (by simpa [pointPasses] using hd)]
      exact ih _ (.inr hd) m (by omega) ht
    · rw [if_neg (by simpa [pointPasses] using hd)]
      obtain ⟨h1, h2, h3⟩ := ih k hk (k + 2 ^ n - 1) (by omega) (.inr (by rw [Nat.sub_add_cancel (by omega)]; omega))
      exact ⟨by omega, h2, h3⟩

/-- An eye's edge passes, and the next offset does not (R50). -/
theorem eyeEdge_facts (counts : List Nat) : eyeEdge counts ≤ 127 ∧
    (eyeEdge counts = 0 ∨ counts.getD (eyeEdge counts) 65536 ≤ 4) ∧
    (eyeEdge counts = 127 ∨ 4 < counts.getD (eyeEdge counts + 1) 65536) :=
  eyeSearch_facts counts 7 0 (.inl rfl) 127 rfl (.inl rfl)

/-- The opening of an eye whose points are `y` (R50). -/
def eyeOpening (y : List Nat × List Nat) : Nat := min (eyeEdge y.1) 127 + min (eyeEdge y.2) 127

/-- The figure of merit is the least opening (R50). -/
theorem fomOf_least (ul : List (List Nat × List Nat)) (h : ul ≠ []) :
    let fom := fomOf ((ul.map Prod.fst).map eyeEdge) ((ul.map Prod.snd).map eyeEdge)
    (∀ y ∈ ul, fom ≤ eyeOpening y) ∧ ∃ y ∈ ul, fom = eyeOpening y := by
  obtain ⟨y, ys, rfl⟩ := List.exists_cons_of_ne_nil h
  have hl : fomOf (((y :: ys).map Prod.fst).map eyeEdge) (((y :: ys).map Prod.snd).map eyeEdge) =
      min 255 ((ys.map eyeOpening).foldl min (eyeOpening y)) := by
    unfold fomOf
    rw [List.map_map, List.map_map, List.zipWith_map, List.zipWith_self]
    rfl
  obtain ⟨hmem, hle⟩ := List.min?_eq_some_iff.mp (List.min?_cons' (x := eyeOpening y) (xs := ys.map eyeOpening))
  rw [← List.map_cons, List.mem_map] at hmem
  obtain ⟨z, hz, he⟩ := hmem
  have hsmall : eyeOpening z ≤ 255 := by unfold eyeOpening; omega
  intro fom
  have hfom : fom = eyeOpening z := by rw [show fom = _ from hl, ← he]; omega
  refine ⟨fun x hx => ?_, z, hz, hfom⟩
  rw [hfom, he]
  exact hle _ (by rw [← List.map_cons]; exact List.mem_map_of_mem hx)

/-! ### What the figures answer -/

section Figures

variable {s : State} {e c fom new : Nat}

@[simp] theorem State.fld_fomHistogram (s : State) (e c fom k : Nat) (f : Fld) : (s.fomHistogram e c fom).fld k f = s.fld k f :=
  congrArg f.of (State.ent_congr rfl rfl rfl k)

theorem kLstat_ne_lglb (he : e < 24) (hc : c < 34) : key 0x21F0 1 ≠ kLstat e c :=
  fun h => not_laneWord_of_le (by decide) (h ▸ laneWord_kLstat he hc)

/-- The lane after a figure of merit was measured (R50, R51). -/
def State.fomMeasured (s : State) (e c fom : Nat) : State :=
  ((s.setFld (kLstat e c) lstat_fom fom).fomHistogram e c fom).setChan e c { s.chan e c with fomSeen := true }

/-- A measured figure warns (R51; log entry 76). -/
def State.fomWarns (s : State) (e c fom : Nat) : Prop :=
  s.fld (kLstat e c) lstat_block_lock = 1 ∧ fom < s.fld (key 0x21F0 1) lglb_fom_warn ∧
    ((s.chan e c).fomSeen = false ∨ s.fld (key 0x21F0 1) lglb_fom_warn ≤ s.fld (kLstat e c) lstat_fom)

theorem State.fomMeasured_kLstat (s : State) (e c fom : Nat) {g : Fld} (h : g.lo + g.w ≤ 16 ∨ 24 ≤ g.lo) :
    (s.fomMeasured e c fom).fld (kLstat e c) g = s.fld (kLstat e c) g := by
  rw [State.fomMeasured, State.fld_setChan, State.fld_fomHistogram, State.fld_setFld_other _ _ _ _ _ h]

theorem State.fomMeasured_lglb (he : e < 24) (hc : c < 34) (g : Fld) :
    (s.fomMeasured e c fom).fld (key 0x21F0 1) g = s.fld (key 0x21F0 1) g := by
  rw [State.fomMeasured, State.fld_setChan, State.fld_fomHistogram, State.fld_setFld_ne _ _ _ _ _ _ (kLstat_ne_lglb he hc)]

/-- The lane after a trial of the CTLE, before the code it leads to (R51, R52). -/
def State.ctleTried (s : State) (e c new : Nat) : State :=
  (s.setChan e c { s.chan e c with ctleUp := !(s.chan e c).ctleUp }).fomHistogram e c new

theorem State.ctleTried_fom (s : State) (e c new : Nat) :
    (s.ctleTried e c new).fld (kLstat e c) lstat_fom = s.fld (kLstat e c) lstat_fom := by
  rw [State.ctleTried, State.fld_fomHistogram, State.fld_setChan]

/-- The code has a step in the direction of the trial (R52). -/
def State.ctleRoom (s : State) (e c : Nat) : Bool :=
  if (s.chan e c).ctleUp then decide (s.fld (kLeq e c) leq_ctle_code < 15) else decide (0 < s.fld (kLeq e c) leq_ctle_code)

variable (hc : chanOk s.grade e c = true) (hp : s.fld (kLstat e c) lstat_power_state_now ≠ 2)
include hc hp

theorem exec_fomMeasure_eq (u l : List (List Nat)) (hf : fomOf (u.map eyeEdge) (l.map eyeEdge) = fom) :
    (¬ s.fomWarns e c fom → exec (.fomMeasure e c u l) s = .next (s.fomMeasured e c fom)) ∧
    (s.fomWarns e c fom → exec (.fomMeasure e c u l) s =
      .next ((((s.fomMeasured e c fom).setFld (kLstat e c) lstat_fom_warn_seen 1).record 9 (e + 2 ^ 8 * c)
        (fom + 2 ^ 8 * s.fld (kLstat e c) lstat_rate_now)).emcy 3 (e + 2 ^ 8 * c + 2 ^ 16 * fom))) := by
  obtain ⟨he, hc34⟩ := chanOk_lt hc
  have hlock := s.fomMeasured_kLstat e c fom (g := lstat_block_lock) (by decide)
  have hrate := s.fomMeasured_kLstat e c fom (g := lstat_rate_now) (by decide)
  have hw : ((s.fomMeasured e c fom).flag (kLstat e c) lstat_block_lock = true ∧
      fom < (s.fomMeasured e c fom).fld (key 0x21F0 1) lglb_fom_warn ∧ ((!(s.chan e c).fomSeen) = true ∨
        (s.fomMeasured e c fom).fld (key 0x21F0 1) lglb_fom_warn ≤ s.fld (kLstat e c) lstat_fom)) ↔ s.fomWarns e c fom := by
    rw [State.flag_iff, hlock, State.fomMeasured_lglb he hc34, Bool.not_eq_true', State.fomWarns]
  refine ⟨fun h => ?_, fun h => ?_⟩
  · refine (if_pos hc).trans ((if_pos hp).trans ?_)
    rw [hf]
    exact if_neg (mt hw.mp h)
  · refine (if_pos hc).trans ((if_pos hp).trans ?_)
    rw [hf, ← hrate]
    exact if_pos (hw.mpr h)

variable (ht : s.fld (kLctl e c) lctl_ctle_track = 1) (h8 : s.fld (kLstat e c) lstat_bringup_state = 8)
include ht h8

theorem exec_ctleTrack_kept (hr : s.ctleRoom e c = true) (hn : s.fld (kLstat e c) lstat_fom + 8 ≤ new) :
    exec (.ctleTrack e c new) s = .next (((s.ctleTried e c new).setFld (kLeq e c) leq_ctle_code (if (s.chan e c).ctleUp then
      s.fld (kLeq e c) leq_ctle_code + 1 else s.fld (kLeq e c) leq_ctle_code - 1)).setFld (kLstat e c) lstat_fom new) := by
  refine (if_pos hc).trans ((if_pos ⟨(State.flag_iff ..).mpr ht, h8, hp⟩).trans ?_)
  rw [← State.ctleTried_fom s e c new] at hn
  exact if_pos ⟨hr, hn⟩

theorem exec_ctleTrack_not_kept (h : ¬ (s.ctleRoom e c = true ∧ s.fld (kLstat e c) lstat_fom + 8 ≤ new)) :
    exec (.ctleTrack e c new) s = .next (s.ctleTried e c new) := by
  refine (if_pos hc).trans ((if_pos ⟨(State.flag_iff ..).mpr ht, h8, hp⟩).trans ?_)
  rw [← State.ctleTried_fom s e c new] at h
  exact if_neg h

end Figures

end Sys2Proof.Machine
end

section
/-! CLAIM. The statement about block lock, the relock and the equalisers. -/

open Sys2Proof Sys2Proof.Machine

/-- Settles O23: a lane that loses its lock is `State.lost` and one that gains it `State.gained` (`State.lockLoss_calm`,
`State.gainLock_unlocked`); an update steps every tap in use (`State.foldl_stepTap`), an eye's edge is what the binary search ends
at (`eyeEdge_facts`), and the figure of merit is the least opening (`fomOf_least`). -/
theorem receiversLockAndAdapt : Obligations.ReceiversLockAndAdapt := by
  refine ⟨fun s e c hc => ?_, fun s e c hc hp hv ui x => ?_, fun s e c hc hp => ?_⟩
  · intro k x calm dark lit
    obtain ⟨he, hc34⟩ := chanOk_lt hc
    have hword := laneWord_kLstat he hc34
    have hlock {f : Fld} (v : Nat) (h : 7 ≤ f.lo ∨ f.lo + f.w ≤ 6) :
        (s.setFld k f v).fld k lstat_block_lock = s.fld k lstat_block_lock := State.fld_setFld_other _ _ _ _ _ h
    refine ⟨exec_signalDetectChange_lit hc, fun h1 hl hb => ?_, fun h1 hl => ?_, fun hl hb => ⟨?_, ?_⟩, fun hl b hb h5 hd => ?_,
      fun hl hd hw hp => exec_blockLockSet_gains hc hl hd hw hp, exec_blockLockSet_stays hc, fun i hs hw => ?_,
      exec_blockLockSearchStep_idle hc, fun hs hw => exec_blockLockSearchStep_early hc hw hs,
      fun hr h1 => ⟨exec_relockDone_locked hc hr h1, fun hl => ⟨exec_relockDone_unlocked hc hr h1 hl false,
        exec_relockDone_unlocked hc hr h1 hl true⟩⟩, exec_relockDone_none hc, s.relockState_eq e c⟩
    · rw [exec_signalDetectChange_dark hc h1,
        State.lockLoss_calm he hc34 ((hlock 0 (by decide)).trans hl) (State.calm_setFld he hword hb)]
    · rw [exec_signalDetectChange_dark hc h1, State.lockLoss_unlocked ((hlock 0 (by decide)).trans hl)]
    · rw [exec_blockLockLoss_headers hc, State.lockLoss_calm he hc34 hl hb]
    · rw [exec_blockLockLoss_cdr hc,
        State.lockLoss_calm he hc34 ((hlock 0 (by decide)).trans hl) (State.calm_setFld he hword hb)]
    · rw [exec_blockLockLoss_headers hc, State.lockLoss_switch he hc34 hl hb h5 hd]
    · refine ⟨fun hl => ?_, fun hl => ?_, fun hi => ?_, fun hi => ?_⟩
      · rw [exec_blockLockSearchStep_locked hc hs hw, State.gainLock_unlocked hl]
      · rw [exec_blockLockSearchStep_locked hc hs hw, State.gainLock_locked hl]
      · rw [exec_blockLockSearchStep_next hc hs hw, if_pos (by omega)]
      · rw [exec_blockLockSearchStep_next hc hs hw, if_neg (by omega), ← Nat.add_assoc]
        obtain ⟨h1, h2, h3, h4⟩ := State.putSlip_facts (s := s.setChan e c { s.chan e c with search := some (i + 1) }) (e := e)
          (c := c) (Nat.mod_lt ((s.chan e c).lastSlip + i + 1) (by decide : 66 > 0))
        rw [State.chan_setChan_same] at h3
        rw [State.fld_setChan] at h4
        exact ⟨_, rfl, h1, h2, h3, h4⟩
  · rw [exec_dfeUpdate_eq hc, if_neg fun h => h.1.elim (· hp) (by simp [hv])]
  · obtain ⟨he, hc34⟩ := chanOk_lt hc
    intro k q g tap nrz taps level coarse mu
    have hmu : mu = s.muShift e c := (s.muShift_eq e c).symm
    have hlevel : ∀ d, level d = level3 (s.fld k lstat_rate_now) d := fun d => (level3_eq _ d).symm
    have htaps : taps = dfeTaps (s.fld k lstat_rate_now) := rfl
    refine ⟨fun hf diff syms hn => ?_, fun ui diff syms h => ?_, fun counts _ => eyeEdge_facts counts, fun ul hul => ?_,
      fun ht h8 new _ => ?_⟩
    · intro err
      have herr : err = sgn (diff - dfeSum (s.fld k lstat_rate_now) (s.tapsOf e c) syms) := by
        rw [sgn_eq_sign, State.dfeSum_tapsOf s e c syms hn]
        simp only [err, hlevel]
        rfl
      have hlen : (syms.take (dfeTaps (s.fld k lstat_rate_now))).length = taps := List.length_take_of_le hn
      obtain ⟨ho, hcode, hstep⟩ := s.foldl_stepTap q (s.fld k lstat_rate_now) err
        (syms.take (dfeTaps (s.fld k lstat_rate_now))) 0
      refine ⟨_, ?_, ho, hcode, fun i hi _ => (hstep i).trans ?_⟩
      · rw [exec_dfeUpdate_eq hc, if_pos ⟨.inl hp, by rw [hf]; decide, by rw [hmu]⟩, ← herr]
      · rw [hlen, hlevel]
        by_cases hit : i ≤ taps
        · rw [if_pos (by omega), if_pos hit, List.getD_eq_getElem?_getD, List.getElem?_take_of_lt (by omega)]
          rfl
        · rw [if_neg (by omega), if_neg hit]
          rfl
    · rw [exec_dfeUpdate_eq hc, if_neg fun ⟨_, hf, hu⟩ => h.elim hf fun hne => hne (by rw [hmu]; exact hu)]
    · intro x fom v warns
      obtain ⟨hle, hex⟩ := fomOf_least ul hul
      obtain ⟨hcalm, hwarn⟩ := exec_fomMeasure_eq hc hp (ul.map Prod.fst) (ul.map Prod.snd) rfl
      exact ⟨hle, hex, hcalm, hwarn⟩
    · intro code v rises
      refine ⟨fun hr hu hroom => ?_, fun hr hu hroom => ?_, fun h => ?_⟩
      · have hok : s.ctleRoom e c = true := by rw [State.ctleRoom, if_pos hu]; exact decide_eq_true hroom
        rw [exec_ctleTrack_kept hc hp ht h8 hok hr, if_pos hu]
        rfl
      · have hok : s.ctleRoom e c = true := by rw [State.ctleRoom, if_neg (by simp [hu])]; exact decide_eq_true hroom
        rw [exec_ctleTrack_kept hc hp ht h8 hok hr, if_neg (by simp [hu])]
        rfl
      · refine exec_ctleTrack_not_kept hc hp ht h8 fun ⟨hok, hr⟩ => ?_
        rcases h with h | ⟨hu, hroom⟩ | ⟨hu, hroom⟩
        · exact h hr
        · rw [State.ctleRoom, if_pos hu] at hok
          exact absurd (of_decide_eq_true hok) (Nat.not_lt.mpr hroom)
        · rw [State.ctleRoom, if_neg (by simp [hu])] at hok
          exact absurd (of_decide_eq_true hok) (Nat.not_lt.mpr hroom.le)

end

section
/-! SUPPORT. What the parsing of a lane's blocks leaves alone (R88 to R96): however a lane frame ends and whatever becomes of its
group, no lane's count of blocks and no number of its latest frame-open changes, and the words of the groups stay. -/

namespace Sys2Proof.Machine

/-- `t` has the entries of `s` with a key in `P`, and of each lane the count of blocks and the number of its latest frame-open. -/
structure State.Leaves (P : Nat → Prop) (s t : State) : Prop where
  ent : ∀ k, P k → t.ent k = s.ent k
  prev : ∀ e n, (t.parser e n).prev = (s.parser e n).prev
  total : ∀ e n, (t.parser e n).total = (s.parser e n).total

/-- A key below those of Group Status: that of a quay's or group's word among them. -/
def groupWord (k : Nat) : Prop := k < key 0x2220 0

theorem not_groupWord_of_le {k : Nat} (h : key 0x2220 0 ≤ k) : ¬ groupWord k := Nat.not_lt.mpr h
theorem not_groupWord_kFlsh : ¬ groupWord kFlsh := not_groupWord_of_le (by decide)
theorem not_groupWord_kGst (q g : Nat) : ¬ groupWord (kGst q g) := by unfold groupWord kGst key; omega

namespace State.Leaves

variable {P : Nat → Prop} {s₀ s t : State}

theorem refl (s : State) : Leaves P s s := ⟨fun _ _ => rfl, fun _ _ => rfl, fun _ _ => rfl⟩

theorem ite {c : Prop} [Decidable c] (hs : Leaves P s₀ s) (ht : Leaves P s₀ t) : Leaves P s₀ (if c then s else t) := by
  split
  · exact hs
  · exact ht

theorem foldl {α : Type} {f : State → α → State} {l : List α} (h : Leaves P s₀ s)
    (hf : ∀ s a, Leaves P s₀ s → Leaves P s₀ (f s a)) : Leaves P s₀ (l.foldl f s) := by
  induction l generalizing s with
  | nil => exact h
  | cons a l ih => exact ih (hf s a h)

/-- An effect on what is neither an entry nor a parser. -/
theorem upd {pending clk free mem tiles net tend land dec cap job berth time ctl rst recd sec tele flt out} (h : Leaves P s₀ s)
    (hl : land.parsers = s.land.parsers := by rfl) :
    Leaves P s₀ ⟨pending, clk, free, s.grade, s.stepping, s.dict, mem, tiles, net, tend, land, dec, cap, job, berth, time, ctl, rst,
      recd, sec, tele, flt, out⟩ where
  ent k hk := (State.ent_congr rfl rfl rfl k).trans (h.ent k hk)
  prev e n := (congrArg (fun m => (mget ({} : Parser) m (32 * e + n)).prev) hl).trans (h.prev e n)
  total e n := (congrArg (fun m => (mget ({} : Parser) m (32 * e + n)).total) hl).trans (h.total e n)

theorem setFld {k : Nat} {f : Fld} {v : Nat} (h : Leaves P s₀ s) (hk : ¬ P k) : Leaves P s₀ (s.setFld k f v) where
  ent j hj := (s.setFld_ent_other k f v j fun e => hk (e ▸ hj)).trans (h.ent j hj)
  prev := h.prev
  total := h.total

theorem setFlag {k : Nat} {f : Fld} {b : Bool} (h : Leaves P s₀ s) (hk : ¬ P k) : Leaves P s₀ (s.setFlag k f b) := h.setFld hk

theorem emit {o : Output} (h : Leaves P s₀ s) : Leaves P s₀ (s.emit o) := h.upd

/-- A parser that keeps its count of blocks and the number of its latest frame-open. -/
theorem setParser {e n : Nat} {p : Parser} (h : Leaves P s₀ s) (hp : p.prev = (s.parser e n).prev := by rfl)
    (ht : p.total = (s.parser e n).total := by rfl) : Leaves P s₀ (s.setParser e n p) where
  ent k hk := (State.ent_congr rfl rfl rfl k).trans (h.ent k hk)
  prev e' n' := by
    rw [← h.prev e' n', State.parser, State.setParser, mget_mset]
    split
    · next hk => rw [hp, State.parser, State.parser, hk]
    · rfl
  total e' n' := by
    rw [← h.total e' n', State.parser, State.setParser, mget_mset]
    split
    · next hk => rw [ht, State.parser, State.parser, hk]
    · rfl

theorem setGroup {q g : Nat} {x : Group} (h : Leaves P s₀ s) : Leaves P s₀ (s.setGroup q g x) := h.upd

/-! ### Doubt -/

theorem refreshHold (h : Leaves P s₀ s) (hf : ¬ P kFlsh) : Leaves P s₀ s.refreshHold := by
  dsimp only [State.refreshHold]
  split
  · split
    · exact h.setFld hf
    · exact (h.setFld hf).upd
  · exact ite (h.setFld hf).upd (ite ((h.setFld hf).upd.setFlag hf).emit ((h.setFld hf).upd.setFlag hf))

theorem forceOn (h : Leaves P s₀ s) (hf : ¬ P kFlsh) : Leaves P s₀ s.forceOn :=
  ite h (ite ((((h.upd.foldl fun _ _ k => k.emit).setFlag hf).setFlag hf).emit)
    (((h.upd.foldl fun _ _ k => k.emit).setFlag hf).setFlag hf))

theorem setDoubt {k : Nat} {on : Bool} (h : Leaves P s₀ s) (hf : ¬ P kFlsh) : Leaves P s₀ (s.setDoubt k on) :=
  ite (((h.setFld hf).upd.forceOn hf).refreshHold hf)
    (ite (ite ((h.setFld hf).upd.refreshHold hf) ((h.setFld hf).refreshHold hf)) (h.refreshHold hf))

theorem refreshLaneDoubt (h : Leaves P s₀ s) (hf : ¬ P kFlsh) : Leaves P s₀ s.refreshLaneDoubt := ite (h.setDoubt hf) h

/-! ### Groups -/


theorem gutter {q r : Nat} (h : Leaves groupWord s₀ s) : Leaves groupWord s₀ (s.gutter q r) :=
  h.setFld (by unfold groupWord key; omega)

theorem onCourse {q n : Nat} {f : Course → Course} (h : Leaves P s₀ s) : Leaves P s₀ (s.onCourse q n f) := h.upd

theorem rewrite {a : Nat} {bs : List Nat} (h : Leaves P s₀ s) : Leaves P s₀ (s.rewrite a bs) := ite h.upd h.upd

theorem courseReason {q g n r : Nat} (h : Leaves P s₀ s) : Leaves P s₀ (s.courseReason q g n r) := ite h.onCourse h

theorem record {ty k p : Nat} (h : Leaves groupWord s₀ s) : Leaves groupWord s₀ (s.record ty k p) :=
  ite (h.upd.setFld (not_groupWord_of_le (by decide))) h.upd

theorem landCourse {q g frame reason flags valid data stamp} (h : Leaves groupWord s₀ s) :
    Leaves groupWord s₀ (s.landCourse q g frame reason flags valid data stamp) := by
  have hn : Leaves groupWord s₀ (s.noteLanded q g frame) := h.setGroup
  have hc : ¬ groupWord kCaps := not_groupWord_of_le (by decide)
  dsimp only [State.landCourse]
  split
  · split
    · exact hn.rewrite.rewrite
    · split
      · exact (ite (hn.setFlag hc) hn).onCourse.rewrite
      · exact (ite (hn.setFlag hc) hn).onCourse
  · exact hn

theorem refreshGroup {q g : Nat} (h : Leaves groupWord s₀ s) : Leaves groupWord s₀ (s.refreshGroup q g) := by
  have hk := not_groupWord_kGst q g
  exact ite (ite h (h.setFld hk)) (ite (ite ((h.setGroup.setFld hk).foldl fun _ _ k => k.setParser) (h.setFld hk))
    (ite (ite (h.setFld hk) (ite ((h.setGroup.setFld hk).setFld hk) h)) (ite (h.setFld hk) h)))

theorem dropFrames {q g : Nat} {x : Group} (h : Leaves groupWord s₀ s) : Leaves groupWord s₀ (s.dropFrames q g x) :=
  (h.foldl fun _ _ k => (ite k k.gutter).courseReason).foldl fun _ _ k => (ite k k.gutter).landCourse

theorem loseAlign {q g : Nat} (h : Leaves groupWord s₀ s) : Leaves groupWord s₀ (s.loseAlign q g) := by
  have hk := not_groupWord_kGst q g
  have hd : Leaves groupWord s₀ ((s.record 7 (q + 2 ^ 8 * g) (s.align q g + 2 ^ 8 * s.fld (kGst q g) gstat_skew_max)).setFlag
    (kGst q g) gstat_align_lost_seen true) := h.record.setFlag hk
  exact ite h (ite (h.setGroup.setFld hk).refreshGroup
    (((ite hd.dropFrames hd).setGroup.setFld hk).refreshGroup.refreshLaneDoubt not_groupWord_kFlsh))

theorem completeFrame {q g : Nat} {f : GroupFrame} (h : Leaves groupWord s₀ s) : Leaves groupWord s₀ (s.completeFrame q g f) := by
  have hk := not_groupWord_kGst q g
  exact ite (ite ((h.setGroup.setFld hk).refreshLaneDoubt not_groupWord_kFlsh) (ite h.setGroup.loseAlign h.setGroup))
    (ite (ite h.loseAlign (ite (ite h.setGroup.landCourse (ite h.setGroup.gutter h.setGroup).landCourse.setGroup) h.setGroup))
      (ite h.setGroup.loseAlign h.setGroup))

theorem endLaneFrame {q g n : Nat} {l : LaneFrame} (h : Leaves groupWord s₀ s) : Leaves groupWord s₀ (s.endLaneFrame q g n l) := by
  dsimp only [State.endLaneFrame]
  split
  · exact h
  · exact ite h (ite h.setGroup.completeFrame h.setGroup)

theorem endParser {q g n r : Nat} {stamp : Option Nat} (h : Leaves groupWord s₀ s) :
    Leaves groupWord s₀ (s.endParser q g n r stamp) := h.setParser.endLaneFrame

theorem renumber {q g n old frame : Nat} (h : Leaves P s₀ s) : Leaves P s₀ (s.renumber q g n old frame) := ite h h.setGroup

theorem countUnaligned {q g frame : Nat} (h : Leaves groupWord s₀ s) : Leaves groupWord s₀ (s.countUnaligned q g frame) :=
  ite h h.setGroup.gutter

theorem trimGone {q g n : Nat} (h : Leaves P s₀ s) : Leaves P s₀ (s.trimGone q g n) := h.setGroup

end State.Leaves

end Sys2Proof.Machine
end

section
/-! SUPPORT. The alignment of a lane group (R91 to R93): where the conditions on its lanes move it, what its loss leaves, and what
its skew records. -/

namespace Sys2Proof.Machine

variable {s : State} {q g n k v : Nat} {f : Fld}

/-! ### Parsers, groups and words apart from one another -/

@[simp] theorem State.parser_setParser_same (s : State) (e n : Nat) (p : Parser) : (s.setParser e n p).parser e n = p :=
  mget_mset_same ..

theorem State.parser_setParser (s : State) (e n m : Nat) (p : Parser) :
    (s.setParser e n p).parser e m = if m = n then p else s.parser e m :=
  (mget_mset ..).trans (if_congr (by omega) rfl rfl)

@[simp] theorem State.group_setGroup_same (s : State) (q g : Nat) (x : Group) : (s.setGroup q g x).group q g = x := mget_mset_same ..

@[simp] theorem State.parser_setFld (s : State) (k v e n : Nat) (f : Fld) : (s.setFld k f v).parser e n = s.parser e n :=
  congrArg (fun l : Land => mget {} l.parsers (32 * e + n)) (s.setFld_land k f v)

@[simp] theorem State.group_setFld (s : State) (k v q g : Nat) (f : Fld) : (s.setFld k f v).group q g = s.group q g :=
  congrArg (fun l : Land => mget {} l.groups (4 * q + g)) (s.setFld_land k f v)

@[simp] theorem State.parser_setGroup (s : State) (q g e n : Nat) (x : Group) : (s.setGroup q g x).parser e n = s.parser e n := rfl

@[simp] theorem State.group_setParser (s : State) (e n q g : Nat) (p : Parser) : (s.setParser e n p).group q g = s.group q g := rfl

@[simp] theorem State.fld_setParser (s : State) (e n k : Nat) (p : Parser) (f : Fld) : (s.setParser e n p).fld k f = s.fld k f :=
  congrArg f.of (State.ent_congr rfl rfl rfl k)

@[simp] theorem State.fld_setGroup (s : State) (q g k : Nat) (x : Group) (f : Fld) : (s.setGroup q g x).fld k f = s.fld k f :=
  congrArg f.of (State.ent_congr rfl rfl rfl k)

@[simp] theorem State.align_setAlign (s : State) (q g v : Nat) : (s.setFld (kGst q g) gstat_align_state v).align q g = v % 2 ^ 3 :=
  s.fld_setFld_same ..

/-! ### The conditions on the lanes (R91) -/

/-- Lane `n` of quay `q` has its identity still to confirm. -/
def State.unmark (q : Nat) (s : State) (n : Nat) : State := s.setParser q n { s.parser q n with marked := false }

theorem State.foldl_unmark (q : Nat) (l : List Nat) (s : State) :
    let u := l.foldl (State.unmark q) s
    (∀ k f, u.fld k f = s.fld k f) ∧ u.mem = s.mem ∧ u.out = s.out ∧
      ∀ n, n ∈ l ∨ (s.parser q n).marked = false → (u.parser q n).marked = false := by
  induction l generalizing s with
  | nil => exact ⟨fun _ _ => rfl, rfl, rfl, fun n h => h.elim (by simp) id⟩
  | cons m l ih =>
    obtain ⟨hf, hm, ho, hp⟩ := ih (s.unmark q m)
    refine ⟨fun k f => (hf k f).trans (s.fld_setParser ..), hm, ho, fun n h => hp n ?_⟩
    rw [State.unmark, State.parser_setParser]
    split
    · exact .inr rfl
    · next hne => exact h.imp (fun h => (List.mem_cons.mp h).resolve_left hne) id

/-- Every lane of the group is in service. -/
def State.groupUp (s : State) (q g : Nat) : Prop := ∀ n ∈ s.groupLanes q g, s.inService q n = true

theorem State.groupUp_iff : (s.groupLanes q g).all (s.inService q) = true ↔ s.groupUp q g := List.all_eq_true

/-- The group waits for the markers of its lanes. -/
def State.waitMarkers (s : State) (q g : Nat) : State :=
  (s.groupLanes q g).foldl (State.unmark q)
    ((s.setGroup q g { s.group q g with open_ := [], incomplete := 0 }).setFld (kGst q g) gstat_align_state 2)

/-- The group waits for frames. -/
def State.waitFrames (s : State) (q g : Nat) : State :=
  ((s.setGroup q g { s.group q g with good := 0, last := none }).setFld (kGst q g) gstat_align_state 3).setFld (kGst q g)
    gstat_skew_max 0

theorem State.refreshGroup_off (h0 : s.laneCount q g = 0) :
    s.refreshGroup q g = if s.align q g = 0 then s else s.setFld (kGst q g) gstat_align_state 0 := if_pos h0

theorem State.refreshGroup_down (h0 : s.laneCount q g ≠ 0) (ha : s.align q g ≤ 3) (hu : ¬ s.groupUp q g) :
    s.refreshGroup q g = s.setFld (kGst q g) gstat_align_state 1 := by
  have hall : (s.groupLanes q g).all (s.inService q) = false := Bool.not_eq_true _ ▸ mt State.groupUp_iff.mp hu
  unfold State.refreshGroup
  simp only [h0, hall, if_false, Bool.false_eq_true, Bool.not_false, if_true, and_true]
  split
  · rfl
  · next h1 =>
    split
    · rfl
    · exact if_pos (by omega)

theorem State.refreshGroup_low (h0 : s.laneCount q g ≠ 0) (ha : s.align q g ≤ 1) (hu : s.groupUp q g) :
    s.refreshGroup q g = s.waitMarkers q g :=
  (if_neg h0).trans ((if_pos ha).trans (if_pos (State.groupUp_iff.mpr hu)))

theorem State.refreshGroup_marker (h0 : s.laneCount q g ≠ 0) (ha : s.align q g = 2) (hu : s.groupUp q g) :
    s.refreshGroup q g = if s.allMarked q g then s.waitFrames q g else s := by
  have hall := State.groupUp_iff.mpr hu
  refine (if_neg h0).trans ((if_neg (by omega)).trans ((if_pos ha).trans (if_neg ?_)))
  rw [hall]
  decide

theorem State.refreshGroup_high (h0 : s.laneCount q g ≠ 0) (ha : 3 ≤ s.align q g) (h : s.align q g = 3 → s.groupUp q g) :
    s.refreshGroup q g = s := by
  refine (if_neg h0).trans ((if_neg (by omega)).trans ((if_neg (by omega)).trans (if_neg ?_)))
  rintro ⟨h3, hn⟩
  rw [State.groupUp_iff.mpr (h h3)] at hn
  exact absurd hn (by decide)

theorem State.refreshGroup_off_align (h0 : s.laneCount q g = 0) : (s.refreshGroup q g).align q g = 0 := by
  rw [State.refreshGroup_off h0]
  split
  · assumption
  · exact State.align_setAlign ..

theorem State.refreshGroup_down_align (h0 : s.laneCount q g ≠ 0) (ha : s.align q g ≤ 3) (hu : ¬ s.groupUp q g) :
    (s.refreshGroup q g).align q g = 1 :=
  State.refreshGroup_down h0 ha hu ▸ State.align_setAlign ..

theorem State.waitMarkers_align : (s.waitMarkers q g).align q g = 2 :=
  ((State.foldl_unmark ..).1 ..).trans (State.align_setAlign ..)

theorem State.waitMarkers_unmarked (h : n ∈ s.groupLanes q g) : ((s.waitMarkers q g).parser q n).marked = false :=
  (State.foldl_unmark ..).2.2.2 n (.inl h)

theorem State.waitMarkers_mem_out : (s.waitMarkers q g).mem = s.mem ∧ (s.waitMarkers q g).out = s.out :=
  ⟨(State.foldl_unmark ..).2.1, (State.foldl_unmark ..).2.2.1⟩

theorem State.waitFrames_facts : (s.waitFrames q g).align q g = 3 ∧ ((s.waitFrames q g).group q g).good = 0 ∧
    (s.waitFrames q g).fld (kGst q g) gstat_skew_max = 0 := by
  refine ⟨?_, ?_, State.fld_setFld_same ..⟩
  · exact (State.fld_setFld_other _ _ _ _ _ (by decide)).trans (State.align_setAlign ..)
  · simp only [State.waitFrames, State.group_setFld, State.group_setGroup_same]

/-- The conditions of R91 move neither the memory nor what has left. -/
theorem State.refreshGroup_mem_out (s : State) (q g : Nat) :
    (s.refreshGroup q g).mem = s.mem ∧ (s.refreshGroup q g).out = s.out := by
  by_cases h0 : s.laneCount q g = 0
  · rw [State.refreshGroup_off h0]
    split <;> exact ⟨rfl, rfl⟩
  by_cases hd : s.align q g ≤ 3 ∧ ¬ s.groupUp q g
  · rw [State.refreshGroup_down h0 hd.1 hd.2]
    exact ⟨rfl, rfl⟩
  by_cases h3 : 3 ≤ s.align q g
  · rw [State.refreshGroup_high h0 h3 fun h => not_not.mp fun hu => hd ⟨h.le, hu⟩]
    exact ⟨rfl, rfl⟩
  have hu : s.groupUp q g := not_not.mp fun hu => hd ⟨by omega, hu⟩
  by_cases h1 : s.align q g ≤ 1
  · rw [State.refreshGroup_low h0 h1 hu]
    exact State.waitMarkers_mem_out
  · rw [State.refreshGroup_marker h0 (by omega) hu]
    split <;> exact ⟨rfl, rfl⟩

/-! ### Loss of alignment (R91, R93) -/

/-- From wait_lock the conditions of R91 lead to no frame. -/
theorem State.refreshGroup_align_le (h : s.align q g = 1) : (s.refreshGroup q g).align q g ≤ 2 := by
  by_cases h0 : s.laneCount q g = 0
  · rw [State.refreshGroup_off_align h0]
    decide
  by_cases hu : s.groupUp q g
  · rw [State.refreshGroup_low h0 (by omega) hu, State.waitMarkers_align]
  · rw [State.refreshGroup_down_align h0 (by omega) hu]
    decide

theorem State.refreshLaneDoubt_align (hq : q < 20) (hg : g < 4) : s.refreshLaneDoubt.align q g = s.align q g := by
  have hk : kGst q g ≠ kFlsh := by unfold kGst kFlsh key; omega
  exact congrArg gstat_align_state.of (((State.Leaves.refl (P := (· ≠ kFlsh)) s).refreshLaneDoubt (not_not.mpr rfl)).ent _ hk)

/-- A group that has lost its alignment does not wait for frames. -/
theorem State.loseAlign_align_le (hq : q < 20) (hg : g < 4) : (s.loseAlign q g).align q g ≤ 2 := by
  unfold State.loseAlign
  dsimp only
  split
  · omega
  split
  · exact State.refreshGroup_align_le (State.align_setAlign ..)
  · rw [State.refreshLaneDoubt_align hq hg]
    exact State.refreshGroup_align_le (State.align_setAlign ..)

/-! ### Skew (R92, R93, R115) -/

variable {fr : GroupFrame} {frame : Nat}

/-- The skew of a group frame (R92). -/
def State.skewOf (s : State) (q g : Nat) (fr : GroupFrame) : Nat :=
  (fr.opened.map (fun o => (s.parser q (s.fld (key (0x2200 + q) (2 + g)) grp_first_lane + o.1)).total - o.2)).foldl max 0

/-- The skew of a group frame is recorded. -/
def State.skewNoted (s : State) (q g frame : Nat) (fr : GroupFrame) : State :=
  let t := (s.setGroup q g { s.group q g with
    open_ := (s.group q g).open_.map (fun y => if y.frame = frame then { fr with skew := s.skewOf q g fr } else y) }).setFld
      (kGst q g) gstat_skew_now (min (s.skewOf q g fr) 255)
  t.setFld (kGst q g) gstat_skew_max (max (t.fld (kGst q g) gstat_skew_max) (min (s.skewOf q g fr) 255))

theorem State.measureSkew_eq (h : (s.group q g).open_.find? (fun f => f.frame == frame) = some fr) :
    s.measureSkew q g frame = if fr.opened.length = s.laneCount q g then
      (if 64 < s.skewOf q g fr then (s.skewNoted q g frame fr).loseAlign q g else s.skewNoted q g frame fr) else s := by
  unfold State.measureSkew
  simp only [h]
  rfl

theorem State.skewNoted_facts (hs : s.skewOf q g fr ≤ 64) : let t := s.skewNoted q g frame fr
    t.align q g = s.align q g ∧ t.fld (kGst q g) gstat_skew_now = s.skewOf q g fr ∧
      t.fld (kGst q g) gstat_skew_max = max (s.fld (kGst q g) gstat_skew_max) (s.skewOf q g fr) := by
  have hm : s.fld (kGst q g) gstat_skew_max < 2 ^ 8 := Nat.mod_lt _ (by decide)
  have h255 : min (s.skewOf q g fr) 255 = s.skewOf q g fr := by omega
  simp only [State.skewNoted, h255, State.align, State.fld_setFld_same,
    State.fld_setFld_other _ _ gstat_skew_max gstat_align_state _ (by decide),
    State.fld_setFld_other _ _ gstat_skew_now gstat_align_state _ (by decide),
    State.fld_setFld_other _ _ gstat_skew_max gstat_skew_now _ (by decide),
    State.fld_setFld_other _ _ gstat_skew_now gstat_skew_max _ (by decide), State.fld_setGroup]
  exact ⟨trivial, Nat.mod_eq_of_lt (by show _ < 2 ^ 8; omega), Nat.mod_eq_of_lt (by show _ < 2 ^ 8; omega)⟩

end Sys2Proof.Machine
end

section
/-! SUPPORT. Blocks that a lane delivers (R62, R88) and the frame-opens among them (R83, R88, R91 to R94): the parser of the lane, its
group's counts and the group frame it joins, each a state of its own, and the frame-open as their sequence. -/

namespace Sys2Proof.Machine

variable {s : State} {e q g n f fl w i total : Nat}

/-! ### Blocks -/

/-- Lane `n` has heard a block with payload `w` and delivered it. -/
def State.heard (s : State) (e n w : Nat) : State := s.setParser e n (s.counted e n 0 w)

theorem State.hear_delivered (hd : s.delivers e n = true) (w : Nat) : s.hear e n false w = s.heard e n w := by
  unfold State.hear
  simp only [hd, if_true]
  rfl

theorem State.delivers_locked (hd : s.delivers e n = true) : s.flag (kLstat e (s.chanOf e n)) lstat_block_lock = true := by
  simp only [State.delivers, Bool.and_eq_true] at hd
  exact hd.1.1.1.1

/-- A block with a good header on a lane that delivers, its lock not in question. -/
theorem State.onBlock_delivered (hl : laneOk s.grade e n = true) (hd : s.delivers e n = true) (hs : s.steady e n 0) (w : Nat)
    (eff : State → State) : s.onBlock e n false w eff = .next (eff (s.heard e n w)) := by
  refine (if_pos hl).trans ((if_pos (State.delivers_locked hd)).trans ?_)
  dsimp only
  rw [State.hear_delivered hd, if_neg Bool.false_ne_true, if_pos hd]
  refine congrArg _ (if_neg (Nat.not_le.mpr ?_))
  rw [State.heard, State.parser_setParser_same]
  exact hs

theorem State.groupOf_setParser (s : State) (e m q n : Nat) (p : Parser) : (s.setParser e m p).groupOf q n = s.groupOf q n := by
  simp only [State.groupOf, State.groupLanes, State.laneCount, State.fld_setParser]

theorem State.groupOf_some (h : s.groupOf q n = some g) : g < 4 ∧ n ∈ s.groupLanes q g :=
  ⟨List.mem_range.mp (List.mem_of_find?_eq_some h), by simpa using List.find?_some h⟩

/-! ### What a frame-open does -/

/-- The frame a lane is in ends malformed where another opens (R88). -/
def State.cutFrame (s : State) (q g n : Nat) : State :=
  if (s.parser q n).inside then s.endParser q g n (s.parser q n).cutFault none else s

/-- A frame number that is not later than the lane's previous costs the group its alignment (R91; log entry 76). -/
def State.numbered (s : State) (q g n f : Nat) : Option Nat → State
  | some f' => if later f f' then s else (s.loseAlign q g).renumber q g n f' f
  | none => s

/-- A parser at the start of frame `f`. -/
def Parser.start (p : Parser) (f fl : Nat) : Parser :=
  { p with inside := true, count := 0, crc := 0xFFFFFF, damaged := false, data := [], frame := f, flags := fl, prev := some f }

/-- The frame starts in the lane's parser, and the group counts it while it is not aligned. -/
def State.startFrame (s : State) (q g n f fl : Nat) : State :=
  ((s.setParser q n ((s.parser q n).start f fl)).countUnaligned q g f).trimGone q g f

/-- A lane's opening of frame `f` of a group, `o` the lane in the group and its count of blocks. -/
def GroupFrame.openBy (f : Nat) (o : Nat × Nat) (h : GroupFrame) : GroupFrame :=
  if h.frame = f then { h with opened := h.opened ++ [o] } else h

/-- Lane `o.1` of the group joins group frame `f`. -/
def State.joinFrame (s : State) (q g f : Nat) (o : Nat × Nat) : State :=
  let t := (s.missEarlier q g o.1 f).openGroupFrame q g o.1 f
  t.setGroup q g { t.group q g with open_ := (t.group q g).open_.map (GroupFrame.openBy f o) }

theorem State.openFrame_eq (s : State) (q g n f fl : Nat) : s.openFrame q g n f fl =
    (let y := (s.cutFrame q g n).numbered q g n f ((s.cutFrame q g n).parser q n).prev
     let v := y.startFrame q g n f fl
     if v.align q g < 2 then v
     else (v.joinFrame q g f (n - v.fld (key (0x2200 + q) (2 + g)) grp_first_lane, (y.parser q n).total)).measureSkew q g f) := by
  unfold State.openFrame State.numbered
  rfl

/-! ### What it leaves -/

theorem State.Leaves.fld_group {t : State} (h : s.Leaves groupWord t) (hq : q < 20) (hg : g < 4) (x : Fld) :
    t.fld (key (0x2200 + q) (2 + g)) x = s.fld (key (0x2200 + q) (2 + g)) x :=
  congrArg x.of (h.ent _ (by unfold groupWord key; omega))

theorem State.cutFrame_leaves (s : State) (q g n : Nat) : s.Leaves groupWord (s.cutFrame q g n) :=
  .ite (State.Leaves.refl s).endParser (.refl s)

theorem State.Leaves.numbered {t : State} {P : Option Nat} (h : s.Leaves groupWord t) :
    s.Leaves groupWord (t.numbered q g n f P) := by
  cases P with
  | none => exact h
  | some f' => exact .ite h h.loseAlign.renumber

/-- The words of the groups are as they were. -/
theorem State.startFrame_ent (s : State) (q g n f fl k : Nat) (hk : groupWord k) : (s.startFrame q g n f fl).ent k = s.ent k :=
  ((State.Leaves.refl (P := groupWord) _).countUnaligned.trimGone.ent k hk).trans (State.ent_congr rfl rfl rfl k)

/-- A frame-open that a lane delivers: the lane's parser before it, and its count of blocks with it. -/
theorem State.openFrame_heard (hq : q < 20) (hg : g < 4) :
    let z := (s.heard q n w).cutFrame q g n
    let v := (z.numbered q g n f (s.parser q n).prev).startFrame q g n f fl
    (s.heard q n w).openFrame q g n f fl = if v.align q g < 2 then v
      else (v.joinFrame q g f (n - s.fld (key (0x2200 + q) (2 + g)) grp_first_lane, (s.parser q n).total + 1)).measureSkew q g f := by
  intro z v
  have hz : (s.heard q n w).Leaves groupWord z := State.cutFrame_leaves ..
  have hp : (s.heard q n w).parser q n = s.counted q n 0 w := s.parser_setParser_same ..
  have hprev : (z.parser q n).prev = (s.parser q n).prev := by
    rw [hz.prev, hp]
    rfl
  have htotal : ((z.numbered q g n f (s.parser q n).prev).parser q n).total = (s.parser q n).total + 1 := by
    rw [hz.numbered.total, hp]
    rfl
  have hfirst : v.fld (key (0x2200 + q) (2 + g)) grp_first_lane = s.fld (key (0x2200 + q) (2 + g)) grp_first_lane :=
    (congrArg grp_first_lane.of (State.startFrame_ent _ q g n f fl _ (by unfold groupWord key; omega))).trans
      ((hz.numbered.fld_group hq hg _).trans (s.fld_setParser ..))
  rw [State.openFrame_eq, show ((s.heard q n w).cutFrame q g n) = z from rfl, hprev]
  show (if v.align q g < 2 then v else (v.joinFrame q g f (n - v.fld (key (0x2200 + q) (2 + g)) grp_first_lane,
    ((z.numbered q g n f (s.parser q n).prev).parser q n).total)).measureSkew q g f) = _
  rw [htotal, hfirst]

theorem exec_frameOpen_heard (hq : q < 20) (hl : laneOk s.grade q n = true) (hgr : s.groupOf q n = some g)
    (hd : s.delivers q n = true) (hs : s.steady q n 0) (f fl : Nat) : exec (.frameOpen q n f fl) s =
      .next ((s.heard q n (0x4B + 2 ^ 8 * f + 2 ^ 56 * fl)).openFrame q g n f fl) := by
  refine (if_neg (by omega)).trans ((State.onBlock_delivered hl hd hs _ _).trans ?_)
  simp only [State.heard, State.groupOf_setParser, hgr]

/-! ### The first lane to open a group frame -/

theorem later_self (f : Nat) : later f f = false := by
  have h : (f + 2 ^ 48 - f % 2 ^ 48) % 2 ^ 48 = 0 := by omega
  unfold later
  rw [h]
  rfl

theorem later_asymm {a b : Nat} (h : later a b = true) : later b a = false := by
  unfold later at h ⊢
  simp only [Bool.and_eq_true, decide_eq_true_eq] at h
  simp only [Bool.and_eq_false_iff, decide_eq_false_iff_not]
  omega

theorem State.countUnaligned_facts (hg : g < 4) : (s.countUnaligned q g f).align q g = s.align q g ∧
    ((s.countUnaligned q g f).group q g).open_ = (s.group q g).open_ ∧
    ∀ m, (s.countUnaligned q g f).parser q m = s.parser q m := by
  have hk : kGst q g ≠ key (0x2240 + q) 5 := by unfold kGst key; omega
  unfold State.countUnaligned
  dsimp only
  split
  · exact ⟨rfl, rfl, fun _ => rfl⟩
  · refine ⟨?_, ?_, fun m => State.parser_setFld ..⟩
    · exact (State.fld_setFld_ne _ _ _ _ _ _ hk).trans (s.fld_setGroup ..)
    · simp only [State.gutter, State.bump, State.bumpBy, State.group_setFld, State.group_setGroup_same]

theorem State.startFrame_facts (hg : g < 4) : let v := s.startFrame q g n f fl
    v.align q g = s.align q g ∧ (v.group q g).open_ = (s.group q g).open_ ∧
      ∀ m, (v.parser q m).prev = if m = n then some f else (s.parser q m).prev := by
  obtain ⟨ha, ho, hp⟩ := State.countUnaligned_facts (s := s.setParser q n ((s.parser q n).start f fl)) (q := q) (f := f) hg
  refine ⟨?_, ?_, fun m => ?_⟩
  · exact (State.fld_setGroup ..).trans (ha.trans (s.fld_setParser ..))
  · exact (congrArg Group.open_ (State.group_setGroup_same ..)).trans ho
  · refine (congrArg Parser.prev ((State.parser_setGroup ..).trans (hp m))).trans ?_
    rw [State.parser_setParser]
    split <;> rfl

theorem foldl_fixed_of_mem {α β : Type} {h : β → α → β} {l : List α} {b : β} (hl : ∀ a ∈ l, h b a = b) : l.foldl h b = b := by
  induction l with
  | nil => rfl
  | cons a l ih =>
    rw [List.foldl_cons, hl a (List.mem_cons_self ..)]
    exact ih fun c hc => hl c (List.mem_cons_of_mem _ hc)

/-- Where no frame is being deskewed and the other lanes' frames are earlier, lane `i` opens the group frame. -/
theorem State.openGroupFrame_first (h0 : (s.group q g).open_ = [])
    (hp : ∀ a ∈ (s.groupLanes q g).zipIdx, ∀ f', (s.parser q a.1).prev = some f' → later f' f = false ∧ (f' = f → a.2 = i)) :
    s.openGroupFrame q g i f = s.setGroup q g { s.group q g with open_ := [{ frame := f }] } := by
  unfold State.openGroupFrame
  dsimp only
  rw [if_neg, h0, List.nil_append]
  · refine foldl_fixed_of_mem fun a ha => if_neg ?_
    have hl : (s.setGroup q g { s.group q g with open_ := [{ frame := f }] }).groupLanes q g = s.groupLanes q g := by
      simp only [State.groupLanes, State.laneCount, State.fld_setGroup]
    rw [hl] at ha
    rw [State.parser_setGroup]
    split
    · next f' hf => exact Bool.not_eq_true _ ▸ (hp a ha f' hf).1
    · exact Bool.false_ne_true
  · rw [h0]
    simp only [List.any_nil, Bool.false_or, List.any_eq_true, Bool.and_eq_true, bne_iff_ne, beq_iff_eq, not_exists, not_and]
    exact fun a ha hne hf => hne ((hp a ha f hf).2 rfl)

theorem State.setGroup_setGroup (s : State) (q g : Nat) {x y : Group} (hx : x ≠ {}) :
    (s.setGroup q g x).setGroup q g y = s.setGroup q g y := by
  unfold State.setGroup
  dsimp only
  rw [mset_mset _ _ _ _ _ hx]

/-- The first lane of several starts the group frame. -/
theorem State.joinFrame_first (h0 : (s.group q g).open_ = []) (h1 : 1 < s.laneCount q g)
    (hp : ∀ a ∈ (s.groupLanes q g).zipIdx, ∀ f', (s.parser q a.1).prev = some f' → later f' f = false ∧ (f' = f → a.2 = i)) :
    (s.joinFrame q g f (i, total)).measureSkew q g f =
      s.setGroup q g { s.group q g with open_ := [{ frame := f, opened := [(i, total)] }] } := by
  have hm : s.missEarlier q g i f = s := by
    unfold State.missEarlier
    rw [h0, List.foldl_nil]
  have hj : s.joinFrame q g f (i, total) =
      s.setGroup q g { s.group q g with open_ := [{ frame := f, opened := [(i, total)] }] } := by
    simp only [State.joinFrame, hm, State.openGroupFrame_first h0 hp, State.group_setGroup_same]
    rw [State.setGroup_setGroup _ _ _ (by simp)]
    simp [GroupFrame.openBy]
  have hfind : ((s.joinFrame q g f (i, total)).group q g).open_.find? (fun h => h.frame == f) =
      some { frame := f, opened := [(i, total)] } := by
    simp [hj]
  rw [State.measureSkew_eq hfind, if_neg, hj]
  rw [hj, State.laneCount, State.fld_setGroup]
  exact h1.ne

theorem State.cutFrame_outside (h : (s.parser q n).inside = false) : s.cutFrame q g n = s := if_neg (by simp [h])

theorem State.numbered_later {P : Option Nat} (h : ∀ f', P = some f' → later f f' = true) : s.numbered q g n f P = s := by
  cases P with
  | none => rfl
  | some f' => exact if_pos (h f' rfl)

/-- A frame-open outside a frame, its number later than the lane's previous (R88, R91). -/
theorem State.openFrame_outside (hq : q < 20) (hg : g < 4) (hin : (s.parser q n).inside = false)
    (hp : ∀ f', (s.parser q n).prev = some f' → later f f' = true) :
    let v := (s.heard q n w).startFrame q g n f fl
    (s.heard q n w).openFrame q g n f fl = if s.align q g < 2 then v
      else (v.joinFrame q g f (n - s.fld (key (0x2200 + q) (2 + g)) grp_first_lane, (s.parser q n).total + 1)).measureSkew q g f := by
  intro v
  have hc : (s.heard q n w).cutFrame q g n = s.heard q n w :=
    State.cutFrame_outside ((congrArg Parser.inside (s.parser_setParser_same ..)).trans hin)
  have ha : v.align q g = s.align q g := (State.startFrame_facts hg).1.trans (s.fld_setParser ..)
  refine (State.openFrame_heard hq hg).trans ?_
  rw [hc, State.numbered_later hp, show (s.heard q n w).startFrame q g n f fl = v from rfl, ha]

/-- The first lane of an aligning group to open frame `f` (R92). -/
theorem State.openFrame_first (hq : q < 20) (hgr : s.groupOf q n = some g) (hin : (s.parser q n).inside = false)
    (hp : ∀ f', (s.parser q n).prev = some f' → later f f' = true) (ha : 2 ≤ s.align q g) (h0 : (s.group q g).open_ = [])
    (h1 : 1 < s.laneCount q g)
    (hm : ∀ m ∈ s.groupLanes q g, m ≠ n → ∀ f', (s.parser q m).prev = some f' → later f f' = true) :
    let v := (s.heard q n w).startFrame q g n f fl
    (s.heard q n w).openFrame q g n f fl = v.setGroup q g { v.group q g with
      open_ := [{ frame := f, opened := [(n - s.fld (key (0x2200 + q) (2 + g)) grp_first_lane, (s.parser q n).total + 1)] }] } := by
  intro v
  obtain ⟨hg, -⟩ := State.groupOf_some hgr
  obtain ⟨-, hvo, hvp⟩ := State.startFrame_facts (s := s.heard q n w) (q := q) (g := g) (n := n) (f := f) (fl := fl) hg
  have hfld : ∀ x, v.fld (key (0x2200 + q) (2 + g)) x = s.fld (key (0x2200 + q) (2 + g)) x := fun x =>
    (congrArg x.of (State.startFrame_ent _ q g n f fl _ (by unfold groupWord key; omega))).trans (s.fld_setParser ..)
  have hlanes : v.groupLanes q g = s.groupLanes q g := by simp only [State.groupLanes, State.laneCount, hfld]
  rw [State.openFrame_outside hq hg hin hp, if_neg (by omega)]
  refine State.joinFrame_first (hvo.trans h0) (h1.trans_eq (hfld _).symm) fun a hz f' hf => ?_
  rw [hlanes] at hz
  obtain ⟨b, i⟩ := a
  have hb : b = s.fld (key (0x2200 + q) (2 + g)) grp_first_lane + i := by
    have := List.mem_zipIdx' hz
    simpa [State.groupLanes] using this.2
  rw [hvp] at hf
  dsimp only at hf
  split at hf
  · next hbn =>
    obtain rfl := Option.some.inj hf
    exact ⟨later_self _, fun _ => by omega⟩
  · next hbn =>
    rw [State.heard, State.parser_setParser, if_neg hbn] at hf
    have hl := hm b (List.fst_mem_of_mem_zipIdx hz) hbn f' hf
    refine ⟨later_asymm hl, fun hff => ?_⟩
    rw [hff, later_self] at hl
    exact absurd hl Bool.false_ne_true

end Sys2Proof.Machine
end

section
/-! SUPPORT. Lane markers, heard and missed, training blocks and skew overruns (R85, R86, R93, R377, R378), each command as what it
answers. -/

namespace Sys2Proof.Machine

variable {s : State} {e q g n x ident w : Nat} {good : Bool}

/-! ### Markers -/

theorem State.heard_parser (s : State) (e n w : Nat) : (s.heard e n w).parser e n = s.counted e n 0 w := s.parser_setParser_same ..

/-- A marker with payload `w` is heard, and counted when it is off its phase (R93). -/
def State.phased (s : State) (e n w : Nat) : State :=
  if (s.parser e n).hasMark = true ∧ (s.parser e n).mark + 1 ≠ 16384 then
    (s.heard e n w).setFld (kLlc e n) llc_marker_errors (s.oneMore (kLlc e n) llc_marker_errors)
  else s.heard e n w

theorem State.phased_eq (s : State) (e n w : Nat) :
    (if ((s.counted e n 0 w).hasMark && (s.counted e n 0 w).mark != 16384) = true then
      (s.heard e n w).bump (kLlc e n) llc_marker_errors else s.heard e n w) = s.phased e n w := by
  refine if_congr (by simp [State.counted]) ?_ rfl
  simp only [State.bump, State.bumpBy, State.oneMore, State.heard, State.fld_setParser]

/-- The parser of a lane whose marker has come, its identity confirmed or not. -/
def State.marker (s : State) (e n w : Nat) (good : Bool) : State :=
  (s.phased e n w).setParser e n { s.counted e n 0 w with mark := 0, missed := 0, hasMark := true, marked := good }

theorem State.phased_ent (s : State) (e n w : Nat) {k : Nat} (hk : k ≠ kLlc e n) : (s.phased e n w).ent k = s.ent k := by
  have hh : (s.heard e n w).ent k = s.ent k := State.ent_congr rfl rfl rfl k
  unfold State.phased
  split
  · exact (State.setFld_ent_other _ _ _ _ _ hk).trans hh
  · exact hh

theorem State.marker_misidentified (s : State) (e n w : Nat) (good : Bool) : (s.marker e n w good).bump (kLlc e n) llc_id_errors =
    (s.marker e n w good).setFld (kLlc e n) llc_id_errors (s.oneMore (kLlc e n) llc_id_errors) := by
  have hf : (s.marker e n w good).fld (kLlc e n) llc_id_errors = s.fld (kLlc e n) llc_id_errors := by
    rw [State.marker, State.fld_setParser, State.phased]
    split
    · rw [State.fld_setFld_other _ _ _ _ _ (by decide), State.heard, State.fld_setParser]
    · rw [State.heard, State.fld_setParser]
  simp only [State.bump, State.bumpBy, State.oneMore, hf]

/-- The keys of Lane Landing Counters hold no expected identity. -/
theorem State.phased_expectedId (he : e < 24) (hn : n < 32) : (s.phased e n w).expectedId e n = s.expectedId e n := by
  have hid : key (0x2260 + e) (1 + n) ≠ kLlc e n := by unfold kLlc laneIdx key; split <;> omega
  have hb : key 0x2D00 1 ≠ kLlc e n := by unfold kLlc laneIdx key; split <;> omega
  simp only [State.expectedId, State.berthBundle, State.berthSize, State.position, State.fld, State.phased_ent s e n w hid,
    State.phased_ent s e n w hb]
  rfl

theorem State.groupOf_congr {t : State} (h : ∀ k, groupWord k → t.ent k = s.ent k) (hq : q < 20) (n : Nat) :
    t.groupOf q n = s.groupOf q n := by
  refine List.find?_congr fun g hg => ?_
  have hk := h (key (0x2200 + q) (2 + g)) (by have := List.mem_range.mp hg; unfold groupWord key; omega)
  simp only [State.groupLanes, State.laneCount, State.fld, hk]

theorem not_groupWord_kLlc (hq : q < 20) : ¬ groupWord (kLlc q n) :=
  not_groupWord_of_le (by unfold kLlc laneIdx key; split <;> omega)

theorem State.groupOf_setLlc (hq : q < 20) (k m v : Nat) (f : Fld) : (s.setFld (kLlc q k) f v).groupOf q m = s.groupOf q m :=
  State.groupOf_congr (fun _ hj => State.setFld_ent_other _ _ _ _ _ fun h => not_groupWord_kLlc hq (h ▸ hj)) hq m

theorem State.marker_groupOf (hq : q < 20) (n m : Nat) : (s.marker q n w good).groupOf q m = s.groupOf q m := by
  rw [State.marker, State.groupOf_setParser, State.phased]
  split
  · rw [State.groupOf_setLlc hq, State.heard, State.groupOf_setParser]
  · rw [State.heard, State.groupOf_setParser]

/-- The identity `ident` is that expected on the lane, if one is (R93, R377). -/
def State.identified (s : State) (e n ident : Nat) : Bool :=
  match s.expectedId e n with
  | some x => ident % 2 ^ 12 == x
  | none => true

/-- What follows a marker with the expected identity (`good`) or another one (R91, R93, R377). -/
def State.afterMarker (s : State) (e n : Nat) (good : Bool) : State :=
  let s := if good then s else s.bump (kLlc e n) llc_id_errors
  if e < 20 then
    match s.groupOf e n with
    | none => s
    | some g => if good then s.refreshGroup e g else s.loseAlign e g
  else if good then s else s.bundleDown e n

theorem exec_laneMarker_eq (hl : laneOk s.grade e n = true) (hd : s.delivers e n = true) (hs : s.steady e n 0)
    (ho : s.outside e n = false) (ident : Nat) : exec (.laneMarker e n ident) s =
      .next ((s.marker e n (0x66 + 2 ^ 8 * (ident % 2 ^ 12)) (s.identified e n ident ||
        (decide (20 ≤ e) && (s.parser e n).marked))).afterMarker e n (s.identified e n ident)) := by
  obtain ⟨he, hn⟩ := laneOk_lt hl
  have hout : ∀ w, (s.heard e n w).outside e n = false := fun w => by
    rw [← ho, State.outside, State.outside, State.heard, State.groupOf_setParser]
  show execLaneMarker e n ident s = _
  rw [execLaneMarker, State.onBlock_delivered hl hd hs]
  simp only [hout, Bool.false_eq_true, if_false, State.heard_parser, State.phased_eq, State.phased_expectedId he hn]
  rfl

/-- A marker of the expected identity on a quay's lane. -/
theorem State.afterMarker_quay_good (hq : e < 20) (hgr : s.groupOf e n = some g) : s.afterMarker e n true = s.refreshGroup e g := by
  simp only [State.afterMarker, if_true, hq, hgr]

/-- A marker of another identity on a quay's lane. -/
theorem State.afterMarker_quay_bad (hq : e < 20) (hgr : (s.bump (kLlc e n) llc_id_errors).groupOf e n = some g) :
    s.afterMarker e n false = (s.bump (kLlc e n) llc_id_errors).loseAlign e g := by
  simp only [State.afterMarker, if_true, hq, hgr, Bool.false_eq_true, if_false]

theorem State.afterMarker_link (he : 20 ≤ e) (good : Bool) : s.afterMarker e n good =
    if good then s else (s.bump (kLlc e n) llc_id_errors).bundleDown e n := by
  have hq : ¬ e < 20 := by omega
  cases good <;> simp only [State.afterMarker, hq, if_false, Bool.false_eq_true, if_true]

theorem State.identified_eq (h : s.expectedId e n = some x) (ident : Nat) : s.identified e n ident = (ident % 2 ^ 12 == x) := by
  simp only [State.identified, h]

theorem State.identified_none (h : s.expectedId e n = none) (ident : Nat) : s.identified e n ident = true := by
  simp only [State.identified, h]

section

variable (hl : laneOk s.grade e n = true) (hd : s.delivers e n = true) (hs : s.steady e n 0)
include hl hd hs

/-- A marker on a quay's lane in a group (R91, R93). -/
theorem exec_laneMarker_quay (he : e < 20) (hgr : s.groupOf e n = some g) :
    let m := s.marker e n (0x66 + 2 ^ 8 * (ident % 2 ^ 12))
    (s.ent (key (0x2260 + e) (1 + n)) % 2 ^ 12 = ident % 2 ^ 12 →
      exec (.laneMarker e n ident) s = .next ((m true).refreshGroup e g)) ∧
    (s.ent (key (0x2260 + e) (1 + n)) % 2 ^ 12 ≠ ident % 2 ^ 12 → exec (.laneMarker e n ident) s =
      .next (((m false).setFld (kLlc e n) llc_id_errors (s.oneMore (kLlc e n) llc_id_errors)).loseAlign e g)) := by
  intro m
  have hx := exec_laneMarker_eq hl hd hs (by simp [State.outside, hgr]) ident
  rw [State.identified_eq (if_pos he), decide_eq_false (by omega), Bool.false_and, Bool.or_false] at hx
  have hm : ∀ good, (m good).groupOf e n = some g := fun good => (State.marker_groupOf he ..).trans hgr
  refine ⟨fun h => ?_, fun h => ?_⟩
  · rw [beq_iff_eq.mpr h.symm] at hx
    rw [hx, State.afterMarker_quay_good he (hm true)]
  · rw [beq_eq_false_iff_ne.mpr h.symm] at hx
    rw [hx, State.afterMarker_quay_bad he ((State.groupOf_setLlc he ..).trans (hm false)), State.marker_misidentified]

/-- A marker on a link lane (R377). -/
theorem exec_laneMarker_link (he : 20 ≤ e) :
    let m := s.marker e n (0x66 + 2 ^ 8 * (ident % 2 ^ 12))
    (s.expectedId e n = none ∨ s.expectedId e n = some (ident % 2 ^ 12) → exec (.laneMarker e n ident) s = .next (m true)) ∧
    (∀ x, s.expectedId e n = some x → x ≠ ident % 2 ^ 12 → exec (.laneMarker e n ident) s =
      .next (((m (s.parser e n).marked).setFld (kLlc e n) llc_id_errors (s.oneMore (kLlc e n) llc_id_errors)).bundleDown e n)) := by
  intro m
  have hx := exec_laneMarker_eq hl hd hs (by simp [State.outside, he]) ident
  rw [decide_eq_true he, Bool.true_and, State.afterMarker_link he] at hx
  refine ⟨fun h => ?_, fun x hid hne => ?_⟩
  · have hgood : s.identified e n ident = true :=
      h.elim (State.identified_none · ident) fun h => (State.identified_eq h ident).trans (beq_self_eq_true _)
    rw [hx, hgood, Bool.true_or, if_pos rfl]
  · have hbad : s.identified e n ident = false := (State.identified_eq hid ident).trans (beq_eq_false_iff_ne.mpr hne.symm)
    rw [hx, hbad, Bool.false_or, if_neg Bool.false_ne_true, State.marker_misidentified]

end

/-- A marker missed (R93): 16,384 blocks without one count, twice as many cost the alignment. -/
theorem exec_markerMissed_counts (hl : laneOk s.grade q n = true) (hq : q < 20) (hgr : s.groupOf q n = some g)
    (hm : 16384 * ((s.parser q n).missed + 1) ≤ (s.parser q n).mark) :
    let u := (s.setParser q n { s.parser q n with missed := (s.parser q n).missed + 1 }).setFld (kLlc q n) llc_marker_errors
      (s.oneMore (kLlc q n) llc_marker_errors)
    exec (.markerMissed q n) s = .next (if 1 ≤ (s.parser q n).missed then u.loseAlign q g else u) := by
  intro u
  have hu : (s.setParser q n { s.parser q n with missed := (s.parser q n).missed + 1 }).bump (kLlc q n) llc_marker_errors = u := by
    simp only [State.bump, State.bumpBy, State.fld_setParser, State.oneMore, u]
  have hug : u.groupOf q n = some g := (State.groupOf_setLlc hq ..).trans ((State.groupOf_setParser ..).trans hgr)
  have ho : s.outside q n = false := by simp [State.outside, hgr]
  show execMarkerMissed q n s = _
  simp only [execMarkerMissed, hl, ho, hm, hu, hug, hq, if_true, Bool.not_false, and_self]
  simp

/-! ### Training blocks and skew overruns -/

theorem quayOk_lt {g : Grade} (h : quayOk g q = true) : q < 20 := by
  unfold quayOk at h
  cases g <;> simp at h <;> omega

theorem quayOk_of_laneOk {gr : Grade} (hq : q < 20) (h : laneOk gr q n = true) : quayOk gr q = true := by
  simp only [laneOk, engineOk, Bool.and_eq_true, Bool.or_eq_true, decide_eq_true_eq] at h
  exact h.1.resolve_right (by omega)

theorem exec_skewOverrun_quay (hq : quayOk s.grade q = true) (hg : g < 4) :
    exec (.skewOverrun q g) s = .next (if s.overrun q g = true then s.loseAlign q g else s) := by
  refine (if_pos ⟨hq, hg⟩).trans ?_
  split <;> rfl

theorem exec_skewOverrun_link (he : 20 ≤ e) (he' : e < 24) (hg : g < 8) :
    exec (.skewOverrun e g) s = .next (s.bundleDown e (4 * g)) :=
  (if_neg fun h => by have := quayOk_lt h.1; omega).trans (if_pos ⟨he, he', hg⟩)

theorem State.chanOf_hear (s : State) (e n m : Nat) (bad : Bool) (w : Nat) : (s.hear e n bad w).chanOf e m = s.chanOf e m :=
  State.ent_congr rfl rfl rfl _

theorem State.chan_hear (s : State) (e n c : Nat) (bad : Bool) (w : Nat) : (s.hear e n bad w).chan e c = s.chan e c := rfl

section Training

variable (hl : laneOk s.grade e n = true) (hx : x < 2 ^ 36) (hlock : s.fld (kLstat e (s.chanOf e n)) lstat_block_lock = 1)
include hl hx hlock

/-- A training block outside bring-up (R73). -/
theorem exec_trainingBlock_idle (hb : s.bringOf (s.unitKey e n) = none) : exec (.trainingBlock e n x) s =
    .next ((s.hear e n false x).setFld (kLstat e (s.chanOf e n)) lstat_train_seen 1) := by
  show execTrainingBlock e n x s = _
  simp only [execTrainingBlock, Nat.not_le.mpr hx, hl, State.flag_iff, hlock, if_true, if_false, hb, State.setFlag]

/-- A training block in its unit's bring-up (R55, R69). -/
theorem exec_trainingBlock_trains {b : Bring} (hb : s.bringOf (s.unitKey e n) = some b) : exec (.trainingBlock e n x) s =
    .next ((s.hear e n false x).trains e n (s.unitKey e n) x b) := by
  show execTrainingBlock e n x s = _
  simp only [execTrainingBlock, Nat.not_le.mpr hx, hl, State.flag_iff, hlock, if_true, if_false, hb]

end Training

/-- What a quay's lane reads in a training block, by the state of its bring-up (R55). -/
theorem State.trains_quay (hq : q < 20) (gk : Nat) (b : Bring) :
    (b.state ≤ 4 → s.trains q n gk x b =
      s.setChan q (s.chanOf q n) { s.chan q (s.chanOf q n) with cap := some (x / 2 ^ 8 % 16) }) ∧
    (b.state = 5 → x / 2 ^ 22 % 2 = 1 → s.trains q n gk x b =
      (let seen := s.setChan q (s.chanOf q n) { s.chan q (s.chanOf q n) with cdown := true }
       if x / 2 ^ 16 % 64 = 0 then seen.retune q (s.chanOf q n) b.rate else seen)) ∧
    (b.state = 5 → x / 2 ^ 22 % 2 = 0 → s.trains q n gk x b = s) := by
  have hlink : ¬ (20 ≤ q ∧ bit x 23 = true) := by omega
  refine ⟨fun h => ?_, fun h hx => ?_, fun h hx => ?_⟩
  · simp only [State.trains, h, if_true, show ¬ b.state = 5 by omega, false_and, if_false, hlink]
    rfl
  · simp only [State.trains, h, show ¬ (5 ≤ 4) by decide, if_false, show bit x 22 = true from beq_iff_eq.mpr hx, and_self, if_true,
      hlink]
    rfl
  · have hb : bit x 22 = false := beq_eq_false_iff_ne.mpr (by omega)
    simp only [State.trains, h, show ¬ (5 ≤ 4) by decide, if_false, hb, Bool.false_eq_true, and_false, hlink]

end Sys2Proof.Machine
end

section
/-! CLAIM. O27. -/
open Sys2Proof Sys2Proof.Machine

/-- Settles O27: each command as what it answers, a frame-open as the sequence of what it does, and the conditions of R91 case by
case. -/
theorem framesMarkersAndAlignment : Obligations.FramesMarkersAndAlignment := by
  unfold Obligations.FramesMarkersAndAlignment
  refine ⟨fun s q n g f fl ident x hq hl hgr => ?_, fun s e n ident he hl hd hs => ?_, fun s q g f fr hq hg hfr => ?_,
    fun s q g hq hg => ?_⟩
  · obtain ⟨hg, -⟩ := State.groupOf_some hgr
    have hquay := quayOk_of_laneOk hq hl
    intro p t k c
    refine ⟨?_, ?_, ?_, ?_, ?_, ?_, ?_, ?_⟩
    · intro hd hs hin hp w u v
      have ho := exec_frameOpen_heard hq hl hgr hd hs f fl
      refine ⟨fun ha => ho.trans (congrArg _ ((State.openFrame_outside hq hg hin hp).trans (if_pos ha))), fun ha h0 h1 hm => ?_⟩
      exact ho.trans (congrArg _ (State.openFrame_first hq hgr hin hp ha h0 h1 hm))
    · intro hd hs w z y u v i o e
      have ho := (exec_frameOpen_heard hq hl hgr hd hs f fl).trans (congrArg _ (State.openFrame_heard hq hg))
      have hz : z = (s.heard q n (0x4B + 2 ^ 8 * f + 2 ^ 56 * fl)).cutFrame q g n := by
        simp only [State.cutFrame, State.heard_parser]
        rfl
      have hy : y = z.numbered q g n f p.prev := by
        simp only [y]
        cases p.prev <;> rfl
      rw [← hz, ← hy, show y.startFrame q g n f fl = v from rfl] at ho
      exact ⟨fun ha => ho.trans (congrArg _ (if_pos ha)), fun ha => ho.trans (congrArg _ (if_neg (by omega)))⟩
    · intro hd hs w o u
      have hu : u = s.marker q n (0x66 + 2 ^ 8 * (ident % 2 ^ 12)) := by
        simp only [u, w, t, State.parser_setParser_same]
        rfl
      rw [hu]
      exact exec_laneMarker_quay hl hd hs hq hgr
    · exact exec_markerMissed_counts hl hq hgr
    · intro hx hlock h seen
      refine ⟨exec_trainingBlock_idle hl hx hlock, fun b hb => ?_⟩
      obtain ⟨h4, h51, h50⟩ := State.trains_quay (s := h) (n := n) (x := x) hq (s.unitKey q n) b
      rw [exec_trainingBlock_trains hl hx hlock hb]
      rw [State.chanOf_hear, State.chan_hear] at h4 h51
      exact ⟨fun hb => congrArg _ (h4 hb), fun hb hx => congrArg _ (h51 hb hx), fun hb hx => congrArg _ (h50 hb hx)⟩
    · exact fun hx => if_pos hx
    · exact fun ho => (exec_skewOverrun_quay hquay hg).trans (congrArg _ (if_pos ho))
    · exact fun ho => (exec_skewOverrun_quay hquay hg).trans (congrArg _ (if_neg (by simp [ho])))
  · intro p k w o u
    have hu : u = s.marker e n (0x66 + 2 ^ 8 * (ident % 2 ^ 12)) := by
      simp only [u, w, State.parser_setParser_same]
      rfl
    rw [hu]
    obtain ⟨hgood, hbad⟩ := exec_laneMarker_link (ident := ident) hl hd hs he
    exact ⟨fun m fl => if_pos he, hgood, hbad, fun g hg => exec_skewOverrun_link he (laneOk_lt hl).1 hg⟩
  · intro first skew t
    have hm := State.measureSkew_eq hfr
    refine ⟨fun h => hm.trans (if_neg h), fun h hs => ?_, fun h hs => ?_⟩
    · have ht : t = s.skewNoted q g f fr := hm.trans ((if_pos h).trans (if_neg (Nat.not_lt.mpr hs)))
      rw [ht]
      exact State.skewNoted_facts hs
    · have ht : t = (s.skewNoted q g f fr).loseAlign q g := hm.trans ((if_pos h).trans (if_pos hs))
      rw [ht]
      exact State.loseAlign_align_le hq hg
  · intro lanes up next
    refine ⟨fun h0 => ?_, fun h0 ha hu => ?_, fun h0 ha hu => ?_, fun h0 ha hu => ?_, fun h0 ha hu hall => ?_, fun h0 ha hu hex => ?_,
      fun h0 ha hu => ?_, s.refreshGroup_mem_out q g⟩
    · exact State.refreshGroup_off_align h0
    · simp only [next, State.refreshGroup_low h0 ha hu]
      exact ⟨State.waitMarkers_align, fun n hn => State.waitMarkers_unmarked hn⟩
    · exact State.refreshGroup_down_align h0 (by omega) hu
    · exact State.refreshGroup_down_align h0 (by omega) hu
    · simp only [next, State.refreshGroup_marker h0 ha hu, if_pos (show s.allMarked q g = true from List.all_eq_true.mpr hall)]
      exact State.waitFrames_facts
    · obtain ⟨n, hn, hm⟩ := hex
      have hall : s.allMarked q g = false := List.all_eq_false.mpr ⟨n, hn, by simp [hm]⟩
      simp only [next, State.refreshGroup_marker h0 ha hu, hall, Bool.false_eq_true, if_false, ha]
    · exact State.refreshGroup_down_align h0 (by omega) hu
end
section
/-! SUPPORT. A lane mapped to a channel that no engine has: the status word of that channel is the counters of another lane of its
unit by its key. -/

namespace Sys2Proof.Machine

open Sys2Proof.Tests

/-- The status word of channel 8,223 of quay 19 is the counters of its channel 31. -/
theorem strayStatus_eq_kLcnt : kLstat 19 8223 = kLcnt 19 31 := by decide

/-- Lanes 30 and 31 of quay 19 as one group, lane 30 mapped to channel 8,223, the dictionary available. -/
def strayLane : State :=
  { put State.reset [(key (0x2200 + 19) 5, grp_lane_count, 2), (key (0x2200 + 19) 5, grp_first_lane, 30),
      (kLmap 19 30, cnt32, 8223), (kLctl 19 31, lctl_rate_ceiling, 0)] with rst := { available := true } }

/-- Lane 31's unit has both channels, whose settings agree and of which none is locked or busy. -/
theorem strayLane_meets : chanOk strayLane.grade 19 31 = true ∧ strayLane.laneOfChan 19 31 = some 31 ∧
    strayLane.chansOf 19 (strayLane.unitLanes 19 31) = [8223, 31] ∧ strayLane.dictOpen = true ∧
    strayLane.fld (kLctl 19 8223) lctl_rate_ceiling = 0 ∧ strayLane.fld (kLctl 19 31) lctl_rate_ceiling = 0 ∧
    strayLane.fld (kLctl 19 8223) lctl_fixed_rate = 0 ∧ strayLane.fld (kLctl 19 31) lctl_fixed_rate = 0 ∧
    strayLane.fld (kLstat 19 8223) lstat_block_lock = 0 ∧ strayLane.fld (kLstat 19 31) lstat_block_lock = 0 ∧
    strayLane.engineReset 19 = false ∧ strayLane.engineBusy 19 (strayLane.unitKey 19 31) = false := by decide +kernel

/-- Bring-up state 1 of channel 8,223 stands in the counters of channel 31. -/
theorem strayLane_counts : ∀ u, exec (.startBringup 19 31) strayLane = .next u → u.ent (kLcnt 19 31) ≠ 0 := by
  intro u hu
  have : u = after (exec (.startBringup 19 31) strayLane) := by rw [hu]; rfl
  rw [this]
  decide +kernel

end Sys2Proof.Machine
end

section
/-! CLAIM. The statement about bring-ups does not ask that the unit's lanes are mapped to channels that exist. -/

open Sys2Proof Sys2Proof.Machine

/-- Refutes O25: it is stated of every state, and where a lane is mapped to channel 8,223 of quay 19 that channel's status word is
the counters of channel 31, which the start clears and then gives bring-up state 1 (`strayLane_counts`). -/
theorem not_bringUpRunsThroughItsStates : ¬ Obligations.BringUpRunsThroughItsStates := by
  rintro ⟨h, -⟩
  obtain ⟨hc, hl, hcs, hd, hr0, hr1, hf0, hf1, hk0, hk1, he, hb⟩ := strayLane_meets
  have hs := h strayLane 19 31 31 hc hl
  simp only [hcs] at hs
  obtain ⟨-, hstart, -⟩ := hs
  obtain ⟨u, hu, -, -, -, -, hclear⟩ := hstart ⟨hd, by simp [hr0, hr1], by simp [hf0, hf1]⟩ he hb (by simp [hk0, hk1])
  exact strayLane_counts u hu (hclear 31 (by simp)).2.2.2.2.1

end

section
/-! SUPPORT. A capture copy at a tender that no die has: the status word of that tender is a thermal class's limits by its key. -/

namespace Sys2Proof.Machine

/-- The status word of tender 2,882 is the limits of thermal class 1. -/
theorem strayTender_eq_limits : kTend 2882 = key 0x3302 1 := by decide

/-- A thermal hold with a sensor of class 1 just below its warn limit, 90 °C, and a request one of whose copies, at tender 2,882,
has not started. -/
def strayHold : State :=
  { State.reset with
    tele := { hold := true, sensors := [(4096, some 89950)] }
    cap := { reqs := [{ seq := 0, origin := 0, frame := 0, accept := 0, raw := 0, pre := 0, post := 0, mask := 0, link := false,
                        window := false, doubt := false, busy := [(0, 2882)] }] } }

/-- No reading of `strayHold` is at its warn limit. -/
theorem strayHold_warm : strayHold.warm = false := by decide +kernel

/-- The reset withdraws the copy, which takes 1 from the limit before the readings are compared. -/
theorem strayHold_held : (strayHold.fullReset 1).tele.hold = true := by decide +kernel

end Sys2Proof.Machine
end

section
/-! CLAIM. The statement about full resets does not ask that the copies under way are at tenders that exist. -/

open Sys2Proof Sys2Proof.Machine

/-- Refutes O53: it is stated of every state, and where a copy is under way at tender 2,882 its withdrawal lowers the warn limit of
thermal class 1, so that the hold goes on though no reading was at that limit (`strayHold_held`). -/
theorem not_fullResetsClearTheBlock : ¬ Obligations.FullResetsClearTheBlock := by
  intro h
  obtain ⟨⟨u, hu, hcleared, -⟩, -⟩ := h strayHold 0
  obtain ⟨-, -, -, -, -, hhold, -⟩ := hcleared
  obtain rfl : strayHold.fullReset 1 = u := Host.Outcome.next.inj hu
  rw [strayHold_held, strayHold_warm, Bool.and_false] at hhold
  exact absurd hhold (by decide)

end
section
/-! SUPPORT. A frame that waits for its slot with a gutter reason that R96 does not have: the gutter counter of that reason is the
slipway word of its quay by its key. -/

namespace Sys2Proof.Machine

open Sys2Proof.Tests

/-- A running job whose one slipway, quay 19, enters at row 0 of the west edge; in the clk of its slot 0 the slot's frame waits on
the quay's one group, with gutter reason 32,769 and not yet counted: `key (0x2240 + 19) 32769` is `key (0x22C0 + 19) 1`. -/
def strayWait : State :=
  { grouped [(kJob, jst_job_state, RUNNING)] with
    job := { slips := [19], period := 1000, fper := 1000, bound := true }
    land := { groups := [(4 * 19 + 3,
      { wait := [{ frame := 0, ready := 0, reason := 32769, counted := false, flags := 0, data := [] }] })] } }

/-- Slot 0 of quay 19 is released in this clk, outside replay and a moored berth, and its lowest reason is the frame's. -/
theorem strayWait_meets : quayOk strayWait.grade 19 = true ∧ strayWait.job.bound = true ∧ strayWait.slipQuays = [19] ∧
    strayWait.clk = strayWait.job.s0 + strayWait.entryOffset 19 + 0 * strayWait.F ∧ strayWait.released 19 ≤ 0 ∧
    strayWait.replaying = false ∧ strayWait.gridRuns = true ∧ strayWait.moored = false ∧
    lowReason ((if strayWait.admits 0 then 0 else 10) ::
      ((strayWait.usedGroups 19).map (strayWait.slotGroup 19 ((strayWait.job.n0 + 0) % 2 ^ 48))).map (fun g => g.reason)) = 32769 := by
  decide +kernel

/-- SLOT_RELEASE of a quay that exists releases its slot of the clk. -/
theorem exec_slotRelease_of_quay {s : State} {q : Nat} (hq : quayOk s.grade q = true) :
    exec (.slotRelease q) s = .next (s.releaseSlot q) := if_pos hq

/-- The count of the void frame moves the slipway's entry from the west edge to the north edge before the beats leave. -/
theorem strayWait_diverted : ∃ f ∈ (strayWait.releaseSlot 19).net.flights, f.reg ≠ (strayWait.entryPort 19).1 := by
  decide +kernel

end Sys2Proof.Machine
end

section
/-! CLAIM. The statement about the schedule and its slots does not ask that the reasons of the frames that wait are those of R96. -/

open Sys2Proof Sys2Proof.Machine

/-- Refutes O28: it is stated of every state, and where a frame waits with reason 32,769 its slot's void is counted in the slipway
word of the quay, so that the beats leave for another entry port than the quay's (`strayWait_diverted`). -/
theorem not_scheduleBindsAndSlotsAreEntered : ¬ Obligations.ScheduleBindsAndSlotsAreEntered := by
  rintro ⟨-, hslot, -⟩
  obtain ⟨hquay, hbound, hslips, hclk, hreleased, hlive, hgrid, hmoored, hreason⟩ := strayWait_meets
  obtain ⟨u, hu, -, -, hvoid⟩ := hslot strayWait 19 0 hquay hbound (by simp [hslips]) hclk hreleased hlive hgrid hmoored
  obtain ⟨-, hflights⟩ := hvoid (by rw [hreason]; decide)
  obtain rfl : strayWait.releaseSlot 19 = u := Host.Outcome.next.inj ((exec_slotRelease_of_quay hquay).symm.trans hu)
  obtain ⟨f, hf, hport⟩ := strayWait_diverted
  rw [hflights, show strayWait.net.flights = [] from rfl, List.nil_append] at hf
  obtain ⟨e, -, rfl⟩ := List.mem_map.mp hf
  exact hport rfl

end

section
/-! SUPPORT. What the post instructions plan once they issue (R207, R218 to R228). -/

namespace Sys2Proof.Machine

section PostIssue

variable {s : State} {t : Iss} {r occ : Nat}

/-- Acts whose accesses the allocation allows are planned with the issue. -/
theorem State.checked_plan_issued {acc : List (Nat × Nat × Bool)} {reach : List Reach} {l : List Pend}
    {a : List (Nat × Nat × Act)} (h : s.alloc t.tile acc = none)
    (hl : l = a.map fun x => (s.issued t r occ []).pendAt (s.wordAt t.tile) x.1 x.2.1 x.2.2) :
    (s.issued t r occ []).checked t.tile (s.wordAt t.tile) acc reach ((s.issued t r occ []).plan t.tile l) =
      s.issued t r occ a :=
  (State.checked_of_alloc (by rwa [State.issued_alloc])).trans (State.plan_issued hl)

variable {file nM nsM ptr sd buf kM frac table src idx dst fmt zp fi fo : Nat} {e : Int} {o : SbopnOps}

theorem execBias_ready (h : s.ready t 4) (hc : s.spells (.bias t file nM ptr) t.tile = true)
    (hal : s.alloc t.tile [((s.tile t.tile).preg ptr, 4 * lanesOf nM, false)] = none) :
    execBias t file nM ptr s = .next (s.issued t 4 (chunks (lanesOf nM))
      [(1, 0, .rdBias file (lanesOf nM) ((s.tile t.tile).preg ptr) 0)]) := by
  refine (s.issue_ready t 4 _ _ _ h hc).trans (congrArg _ ?_)
  simp only [State.issued_preg]
  exact State.checked_plan_issued hal rfl

theorem execScan_ready (h : s.ready t 4) (hc : s.spells (.scan t file nM sd) t.tile = true) :
    execScan t file nM sd s = .next (s.issued t 4 (chunks (lanesOf nM)) [(1, 0, .rdScan file (lanesOf nM) sd 0 0)]) :=
  (s.issue_ready t 4 _ _ _ h hc).trans (congrArg _ (State.plan_issued rfl))

theorem execSbtrk_ready (h : s.ready t 4) (hc : s.spells (.sbtrk t buf ptr e kM frac) t.tile = true) :
    execSbtrk t buf ptr e kM frac s =
      .next (s.issued t 4 1 [(1, 0, .sbTrack buf ((s.tile t.tile).preg ptr) e (kM + 1) frac)]) := by
  refine (s.issue_ready t 4 1 _ _ h hc).trans (congrArg _ ?_)
  simp only [State.issued_preg]
  exact State.plan_issued rfl

/-- The block context that an SBOPN sets in its clk (R222). -/
def sbopnCtx (o : SbopnOps) : Nat × Nat × Act := (1, 0, .sbCtx o.buf o.src o.target o.h o.layer)

/-- R222: a live block opens with no estimates. -/
theorem execSbopn_live (h : s.ready t 4) (hc : s.spells (.sbopn t o) t.tile = true) (ho : o.src = 0) :
    execSbopn t o s = .next (s.issued t 4 4 [sbopnCtx o,
      (1, 3, .sbOpen o.buf ((s.tile t.tile).tagFrom o.phaseReg o.position) (o.countM + 1) none false [])]) := by
  refine (s.issue_ready t 4 4 _ _ h hc).trans (congrArg _ ?_)
  simp only [Tile.tagFrom, State.issued_sreg, if_pos ho]
  exact State.plan_issued rfl

/-- R222: a tracked or frozen block reads its estimates in clk t + 2. -/
theorem execSbopn_estimated (h : s.ready t 4) (hc : s.spells (.sbopn t o) t.tile = true) (ho : o.src ≠ 0)
    (hal : s.alloc t.tile ((List.range (o.countM + 1)).map fun i =>
      (((s.tile t.tile).sb o.buf).tbase + 4 * ((o.position + i) % 4096), 4, false)) = none) :
    execSbopn t o s = .next (s.issued t 4 4 [sbopnCtx o,
      (1, 2, .rdOpen o.buf ((s.tile t.tile).tagFrom o.phaseReg o.position) (o.countM + 1))]) := by
  refine (s.issue_ready t 4 4 _ _ h hc).trans (congrArg _ ?_)
  simp only [Tile.tagFrom, State.issued_sreg, State.issued_sb, if_neg ho]
  exact State.checked_plan_issued hal rfl

theorem execLtld_ready (h : s.ready t 4) (hc : s.spells (.ltld t table ptr) t.tile = true)
    (hal : s.alloc t.tile [((s.tile t.tile).preg ptr, 256, false)] = none) :
    execLtld t table ptr s =
      .next (s.issued t 4 2 [(1, 1, .table table (s.sram t.tile ((s.tile t.tile).preg ptr) 256))]) := by
  refine (s.issue_ready t 4 2 _ _ h hc).trans (congrArg _ ?_)
  simp only [State.issued_preg, State.issued_sram]
  exact State.checked_plan_issued hal rfl

theorem execLut_ready (h : s.ready t 4) (hc : s.spells (.lut t src dst nM table fi fo) t.tile = true)
    (hal : s.alloc t.tile [((s.tile t.tile).preg src, rowBytes fi (lanesOf nM), false),
      ((s.tile t.tile).preg dst, rowBytes fo (lanesOf nM), true)] = none) :
    execLut t src dst nM table fi fo s = .next (s.issued t 4 (chunks (lanesOf nM))
      [(1, 0, .rdLut ((s.tile t.tile).preg src) ((s.tile t.tile).preg dst) (lanesOf nM) table fi fo 0)]) := by
  refine (s.issue_ready t 4 _ _ _ h hc).trans (congrArg _ ?_)
  simp only [State.issued_preg]
  exact State.checked_plan_issued hal rfl

theorem execGath_ready (h : s.ready t 4) (hc : s.spells (.gath t src idx dst nM nsM fmt zp) t.tile = true)
    (hal : s.alloc t.tile [((s.tile t.tile).preg src, rowBytes fmt (lanesOf nsM), false),
      ((s.tile t.tile).preg idx, 2 * lanesOf nM, false), ((s.tile t.tile).preg dst, rowBytes fmt (lanesOf nM), true)] = none) :
    execGath t src idx dst nM nsM fmt zp s = .next (s.issued t 4 (chunks (lanesOf nsM) + chunks (lanesOf nM))
      [(1, 0, .rdGath ((s.tile t.tile).preg src) ((s.tile t.tile).preg idx) ((s.tile t.tile).preg dst) (lanesOf nM)
        (lanesOf nsM) fmt zp 0 [])]) := by
  simp only [execGath]
  refine (s.issue_ready t 4 _ _ _ h hc).trans (congrArg _ ?_)
  simp only [State.issued_preg]
  exact State.checked_plan_issued hal rfl

end PostIssue

end Sys2Proof.Machine

end
section
/-! SUPPORT. A row that passes the post unit in chunks (R218): each chunk is read in a clk of its own and its result written two clk
later, so that in most clk one chunk is read while another is written. -/

namespace Sys2Proof.Machine

section Rows

/-- A row: the clk of its first read, its program address, its chunks, and the acts that read and write each chunk. -/
structure Row where
  start : Nat
  addr : Nat
  q : Nat
  rd : Nat → Act
  wr : Nat → Act

/-- The read of chunk `j`, if the row has it. -/
def Row.read (r : Row) (j : Nat) : List Pend := if j < r.q then [⟨r.start + j, r.addr, 1, r.rd j⟩] else []

/-- The write of chunk `j`, if the row has it. -/
def Row.write (r : Row) (j : Nat) : List Pend := if j < r.q then [⟨r.start + j + 2, r.addr, 1, r.wr j⟩] else []

/-- The write that the clk before clk `j` of a row has planned: that of chunk `j - 1`. -/
def Row.written (r : Row) : Nat → List Pend
  | 0 => []
  | j + 1 => r.write j

/-- What a row has planned `j` clk after its first: two writes and a read. -/
def Row.pend (r : Row) (j : Nat) : List Pend := r.written (j - 1) ++ r.written j ++ r.read j

variable {r : Row} {u : State} {p j k n : Nat} {d : Pend} {P : Nat → Tile → List Host.Cell → Prop}

theorem Row.mem_read (h : d ∈ r.read j) : j < r.q ∧ d = ⟨r.start + j, r.addr, 1, r.rd j⟩ := by
  unfold Row.read at h
  split at h
  · next hj => exact ⟨hj, List.mem_singleton.mp h⟩
  · exact absurd h List.not_mem_nil

theorem Row.mem_write (h : d ∈ r.write j) : j < r.q ∧ d = ⟨r.start + j + 2, r.addr, 1, r.wr j⟩ := by
  unfold Row.write at h
  split at h
  · next hj => exact ⟨hj, List.mem_singleton.mp h⟩
  · exact absurd h List.not_mem_nil

/-- What a read plans: the write of its chunk, and the next read. -/
theorem Row.write_append_read (hj : j < r.q) : r.write j ++ r.read (j + 1) =
    ⟨r.start + j + 2, r.addr, 1, r.wr j⟩ ::
      if j + 1 < r.q then [⟨r.start + j + 1, r.addr, 1, r.rd (j + 1)⟩] else [] := by
  rw [Row.write, if_pos hj]
  rfl

theorem Row.due_written (h : d ∈ r.written j) : d.due = r.start + j + 1 := by
  cases j with
  | zero => exact absurd h List.not_mem_nil
  | succ j => rw [(Row.mem_write h).2]; simp only; omega

theorem Row.due_written_pred (h : d ∈ r.written (j - 1)) : d.due = r.start + j := by
  cases j with
  | zero => exact absurd h List.not_mem_nil
  | succ j => exact Row.due_written h

/-- Of what a row has planned, the write of two chunks ago and the read are due. -/
theorem Row.pend_due : (r.pend j).filter (fun d => d.due == r.start + j) = r.written (j - 1) ++ r.read j := by
  have hnow : (r.written (j - 1)).filter (fun d => d.due == r.start + j) = r.written (j - 1) :=
    List.filter_eq_self.mpr fun d hd => by simp [Row.due_written_pred hd]
  have hlater : (r.written j).filter (fun d => d.due == r.start + j) = [] :=
    List.filter_eq_nil_iff.mpr fun d hd => by simp [Row.due_written hd]
  have hread : (r.read j).filter (fun d => d.due == r.start + j) = r.read j :=
    List.filter_eq_self.mpr fun d hd => by simp [(Row.mem_read hd).2]
  rw [Row.pend, List.filter_append, List.filter_append, hnow, hlater, hread, List.append_nil]

/-- Of what a row has planned, the write of the chunk before is due later. -/
theorem Row.pend_later : (r.pend j).filter (fun d => d.due != r.start + j) = r.written j := by
  have hnow : (r.written (j - 1)).filter (fun d => d.due != r.start + j) = [] :=
    List.filter_eq_nil_iff.mpr fun d hd => by simp [Row.due_written_pred hd]
  have hlater : (r.written j).filter (fun d => d.due != r.start + j) = r.written j :=
    List.filter_eq_self.mpr fun d hd => by simp [Row.due_written hd]
  have hread : (r.read j).filter (fun d => d.due != r.start + j) = [] :=
    List.filter_eq_nil_iff.mpr fun d hd => by simp [(Row.mem_read hd).2]
  rw [Row.pend, List.filter_append, List.filter_append, hnow, hlater, hread, List.append_nil, List.nil_append]

/-- What a row's acts do: `P k` says of a tile and of memory that the results of the first `k` chunks are written. A read of
chunk `j` needs no more than the `j - 2` that are written then, and plans the chunk's write and the next read. -/
structure Row.Computes (r : Row) (p : Nat) (P : Nat → Tile → List Host.Cell → Prop) : Prop where
  pend : ∀ {k y m} (l : List Pend), P k y m → P k { y with pend := l } m
  isRead : ∀ j, (r.rd j).isRead = true
  isWrite : ∀ j, (r.wr j).isRead = false ∧ (r.wr j).setsMark = false
  reads : ∀ {u : State} {j}, u.clk = r.start + j → j < r.q → P (j - 2) (u.tile p) u.mem →
    u.runRead p ⟨r.start + j, r.addr, 1, r.rd j⟩ = r.write j ++ r.read (j + 1)
  writes : ∀ {u : State} {k}, k < r.q → P k (u.tile p) u.mem → let v := u.applyAct p (r.wr k)
    v.clk = u.clk ∧ (v.tile p).pend = (u.tile p).pend ∧ (v.tile p).noWrite = (u.tile p).noWrite ∧ P (k + 1) (v.tile p) v.mem

/-- A tile at clk `c` with the acts planned that a row has planned in its clk `j`, and what is written before them. -/
structure Row.Stage (r : Row) (p : Nat) (P : Nat → Tile → List Host.Cell → Prop) (c j : Nat) (u : State) : Prop where
  clk : u.clk = c
  pend : (u.tile p).pend = r.pend j
  noWrite : ∀ c, (u.tile p).noWrite = some c → c < r.start
  holds : P (j - 2) (u.tile p) u.mem

/-- A clk in which the writes `w` and the reads `l` are due: the reads plan on, and then the writes are made. -/
theorem State.tickTile_due {w l rest : List Pend} (hdue : (u.tile p).pend.filter (fun d => d.due == u.clk) = w ++ l)
    (hrest : (u.tile p).pend.filter (fun d => d.due != u.clk) = rest)
    (hw : ∀ d ∈ w, d.act.isRead = false ∧ d.act.setsMark = false) (hl : ∀ d ∈ l, d.act.isRead = true)
    (hlater : ∀ e ∈ l.flatMap (u.runRead p), e.due ≠ u.clk) (hcl : clashes w = []) (hn : (u.tile p).noWrite ≠ some u.clk) :
    ∃ v : State, v.clk = u.clk ∧ v.mem = u.mem ∧ v.tile p = { u.tile p with pend := rest ++ l.flatMap (u.runRead p) } ∧
      (u.tickTile p).1 = w.foldl (fun v d => v.applyAct p d.act) v := by
  have hlw : w.filter (fun d => d.act.isRead) = [] := List.filter_eq_nil_iff.mpr fun d m => by simp [(hw d m).1]
  have hll : l.filter (fun d => d.act.isRead) = l := List.filter_eq_self.mpr hl
  have hww : w.filter (fun d => !d.act.isRead) = w := List.filter_eq_self.mpr fun d m => by simp [(hw d m).1]
  have hwl : l.filter (fun d => !d.act.isRead) = [] := List.filter_eq_nil_iff.mpr fun d m => by simp [hl d m]
  have hmarks : w.filter (fun d => d.act.setsMark) = [] := List.filter_eq_nil_iff.mpr fun d m => by simp [(hw d m).2]
  have hothers : w.filter (fun d => !d.act.setsMark) = w := List.filter_eq_self.mpr fun d m => by simp [(hw d m).2]
  have hnow : (l.flatMap (u.runRead p)).filter (fun e => e.due == u.clk) = [] :=
    List.filter_eq_nil_iff.mpr fun e m => by simpa using hlater e m
  have hnext : (l.flatMap (u.runRead p)).filter (fun e => e.due != u.clk) = l.flatMap (u.runRead p) :=
    List.filter_eq_self.mpr fun e m => by simpa using hlater e m
  unfold State.tickTile
  simp only [hdue, hrest, List.filter_append, hlw, hll, hww, hwl, hnow, hnext, hmarks, hothers, List.nil_append,
    List.append_nil, hcl]
  split
  · next he =>
    obtain ⟨rfl, rfl⟩ := List.append_eq_nil_iff.mp (List.isEmpty_iff.mp he)
    have hidle : { u.tile p with pend := rest } = u.tile p := by
      rw [← hrest, List.filter_eq_self.mpr fun d m => ?_]
      simpa using List.filter_eq_nil_iff.mp hdue d m
    exact ⟨u, rfl, rfl, by rw [List.flatMap_nil, List.append_nil, hidle], rfl⟩
  · refine ⟨u.setTile p { u.tile p with pend := rest ++ l.flatMap (u.runRead p) }, rfl, rfl,
      State.setTile_tile_same _ _ _, ?_⟩
    split
    case isFalse hno => exact absurd ⟨rfl, hn⟩ hno
    rfl

/-- The reads of a clk plan what the row has planned after it. -/
theorem Row.Stage.flatMap_read (h : r.Stage p P (r.start + j) j u) (hr : r.Computes p P) :
    (r.read j).flatMap (u.runRead p) = r.write j ++ r.read (j + 1) := by
  by_cases hj : j < r.q
  · rw [Row.read, if_pos hj, List.flatMap_singleton]
    exact hr.reads h.clk hj h.holds
  · have hj' : ¬ j + 1 < r.q := by omega
    simp only [Row.read, Row.write, if_neg hj, if_neg hj', List.flatMap_nil, List.append_nil]

/-- What a read plans is due after its clk. -/
theorem Row.due_planned (h : d ∈ r.write j ++ r.read (j + 1)) : d.due ≠ r.start + j := by
  obtain h | h := List.mem_append.mp h
  · rw [(Row.mem_write h).2]; simp only; omega
  · rw [(Row.mem_read h).2]; simp only; omega

theorem Row.Computes.written_isWrite (hr : r.Computes p P) (h : d ∈ r.written j) :
    d.act.isRead = false ∧ d.act.setsMark = false := by
  cases j with
  | zero => exact absurd h List.not_mem_nil
  | succ j => rw [(Row.mem_write h).2]; exact hr.isWrite j

theorem Row.clashes_written : clashes (r.written j) = [] := by
  cases j with
  | zero => rfl
  | succ j =>
    simp only [Row.written, Row.write]
    split <;> rfl

/-- A clk of a row. -/
theorem Row.Stage.tick (h : r.Stage p P (r.start + j) j u) (hr : r.Computes p P) (hj : j ≤ r.q + 1) :
    r.Stage p P (r.start + j) (j + 1) (u.tickTile p).1 := by
  have hplan := h.flatMap_read hr
  obtain ⟨v, hclk, hmem, htile, htick⟩ := State.tickTile_due (u := u) (p := p) (w := r.written (j - 1)) (l := r.read j)
    (rest := r.written j) (by rw [h.pend, h.clk, Row.pend_due]) (by rw [h.pend, h.clk, Row.pend_later])
    (fun d => hr.written_isWrite) (fun d hd => by rw [(Row.mem_read hd).2]; exact hr.isRead j)
    (by rw [hplan, h.clk]; exact fun e => Row.due_planned) Row.clashes_written
    (fun hc => absurd (h.noWrite _ hc) (by rw [h.clk]; omega))
  rw [hplan] at htile
  have hv : P (j - 2) (v.tile p) v.mem := by
    rw [htile, hmem]
    exact hr.pend _ h.holds
  have hpend : (v.tile p).pend = r.pend (j + 1) := by
    rw [htile]
    exact (List.append_assoc _ _ _).symm
  have hno : (v.tile p).noWrite = (u.tile p).noWrite := by rw [htile]
  rw [htick]
  match j, hj with
  | 0, _ | 1, _ => exact ⟨hclk.trans h.clk, hpend, hno ▸ h.noWrite, hv⟩
  | j + 2, hj =>
    have hjq : j < r.q := by omega
    obtain ⟨hclk', hpend', hno', hw⟩ := hr.writes hjq hv
    have hone : r.written (j + 2 - 1) = [⟨r.start + j + 2, r.addr, 1, r.wr j⟩] := if_pos hjq
    rw [hone]
    exact ⟨hclk'.trans (hclk.trans h.clk), hpend'.trans hpend, (hno'.trans hno) ▸ h.noWrite, hw⟩

/-- R218: the clks of a row, up to the one that writes its last chunk. -/
theorem Row.Stage.run (h : r.Stage p P r.start 0 u) (hr : r.Computes p P) (hn : n ≤ r.q + 1) :
    r.Stage p P (r.start + n) (n + 1) (u.run p n) := by
  induction n with
  | zero => exact Row.Stage.tick (j := 0) h hr hn
  | succ n ih =>
    rw [State.run_last]
    have hlast := ih (by omega)
    exact Row.Stage.tick (j := n + 1) ⟨congrArg (· + 1) hlast.clk, hlast.pend, hlast.noWrite, hlast.holds⟩ hr hn

/-- A row is written in the clk that follows its last read by two. -/
theorem Row.Stage.run_all (h : r.Stage p P r.start 0 u) (hr : r.Computes p P) :
    P r.q ((u.run p (r.q + 1)).tile p) (u.run p (r.q + 1)).mem := (h.run hr le_rfl).holds

/-- An issue that plans the first read of a row. -/
theorem State.quiet.row_stage {s : State} {t : Iss} {res occ : Nat} (hq : s.quiet t.tile) (hs : r.start = s.clk)
    (ha : r.addr = s.wordAt t.tile) (h0 : 0 < r.q)
    (hP : P 0 ((s.issued t res occ [(1, 0, r.rd 0)]).tile t.tile) s.mem) :
    r.Stage t.tile P r.start 0 (s.issued t res occ [(1, 0, r.rd 0)]) where
  clk := hs.symm
  pend := by
    rw [hq.pend, Row.pend, Row.read, if_pos h0, hs, ha]
    rfl
  noWrite c hc := by
    rw [State.issued_tile] at hc
    exact hs ▸ hq.2 c hc
  holds := hP

end Rows

end Sys2Proof.Machine

end
section
/-! SUPPORT. The rows of BIAS and LUT (R133, R136, R219, R225): what the chunks of each hold, and its tile and memory once they
are written. -/

namespace Sys2Proof.Machine

section PostRows

variable {s u : State} {t : Iss} {p f n j k base src dst table fi fo addr : Nat} {x y : Tile} {m : List Host.Cell}

/-- The chunks of a row hold all of its lanes. -/
theorem chunks_cover (n : Nat) : min (64 * chunks n) n = n := by unfold chunks; omega

theorem lt_chunks_iff : j < chunks n ↔ 64 * j < n := by unfold chunks; omega

theorem lanesOf_pos (nM : Nat) : 0 < lanesOf nM := by unfold lanesOf; omega

theorem leNat_sram_four (s : State) (p a : Nat) : BitVec.ofNat 32 (leNat (s.sram p a 4)) =
    readByte s.mem (sramBase p + (a + 3)) ++ readByte s.mem (sramBase p + (a + 2)) ++ readByte s.mem (sramBase p + (a + 1)) ++
      readByte s.mem (sramBase p + a) := by
  have h0 := (readByte s.mem (sramBase p + a)).isLt
  have h1 := (readByte s.mem (sramBase p + (a + 1))).isLt
  have h2 := (readByte s.mem (sramBase p + (a + 2))).isLt
  have h3 := (readByte s.mem (sramBase p + (a + 3))).isLt
  refine BitVec.eq_of_toNat_eq ?_
  rw [BitVec.toNat_append, BitVec.toNat_append, BitVec.toNat_append, ← Nat.shiftLeft_add_eq_or_of_lt h0,
    ← Nat.shiftLeft_add_eq_or_of_lt h1, ← Nat.shiftLeft_add_eq_or_of_lt h2]
  simp only [State.sram, readBytes, List.range_succ, List.range_zero, List.nil_append, List.map_cons, List.map_nil,
    List.cons_append, leNat, Nat.add_zero, BitVec.toNat_ofNat, Nat.shiftLeft_eq, Nat.add_assoc]
  omega

/-! ### BIAS -/

/-- The sum of a lane and its bias, with whether it clips (R133). -/
def State.biasSum (s : State) (p f base k : Nat) : Int × Nat :=
  accSat (mget 0 ((s.tile p).file f).vals k + signed 32 (leNat (s.sram p (base + 4 * k) 4)))

/-- The sums of chunk `j`. -/
def State.biasChunk (s : State) (p f n base j : Nat) : List (Int × Nat) :=
  (List.range (chunkLen n j)).map fun i => s.biasSum p f base (64 * j + i)

/-- The row of a BIAS. -/
def State.biasRow (s : State) (p addr f n base : Nat) : Row where
  start := s.clk
  addr := addr
  q := chunks n
  rd j := .rdBias f n base j
  wr j := .acc f (64 * j) ((s.biasChunk p f n base j).map Prod.fst) ((s.biasChunk p f n base j).map Prod.snd).sum

/-- The first `k` chunks of a BIAS are written. -/
structure State.Biased (s : State) (p f n base k : Nat) (y : Tile) (m : List Host.Cell) : Prop where
  mem : m = s.mem
  sregs : y.s = (s.tile p).s
  others : ∀ g, g ≠ f → y.file g = (s.tile p).file g
  exp : (y.file f).exp = ((s.tile p).file f).exp
  tag : (y.file f).tag = ((s.tile p).file f).tag
  lanes : ∀ l, mget 0 (y.file f).vals l =
    if l < min (64 * k) n then (s.biasSum p f base l).1 else mget 0 ((s.tile p).file f).vals l

theorem State.countClips_mem (s : State) (p n : Nat) : (s.countClips p n).mem = s.mem := by
  simp only [State.countClips, State.countTile]
  split <;> rfl

theorem State.countClips_clk (s : State) (p n : Nat) : (s.countClips p n).clk = s.clk := by
  simp only [State.countClips, State.countTile]
  split <;> rfl

/-- A write of lanes leaves the clk and memory, and of the tile all but the values of their file. -/
theorem State.applyAct_acc (u : State) (p f lo c : Nat) (vs : List Int) :
    let v := u.applyAct p (.acc f lo vs c)
    v.clk = u.clk ∧ v.mem = u.mem ∧ v.tile p =
      (u.tile p).setFile f { (u.tile p).file f with vals := msetList 0 ((u.tile p).file f).vals lo vs } :=
  ⟨State.countClips_clk _ _ _, State.countClips_mem _ _ _,
    (congrArg (fun m => mget ({} : Tile) m p) (State.countClips_tiles _ _ _)).trans (State.setTile_tile_same _ _ _)⟩

/-- A chunk read reads the lanes that no earlier chunk has written. -/
theorem State.Biased.runRead (h : s.Biased p f n base (j - 2) (u.tile p) u.mem) (hc : u.clk = s.clk + j) (hj : j < chunks n) :
    let r := s.biasRow p addr f n base
    u.runRead p ⟨s.clk + j, addr, 1, .rdBias f n base j⟩ = r.write j ++ r.read (j + 1) := by
  have hbias : ∀ a, u.sram p a 4 = s.sram p a 4 := fun a => congrArg (readBytes · (sramBase p + a) 4) h.mem
  have hlane : ∀ i, mget 0 ((u.tile p).file f).vals (64 * j + i) = mget 0 ((s.tile p).file f).vals (64 * j + i) := fun i =>
    (h.lanes _).trans (if_neg (by omega))
  have hchunk : (List.zipWith (· + ·) (((u.tile p).file f).lanes (64 * j) (chunkLen n j))
      ((List.range (chunkLen n j)).map fun i => signed 32 (leNat (u.sram p (base + 4 * (64 * j + i)) 4)))).map accSat =
      s.biasChunk p f n base j := by
    simp only [AFile.lanes, mrange, List.zipWith_map, List.zipWith_self, List.map_map, hbias, hlane]
    rfl
  intro r
  rw [Row.write_append_read (r := r) hj]
  simp only [State.runRead, hchunk, hc]
  rfl

theorem State.biasRow_computes : (s.biasRow p addr f n base).Computes p (s.Biased p f n base) where
  pend _ h := ⟨h.mem, h.sregs, h.others, h.exp, h.tag, h.lanes⟩
  isRead _ := rfl
  isWrite _ := ⟨rfl, rfl⟩
  reads hc hj h := h.runRead hc hj
  writes {u k} hk h := by
    obtain ⟨hclk, hmem, htile⟩ := State.applyAct_acc u p f (64 * k) ((s.biasChunk p f n base k).map Prod.snd).sum
      ((s.biasChunk p f n base k).map Prod.fst)
    have hlen : ((s.biasChunk p f n base k).map Prod.fst).length = chunkLen n k := by simp [State.biasChunk]
    have hfile : ∀ g, (((u.applyAct p ((s.biasRow p addr f n base).wr k)).tile p).file g) = _ := fun g =>
      (congrArg (Tile.file · g) htile).trans (Tile.file_setFile _ _ _ g)
    refine ⟨hclk, (congrArg Tile.pend htile).trans rfl, (congrArg Tile.noWrite htile).trans rfl, hmem.trans h.mem,
      (congrArg Tile.s htile).trans h.sregs,
      fun g hg => (hfile g).trans ((if_neg hg).trans (h.others g hg)), ?_, ?_, fun l => ?_⟩
    · rw [hfile, if_pos rfl]; exact h.exp
    · rw [hfile, if_pos rfl]; exact h.tag
    · rw [hfile, if_pos rfl]
      refine (mget_msetList _ _ _ _ _).trans ?_
      rw [hlen, h.lanes]
      have hkn := lt_chunks_iff.mp hk
      by_cases hl : 64 * k ≤ l ∧ l < 64 * k + chunkLen n k
      · have hin : l < min (64 * (k + 1)) n := by unfold chunkLen at hl; omega
        rw [if_pos hl, if_pos hin, List.getD_eq_getElem?_getD]
        have hi : l - 64 * k < chunkLen n k := by omega
        simp [State.biasChunk, hi, Nat.add_sub_cancel' hl.1]
      · rw [if_neg hl]
        have hiff : l < min (64 * k) n ↔ l < min (64 * (k + 1)) n := by unfold chunkLen at hl; omega
        simp only [hiff]

/-- R219: the row of a BIAS is written in clk t + q + 1. -/
theorem State.quiet.run_bias {res occ : Nat} (hq : s.quiet t.tile) (hn : 0 < n) :
    let u := (s.issued t res occ [(1, 0, .rdBias f n base 0)]).run t.tile (chunks n + 1)
    s.Biased t.tile f n base (chunks n) (u.tile t.tile) u.mem := by
  have hfile : ∀ g, ((s.issued t res occ [(1, 0, .rdBias f n base 0)]).tile t.tile).file g = (s.tile t.tile).file g :=
    State.issued_file _ _ _ _ _
  have h0 : s.Biased t.tile f n base 0 ((s.issued t res occ [(1, 0, .rdBias f n base 0)]).tile t.tile) s.mem :=
    ⟨rfl, State.issued_s _ _ _ _ _, fun g _ => hfile g, congrArg AFile.exp (hfile f), congrArg AFile.tag (hfile f),
      fun l => (congrArg (mget 0 ·.vals l) (hfile f)).trans (if_neg (by omega)).symm⟩
  exact (hq.row_stage (r := s.biasRow t.tile (s.wordAt t.tile) f n base) rfl rfl (lt_chunks_iff.mpr hn) h0).run_all
    State.biasRow_computes

/-- R133: the bias is the signed word of the row's four bytes. -/
theorem State.biasSum_fst (s : State) (p f base k : Nat) :
    let byte := fun a => readByte s.mem (sramBase p + a)
    (s.biasSum p f base k).1 = sat (mget 0 ((s.tile p).file f).vals k +
      (byte (base + 4 * k + 3) ++ byte (base + 4 * k + 2) ++ byte (base + 4 * k + 1) ++ byte (base + 4 * k)).toInt)
        (-(2 ^ 31)) (2 ^ 31 - 1) := by
  intro byte
  have hword : signed 32 (leNat (s.sram p (base + 4 * k) 4)) =
      (byte (base + 4 * k + 3) ++ byte (base + 4 * k + 2) ++ byte (base + 4 * k + 1) ++ byte (base + 4 * k)).toInt :=
    (signed_eq_toInt (by decide) _).trans (congrArg BitVec.toInt (leNat_sram_four s p (base + 4 * k)))
  rw [← hword]
  rfl

/-! ### LUT -/

/-- The stored code of lane `k` of a LUT (R136). -/
def State.lutCode (s : State) (p src table k : Nat) : Nat :=
  Machine.lookup ((s.tile p).lut table) false (readByte s.mem (sramBase p + (src + k))).toNat

/-- The codes of chunk `j`. -/
def State.lutChunk (s : State) (p src table n j : Nat) : List Nat :=
  (List.range (chunkLen n j)).map fun i => s.lutCode p src table (64 * j + i)

/-- The row of a LUT between formats of 8 bits. -/
def State.lutRow (s : State) (p addr src dst n table fi fo : Nat) : Row where
  start := s.clk
  addr := addr
  q := chunks n
  rd j := .rdLut src dst n table fi fo j
  wr j := .codes (dst + 64 * j) (s.lutChunk p src table n j) 0 0

/-- The first `k` chunks of a LUT are written. -/
structure State.Looked (s : State) (p src dst n table k : Nat) (y : Tile) (m : List Host.Cell) : Prop where
  luts : y.luts = (s.tile p).luts
  bytes : ∀ i, i < min (64 * k) n → readByte m (sramBase p + dst + i) = BitVec.ofNat 8 (s.lutCode p src table i)
  others : ∀ b, b < sramBase p + dst ∨ sramBase p + dst + min (64 * k) n ≤ b → readByte m b = readByte s.mem b

/-- The formats of 8 bits have a byte for each code. -/
theorem rowBytes_of_lt (h : fo < 2) : rowBytes fo n = n := by
  have hb : fmtBits fo = 8 := by interval_cases fo <;> rfl
  rw [rowBytes, hb, Nat.mul_div_cancel _ (by decide)]

theorem packCodes_of_lt (h : fo < 2) (cs : List Nat) : packCodes fo cs = cs := by
  interval_cases fo <;> rfl

theorem State.rowCodes_of_lt (h : fi < 2) (s : State) (p a lo n : Nat) : s.rowCodes p a fi lo n = s.sram p (a + lo) n := by
  interval_cases fi <;> rfl

theorem fmtK4_of_lt (h : fi < 2) : fmtK4 fi = false := by interval_cases fi <;> rfl

/-- A store of codes that counts no saturation leaves the clk and the tile, and writes its bytes. -/
theorem State.applyAct_codes (u : State) (p a l : Nat) (bs : List Nat) :
    let v := u.applyAct p (.codes a bs 0 l)
    v.clk = u.clk ∧ v.mem = writeBytes u.mem (sramBase p + a) bs ∧ v.tile p = u.tile p := by
  have hv : u.applyAct p (.codes a bs 0 l) = (u.write (sramBase p + a) bs).freshWords p a bs.length := by
    simp [State.applyAct, State.countSats, State.countTile, State.countLayer]
  rw [hv]
  refine ⟨?_, State.freshWords_mem _ _ _ _, ?_⟩
  · unfold State.freshWords
    split <;> rfl
  · unfold State.freshWords
    split <;> rfl

/-- Where the rows lie apart, a chunk read reads bytes that no chunk has written. -/
theorem State.Looked.runRead (h : s.Looked p src dst n table (j - 2) (u.tile p) u.mem) (hfi : fi < 2) (hfo : fo < 2)
    (hapart : src + n ≤ dst ∨ dst + n ≤ src) (hc : u.clk = s.clk + j) (hj : j < chunks n) :
    let r := s.lutRow p addr src dst n table fi fo
    u.runRead p ⟨s.clk + j, addr, 1, .rdLut src dst n table fi fo j⟩ = r.write j ++ r.read (j + 1) := by
  have hlut : (u.tile p).lut table = (s.tile p).lut table := funext fun i => congrArg (mget 0 · (256 * table + i)) h.luts
  have hbyte : ∀ i, i < chunkLen n j → readByte u.mem (sramBase p + (src + 64 * j) + i) =
      readByte s.mem (sramBase p + (src + (64 * j + i))) := fun i hi => by
    unfold chunkLen at hi
    rw [show sramBase p + (src + 64 * j) + i = sramBase p + (src + (64 * j + i)) by omega]
    exact h.others _ (by omega)
  have hchunk : (u.rowCodes p src fi (64 * j) (chunkLen n j)).map (Machine.lookup ((u.tile p).lut table) (fmtK4 fi)) =
      s.lutChunk p src table n j := by
    rw [State.rowCodes_of_lt hfi, fmtK4_of_lt hfi, hlut, State.sram, readBytes, List.map_map]
    exact List.map_congr_left fun i hi =>
      congrArg (fun b : Byte => Machine.lookup _ false b.toNat) (hbyte i (List.mem_range.mp hi))
  intro r
  rw [Row.write_append_read (r := r) hj]
  simp only [State.runRead, hchunk, hc, packCodes_of_lt hfo, rowBytes_of_lt hfo]
  rfl

theorem State.lutRow_computes (hfi : fi < 2) (hfo : fo < 2) (hapart : src + n ≤ dst ∨ dst + n ≤ src) :
    (s.lutRow p addr src dst n table fi fo).Computes p (s.Looked p src dst n table) where
  pend _ h := ⟨h.luts, h.bytes, h.others⟩
  isRead _ := rfl
  isWrite _ := ⟨rfl, rfl⟩
  reads hc hj h := h.runRead hfi hfo hapart hc hj
  writes {u k} hk h := by
    obtain ⟨hclk, hmem, htile⟩ := u.applyAct_codes p (dst + 64 * k) 0 (s.lutChunk p src table n k)
    have hlen : (s.lutChunk p src table n k).length = chunkLen n k := by simp [State.lutChunk]
    have hlen' : chunkLen n k = min 64 (n - 64 * k) := rfl
    refine ⟨hclk, congrArg Tile.pend htile, congrArg Tile.noWrite htile, (congrArg Tile.luts htile).trans h.luts,
      fun i hi => (congrArg (readByte · _) hmem).trans ?_, fun b hb => (congrArg (readByte · _) hmem).trans ?_⟩
    · by_cases hnew : 64 * k ≤ i
      · obtain ⟨d, rfl⟩ := Nat.exists_eq_add_of_le hnew
        have hd : d < (s.lutChunk p src table n k).length := by rw [hlen]; omega
        rw [show sramBase p + dst + (64 * k + d) = sramBase p + (dst + 64 * k) + d by omega, readByte_writeBytes_in _ _ _ _ hd]
        simp [State.lutChunk]
      · rw [readByte_writeBytes_out _ _ _ _ (by omega)]
        exact h.bytes i (by omega)
    · rw [readByte_writeBytes_out _ _ _ _ (by rw [hlen]; omega)]
      exact h.others b (by omega)

/-- R225: the row of a LUT is written in clk t + q + 1. -/
theorem State.quiet.run_lut {res occ : Nat} (hq : s.quiet t.tile) (hn : 0 < n) (hfi : fi < 2) (hfo : fo < 2)
    (hapart : src + n ≤ dst ∨ dst + n ≤ src) :
    let u := (s.issued t res occ [(1, 0, .rdLut src dst n table fi fo 0)]).run t.tile (chunks n + 1)
    s.Looked t.tile src dst n table (chunks n) (u.tile t.tile) u.mem := by
  have h0 : s.Looked t.tile src dst n table 0 ((s.issued t res occ [(1, 0, .rdLut src dst n table fi fo 0)]).tile t.tile)
      s.mem :=
    ⟨by rw [State.issued_tile], fun i hi => absurd hi (by omega), fun _ _ => rfl⟩
  exact (hq.row_stage (r := s.lutRow t.tile (s.wordAt t.tile) src dst n table fi fo) rfl rfl (lt_chunks_iff.mpr hn) h0).run_all
    (State.lutRow_computes hfi hfo hapart)

/-- R136: the byte of a lane's code is its table's entry. -/
theorem State.lutCode_byte (s : State) (p src table k : Nat) : BitVec.ofNat 8 (s.lutCode p src table k) =
    BitVec.ofNat 8 ((s.tile p).lut table (readByte s.mem (sramBase p + (src + k))).toNat) := by
  have hcode := Nat.mod_eq_of_lt (readByte s.mem (sramBase p + (src + k))).isLt
  refine BitVec.eq_of_toNat_eq ?_
  simp only [State.lutCode, Machine.lookup, Bool.false_eq_true, if_false, BitVec.toNat_ofNat, Nat.mod_mod]
  rw [hcode]

/-- A row of 8-bit codes all of whose chunks are written is stored. -/
theorem State.Looked.stores (h : s.Looked p src dst n table (chunks n) y m) : stores s.mem m (sramBase p + dst)
    ((List.range n).map fun k =>
      BitVec.ofNat 8 ((s.tile p).lut table (readByte s.mem (sramBase p + (src + k))).toNat)) := by
  have hcover := chunks_cover n
  refine ⟨fun i hi => ?_, fun b hb => h.others b ?_⟩
  · rw [List.length_map, List.length_range] at hi
    rw [h.bytes i (by omega), State.lutCode_byte, List.getElem_map, List.getElem_range]
  · rw [List.length_map, List.length_range] at hb
    omega

end PostRows

end Sys2Proof.Machine

end
section
/-! SUPPORT. SCAN and LTLD in their clks (R134, R218, R219, R225). -/

namespace Sys2Proof.Machine

section ScanAndTable

variable {s u : State} {t : Iss} {p f n j addr sd table base c : Nat} {y : Tile} {d : Pend}

/-! ### The largest magnitude -/

theorem maxMag_append (l l' : List Int) : maxMag (l ++ l') = max (maxMag l) (maxMag l') := by
  unfold maxMag
  rw [List.map_append, List.foldl_append]
  exact (congrArg (fun a => List.foldl max a (l'.map Int.natAbs)) (Nat.max_zero _).symm).trans List.foldl_assoc

theorem maxMag_cons (a : Int) (l : List Int) : maxMag (a :: l) = max a.natAbs (maxMag l) := by
  rw [← List.singleton_append, maxMag_append]
  exact congrArg (max · _) (Nat.zero_max _)

theorem natAbs_le_maxMag {a : Int} {l : List Int} (h : a ∈ l) : a.natAbs ≤ maxMag l := by
  obtain ⟨l₁, l₂, rfl⟩ := List.append_of_mem h
  rw [maxMag_append, maxMag_cons]
  exact le_max_of_le_right (le_max_left _ _)

theorem exists_natAbs_eq_maxMag {l : List Int} (h : l ≠ []) : ∃ a ∈ l, a.natAbs = maxMag l := by
  induction l with
  | nil => exact absurd rfl h
  | cons a l ih =>
    rw [maxMag_cons]
    by_cases hl : maxMag l ≤ a.natAbs
    · exact ⟨a, List.mem_cons_self, (max_eq_left hl).symm⟩
    · have hne : l ≠ [] := by
        rintro rfl
        exact hl (Nat.zero_le _)
      obtain ⟨b, hb, heq⟩ := ih hne
      exact ⟨b, List.mem_cons_of_mem _ hb, heq.trans (max_eq_right (Nat.le_of_not_le hl)).symm⟩

/-- Lanes in two parts. -/
theorem AFile.lanes_append (x : AFile) (lo a b : Nat) : x.lanes lo a ++ x.lanes (lo + a) b = x.lanes lo (a + b) := by
  simp only [AFile.lanes, mrange, List.range_add, List.map_append, List.map_map, Function.comp_def, Nat.add_assoc]

/-! ### SCAN -/

/-- What a SCAN has planned `j` clk after its first: the read of chunk `j` with the largest magnitude before it, or after the last
the write of its register. -/
def State.scanPend (s : State) (p addr f n sd j : Nat) : Pend :=
  if j < chunks n then ⟨s.clk + j, addr, 1, .rdScan f n sd j (maxMag (((s.tile p).file f).lanes 0 (64 * j)))⟩
  else ⟨s.clk + chunks n + 1, addr, 1, .sreg sd (maxMag (((s.tile p).file f).lanes 0 n))⟩

/-- A read of a SCAN plans the next, or after the last the write. -/
theorem State.runRead_scanPend (hf : (u.tile p).file f = (s.tile p).file f) (hc : u.clk = s.clk + j) (hj : j < chunks n) :
    u.runRead p (s.scanPend p addr f n sd j) = [s.scanPend p addr f n sd (j + 1)] := by
  have hmax : max (maxMag (((s.tile p).file f).lanes 0 (64 * j)))
      (maxMag (((s.tile p).file f).lanes (64 * j) (chunkLen n j))) =
      maxMag (((s.tile p).file f).lanes 0 (64 * j + chunkLen n j)) := by
    rw [← maxMag_append, ← AFile.lanes_append, Nat.zero_add]
  have hn := lt_chunks_iff.mp hj
  rw [State.scanPend, if_pos hj, State.scanPend]
  simp only [State.runRead, hf, hmax, hc]
  by_cases hnext : j + 1 < chunks n
  · have hlen : 64 * j + chunkLen n j = 64 * (j + 1) := by
      have := lt_chunks_iff.mp hnext
      unfold chunkLen
      omega
    rw [if_pos hnext, if_pos hnext, hlen]
    rfl
  · have hlen : 64 * j + chunkLen n j = n := by
      rw [lt_chunks_iff] at hnext
      unfold chunkLen
      omega
    rw [if_neg hnext, if_neg hnext, hlen, show chunks n = j + 1 by omega]
    rfl

/-- A clk of a SCAN that reads. -/
theorem State.With.tick_scan (h : s.With p (s.clk + j) { y with pend := [s.scanPend p addr f n sd j] } u)
    (hy : y.file f = (s.tile p).file f) (hj : j < chunks n) :
    s.With p (s.clk + j) { y with pend := [s.scanPend p addr f n sd (j + 1)] } (u.tickTile p).1 := by
  have hplan : u.runRead p (s.scanPend p addr f n sd j) = [s.scanPend p addr f n sd (j + 1)] :=
    State.runRead_scanPend ((congrArg (Tile.file · f) h.tile).trans hy) h.clk hj
  have hread : (s.scanPend p addr f n sd j).act.isRead = true ∧ (s.scanPend p addr f n sd j).due = s.clk + j := by
    rw [State.scanPend, if_pos hj]
    exact ⟨rfl, rfl⟩
  have hdue : ({ y with pend := [s.scanPend p addr f n sd j] } : Tile).due (s.clk + j) = [s.scanPend p addr f n sd j] :=
    List.filter_cons_of_pos (by simp [hread.2])
  have hrest : (({ y with pend := [s.scanPend p addr f n sd j] } : Tile).took (s.clk + j)).pend = [] := by
    simp [Tile.took, hread.2]
  have hlater : ∀ e ∈ u.runRead p (s.scanPend p addr f n sd j), e.due ≠ s.clk + j := by
    rw [hplan]
    intro e he
    rw [List.mem_singleton.mp he, State.scanPend]
    split <;> simp only <;> omega
  have := h.read hdue hread.1 hlater
  rw [hrest, hplan] at this
  exact this

/-- R218: the tile once a SCAN has read in clk `t + j`. -/
theorem State.With.run_scan (h : s.With p s.clk { y with pend := [s.scanPend p addr f n sd 0] } u)
    (hy : y.file f = (s.tile p).file f) (hj : j < chunks n) :
    s.With p (s.clk + j) { y with pend := [s.scanPend p addr f n sd (j + 1)] } (u.run p j) := by
  induction j with
  | zero => exact State.With.tick_scan (j := 0) h hy hj
  | succ j ih =>
    rw [State.run_last]
    exact State.With.tick_scan (ih (by omega)).next hy hj

/-- R219: a SCAN writes its register in clk t + q + 1. -/
theorem State.With.run_scan_write (h : s.With p s.clk { y with pend := [s.scanPend p addr f n sd 0] } u)
    (hy : y.file f = (s.tile p).file f) (hn : 0 < n) (hno : ∀ c, y.noWrite ≠ some (s.clk + c)) :
    s.With p (s.clk + chunks n + 1)
      (({ y with pend := [] } : Tile).setS sd (maxMag (((s.tile p).file f).lanes 0 n))) (u.run p (chunks n + 1)) := by
  obtain ⟨q, hq⟩ := Nat.exists_eq_succ_of_ne_zero (lt_chunks_iff.mpr (by omega : 64 * 0 < n)).ne'
  have hlast := h.run_scan hy (j := q) (by omega)
  have hwrite : s.scanPend p addr f n sd (q + 1) =
      ⟨s.clk + q + 1 + 1, addr, 1, .sreg sd (maxMag (((s.tile p).file f).lanes 0 n))⟩ := by
    rw [State.scanPend, if_neg (by omega), hq]
    rfl
  rw [hwrite] at hlast
  rw [hq]
  have hidle := hlast.run_idle (List.filter_cons_of_neg (by simp))
  have := hidle.run_tick (List.filter_cons_of_pos (by simp)) (by simp [Act.inTile])
    (clashes_of_kinds (List.nodup_singleton _)) (hno (q + 2))
  unfold Tile.took at this
  rw [List.filter_cons_of_neg (by simp)] at this
  exact this

theorem Tile.eq_with_pend {l : List Pend} (h : y.pend = l) : y = { y with pend := l } := by rw [← h]

/-- R218: what a SCAN leaves of its tile in clk t + q + 1. -/
theorem State.quiet.run_scan {res occ : Nat} (hq : s.quiet t.tile) (hn : 0 < n) :
    let x := s.tile t.tile
    let u := (s.issued t res occ [(1, 0, .rdScan f n sd 0 0)]).run t.tile (chunks n + 1)
    onlyTile s u t.tile ∧ (u.tile t.tile).a = x.a ∧
      (sd ≠ 0 → (u.tile t.tile).sreg sd = maxMag ((x.file f).lanes 0 n) % 2 ^ 32) := by
  intro x u
  have hpend : ((s.issued t res occ [(1, 0, .rdScan f n sd 0 0)]).tile t.tile).pend =
      [s.scanPend t.tile (s.wordAt t.tile) f n sd 0] := by
    rw [hq.pend, State.scanPend, if_pos (lt_chunks_iff.mpr hn)]
    rfl
  have hstart := (congrArg (s.With t.tile s.clk · _) (Tile.eq_with_pend hpend)).mp State.issued_with
  have hrun := hstart.run_scan_write (State.issued_file _ _ _ _ _ _) hn (fun c => hq.noWrite)
  refine ⟨hrun.onlyTile, ?_, fun hsd => ?_⟩
  · rw [hrun.tile, Tile.setS_eq]
    exact State.issued_a _ _ _ _ _
  · rw [hrun.tile, Tile.sreg_setS, if_pos rfl, if_neg hsd]

/-- R134: the largest magnitude of a row is one of its lanes' and no less than any. -/
theorem AFile.maxMag_lanes (x : AFile) (hn : 0 < n) :
    (∀ k, k < n → (mget 0 x.vals k).natAbs ≤ maxMag (x.lanes 0 n)) ∧
      ∃ k, k < n ∧ (mget 0 x.vals k).natAbs = maxMag (x.lanes 0 n) := by
  have hmem : ∀ a, a ∈ x.lanes 0 n ↔ ∃ k, k < n ∧ mget 0 x.vals k = a := by simp [AFile.lanes, mrange]
  refine ⟨fun k hk => natAbs_le_maxMag ((hmem _).mpr ⟨k, hk, rfl⟩), ?_⟩
  obtain ⟨a, ha, heq⟩ := exists_natAbs_eq_maxMag (List.ne_nil_of_mem ((hmem _).mpr ⟨0, hn, rfl⟩))
  obtain ⟨k, hk, rfl⟩ := (hmem a).mp ha
  exact ⟨k, hk, heq⟩

/-! ### LTLD -/

/-- A clk in which one write of the tile is due. -/
theorem State.With.tick_write {g : Tile → Tile} (h : s.With p c y u) (hd : y.due c = [d]) (hr : d.act.isRead = false)
    (hg : ∀ v : State, v.applyAct p d.act = v.setTile p (g (v.tile p))) (hn : y.noWrite ≠ some c) :
    s.With p c (g (y.took c)) (u.tickTile p).1 := by
  have htick := State.tickTile_write (s := u) (p := p) (x := d) (by rw [h.tile, h.clk]; exact hd) hr
    (by rw [h.tile, h.clk]; exact hn)
  rw [htick, hg, State.setTile_tile_same, h.tile, h.clk]
  exact (h.setTile _).setTile _

theorem State.sram_length (s : State) (p a n : Nat) : (s.sram p a n).length = n := by simp [State.sram, readBytes]

theorem State.sram_getD {i : Nat} (s : State) (p a : Nat) (hi : i < n) :
    (s.sram p a n).getD i 0 = (readByte s.mem (sramBase p + (a + i))).toNat := by
  simp [State.sram, readBytes, hi, Nat.add_assoc]

/-- R225: a table in the clk after its LTLD's issue. -/
theorem State.quiet.run_ltld {bs : List Nat} (hq : s.quiet t.tile) :
    let y := (s.issued t 4 2 [(1, 1, .table table bs)]).tile t.tile
    s.With t.tile (s.clk + 1) { y.took (s.clk + 1) with luts := msetList 0 y.luts (256 * table) bs }
      ((s.issued t 4 2 [(1, 1, .table table bs)]).run t.tile 1) := by
  intro y
  have hfirst : s.With t.tile s.clk y ((s.issued t 4 2 [(1, 1, .table table bs)]).run t.tile 0) :=
    State.issued_with.idle (hq.due 0)
  rw [State.run_last]
  exact hfirst.next.tick_write (g := fun y => { y with luts := msetList 0 y.luts (256 * table) bs }) (hq.due 1) rfl
    (fun _ => rfl) hq.noWrite

/-- R225: the entries that an LTLD loads. -/
theorem State.quiet.run_ltld_lut {bs : List Nat} (hq : s.quiet t.tile) {i : Nat} (hi : i < bs.length) :
    (((s.issued t 4 2 [(1, 1, .table table bs)]).run t.tile 1).tile t.tile).lut table i = bs.getD i 0 := by
  rw [hq.run_ltld.tile, Tile.lut]
  dsimp only
  rw [mget_msetList, if_pos (by omega), Nat.add_sub_cancel_left]

end ScanAndTable

end Sys2Proof.Machine

end
section
/-! CLAIM. The statement about the post instructions. -/

open Sys2Proof Sys2Proof.Machine

/-- Settles O14: each post instruction plans its acts with its issue (`execBias_ready` to `execGath_ready`). The rows of BIAS and LUT
pass in chunks, one read while the one two before it is written (`Row.Stage.run`, `State.Biased`, `State.Looked`); SCAN carries
the largest magnitude from chunk to chunk (`State.With.run_scan_write`, `AFile.maxMag_lanes`). -/
theorem postInstructionsIssueAndCompute : Obligations.PostInstructionsIssueAndCompute := by
  unfold Obligations.PostInstructionsIssueAndCompute
  refine ⟨fun s t file nM ptr sd buf kM frac table src dst ns fmt zp fi fo e o hr => ?_,
    fun s t file nM ptr sd table dst hr hq => ?_⟩
  · intro p x n m q tag here ctx
    exact ⟨execBias_ready hr, execScan_ready hr, execSbtrk_ready hr, execSbopn_live hr, execSbopn_estimated hr,
      execLtld_ready hr, execLut_ready hr, execGath_ready hr⟩
  · intro p x n q here lane byte
    refine ⟨fun hc hal => ⟨_, execBias_ready hr hc hal, ?_⟩, fun hc => ⟨_, execScan_ready hr hc, ?_⟩,
      fun hc hal => ⟨_, execLtld_ready hr hc hal, ?_⟩,
      fun hal fi fo hfi hfo hc => ⟨_, execLut_ready hr hc ?_, fun hapart => ?_⟩⟩
    · have h := hq.run_bias (f := file) (base := x.preg ptr) (res := 4) (occ := q) (lanesOf_pos nM)
      have hcover := chunks_cover (lanesOf nM)
      refine ⟨fun k hk => ?_, fun k hk => ?_, h.others, h.exp, h.tag, h.sregs⟩
      · exact (h.lanes k).trans ((if_pos (hcover.symm ▸ hk)).trans (s.biasSum_fst p file (x.preg ptr) k))
      · exact (h.lanes k).trans (if_neg (by rw [hcover]; exact Nat.not_lt.mpr hk))
    · obtain ⟨honly, ha, hs⟩ := hq.run_scan (f := file) (sd := sd) (res := 4) (occ := q) (lanesOf_pos nM)
      refine ⟨honly, ha, fun hsd hbound => ?_⟩
      obtain ⟨hle, k, hk, heq⟩ := (x.file file).maxMag_lanes (lanesOf_pos nM)
      have hmod := Nat.mod_eq_of_lt (a := maxMag ((x.file file).lanes 0 n)) (b := 2 ^ 32)
        (heq ▸ lt_of_le_of_lt (hbound k hk) (by decide))
      have hval := (hs hsd).trans hmod
      exact ⟨fun k hk => (hle k hk).trans_eq hval.symm, k, hk, heq.trans hval.symm⟩
    · have hrun := hq.run_ltld (table := table) (bs := s.sram p (x.preg ptr) 256)
      refine ⟨hrun.onlyTile, fun i hi => ?_, ?_⟩
      · rw [hq.run_ltld_lut (by rwa [State.sram_length])]
        exact State.sram_getD _ _ _ hi
      · rw [hrun.tile]
        exact ⟨State.issued_a _ _ _ _ _, State.issued_s _ _ _ _ _⟩
    · rw [rowBytes_of_lt hfi, rowBytes_of_lt hfo]
      exact hal
    · exact (hq.run_lut (lanesOf_pos nM) hfi hfo hapart).stores

end

section
/-! SUPPORT. The calibration windows: the close of a window at its last clk, what the raising of an event notes in the layer's
status, and the writing of the totals. -/

namespace Sys2Proof.Machine

variable {s : State}

/-! ### The close of a window (R165) -/

/-- `s` after the end of window `j` of the layer and kind with code `c`: its count starts again, and it is not met again. -/
def State.winEnded (s : State) (c j : Nat) : State :=
  { s with job := { s.job with
    layerWin := mset 0 s.job.layerWin c 0
    winNext := mset 0 s.job.winNext c (j + 1) } }

/-- `s` with one more calibration event that waits. -/
def State.awaitCal (s : State) (e : CalEvent) : State := { s with job := { s.job with calQ := s.job.calQ ++ [e] } }

theorem State.F_pos (s : State) : 0 < s.F := Nat.lt_of_lt_of_le Nat.one_pos (Nat.le_max_right _ _)

/-- The clk in which window `j` of `len` clk ends. -/
theorem windowEnd_clk {clk s0 j len : Nat} (hlen : 0 < len) (h : clk = s0 + (j + 1) * len) :
    s0 < clk ∧ (clk - s0) % len = 0 ∧ (clk - s0) / len = j + 1 := by
  subst h
  rw [Nat.add_sub_cancel_left]
  exact ⟨Nat.lt_add_of_pos_right (Nat.mul_pos j.succ_pos hlen), Nat.mul_mod_left _ _, Nat.mul_div_cancel _ hlen⟩

/-- In the clk in which window `j` ends, the command ends that window alone, and its event waits where its count is at the
threshold. -/
theorem exec_calWindowClose_ends {layer kind j : Nat} (hl : layer < 256) (hk : 1 ≤ kind) (hk' : kind ≤ 3)
    (hb : s.job.bound = true) (hw : 1 ≤ s.fld (key (0x2400 + layer) kind) cwin_window)
    (hclk : s.clk = s.job.s0 + (j + 1) * (s.fld (key (0x2400 + layer) kind) cwin_window * s.F))
    (hn : mget 0 s.job.winNext (4 * layer + kind) ≤ j) :
    let k := key (0x2400 + layer) kind
    let n := mget 0 s.job.layerWin (4 * layer + kind)
    let v := s.winEnded (4 * layer + kind) j
    exec (.calWindowClose layer kind) s =
      if s.flag (key 0x2500 1) cglb_cal_events_enable ∧ s.fld k cwin_threshold ≠ 0 ∧ s.fld k cwin_threshold ≤ n then
        .next (v.awaitCal ⟨layer, kind, j, (s.job.n0 + j * s.fld k cwin_window) % 2 ^ 48, n, s.fld k cwin_threshold⟩)
      else .next v := by
  obtain ⟨hlate, hend, hdone⟩ := windowEnd_clk (Nat.mul_pos hw s.F_pos) hclk
  refine (if_pos ⟨hl, hk, hk'⟩).trans ?_
  dsimp only
  rw [hdone, if_pos ⟨hb, hlate, hend, Nat.lt_succ_of_le hn⟩]
  rfl

/-! ### Events (R166, R169) -/

/-- The layer's status notes event `e`: its kind's seen flag, and one count. -/
def State.noteCal (s : State) (e : CalEvent) : State :=
  (s.setFlag (key (0x2400 + e.layer) 7) (calFlds e.kind).1 true).bump (key (0x2400 + e.layer) 7) (calFlds e.kind).2

/-- The seen flag of a kind is one bit, below every count. -/
theorem calFlds_apart (kind : Nat) : (calFlds kind).1.w = 1 ∧ (calFlds kind).1.lo + (calFlds kind).1.w ≤ (calFlds kind).2.lo := by
  unfold calFlds
  split <;> decide

theorem calFlds_eq {kind : Nat} (hk : 1 ≤ kind) (hk' : kind ≤ 3) : calFlds kind =
    ([cstat_saturation_seen, cstat_underuse_seen, cstat_floor_seen].getD (kind - 1) cstat_floor_seen,
      [cstat_saturation_events, cstat_underuse_events, cstat_floor_events].getD (kind - 1) cstat_floor_events) := by
  interval_cases kind <;> rfl

theorem State.noteCal_seen (s : State) (e : CalEvent) :
    (s.noteCal e).fld (key (0x2400 + e.layer) 7) (calFlds e.kind).1 = 1 := by
  obtain ⟨hw, hlo⟩ := calFlds_apart e.kind
  refine (State.fld_setFld_other _ _ _ _ _ (.inl hlo)).trans ((State.fld_setFld_same _ _ _ _).trans ?_)
  rw [hw]
  rfl

theorem State.noteCal_count (s : State) (e : CalEvent) : (s.noteCal e).fld (key (0x2400 + e.layer) 7) (calFlds e.kind).2 =
    s.oneMore (key (0x2400 + e.layer) 7) (calFlds e.kind).2 := by
  obtain ⟨-, hlo⟩ := calFlds_apart e.kind
  refine (State.bump_fld_same _ _ _).trans ?_
  rw [State.oneMore, State.setFlag, State.fld_setFld_other _ _ _ _ _ (.inr hlo), State.oneMore]

theorem State.noteCal_ent_other (s : State) (e : CalEvent) {b : Nat} (hb : b ≠ key (0x2400 + e.layer) 7) :
    (s.noteCal e).ent b = s.ent b :=
  (State.setFld_ent_other _ _ _ _ _ hb).trans (State.setFld_ent_other _ _ _ _ _ hb)

theorem exec_calibrationEvent_nil (h : s.job.calQ = []) : exec .calibrationEvent s = .next s := by
  dsimp only [exec, execCalibrationEvent]
  rw [h]

theorem exec_calibrationEvent_cons {e : CalEvent} {es : List CalEvent} (h : s.job.calQ = e :: es) :
    exec .calibrationEvent s = .next (({ s with job := { s.job with calQ := es } } : State).raiseCal e) := by
  dsimp only [exec, execCalibrationEvent]
  rw [h]

/-! ### Totals (R167) -/

/-- The entry of the total with code `c`: four codes to a layer. -/
def kTot (c : Nat) : Nat := key (0x2400 + c / 4) (3 + c % 4)

theorem kTot_injective : Function.Injective kTot := by
  intro a b h
  unfold kTot key at h
  omega

/-- Each total of the list written to its entry. -/
def State.putTotals (s : State) (l : SMap Nat) : State := l.foldl (fun s e => s.setEnt (kTot e.1) (min e.2 (2 ^ 48 - 1))) s

theorem State.putTotals_onlyDict (l : SMap Nat) (s : State) : { s.putTotals l with dict := s.dict } = s := by
  induction l generalizing s with
  | nil => rfl
  | cons x l ih => exact congrArg (fun u : State => { u with dict := s.dict }) (ih (s.setEnt (kTot x.1) (min x.2 (2 ^ 48 - 1))))

theorem State.putTotals_ent_other {l : SMap Nat} {b : Nat} (s : State) (h : ∀ x ∈ l, b ≠ kTot x.1) :
    (s.putTotals l).ent b = s.ent b := by
  induction l generalizing s with
  | nil => rfl
  | cons x l ih =>
    obtain ⟨hx, hl⟩ := List.forall_mem_cons.mp h
    exact (ih _ hl).trans (s.setEnt_ent_other _ _ _ hx)

/-- Where no code is listed twice, a listed total reads back, saturated at its 48 bits. -/
theorem State.putTotals_ent_mem {l : SMap Nat} {c v : Nat} (s : State) (hl : (l.map Prod.fst).Pairwise (· < ·)) (h : (c, v) ∈ l) :
    (s.putTotals l).ent (kTot c) = min v (2 ^ 48 - 1) := by
  induction l generalizing s with
  | nil => cases h
  | cons x l ih =>
    obtain ⟨hx, hl⟩ := List.pairwise_cons.mp hl
    rcases List.mem_cons.mp h with rfl | h
    · have hother : ∀ y ∈ l, kTot c ≠ kTot y.1 := fun y hy he =>
        Nat.ne_of_lt (hx y.1 (List.mem_map_of_mem hy)) (kTot_injective he)
      exact (State.putTotals_ent_other _ hother).trans (s.setEnt_ent_same _ _)
    · exact ih _ hl h

theorem exec_layerTotalsRefresh (s : State) : exec .layerTotalsRefresh s = .next (s.putTotals s.job.layerTot) := rfl

/-- The total of a layer and kind is at subindex 3 + kind of the layer's index. -/
theorem kTot_layer {layer kind : Nat} (hk : kind ≤ 3) : kTot (4 * layer + kind) = key (0x2400 + layer) (3 + kind) := by
  unfold kTot
  congr 2 <;> omega

end Sys2Proof.Machine

end

section
/-! CLAIM. The statement about the calibration windows, their events and the totals. -/

open Sys2Proof Sys2Proof.Machine

/-- Settles O30: the window that ends in the clk is the one whose number the clk gives (`exec_calWindowClose_ends`), the event's
flag and count are apart in the layer's status (`calFlds_apart`), and no two codes share a total's entry (`kTot_injective`). -/
theorem calibrationWindowsAndEvents : Obligations.CalibrationWindowsAndEvents := by
  unfold Obligations.CalibrationWindowsAndEvents
  intro s layer kind hl hk hk' k len c n th
  refine ⟨fun j hb hw hclk hn => ?_, fun e es hq he hkind => ?_, exec_calibrationEvent_nil, fun hs => ?_⟩
  · have h := exec_calWindowClose_ends hl hk hk' hb hw hclk hn
    refine ⟨fun hon hth hle => h.trans (if_pos ⟨hon, hth, hle⟩), fun hno => h.trans (if_neg ?_)⟩
    rintro ⟨hon, hth, hle⟩
    rcases hno with hoff | h0 | hlow
    · exact Bool.false_ne_true (hoff.symm.trans hon)
    · exact hth h0
    · exact Nat.not_lt.mpr hle hlow
  · subst he hkind
    have hf := calFlds_eq hk hk'
    have hseen := State.noteCal_seen { s with job := { s.job with calQ := es } } e
    have hcount := State.noteCal_count { s with job := { s.job with calQ := es } } e
    rw [hf] at hseen hcount
    exact ⟨_, rfl, hseen, hcount, fun b hb => State.noteCal_ent_other _ e hb, exec_calibrationEvent_cons hq⟩
  · refine ⟨_, exec_layerTotalsRefresh s, State.putTotals_onlyDict _ s, fun v hv => ?_, fun b hb => State.putTotals_ent_other s hb⟩
    rw [← kTot_layer hk']
    exact State.putTotals_ent_mem s hs hv

end

section
/-! SUPPORT. The routers of a clk (R179): the tokens due in it that have crossed enter their registers, and a router whose inputs
are all named only sends. -/

namespace Sys2Proof.Machine

section Routers

variable {s : State} {j p k : Nat}

/-- The flights `fs` set out. -/
def State.launchAll (s : State) (fs : List Flight) : State :=
  { s with net := { s.net with flights := s.net.flights ++ fs } }

@[simp] theorem State.launchAll_nil (s : State) : s.launchAll [] = s := by
  simp [State.launchAll]

@[simp] theorem State.launchAll_launchAll (s : State) (fs gs : List Flight) :
    (s.launchAll fs).launchAll gs = s.launchAll (fs ++ gs) := by
  simp [State.launchAll]

@[simp] theorem State.launchAll_reg (s : State) (fs : List Flight) (r : Nat) : (s.launchAll fs).reg r = s.reg r := rfl

@[simp] theorem State.launchAll_tide (s : State) (fs : List Flight) : (s.launchAll fs).net.tide = s.net.tide := rfl

@[simp] theorem State.launchAll_slotAt (s : State) (fs : List Flight) (c : Nat) : (s.launchAll fs).slotAt c = s.slotAt c := rfl

@[simp] theorem State.launchAll_clk (s : State) (fs : List Flight) : (s.launchAll fs).clk = s.clk := rfl

@[simp] theorem State.launchAll_sends (s : State) (fs : List Flight) (j p o : Nat) :
    (s.launchAll fs).sends j p o = s.sends j p o := rfl

/-- A token that crosses no island boundary, or has crossed it, enters its register (R185). -/
theorem State.arrive_of_complete {f : Flight} (h : f.cross = none ∨ f.done = true) :
    s.arrive f = { s with net := { s.net with regs := mset none s.net.regs f.reg (some f.tok) } } := by
  unfold State.arrive
  split
  · rfl
  · next c hc => rw [if_pos (h.resolve_left (by simp [hc]))]

/-- The registers once the tokens of `due` are in them. -/
theorem State.foldl_arrive {due : List Flight} (h : ∀ f ∈ due, f.cross = none ∨ f.done = true) (s : State) :
    due.foldl State.arrive s =
      { s with net := { s.net with regs := due.foldl (fun m f => mset none m f.reg (some f.tok)) s.net.regs } } := by
  induction due generalizing s with
  | nil => rfl
  | cons f fs ih =>
    obtain ⟨hf, hfs⟩ := List.forall_mem_cons.mp h
    rw [List.foldl_cons, State.arrive_of_complete hf, ih hfs, List.foldl_cons]

/-- Output `o` of router `p` sends what `State.sends` says (R177, R179). -/
theorem State.routeOut_eq (s : State) (j p o : Nat) :
    s.routeOut p (mget 0 s.net.tide (65536 * p + j)) o = s.launchAll (s.sends j p o).toList := by
  simp only [State.routeOut, State.sends, tideSel, bits, show 2 ^ 3 = 8 from rfl]
  split
  · simp
  · cases s.reg (regKey p (mget 0 s.net.tide (65536 * p + j) / 2 ^ (3 * o) % 8 - 1)) with
    | none => simp
    | some w => by_cases ho : o = 4 <;> simp [ho, State.launch, State.launchAll]

/-- The outputs of `os` send one after another. -/
theorem State.foldl_routeOut (s : State) (j p : Nat) (os : List Nat) (fs : List Flight) :
    os.foldl (fun t o => t.routeOut p (mget 0 s.net.tide (65536 * p + j)) o) (s.launchAll fs) =
      s.launchAll (fs ++ os.filterMap (s.sends j p)) := by
  induction os generalizing fs with
  | nil => simp
  | cons o os ih =>
    have hout := (s.launchAll fs).routeOut_eq j p o
    rw [State.launchAll_tide, State.launchAll_sends, State.launchAll_launchAll] at hout
    rw [List.foldl_cons, hout, ih, List.append_assoc, List.filterMap_cons]
    cases s.sends j p o <;> rfl

/-- A word in an input that an output names does not collide (R181). -/
theorem State.collide_of_named {e : Nat} (h : s.reg (regKey p k) ≠ none → ∃ o, o < 5 ∧ e / 2 ^ (3 * o) % 8 = k + 1) :
    s.collide p e k = s := by
  unfold State.collide
  split
  · rfl
  · next w hw =>
    obtain ⟨o, ho, he⟩ := h (by simp [hw])
    exact if_pos (List.any_eq_true.mpr ⟨o, List.mem_range.mpr ho, by simpa [tideSel, bits] using he⟩)

/-- A router all of whose words are named sends, on each output, the word of the input that its entry names. -/
theorem State.route_of_named (s : State) (fs : List Flight)
    (h : ∀ k, k < 5 → s.reg (regKey p k) ≠ none → ∃ o, o < 5 ∧ mget 0 s.net.tide (65536 * p + j) / 2 ^ (3 * o) % 8 = k + 1) :
    (s.launchAll fs).route j p = s.launchAll (fs ++ (List.range 5).filterMap (s.sends j p)) := by
  dsimp only [State.route]
  rw [State.launchAll_tide, State.foldl_routeOut]
  exact foldl_fixed_of_mem fun k hk => State.collide_of_named (h k (List.mem_range.mp hk))

/-- The routers of `ps` send in their order, none of whose words is left without an output. -/
theorem State.foldl_route (s : State) {ps : List Nat} (fs : List Flight)
    (h : ∀ p ∈ ps, ∀ k, k < 5 → s.reg (regKey p k) ≠ none →
      ∃ o, o < 5 ∧ mget 0 s.net.tide (65536 * p + s.slotAt s.clk) / 2 ^ (3 * o) % 8 = k + 1) :
    ps.foldl (fun t p => t.route (t.slotAt t.clk) p) (s.launchAll fs) =
      s.launchAll (fs ++ ps.flatMap fun p => (List.range 5).filterMap (s.sends (s.slotAt s.clk) p)) := by
  induction ps generalizing fs with
  | nil => simp
  | cons p ps ih =>
    obtain ⟨hp, hps⟩ := List.forall_mem_cons.mp h
    rw [List.foldl_cons, State.launchAll_clk, State.launchAll_slotAt, State.route_of_named s fs hp, ih _ hps,
      List.flatMap_cons, List.append_assoc]

end Routers

end Sys2Proof.Machine
end

section
/-! CLAIM. The statement about the routers of a clk. -/

open Sys2Proof Sys2Proof.Machine

/-- Settles O17: the tokens due in the clk are all complete and enter their registers (`State.foldl_arrive`), and no router has a
word that collides, so that each only sends (`State.foldl_route`). -/
theorem routersForwardBySlotTable : Obligations.RoutersForwardBySlotTable := by
  unfold Obligations.RoutersForwardBySlotTable
  intro s hruns hlast b due v j hdue hnamed
  have harrive : State.arrivals { b with net := { b.net with
      lastSlot := some b.clk, captured := b.net.captured.filter (fun x => decide (b.clk < x.2.2)) } } = v :=
    State.foldl_arrive hdue _
  have hroute := v.foldl_route [] hnamed
  rw [State.launchAll_nil, List.nil_append] at hroute
  calc exec .tideSlot s = execTideSlot s := rfl
    _ = _ := if_pos ⟨hruns, hlast⟩
    _ = .next (v.placedTiles.foldl (fun t p => t.route (t.slotAt t.clk) p) v) := by rw [← harrive]; rfl
    _ = _ := congrArg Host.Outcome.next hroute

end

section
/-! SUPPORT. A crossing reported complete before its token was sent (R172, R185). A flight can be one of a token that is yet to be
sent: the beats of a slot enter the flights together, each with the clk of its own arrival (R102). -/

namespace Sys2Proof.Machine

open Sys2Proof.Tests

/-- Until a word's latency before the clk it is due, its crossing cannot complete: the report changes nothing. -/
theorem exec_crossingComplete_unsent {s : State} {isl due margin : Nat} {x : Crossing} {f : Flight}
    (hf : s.net.flights.find? (fun f => f.crossing isl x.cls x.sender due) = some f)
    (hd : s.clk + crossLatency x.cls f.sender < due) : exec (.crossingComplete isl x due margin) s = .next s := by
  show execCrossingComplete isl x due margin s = .next s
  dsimp only [execCrossingComplete]
  split
  · rw [hf]
    exact if_neg fun ⟨_, hle, _⟩ => absurd hle (Nat.not_le.mpr hd)
  · rfl

/-- Beat `i` of the slot of clk 100, from quay 19 (island 123) to the west rafter input of tile 0 (R102, R117). -/
def beatFlight (i : Nat) : Flight := ⟨regKey 0 6, 106 + i, tok1, some 5, 123, false⟩

/-- Clk 100 with two beats of a slot on their way, the second of which leaves in clk 101. -/
def twoBeats : State := withNet { flights := [beatFlight 0, beatFlight 1] }

/-- The second beat is the flight to tile 0 due in clk 107, its ring entry is free and a margin of 255 warns of nothing. -/
theorem twoBeats_meets : twoBeats.fld (key 0x2600 2) mctl_margin_warn ≤ min 255 255 ∧ twoBeats.clk < 107 ∧
    (∀ g ∈ [beatFlight 0], g.crossing 0 5 123 107 = false) ∧ (beatFlight 1).crossing 0 5 123 107 = true ∧
    twoBeats.ringFree (beatFlight 1) = true := by decide +kernel

/-- Its crossing is not complete in clk 100: it takes 6 clk from the clk in which the beat leaves. -/
theorem twoBeats_unsent : exec (.crossingComplete 0 ⟨5, 123⟩ 107 255) twoBeats = .next twoBeats :=
  exec_crossingComplete_unsent (f := beatFlight 1) (by decide +kernel) (by decide +kernel)

end Sys2Proof.Machine
end

section
/-! CLAIM. The statement about collisions, slips and crossings does not ask that a word whose crossing completes has been sent. -/

open Sys2Proof Sys2Proof.Machine

/-- Refutes O18: of a word whose crossing is reported complete the statement asks only that it is due later, but the second of two
beats, 7 clk before it is due over a link of 6, is not sent yet, and the report leaves it as it is (`twoBeats_unsent`). -/
theorem not_crossingsAreMeasuredOrFault : ¬ Obligations.CrossingsAreMeasuredOrFault := by
  rintro ⟨-, h⟩
  obtain ⟨hwarn, hdue, hfirst, hsecond, hfree⟩ := twoBeats_meets
  obtain ⟨-, -, hmeasured⟩ := h twoBeats 0 5 107 255 123 (by decide) (by decide)
  obtain ⟨hearly, -⟩ := hmeasured hwarn
  obtain ⟨hword, -⟩ := hearly hdue
  obtain ⟨hfits, -⟩ := hword [beatFlight 0] [] (beatFlight 1) rfl hfirst hsecond
  obtain ⟨u, hu, -, hnet, -⟩ := hfits hfree
  obtain rfl : twoBeats = u := Host.Outcome.next.inj (twoBeats_unsent.symm.trans hu)
  have hflights : [beatFlight 0, beatFlight 1] = [beatFlight 0, { beatFlight 1 with done := true }] := congrArg (·.flights) hnet
  exact absurd hflights (by decide)

end

section
/-! SUPPORT. An issue that has no effect (R206, R207, R209), an effect whose access the allocation refuses (R210, R260), and the
refusals that wait at a tile. -/

namespace Sys2Proof.Machine

section NoEffect

variable {s : State} {t : Iss} {c : Instr} {r occ : Nat} {eff : State → Nat → State}

/-! ### The issue that is predicated off or finds its resource busy -/

@[simp] theorem State.begun_res (s : State) (x : Tile) (r : Nat) : (s.begun x).res r = x.res r := by
  rw [s.begun_eq]
  unfold Tile.res
  split <;> rfl

@[simp] theorem State.begun_met (s : State) (x : Tile) (t : Iss) : (s.begun x).met t = x.met t := by
  rw [s.begun_eq]
  rfl

/-- R206: with its predicate unmet an instruction occupies its resource and has no effect. -/
theorem State.issue_unmet (hok : tileOk s.grade t.tile = true) (hmay : s.mayIssue t.tile = true)
    (hmet : (s.tile t.tile).met t = false) (hfree : ((s.tile t.tile).res r).free ≤ s.clk) (hc : s.spells c t.tile = true) :
    s.issue c t r occ eff = .next (s.issued t r occ []) := by
  have hidle : ¬ (r ≠ 0 ∧ s.clk < ((s.tile t.tile).res r).free) := fun h => absurd h.2 (Nat.not_lt.mpr hfree)
  simp only [State.issue, hok, hmay, hc, hmet, hidle, State.begun_res, State.begun_met, Bool.and_self, Bool.false_eq_true,
    if_true, if_false, State.issued, List.map_nil, List.append_nil]

/-- R207, R209: an instruction whose resource is occupied faults with the word that holds it; it has no effect, and neither have
the tile's writes of the clk. -/
theorem State.issue_busy (hok : tileOk s.grade t.tile = true) (hmay : s.mayIssue t.tile = true) (hr : r ≠ 0)
    (hbusy : s.clk < ((s.tile t.tile).res r).free) (hc : s.spells c t.tile = true) :
    s.issue c t r occ eff = .next (((s.setTile t.tile ((s.begun (s.tile t.tile)).advance s.clk 1)).noWrites t.tile).tileFault 2 1
      t.tile (s.wordAt t.tile) (r + 2 ^ 16 * ((s.tile t.tile).res r).holder)) := by
  have hheld : r ≠ 0 ∧ s.clk < ((s.tile t.tile).res r).free := ⟨hr, hbusy⟩
  simp only [State.issue, hok, hmay, hc, State.begun_res, Bool.and_self, if_true, if_pos hheld]
  rfl

theorem State.scalar_unmet {f : Tile → Act} (hok : tileOk s.grade t.tile = true) (hmay : s.mayIssue t.tile = true)
    (hmet : (s.tile t.tile).met t = false) (hfree : (s.tile t.tile).alu.free ≤ s.clk) (hc : s.spells c t.tile = true) :
    s.scalar c t f = .next (s.issued t 5 1 []) :=
  State.issue_unmet (r := 5) hok hmay hmet hfree hc

theorem State.scalar_busy {f : Tile → Act} (hok : tileOk s.grade t.tile = true) (hmay : s.mayIssue t.tile = true)
    (hbusy : s.clk < (s.tile t.tile).alu.free) (hc : s.spells c t.tile = true) :
    s.scalar c t f = .next (((s.setTile t.tile ((s.begun (s.tile t.tile)).advance s.clk 1)).noWrites t.tile).tileFault 2 1
      t.tile (s.wordAt t.tile) (5 + 2 ^ 16 * (s.tile t.tile).alu.holder)) :=
  State.issue_busy (r := 5) hok hmay (by decide) hbusy hc

/-! ### The access that the allocation refuses -/

/-- Of failures in one clk the first is told. -/
theorem firstFailure_sameClk (n : Nat) (e : Nat × Nat) (l : List (Nat × Nat)) :
    firstFailure ((e :: l).map fun x => (n, x.1, x.2)) = some (n, e.1, e.2) := by
  simp [firstFailure]

/-- The failures of one access whose bytes are all reached in one clk begin with what the allocation refuses. -/
theorem State.failures_refused {p at_ n m : Nat} {wr : Bool} {e : Nat × Nat} (h : s.allocGo p wr 65 at_ n = some e) :
    s.failures p [((at_, n, wr), ⟨m, 0⟩)] =
      (e :: if wr then [] else (s.badRead p at_ n).toList).map fun x => (m, x.1, x.2) := by
  simp only [State.failures, List.flatMap_cons, List.flatMap_nil, List.append_nil, h]
  rfl

theorem State.alloc_refused {p at_ n : Nat} {wr : Bool} {e : Nat × Nat} (h : s.allocGo p wr 65 at_ n = some e) :
    s.alloc p [(at_, n, wr)] = some e := by
  simp only [State.alloc, List.findSome?_cons, h]

/-- A write reads no word, so that only the allocation can refuse it (R210, R261). -/
theorem State.alloc_write {p at_ n : Nat} : s.alloc p [(at_, n, true)] = s.allocGo p true 65 at_ n := by
  simp only [State.alloc, List.findSome?_cons, List.findSome?_nil]
  cases s.allocGo p true 65 at_ n <;> rfl

/-- R210, R260: a refused access of the issue's own clk faults in that clk. -/
theorem State.checked_refused_now {p a at_ n : Nat} {wr : Bool} {k : State} {e : Nat × Nat}
    (h : s.allocGo p wr 65 at_ n = some e) : s.checked p a [(at_, n, wr)] [⟨0, 0⟩] k = s.allocFault p a e := by
  simp only [State.checked, State.alloc_refused h, List.zip_cons_cons, List.zip_nil_left, State.failures_refused h,
    firstFailure_sameClk]

/-- R210, R260: a refused access of a later clk waits for that clk as a fault. -/
theorem State.checked_refused_later {p a at_ n m : Nat} {wr : Bool} {k : State} {e : Nat × Nat}
    (h : s.allocGo p wr 65 at_ n = some e) :
    s.checked p a [(at_, n, wr)] [⟨m + 1, 0⟩] k = s.plan p [s.pendAt a 4 (m + 1) (.fail e.1 e.2)] := by
  simp only [State.checked, State.alloc_refused h, List.zip_cons_cons, List.zip_nil_left, State.failures_refused h,
    firstFailure_sameClk]

/-! ### The refusals that are due -/

/-- What a map holds at a key and not by default is listed there. -/
theorem mem_of_mget_ne {α : Type} {d : α} {k : Nat} : ∀ {m : SMap α}, mget d m k ≠ d → (k, mget d m k) ∈ m
  | [], h => absurd rfl h
  | (i, v) :: m, h => by
    unfold mget at h ⊢
    split at h
    · next hk => simp [hk]
    · next hk =>
      split at h
      · exact absurd rfl h
      · next hlt => simpa only [hk, hlt, if_false] using List.mem_cons_of_mem _ (mem_of_mget_ne h)

/-- A refusal that waits at a tile for this clk is among those the clk tells. -/
theorem State.mem_failsDue {p : Nat} {d : Pend} {cause byte : Nat} (hd : d ∈ (s.tile p).pend) (ha : d.act = .fail cause byte)
    (hdue : d.due = s.clk) : (p, d.addr, cause, byte) ∈ s.failsDue := by
  have hne : s.tile p ≠ {} := fun h => by simp [h] at hd
  refine List.mem_flatMap.mpr ⟨(p, s.tile p), mem_of_mget_ne hne, List.mem_filterMap.mpr ⟨d, hd, ?_⟩⟩
  rw [ha]
  exact if_pos hdue

end NoEffect

section Refused

variable {s : State} {t : Iss}

/-! ### WSWP, SLD and SST refused -/

/-- R128, R213: a WSWP into a bank that is still filling faults instead of the swap. -/
theorem execWswp_early (h : s.ready t 0) (hc : s.spells (.wswp t) t.tile = true)
    (hbank : (s.tile t.tile).fillBank = 1 - (s.tile t.tile).active) (hfills : s.clk < (s.tile t.tile).fillDone) :
    execWswp t s = .next (((s.issued t 0 0 []).noWrites t.tile).tileFault 2 2 t.tile (s.wordAt t.tile) 0) := by
  refine (s.issue_ready t 0 0 _ _ h hc).trans (congrArg _ (if_pos ?_))
  rw [State.issued_tile]
  exact ⟨hbank, hfills⟩

variable {sr ptr off : Nat} {e : Nat × Nat}

/-- R210, R236: SLD reads in its own clk. -/
theorem execSld_refused (h : s.ready t 5) (hc : s.spells (.sld t sr ptr off) t.tile = true)
    (he : s.allocGo t.tile false 65 (((s.tile t.tile).preg ptr + off) % 2 ^ 25) 4 = some e) :
    execSld t sr ptr off s = .next ((s.issued t 5 1 []).allocFault t.tile (s.wordAt t.tile) e) := by
  refine (s.issue_ready t 5 1 _ _ h hc).trans (congrArg _ ?_)
  rw [State.issued_preg]
  exact State.checked_refused_now ((State.allocGo_issued ..).trans he)

/-- R210, R236: SST stores in the clk after its own. -/
theorem execSst_refused (h : s.ready t 5) (hc : s.spells (.sst t sr ptr off) t.tile = true)
    (he : s.allocGo t.tile true 65 (((s.tile t.tile).preg ptr + off) % 2 ^ 25) 4 = some e) :
    execSst t sr ptr off s = .next (s.issued t 5 1 [(4, 1, .fail e.1 e.2)]) := by
  refine (s.issue_ready t 5 1 _ _ h hc).trans (congrArg _ ?_)
  rw [State.issued_preg]
  exact (State.checked_refused_later (m := 0) ((State.allocGo_issued ..).trans he)).trans (State.plan_issued rfl)

/-- A refusal that an issue plans for `n` clk later is told in that clk. -/
theorem State.issued_failsDue {r occ unit n cause byte : Nat} :
    (t.tile, s.wordAt t.tile, cause, byte) ∈
      ({ s.issued t r occ [(unit, n, .fail cause byte)] with clk := s.clk + n } : State).failsDue := by
  refine State.mem_failsDue (d := ⟨s.clk + n, s.wordAt t.tile, unit, .fail cause byte⟩) ?_ rfl rfl
  show _ ∈ ((s.issued t r occ [(unit, n, .fail cause byte)]).tile t.tile).pend
  rw [State.issued_tile]
  exact List.mem_append_right _ (List.mem_singleton_self _)

end Refused

end Sys2Proof.Machine
end

section
/-! CLAIM. The statement about an issue without effect. -/

open Sys2Proof Sys2Proof.Machine

/-- Settles O10: one lemma each says what an issue does whose predicate is not met (`State.issue_unmet`) and whose resource is
occupied (`State.issue_busy`), and a refused access faults in the clk that reaches it (`State.checked_refused_now`,
`State.checked_refused_later`, `State.issued_failsDue`). -/
theorem issueOccupiesFaultsOrIsPredicatedOff : Obligations.IssueOccupiesFaultsOrIsPredicatedOff := by
  unfold Obligations.IssueOccupiesFaultsOrIsPredicatedOff
  refine ⟨fun s t o sd sa sb table ptr inc hok hmay hunmet hfree => ?_,
    fun s t sd sa sb ptr off hok hmay => ⟨fun hc hbusy => ?_, ?_, ?_, ?_⟩⟩
  · have hoff : ∀ {c : Instr} {r occ : Nat} {eff : State → Nat → State}, s.spells c t.tile = true →
        s.issue c t r occ eff = .next (s.issued t r occ []) := State.issue_unmet hok hmay hunmet (hfree _)
    exact ⟨fun hc => show execAdd t sd sa sb s = _ from State.scalar_unmet hok hmay hunmet (hfree 5) hc,
      fun hc => show execLtld t table ptr s = _ from hoff hc, fun hc => show execMac t o s = _ from hoff hc,
      fun hc => show execTrcv t ptr inc s = _ from hoff hc, fun hc => show execWswp t s = _ from hoff hc⟩
  · show execAdd t sd sa sb s = _
    exact State.scalar_busy hok hmay hbusy hc
  · exact fun hc hmet hbank hfills => execWswp_early ⟨hok, hmay, .inl rfl, hmet⟩ hc hbank hfills
  · exact fun hc hready e he => execSld_refused hready hc he
  · exact fun hc hready e he => ⟨execSst_refused hready hc (State.alloc_write.symm.trans he), State.issued_failsDue⟩

end

section
/-! SUPPORT. The scalar unit (R205, R233 to R236): its arithmetic on 32-bit words, the registers of a tile once one act has
written one of them, and SLD and SST in the clks that follow. -/

namespace Sys2Proof.Machine

/-! ### Arithmetic -/

theorem unsignedOf_eq_toNat_ofInt (w : Nat) (x : Int) : unsignedOf w x = (BitVec.ofInt w x).toNat := by
  rw [BitVec.toNat_ofInt]
  rfl

theorem s32_toNat (a : BitVec 32) : s32 a.toNat = a.toInt := by
  rw [s32, signed_eq_toInt (by decide), BitVec.ofNat_toNat, BitVec.setWidth_eq]

theorem toNat_sub_eq_unsignedOf (a b : BitVec 32) : (a - b).toNat = unsignedOf 32 ((a.toNat : Int) - b.toNat) := by
  have ha := a.isLt
  have hb := b.isLt
  rw [BitVec.toNat_sub, unsignedOf]
  omega

theorem toNat_sshiftRight_eq_unsignedOf (a : BitVec 32) (n : Nat) :
    (a.sshiftRight n).toNat = unsignedOf 32 (s32 a.toNat / 2 ^ n) := by
  have h : a.toInt / 2 ^ n = (a.sshiftRight n).toInt := by
    rw [BitVec.toInt_sshiftRight, Int.shiftRight_eq_div_pow, Nat.cast_pow, Nat.cast_ofNat]
  rw [unsignedOf_eq_toNat_ofInt, s32_toNat, h, BitVec.ofInt_toInt]

/-- R233: the conditions of CMP and CMPI on words. -/
theorem cond_toNat (a b : BitVec 32) :
    cond 0 a.toNat b.toNat = (a == b) ∧ cond 1 a.toNat b.toNat = (a != b) ∧ cond 2 a.toNat b.toNat = a.slt b ∧
      cond 3 a.toNat b.toNat = b.sle a ∧ cond 4 a.toNat b.toNat = a.ult b ∧ cond 5 a.toNat b.toNat = b.ule a := by
  have heq : (a.toNat == b.toNat) = (a == b) := by rw [Bool.eq_iff_iff, beq_iff_eq, beq_iff_eq, BitVec.toNat_inj]
  refine ⟨heq, congrArg Bool.not heq, ?_, ?_, rfl, rfl⟩
  · rw [BitVec.slt, ← s32_toNat, ← s32_toNat]
    rfl
  · rw [BitVec.sle, ← s32_toNat, ← s32_toNat]
    rfl

/-! ### Registers -/

theorem Tile.sreg_lt (x : Tile) (r : Nat) : x.sreg r < 2 ^ 32 := by
  unfold Tile.sreg
  split
  · decide
  · exact Nat.mod_lt _ (by decide)

theorem Tile.toNat_sreg (x : Tile) (r : Nat) : (BitVec.ofNat 32 (x.sreg r)).toNat = x.sreg r :=
  Nat.mod_eq_of_lt (x.sreg_lt r)

theorem Tile.preg_lt (x : Tile) (r : Nat) : x.preg r < 2 ^ 25 := Nat.mod_lt _ (by decide)

/-- Tile `y` has the registers, the predicate flags and the data of tile `x`. -/
def Tile.keeps (y x : Tile) : Prop := y.s = x.s ∧ y.p = x.p ∧ y.pf = x.pf ∧ y.sameData x

variable {s : State} {t : Iss} {x y : Tile}

theorem Tile.sameData.refl (x : Tile) : x.sameData x := by simp [Tile.sameData]

theorem State.issued_keeps (r occ : Nat) (l : List (Nat × Nat × Act)) :
    ((s.issued t r occ l).tile t.tile).keeps (s.tile t.tile) := by
  rw [State.issued_tile]
  exact ⟨rfl, rfl, rfl, Tile.sameData.refl _⟩

theorem Tile.keeps.took (h : y.keeps x) (c : Nat) : (y.took c).keeps x := h

theorem Tile.keeps.sreg (h : y.keeps x) (r : Nat) : y.sreg r = x.sreg r := by
  obtain ⟨hs, -⟩ := h
  rw [Tile.sreg, hs, Tile.sreg]

theorem Tile.keeps.preg (h : y.keeps x) (r : Nat) : y.preg r = x.preg r := by
  obtain ⟨-, hp, -⟩ := h
  rw [Tile.preg, hp, Tile.preg]

theorem Tile.keeps.flag (h : y.keeps x) (r : Nat) : y.flag r = x.flag r := by
  obtain ⟨-, -, hpf, -⟩ := h
  rw [Tile.flag, hpf, Tile.flag]

/-- R233: a write of an s register, s0 discarding it, leaves the rest. -/
theorem Tile.keeps.setS (h : y.keeps x) (r v : Nat) :
    let z := y.setS r v
    z.sreg r = (if r = 0 then 0 else v % 2 ^ 32) ∧ (∀ q, q ≠ r → z.sreg q = x.sreg q) ∧ z.p = x.p ∧ z.pf = x.pf ∧
      z.sameData x := by
  refine ⟨(Tile.sreg_setS ..).trans (if_pos rfl), fun q hq => (Tile.sreg_setS ..).trans ((if_neg hq).trans (h.sreg q)), ?_⟩
  obtain ⟨-, hp, hpf, hd⟩ := h
  rw [Tile.setS_eq]
  exact ⟨hp, hpf, hd⟩

/-- R205: a write of a predicate flag, pf0 discarding it, leaves the rest. -/
theorem Tile.keeps.setF (h : y.keeps x) (r : Nat) (v : Bool) :
    let z := y.setF r v
    z.flag r = (if r = 0 then true else v) ∧ (∀ q, q ≠ r → z.flag q = x.flag q) ∧ z.p = x.p ∧ z.s = x.s ∧
      z.sameData x := by
  refine ⟨(Tile.flag_setF ..).trans (if_pos rfl), fun q hq => (Tile.flag_setF ..).trans ((if_neg hq).trans (h.flag q)), ?_⟩
  obtain ⟨hs, hp, -, hd⟩ := h
  rw [Tile.setF_eq]
  exact ⟨hp, hs, hd⟩

theorem Tile.keeps.setP (h : y.keeps x) (r v : Nat) :
    let z := y.setP r v
    z.preg r = v % 2 ^ 25 ∧ (∀ q, q ≠ r → z.preg q = x.preg q) ∧ z.s = x.s ∧ z.pf = x.pf ∧ z.sameData x := by
  refine ⟨(Tile.preg_setP ..).trans (if_pos rfl), fun q hq => (Tile.preg_setP ..).trans ((if_neg hq).trans (h.preg q)), ?_⟩
  obtain ⟨hs, -, hpf, hd⟩ := h
  exact ⟨hs, hpf, hd⟩

/-! ### Results of clk t -/

section Scalar

variable {c : Instr} {f : Tile → Act} {a : Act} {sd : Nat}

/-- R236: a scalar instruction's act, which writes its tile alone, is made in its clk. -/
theorem State.scalar_run (hr : s.ready t 5) (hq : s.quiet t.tile) (hc : s.spells c t.tile = true)
    (hf : f ((s.issued t 5 1 []).tile t.tile) = a) (ha : a.inTile = true) :
    ∃ u y, s.scalar c t f = .next u ∧ y.keeps (s.tile t.tile) ∧ s.With t.tile s.clk (a.onTile y) (u.run t.tile 0) := by
  refine ⟨s.issued t 5 1 [(3, 0, a)], _, (s.issue_ready t 5 1 _ _ hr hc).trans (congrArg _ (State.plan_issued ?_)),
    (State.issued_keeps 5 1 [(3, 0, a)]).took s.clk,
    hq.run_now (a := [(3, 0, a)]) (by simpa using ha) (clashes_of_kinds (List.nodup_singleton _))⟩
  rw [hf]
  rfl

theorem State.scalar_writesS {v : BitVec 32} (hr : s.ready t 5) (hq : s.quiet t.tile) (hc : s.spells c t.tile = true)
    (hf : f ((s.issued t 5 1 []).tile t.tile) = .sreg sd v.toNat) : writesS s t.tile sd v (s.scalar c t f) := by
  obtain ⟨u, y, hu, hy, h⟩ := State.scalar_run hr hq hc hf rfl
  refine ⟨u, hu, h.onlyTile, ?_⟩
  have hset := hy.setS sd v.toNat
  rw [Nat.mod_eq_of_lt v.isLt] at hset
  rw [h.tile]
  exact hset

theorem State.scalar_writesF {v : Bool} (hr : s.ready t 5) (hq : s.quiet t.tile) (hc : s.spells c t.tile = true)
    (hf : f ((s.issued t 5 1 []).tile t.tile) = .pflag sd v) : writesF s t.tile sd v (s.scalar c t f) := by
  obtain ⟨u, y, hu, hy, h⟩ := State.scalar_run hr hq hc hf rfl
  refine ⟨u, hu, h.onlyTile, ?_⟩
  rw [h.tile]
  exact hy.setF sd v

theorem State.scalar_writesP {v : BitVec 25} (hr : s.ready t 5) (hq : s.quiet t.tile) (hc : s.spells c t.tile = true)
    (hf : f ((s.issued t 5 1 []).tile t.tile) = .preg sd v.toNat) : writesP s t.tile sd v (s.scalar c t f) := by
  obtain ⟨u, y, hu, hy, h⟩ := State.scalar_run hr hq hc hf rfl
  refine ⟨u, hu, h.onlyTile, ?_⟩
  have hset := hy.setP sd v.toNat
  rw [Nat.mod_eq_of_lt v.isLt] at hset
  rw [h.tile]
  exact hset

end Scalar

/-! ### SLD and SST -/

section Memory

variable {sr ptr off at_ : Nat}

theorem leNat_lt : ∀ l : List Nat, leNat l < 256 ^ l.length
  | [] => Nat.one_pos
  | b :: l => by
    have := leNat_lt l
    rw [leNat, List.length_cons, Nat.pow_succ]
    omega

/-- R236: SLD reads in clk t. -/
theorem execSld_ready (hr : s.ready t 5) (hc : s.spells (.sld t sr ptr off) t.tile = true)
    (hat : at_ = ((s.tile t.tile).preg ptr + off) % 2 ^ 25) (hal : s.alloc t.tile [(at_, 4, false)] = none) :
    execSld t sr ptr off s = .next (s.issued t 5 1 [(3, 2, .sreg sr (leNat (s.sram t.tile at_ 4)))]) := by
  subst hat
  refine (s.issue_ready t 5 1 _ _ hr hc).trans (congrArg _ ?_)
  simp only [State.issued_preg, State.issued_sram]
  exact State.checked_plan_issued hal rfl

/-- R236: an s register that an issue plans to write in clk t + 2 holds its value until then. -/
theorem State.quiet.run_sreg (hq : s.quiet t.tile) (r occ sd v : Nat) :
    let u := s.issued t r occ [(3, 2, .sreg sd v)]
    s.With t.tile (s.clk + 1) (u.tile t.tile) (u.run t.tile 1) ∧
      s.With t.tile (s.clk + 2) (((u.tile t.tile).took (s.clk + 2)).setS sd v) (u.run t.tile 2) := by
  intro u
  have h0 : s.With t.tile s.clk (u.tile t.tile) (u.run t.tile 0) := State.issued_with.idle (hq.due 0)
  have h1 : s.With t.tile (s.clk + 1) (u.tile t.tile) (u.run t.tile 1) := h0.run_idle (hq.due 1)
  exact ⟨h1, h1.run_tick (hq.due 2) (State.planned_inTile (by simp [Act.inTile]))
    (clashes_of_kinds (List.nodup_singleton _)) (hq.noWrite (n := 2))⟩

/-- R236: SLD's register, in clk t + 2. -/
theorem execSld_loads (hr : s.ready t 5) (hq : s.quiet t.tile) (hc : s.spells (.sld t sr ptr off) t.tile = true)
    (hat : at_ = ((s.tile t.tile).preg ptr + off) % 2 ^ 25) (hal : s.alloc t.tile [(at_, 4, false)] = none) :
    ∃ u, execSld t sr ptr off s = .next u ∧
      let x := s.tile t.tile
      let y := (u.run t.tile 2).tile t.tile
      onlyTile s (u.run t.tile 2) t.tile ∧ y.sreg sr = (if sr = 0 then 0 else leNat (s.sram t.tile at_ 4)) ∧
        (∀ r, r ≠ sr → y.sreg r = x.sreg r) ∧ y.p = x.p ∧ y.pf = x.pf ∧ y.sameData x ∧
        ((u.run t.tile 1).tile t.tile).s = x.s := by
  obtain ⟨hwait, hrun⟩ := hq.run_sreg 5 1 sr (leNat (s.sram t.tile at_ 4))
  have hkeeps := State.issued_keeps (s := s) (t := t) 5 1 [(3, 2, .sreg sr (leNat (s.sram t.tile at_ 4)))]
  have ⟨hs, _⟩ := hkeeps
  have hword : leNat (s.sram t.tile at_ 4) < 2 ^ 32 := (leNat_lt _).trans_eq (by rw [State.sram_length]; rfl)
  obtain ⟨hval, hothers, hp, hpf, hdata⟩ := (hkeeps.took (s.clk + 2)).setS sr (leNat (s.sram t.tile at_ 4))
  rw [Nat.mod_eq_of_lt hword] at hval
  refine ⟨_, execSld_ready hr hc hat hal, ?_⟩
  rw [hwait.tile, hrun.tile]
  exact ⟨hrun.onlyTile, hval, hothers, hp, hpf, hdata, hs⟩

/-- R236: SST stores in clk t + 1. -/
theorem execSst_ready (hr : s.ready t 5) (hc : s.spells (.sst t sr ptr off) t.tile = true)
    (hat : at_ = ((s.tile t.tile).preg ptr + off) % 2 ^ 25) (hal : s.alloc t.tile [(at_, 4, true)] = none) :
    execSst t sr ptr off s = .next (s.issued t 5 1 [(3, 1, .sram at_ (leBytes 4 ((s.tile t.tile).sreg sr)))]) := by
  subst hat
  refine (s.issue_ready t 5 1 _ _ hr hc).trans (congrArg _ ?_)
  simp only [State.issued_preg, State.issued_sreg]
  exact State.checked_plan_issued hal rfl

/-- What a map holds at a key and not by default stays when it is written there again. -/
theorem mset_mget_self {α : Type} [DecidableEq α] {d : α} {k : Nat} {m : SMap α} (h : mget d m k ≠ d) :
    mset d m k (mget d m k) = m := by
  rw [mset, if_neg h]
  induction m with
  | nil => exact absurd rfl h
  | cons e m ih =>
    unfold mget at h ⊢
    unfold mput
    split
    · next hk => rw [hk]
    · next hk =>
      rw [if_neg hk] at h
      split
      · next hl => exact absurd (if_pos hl) h
      · next hl =>
        rw [if_neg hl] at h
        rw [ih h]

/-- R261: fewer bytes than the eight of a word replace no word. -/
theorem State.freshWords_short {n : Nat} (s : State) (p a : Nat) (hn : n < 8) : s.freshWords p a n = s := by
  have hall : (mget [] s.tend.badWords p).filter
      (fun w => !(decide (a ≤ 8 * w) && decide (8 * w + 8 ≤ a + n))) = mget [] s.tend.badWords p :=
    List.filter_eq_self.mpr fun w _ => by
      rw [Bool.not_eq_true', Bool.and_eq_false_iff, decide_eq_false_iff_not, decide_eq_false_iff_not]
      omega
  unfold State.freshWords
  split
  · rfl
  · next h =>
    simp only [hall]
    rw [mset_mget_self fun he => h (by rw [he]; rfl)]

/-- R236: fewer than eight bytes that an issue plans to store in clk t + 1 change, beside the tile, those bytes alone. -/
theorem State.quiet.run_sram (hq : s.quiet t.tile) (r occ a : Nat) (bs : List Nat) (hbs : bs.length < 8) :
    let u := s.issued t r occ [(3, 1, .sram a bs)]
    ∃ v, s.With t.tile (s.clk + 1) ((u.tile t.tile).took (s.clk + 1)) v ∧
      u.run t.tile 1 = v.write (sramBase t.tile + a) bs := by
  intro u
  have h0 : s.With t.tile s.clk (u.tile t.tile) (u.run t.tile 0) := State.issued_with.idle (hq.due 0)
  have h1 := h0.next
  refine ⟨_, h1.setTile _, ?_⟩
  rw [State.run_last, State.tickTile_write (x := ⟨s.clk + 1, s.wordAt t.tile, 3, .sram a bs⟩) ?_ rfl ?_]
  · show State.freshWords _ _ _ _ = _
    rw [State.freshWords_short _ _ _ hbs, h1.tile, h1.clk]
    rfl
  · rw [h1.tile, h1.clk]
    exact hq.due 1
  · rw [h1.tile, h1.clk]
    exact hq.noWrite

theorem stores_writeBytes (m : List Host.Cell) (a : Nat) (bytes : List Byte) :
    stores m (writeBytes m a (bytes.map fun b => b.toNat)) a bytes := by
  refine ⟨fun i hi => ?_, fun b hb => readByte_writeBytes_out _ _ _ _ (by simpa using hb)⟩
  rw [readByte_writeBytes_in _ _ _ _ (by simpa using hi)]
  simp

/-- The bytes of a word, the lowest first. -/
theorem leBytes_toNat (a : BitVec 32) : leBytes 4 a.toNat =
    [a.extractLsb' 0 8, a.extractLsb' 8 8, a.extractLsb' 16 8, a.extractLsb' 24 8].map fun b => b.toNat := by
  simp [leBytes, BitVec.extractLsb'_toNat, Nat.shiftRight_eq_div_pow, Nat.div_div_eq_div_mul]

/-- R236: SST's bytes, in clk t + 1. -/
theorem execSst_stores (hr : s.ready t 5) (hq : s.quiet t.tile) (hc : s.spells (.sst t sr ptr off) t.tile = true)
    (hat : at_ = ((s.tile t.tile).preg ptr + off) % 2 ^ 25) (hal : s.alloc t.tile [(at_, 4, true)] = none) :
    ∃ u, execSst t sr ptr off s = .next u ∧
      let a := BitVec.ofNat 32 ((s.tile t.tile).sreg sr)
      let x := s.tile t.tile
      let v := u.run t.tile 1
      let y := v.tile t.tile
      onlyTileMem s v t.tile ∧
        stores s.mem v.mem (sramBase t.tile + at_)
          [a.extractLsb' 0 8, a.extractLsb' 8 8, a.extractLsb' 16 8, a.extractLsb' 24 8] ∧
        y.s = x.s ∧ y.p = x.p ∧ y.pf = x.pf ∧ y.sameData x := by
  obtain ⟨v, hv, hrun⟩ := hq.run_sram 5 1 at_ (leBytes 4 ((s.tile t.tile).sreg sr)) (by rw [length_leBytes]; decide)
  have hkeeps := State.issued_keeps (s := s) (t := t) 5 1 [(3, 1, .sram at_ (leBytes 4 ((s.tile t.tile).sreg sr)))]
  refine ⟨_, execSst_ready hr hc hat hal, ?_⟩
  rw [hrun]
  intro a x w y
  refine ⟨⟨congrArg (fun u : State => { u with mem := s.mem }) hv.same, hv.others⟩, ?_, ?_⟩
  · show stores s.mem (writeBytes v.mem _ _) _ _
    rw [hv.mem, ← x.toNat_sreg sr, leBytes_toNat]
    exact stores_writeBytes ..
  · show (v.tile t.tile).keeps x
    rw [hv.tile]
    exact hkeeps.took _

end Memory

end Sys2Proof.Machine
end

section
/-! CLAIM. The statement about the scalar instructions. -/

open Sys2Proof Sys2Proof.Machine

/-- Settles O9: a quiet tile makes the one act of a scalar instruction in its clk (`State.scalar_run`), which writes one register
(`State.scalar_writesS`, `State.scalar_writesF`, `State.scalar_writesP`); SLD's value waits two clk for its register
(`State.quiet.run_sreg`), and SST's bytes, which replace no word of check bits, one (`State.quiet.run_sram`). -/
theorem scalarInstructionsCompute : Obligations.ScalarInstructionsCompute := by
  unfold Obligations.ScalarInstructionsCompute
  intro s t sd sa sb imm ptr off hr hq x a b i here W F P at_
  have hy := State.issued_keeps (s := s) (t := t) 5 1 []
  have ha : ((s.issued t 5 1 []).tile t.tile).sreg sa = a.toNat := (hy.sreg sa).trans (x.toNat_sreg sa).symm
  have hb : ((s.issued t 5 1 []).tile t.tile).sreg sb = b.toNat := (hy.sreg sb).trans (x.toNat_sreg sb).symm
  have hxb : x.sreg sb = b.toNat := (x.toNat_sreg sb).symm
  have hi : imm % 2 ^ 32 = i.toNat := rfl
  have hf : ∀ r, ((s.issued t 5 1 []).tile t.tile).flag r = x.flag r := hy.flag
  have hp : ∀ r, ((s.issued t 5 1 []).tile t.tile).preg r = x.preg r := hy.preg
  obtain ⟨heq, hne, hslt, hsle, hult, hule⟩ := cond_toNat a b
  obtain ⟨heqi, hnei, hslti, hslei, hulti, hulei⟩ := cond_toNat a i
  refine ⟨⟨fun hc => ?_, fun hc => ?_, fun hc => ?_, fun hc => ?_, fun hc => ?_, fun hc => ?_, fun hc => ?_, fun hc => ?_,
    fun hc => ?_, fun hc => ?_⟩, ?_, ?_, ?_, ?_⟩
  · exact show writesS _ _ _ _ (execAdd t sd sa sb s) from
      State.scalar_writesS hr hq hc (by rw [ha, hb, BitVec.toNat_add])
  · exact show writesS _ _ _ _ (execSub t sd sa sb s) from
      State.scalar_writesS hr hq hc (by rw [ha, hb, toNat_sub_eq_unsignedOf])
  · exact show writesS _ _ _ _ (execAndR t sd sa sb s) from
      State.scalar_writesS hr hq hc (by rw [ha, hb, BitVec.toNat_and])
  · exact show writesS _ _ _ _ (execOrR t sd sa sb s) from
      State.scalar_writesS hr hq hc (by rw [ha, hb, BitVec.toNat_or])
  · exact show writesS _ _ _ _ (execXorR t sd sa sb s) from
      State.scalar_writesS hr hq hc (by rw [ha, hb, BitVec.toNat_xor])
  · exact show writesS _ _ _ _ (execShl t sd sa sb s) from
      State.scalar_writesS hr hq hc (by rw [ha, hb, hxb, BitVec.toNat_shiftLeft, Nat.shiftLeft_eq])
  · exact show writesS _ _ _ _ (execShr t sd sa sb s) from
      State.scalar_writesS hr hq hc (by rw [ha, hb, hxb, BitVec.toNat_ushiftRight, Nat.shiftRight_eq_div_pow])
  · exact show writesS _ _ _ _ (execSra t sd sa sb s) from
      State.scalar_writesS hr hq hc (by rw [ha, hb, hxb, toNat_sshiftRight_eq_unsignedOf])
  · exact show writesS _ _ _ _ (execAddi t sd sa imm s) from
      State.scalar_writesS hr hq hc (by rw [ha, BitVec.toNat_add, ← hi, Nat.add_mod_mod])
  · exact show writesS _ _ _ _ (execMovi t sd imm s) from State.scalar_writesS hr hq hc rfl
  · have hcmp : ∀ {k : Nat} {v : Bool}, Machine.cond k a.toNat b.toNat = v → F v (.cmp t sd k sa sb) := fun {k v} hv hc =>
      show writesF _ _ _ _ (execCmp t sd k sa sb s) from State.scalar_writesF hr hq hc (by rw [ha, hb, hv])
    have hcmpi : ∀ {k : Nat} {v : Bool}, Machine.cond k a.toNat i.toNat = v → F v (.cmpi t sd k sa imm) := fun {k v} hv hc =>
      show writesF _ _ _ _ (execCmpi t sd k sa imm s) from State.scalar_writesF hr hq hc (by rw [ha, hi, hv])
    have hpfop : ∀ {k : Nat} {v : Bool}, pfopOf k (x.flag sa) (x.flag sb) = v → F v (.pfop t sd sa sb k) := fun {k v} hv hc =>
      show writesF _ _ _ _ (execPfop t sd sa sb k s) from State.scalar_writesF hr hq hc (by rw [hf, hf, hv])
    exact ⟨hcmp heq, hcmp hne, hcmp hslt, hcmp hsle, hcmp hult, hcmp hule, hcmpi heqi, hcmpi hnei, hcmpi hslti, hcmpi hslei,
      hcmpi hulti, hcmpi hulei, hpfop rfl, hpfop rfl, hpfop rfl, hpfop rfl⟩
  · refine ⟨fun hc => ?_, fun hc => ?_, fun hc => ?_, fun hc => ?_, fun hc => ?_⟩
    · exact show writesP _ _ _ _ (execPset t sd imm s) from State.scalar_writesP hr hq hc rfl
    · exact show writesP _ _ _ _ (execPadd t sd sa true sb imm s) from
        State.scalar_writesP hr hq hc (by rw [hp, hb, ← hxb]; rfl)
    · exact show writesP _ _ _ _ (execPadd t sd sa false sb imm s) from State.scalar_writesP hr hq hc (by rw [hp]; rfl)
    · exact show writesP _ _ _ _ (execPmov t true sa sd s) from State.scalar_writesP hr hq hc (by rw [hy.sreg]; rfl)
    · refine show writesS _ _ _ _ (execPmov t false sd sa s) from State.scalar_writesS hr hq hc ?_
      rw [hp, BitVec.toNat_ofNat, Nat.mod_eq_of_lt ((x.preg_lt sa).trans (by decide))]
      rfl
  · exact fun hc hal => execSld_loads hr hq hc rfl hal
  · exact fun hc hal => execSst_stores hr hq hc rfl hal

end

section
/-! SUPPORT. Marks at the ridge (R251, R290): two for one score in one clk, and the rows that sort a mark alone. -/

namespace Sys2Proof.Machine

section Marks

variable {s : State} {p : Nat} {m x : MarkRec}

/-- `s` without the marks of which `f` holds. -/
def State.dropMarks (s : State) (f : MarkRec → Bool) : State :=
  { s with dec := { s.dec with marks := s.dec.marks.filter fun y => !f y } }

/-- R251: of two marks the fault names the lower tile, and the other in its detail. -/
theorem State.markClash_pair (s : State) (hx : x.tile ≠ m.tile) (hscore : x.score = m.score) :
    s.markClash [m, x] (lowestMark m [x]) =
      s.tileFault 6 10 (if x.tile < m.tile then x else m).tile (if x.tile < m.tile then x else m).addr
        (loc 1 (if x.tile < m.tile then m.tile else x.tile) + 2 ^ 16 * m.score) := by
  have hm : m.tile ≠ x.tile := hx.symm
  by_cases h : x.tile < m.tile <;> simp [State.markClash, lowestMark, h, hx, hm, hscore]

theorem execMarkArrival_clash (hok : tileOk s.grade p = true)
    (hm : s.dec.marks.find? (fun x => s.markDue x && x.tile == p) = some m)
    (hx : s.dec.marks.filter (fun y => s.markDue y && y.score == m.score && y.tile != p) = [x]) :
    execMarkArrival p s =
      .next ((s.dropMarks fun y => s.markDue y && y.score == m.score).tileFault 6 10 (if x.tile < p then x else m).tile
        (if x.tile < p then x else m).addr (loc 1 (if x.tile < p then p else x.tile) + 2 ^ 16 * m.score)) := by
  have hp := List.find?_some hm
  have hmem := List.mem_filter.mp (hx ▸ List.mem_singleton_self x)
  simp only [Bool.and_eq_true, beq_iff_eq, bne_iff_ne] at hp hmem
  obtain ⟨-, rfl⟩ := hp
  obtain ⟨-, ⟨-, hscore⟩, htile⟩ := hmem
  unfold execMarkArrival
  simp only [hok, if_true, hm, hx]
  exact congrArg _ (State.markClash_pair _ htile hscore)

theorem execMarkArrival_alone (hok : tileOk s.grade p = true)
    (hm : s.dec.marks.find? (fun x => s.markDue x && x.tile == p) = some m)
    (h : ∀ x ∈ s.dec.marks, ¬ (s.markDue x = true ∧ x.tile ≠ p ∧ x.score = m.score)) :
    execMarkArrival p s = .next ((s.dropMarks fun x => x == m).sortMark m) := by
  have hnone : s.dec.marks.filter (fun x => s.markDue x && x.score == m.score && x.tile != p) = [] :=
    List.filter_eq_nil_iff.mpr fun x hx hdue => by
      simp only [Bool.and_eq_true, beq_iff_eq, bne_iff_ne] at hdue
      obtain ⟨⟨hdue, hscore⟩, htile⟩ := hdue
      exact h x hx ⟨hdue, htile, hscore⟩
  unfold execMarkArrival
  simp only [hok, if_true, hm, hnone]
  rfl

theorem State.sortMark_discarded (h : s.job.bound = false ∨ s.running = false ∨ frameIndex s.job.n0 m.frame < 0) :
    s.sortMark m = s := by
  refine if_pos ?_
  simpa [or_assoc] using h

/-- R290: the rows of a mark of frame index `n`, in their order. -/
theorem State.sortMark_rows (hb : s.job.bound = true) (hr : s.running = true) {n : Nat} (hi : frameIndex s.job.n0 m.frame = n) :
    s.sortMark m =
      if s.job.s0 + n * s.F + s.E + 7 ≤ s.clk ∧ s.frameVoid n = true then s
      else if s.e0 n ≤ s.clk then s.markFault 1 m
      else if s.nextFrame + 64 ≤ n then s.markFault 2 m
      else if (s.score n m.score).isSome = true then s.markFault 3 m
      else { s with dec := { s.dec with scores := mset none s.dec.scores (1024 * n + m.score) (some m.value) } } := by
  unfold State.sortMark
  simp [hb, hr, hi]

end Marks

end Sys2Proof.Machine
end

section
/-! SUPPORT. The ridge's evaluation (R292, R295): one seed, the seeds in their order, and what a clk e0(n) leaves. -/

namespace Sys2Proof.Machine

/-! ### Bits -/

theorem bit_eq_testBit (v i : Nat) : bit v i = v.testBit i := by
  rw [bit, Nat.testBit_eq_decide_div_mod_eq]
  rfl

theorem bit_lor (a b i : Nat) : bit (a ||| b) i = (bit a i || bit b i) := by
  rw [bit_eq_testBit, Nat.testBit_or, bit_eq_testBit, bit_eq_testBit]

section Seeds

variable {s t u : State} {n d : Nat}

/-! ### One seed -/

/-- The classes of seed `d`. -/
def State.seedClasses (s : State) (d : Nat) : Nat := s.fld (key (0x2A00 + d) 9) seed_class_mask

/-- `t` reads seed `d` and the scores as `s` does: its thresholds, comparisons and combination, and how far it is from its
prescale. -/
structure State.SameSeed (s t : State) (d : Nat) : Prop where
  scores : t.dec.scores = s.dec.scores
  ent : ∀ j, j ≤ 9 → t.ent (key (0x2A00 + d) j) = s.ent (key (0x2A00 + d) j)
  count : t.ent (key (0x2A00 + d) 12) = s.ent (key (0x2A00 + d) 12)

theorem State.SameSeed.fld (h : s.SameSeed t d) {j : Nat} (hj : j ≤ 9) (f : Fld) :
    t.fld (key (0x2A00 + d) j) f = s.fld (key (0x2A00 + d) j) f := congrArg f.of (h.ent j hj)

theorem State.SameSeed.compare (h : s.SameSeed t d) {i : Nat} (hi : i ≤ 4) : t.compare d i n = s.compare d i n := by
  have hfld : ∀ f, t.fld (key (0x2A00 + d) (4 + i)) f = s.fld (key (0x2A00 + d) (4 + i)) f := h.fld (by omega)
  have hscore : ∀ x, t.score n x = s.score n x := fun x => congrArg (mget none · (1024 * n + x)) h.scores
  unfold State.compare State.flag
  dsimp only
  rw [hfld, hfld, hfld, hscore, h.ent i (by omega)]

theorem State.SameSeed.fires (h : s.SameSeed t d) : t.seedFires n d ↔ s.seedFires n d := by
  simp only [State.seedFires, State.flag, h.fld le_rfl, h.compare (i := 1) (by decide), h.compare (i := 2) (by decide),
    h.compare (i := 3) (by decide), h.compare (i := 4) le_rfl]

theorem State.SameSeed.accepts (h : s.SameSeed t d) : t.seedAccepts n d ↔ s.seedAccepts n d := by
  simp only [State.seedAccepts, h.fires, h.count, h.fld le_rfl]

theorem State.SameSeed.classes (h : s.SameSeed t d) : t.seedClasses d = s.seedClasses d := h.fld le_rfl _

/-- The entries that the evaluation of seed `d` writes: its counts of fires and of accepts, and its prescale count. -/
def seedCount (d k : Nat) : Prop := k = key (0x2A00 + d) 10 ∨ k = key (0x2A00 + d) 11 ∨ k = key (0x2A00 + d) 12

/-- `u` is `s` but for its dictionary. -/
def onlyDict (s u : State) : Prop := { u with dict := s.dict } = s

theorem onlyDict.trans (h : onlyDict s t) (h' : onlyDict t u) : onlyDict s u := by
  have h'' := congrArg (fun v : State => { v with dict := s.dict }) h'
  exact Eq.trans h'' h

theorem onlyDict.dec (h : onlyDict s u) : u.dec = s.dec := by
  have := congrArg State.dec h
  exact this

theorem onlyDict.setEnt (h : onlyDict s u) (k v : Nat) : onlyDict s (u.setEnt k v) :=
  h.trans (show onlyDict u (u.setEnt k v) from rfl)

theorem onlyDict.bump (h : onlyDict s u) (k : Nat) (f : Fld) : onlyDict s (u.bump k f) := h.setEnt k _

/-- What the evaluation of seed `d` does (R292): a seed that does not fire adds no class; one that fires is counted and adds its
classes to the raw ones, and to the accepted ones where its prescale count is reached, which then starts again. -/
structure State.SeedDone (s : State) (n d : Nat) (acc : Nat × Nat × Nat) (r : State × Nat × Nat × Nat) : Prop where
  same : onlyDict s r.1
  other : ∀ k, k ≠ key 0x2800 7 → (s.seedFires n d → ¬ seedCount d k) → r.1.ent k = s.ent k
  reset : s.seedAccepts n d → r.1.ent (key (0x2A00 + d) 12) = 0
  accept : ∀ c, bit r.2.1 c = true ↔ bit acc.1 c = true ∨ s.seedAccepts n d ∧ bit (s.seedClasses d) c = true
  raw : ∀ c, bit r.2.2.1 c = true ↔ bit acc.2.1 c = true ∨ s.seedFires n d ∧ bit (s.seedClasses d) c = true

/-- The unmarked scores that seed `d` compares. -/
def State.unmarked (s : State) (n d : Nat) : Nat :=
  (((List.range 4).map fun i => s.compare d (i + 1) n).map Prod.snd).sum

/-- `s` once the unmarked scores of seed `d` are counted (R292). -/
def State.unmarkedCounted (s : State) (n d : Nat) : State := s.bumpBy (key 0x2800 7) cnt48 (s.unmarked n d)

theorem State.unmarkedCounted_ent {k : Nat} (hk : k ≠ key 0x2800 7) : (s.unmarkedCounted n d).ent k = s.ent k :=
  State.setFld_ent_other _ _ _ _ _ hk

theorem seedKey_ne (d j : Nat) (hj : j < 256) : key (0x2A00 + d) j ≠ key 0x2800 7 := by
  unfold key
  omega

theorem State.unmarkedCounted_sameSeed : s.SameSeed (s.unmarkedCounted n d) d where
  scores := rfl
  ent j hj := State.unmarkedCounted_ent (seedKey_ne d j (by omega))
  count := State.unmarkedCounted_ent (seedKey_ne d 12 (by decide))

theorem State.evalSeed_disabled {acc : Nat × Nat × Nat} (h : s.flag (key (0x2A00 + d) 9) seed_seed_enable = false) :
    s.evalSeed n acc d = (s, acc) := by
  simp [State.evalSeed, h]

/-- `s` once seed `d` is counted as fired, too. -/
def State.fireCounted (s : State) (n d : Nat) : State := (s.unmarkedCounted n d).bump (key (0x2A00 + d) 10) cnt48

theorem State.fireCounted_ent {k : Nat} (hk : k ≠ key 0x2800 7) (hk' : k ≠ key (0x2A00 + d) 10) :
    (s.fireCounted n d).ent k = s.ent k :=
  (State.setFld_ent_other _ _ _ _ _ hk').trans (State.unmarkedCounted_ent hk)

theorem seedSub_ne (d : Nat) {i j : Nat} (h : i ≠ j) : key (0x2A00 + d) i ≠ key (0x2A00 + d) j := by
  unfold key
  omega

theorem State.fireCounted_onlyDict : onlyDict s (s.fireCounted n d) :=
  (show onlyDict s (s.unmarkedCounted n d) from rfl).bump _ _

theorem State.fireCounted_sameSeed : s.SameSeed (s.fireCounted n d) d where
  scores := rfl
  ent j hj := State.fireCounted_ent (seedKey_ne d j (by omega)) (seedSub_ne d (by omega))
  count := State.fireCounted_ent (seedKey_ne d 12 (by decide)) (seedSub_ne d (by decide))

/-- The prescale count that seed `d` reaches by firing. -/
def State.prescaled (s : State) (d : Nat) : Nat := s.ent (key (0x2A00 + d) 12) + 1

theorem State.evalSeed_enabled (acc : Nat × Nat × Nat) (h : s.flag (key (0x2A00 + d) 9) seed_seed_enable = true) :
    s.evalSeed n acc d =
      if combineSeed (s.fld (key (0x2A00 + d) 9) seed_combine) (s.compare d 1 n).1 (s.compare d 2 n).1 (s.compare d 3 n).1
          (s.compare d 4 n).1 = true then
        if s.prescaled d = s.fld (key (0x2A00 + d) 9) seed_prescale then
          (((s.fireCounted n d).setEnt (key (0x2A00 + d) 12) 0).bump (key (0x2A00 + d) 11) cnt48, acc.1 ||| s.seedClasses d,
            acc.2.1 ||| s.seedClasses d, acc.2.2 + 2 ^ d)
        else ((s.fireCounted n d).setEnt (key (0x2A00 + d) 12) (s.prescaled d), acc.1, acc.2.1 ||| s.seedClasses d,
          acc.2.2 + 2 ^ d)
      else (s.unmarkedCounted n d, acc) := by
  have ht : s.SameSeed (s.unmarkedCounted n d) d := State.unmarkedCounted_sameSeed
  have hv : s.SameSeed (s.fireCounted n d) d := State.fireCounted_sameSeed
  have hprescaled : (s.fireCounted n d).prescaled d = s.prescaled d := congrArg (· + 1) hv.count
  rw [← hprescaled, ← ht.classes, ← ht.fld le_rfl, ← hv.fld le_rfl seed_prescale]
  exact if_pos h

theorem State.seedFires_of_enabled (h : s.flag (key (0x2A00 + d) 9) seed_seed_enable = true) :
    s.seedFires n d ↔ combineSeed (s.fld (key (0x2A00 + d) 9) seed_combine) (s.compare d 1 n).1 (s.compare d 2 n).1
      (s.compare d 3 n).1 (s.compare d 4 n).1 = true := and_iff_right h

/-- A seed that does not fire only counts its unmarked scores. -/
theorem State.SeedDone.unfired {acc : Nat × Nat × Nat} (h : ¬ s.seedFires n d) (same : onlyDict s u)
    (other : ∀ k, k ≠ key 0x2800 7 → u.ent k = s.ent k) : s.SeedDone n d acc (u, acc) where
  same := same
  other k hk _ := other k hk
  reset ha := absurd ha.1 h
  accept _ := ⟨.inl, fun hc => hc.resolve_right fun ha => h ha.1.1⟩
  raw _ := ⟨.inl, fun hc => hc.resolve_right fun ha => h ha.1⟩

theorem State.evalSeed_done (s : State) (n d : Nat) (acc : Nat × Nat × Nat) : s.SeedDone n d acc (s.evalSeed n acc d) := by
  cases hon : s.flag (key (0x2A00 + d) 9) seed_seed_enable
  · rw [State.evalSeed_disabled hon]
    exact .unfired (fun hf => Bool.false_ne_true (hon.symm.trans hf.1)) rfl fun _ _ => rfl
  rw [State.evalSeed_enabled _ hon]
  split
  case isFalse hoff =>
    exact .unfired (fun hf => hoff ((State.seedFires_of_enabled hon).mp hf)) rfl fun _ => State.unmarkedCounted_ent
  next hcombined =>
    have hf : s.seedFires n d := (State.seedFires_of_enabled hon).mpr hcombined
    split
    · next hreached =>
      have ha : s.seedAccepts n d := ⟨hf, hreached⟩
      refine ⟨(State.fireCounted_onlyDict.setEnt _ _).bump _ _, fun k hk hno => ?_, fun _ => ?_, fun c => ?_, fun c => ?_⟩
      · obtain ⟨h10, h11, h12⟩ := not_or.mp (hno hf) |>.imp_right not_or.mp
        exact (State.setFld_ent_other _ _ _ _ _ h11).trans ((State.setEnt_ent_other _ _ _ _ h12).trans
          (State.fireCounted_ent hk h10))
      · exact (State.setFld_ent_other _ _ _ _ _ (seedSub_ne d (by decide))).trans (State.setEnt_ent_same _ _ _)
      · simp [bit_lor, ha]
      · simp [bit_lor, hf]
    · next hbelow =>
      have ha : ¬ s.seedAccepts n d := fun ha => hbelow ha.2
      refine ⟨State.fireCounted_onlyDict.setEnt _ _, fun k hk hno => ?_, fun h => absurd h ha, fun c => ?_, fun c => ?_⟩
      · obtain ⟨h10, -, h12⟩ := not_or.mp (hno hf) |>.imp_right not_or.mp
        exact (State.setEnt_ent_other _ _ _ _ h12).trans (State.fireCounted_ent hk h10)
      · simp [ha]
      · simp [bit_lor, hf]

/-! ### The seeds in their order -/

/-- `r` is what the evaluation of the seeds before `m` has made of `s`. -/
structure State.Evaluated (s : State) (n m : Nat) (r : State × Nat × Nat × Nat) : Prop where
  same : onlyDict s r.1
  other : ∀ k, k ≠ key 0x2800 7 → (∀ d, d < m → s.seedFires n d → ¬ seedCount d k) → r.1.ent k = s.ent k
  reset : ∀ d, d < m → s.seedAccepts n d → r.1.ent (key (0x2A00 + d) 12) = 0
  accept : ∀ c, bit r.2.1 c = true ↔ ∃ d, d < m ∧ s.seedAccepts n d ∧ bit (s.seedClasses d) c = true
  raw : ∀ c, bit r.2.2.1 c = true ↔ ∃ d, d < m ∧ s.seedFires n d ∧ bit (s.seedClasses d) c = true

/-- The counts of a seed are not among another's words. -/
theorem not_seedCount_of_ne {e j : Nat} (h : e ≠ d) (hj : j < 256) : ¬ seedCount e (key (0x2A00 + d) j) := by
  unfold seedCount key
  omega

theorem State.Evaluated.sameSeed {m : Nat} {r : State × Nat × Nat × Nat} (h : s.Evaluated n m r) (hd : m ≤ d) :
    s.SameSeed r.1 d := by
  have hent : ∀ j, j < 256 → r.1.ent (key (0x2A00 + d) j) = s.ent (key (0x2A00 + d) j) := fun j hj =>
    h.other _ (seedKey_ne d j hj) fun e he _ => not_seedCount_of_ne (by omega) hj
  exact ⟨congrArg Dec.scores h.same.dec, fun j hj => hent j (by omega), hent 12 (by decide)⟩

theorem State.Evaluated.next {m : Nat} {r : State × Nat × Nat × Nat} (h : s.Evaluated n m r) :
    s.Evaluated n (m + 1) (r.1.evalSeed n r.2 m) := by
  have hs := h.sameSeed le_rfl
  obtain ⟨same, other, reset, accept, raw⟩ := r.1.evalSeed_done n m r.2
  rw [hs.accepts] at reset
  simp only [hs.accepts, hs.classes, h.accept] at accept
  simp only [hs.fires, hs.classes, h.raw] at raw
  refine ⟨h.same.trans same, fun k hk hno => ?_, fun d hd ha => ?_, fun c => ?_, fun c => ?_⟩
  · rw [other k hk fun hf => hno m m.lt_succ_self (hs.fires.mp hf)]
    exact h.other k hk fun d hd => hno d (hd.trans m.lt_succ_self)
  · rcases Nat.lt_succ_iff_lt_or_eq.mp hd with hd | rfl
    · rw [other _ (seedKey_ne d 12 (by decide)) fun _ => not_seedCount_of_ne hd.ne' (by decide)]
      exact h.reset d hd ha
    · exact reset ha
  · rw [accept, Nat.exists_lt_succ_right]
  · rw [raw, Nat.exists_lt_succ_right]

theorem State.evaluate_done (s : State) (n : Nat) : s.Evaluated n 256 (s.evaluate n) := by
  suffices h : ∀ m, s.Evaluated n m ((List.range m).foldl (fun a d => a.1.evalSeed n a.2 d) (s, 0, 0, 0)) from h 256
  intro m
  induction m with
  | zero => exact ⟨rfl, fun _ _ _ => rfl, fun d hd => absurd hd d.not_lt_zero, fun c => by simp [bit], fun c => by simp [bit]⟩
  | succ m ih =>
    rw [List.range_succ, List.foldl_append]
    exact ih.next

/-! ### The class counts -/

/-- `u` is `s` with the accepts of the classes before `m` counted in subindex `sub` of their words. -/
structure State.Counted (s : State) (sub accept m : Nat) (u : State) : Prop where
  same : onlyDict s u
  other : ∀ k, (∀ c, c < m → bit accept c = true → k ≠ key (0x2810 + c) sub) → u.ent k = s.ent k
  count : ∀ c, c < m → bit accept c = true → u.fld (key (0x2810 + c) sub) cnt48 = s.oneMore (key (0x2810 + c) sub) cnt48

theorem classKey_ne {c e : Nat} (sub : Nat) (h : c ≠ e) : key (0x2810 + c) sub ≠ key (0x2810 + e) sub := by
  unfold key
  omega

theorem State.Counted.next {sub accept m : Nat} (h : s.Counted sub accept m u) :
    s.Counted sub accept (m + 1) (if bit accept m = true then u.bump (key (0x2810 + m) sub) cnt48 else u) := by
  split
  · next hm =>
    refine ⟨h.same.bump _ _, fun k hk => ?_, fun c hc hbit => ?_⟩
    · refine (State.setFld_ent_other _ _ _ _ _ (hk m m.lt_succ_self hm)).trans (h.other k fun c hc => ?_)
      exact hk c (hc.trans m.lt_succ_self)
    · rcases Nat.lt_succ_iff_lt_or_eq.mp hc with hc | rfl
      · exact (State.fld_setFld_ne _ _ _ _ _ _ (classKey_ne sub hc.ne)).trans (h.count c hc hbit)
      · rw [State.bump_fld_same, State.oneMore, State.fld, h.other _ fun e he _ => classKey_ne sub he.ne']
        rfl
  · next hm =>
    refine ⟨h.same, fun k hk => h.other k fun c hc => hk c (hc.trans m.lt_succ_self), fun c hc hbit => ?_⟩
    rcases Nat.lt_succ_iff_lt_or_eq.mp hc with hc | rfl
    · exact h.count c hc hbit
    · exact absurd hbit hm

theorem State.countClasses_counted (s : State) (sub accept : Nat) : s.Counted sub accept 8 (s.countClasses sub accept) := by
  suffices h : ∀ m, s.Counted sub accept m ((List.range m).foldl
      (fun s c => if bit accept c = true then s.bump (key (0x2810 + c) sub) cnt48 else s) s) from h 8
  intro m
  induction m with
  | zero => exact ⟨rfl, fun _ _ => rfl, fun c hc => absurd hc c.not_lt_zero⟩
  | succ m ih =>
    rw [List.range_succ, List.foldl_append]
    exact ih.next

/-! ### The clk e0(n) -/

/-- `s` with frame index `n` evaluated: the next is the one after it. -/
def State.evalNext (s : State) (n : Nat) : State := { s with dec := { s.dec with nextEval := n + 1 } }

/-- `s` without the scores of the frames up to `n`. -/
def State.freeScores (s : State) (n : Nat) : State :=
  { s with dec := { s.dec with scores := s.dec.scores.filter fun e => decide (1024 * (n + 1) ≤ e.1) } }

/-- The clk e0(n) is that of frame index `n` alone. -/
theorem ridgeClk {clk s0 close n len : Nat} (hlen : 0 < len) (h : clk = s0 + close + n * len) :
    s0 + close ≤ clk ∧ (clk - (s0 + close)) % len = 0 ∧ (clk - (s0 + close)) / len = n := by
  subst h
  rw [Nat.add_sub_cancel_left]
  exact ⟨Nat.le_add_right _ _, Nat.mul_mod_left _ _, Nat.mul_div_cancel _ hlen⟩

/-- The tag with which frame index `n` is decided; none makes its record void. -/
def State.evalTag (s : State) (n : Nat) : Option (Nat × Int × Nat) :=
  if s.frameVoid n || !s.running then none else mget none s.dec.tags ((s.job.n0 + n) % 2 ^ 48)

theorem State.evalTag_eq_none
    (h : s.frameVoid n = true ∨ s.running = false ∨ mget none s.dec.tags ((s.job.n0 + n) % 2 ^ 48) = none) :
    s.evalTag n = none := by
  rcases h with h | h | h
  · exact if_pos (by rw [h, Bool.true_or])
  · exact if_pos (by rw [h, Bool.not_false, Bool.or_true])
  · rw [State.evalTag, h, ite_self]

theorem State.evalTag_eq_some {t : Nat × Int × Nat} (hlive : s.frameVoid n = false) (hr : s.running = true)
    (ht : mget none s.dec.tags ((s.job.n0 + n) % 2 ^ 48) = some t) : s.evalTag n = some t :=
  (if_neg (by rw [hlive, hr]; decide)).trans ht

/-- R290, R295: `s` once frame index `n` is decided void. -/
def State.decideVoid (s : State) (n : Nat) : State :=
  (((s.evalNext n).bump (key 0x2800 6) cnt48).submit
    { n := n, frame := (s.job.n0 + n) % 2 ^ 48, out := s.clk + 12, d := s.dec.dNom, accept := 0, raw := 0, void := true,
      marks := 0 }).freeScores n

/-- `s` once the seeds are evaluated for frame index `n` and its classes counted. -/
def State.evalCounted (s : State) (n : Nat) : State :=
  ((((s.evalNext n).evaluate n).1.freeScores n).bump (key 0x2800 5) cnt48).countClasses 1 ((s.evalNext n).evaluate n).2.1

/-- R292, R295, R298: the record of frame index `n` with tag `t`. -/
def State.decidedRec (s : State) (n : Nat) (t : Nat × Int × Nat) : PinRec :=
  { n := n, frame := (s.job.n0 + n) % 2 ^ 48, out := (s.evalCounted n).clk + 12
    d := t.2.1 + s.fld (key 0x2800 1) dec_latency_l - s.clk - 22
    accept := ((s.evalNext n).evaluate n).2.1, raw := ((s.evalNext n).evaluate n).2.2.1, void := false
    marks := (s.evalCounted n).markOutputs ((s.evalNext n).evaluate n).2.2.2 }

theorem execRidgeEvaluate_eq (hb : s.job.bound = true)
    (hclk : s.clk = s.job.s0 + s.fld (key 0x2800 1) dec_ridge_close + n * s.F) (hn : s.dec.nextEval ≤ n) :
    (s.evalTag n = none → execRidgeEvaluate s = .next (s.decideVoid n)) ∧
      ∀ t, s.evalTag n = some t → execRidgeEvaluate s = .next ((s.evalCounted n).submit (s.decidedRec n t)) := by
  obtain ⟨hge, hmod, rfl⟩ := ridgeClk (close := s.C) s.F_pos hclk
  refine ⟨fun h => (if_pos ⟨hb, hge, hmod, hn⟩).trans ?_, fun t h => (if_pos ⟨hb, hge, hmod, hn⟩).trans ?_⟩
  · split
    · rfl
    · next ht => exact absurd (h.symm.trans ht) nofun
  · split
    · next ht => exact absurd (h.symm.trans ht) nofun
    · next ht =>
      obtain rfl := Option.some.inj (h.symm.trans ht)
      rfl

theorem State.decideVoid_onlyEntry : onlyEntry s { s.decideVoid n with dec := s.dec } (key 0x2800 6) :=
  State.setFld_onlyEntry ..

theorem State.evalNext_sameSeed : s.SameSeed (s.evalNext n) d := ⟨rfl, fun _ _ => rfl, rfl⟩

/-- The seeds evaluated for frame index `n`. -/
theorem State.evalNext_evaluated : (s.evalNext n).Evaluated n 256 ((s.evalNext n).evaluate n) := State.evaluate_done _ _

theorem State.evalFreed_onlyDict :
    onlyDict ((s.evalNext n).freeScores n) (((s.evalNext n).evaluate n).1.freeScores n) :=
  congrArg (fun u : State => u.freeScores n) State.evalNext_evaluated.same

theorem State.evalCounted_counted :
    State.Counted ((((s.evalNext n).evaluate n).1.freeScores n).bump (key 0x2800 5) cnt48) 1 ((s.evalNext n).evaluate n).2.1 8
      (s.evalCounted n) := State.countClasses_counted _ _ _

/-- Of the block the evaluation changes the dictionary and the decision path. -/
theorem State.evalCounted_onlyDict : onlyDict ((s.evalNext n).freeScores n) (s.evalCounted n) :=
  (State.evalFreed_onlyDict.bump _ _).trans State.evalCounted_counted.same

theorem State.decided_same (r : PinRec) : { (s.evalCounted n).submit r with dict := s.dict, dec := s.dec } = s :=
  congrArg (fun u : State => { u with dec := s.dec }) (State.evalCounted_onlyDict (s := s) (n := n))

/-- A seed's words are as the seeds left them. -/
theorem State.evalCounted_ent_seed {j : Nat} (hj : j < 256) :
    (s.evalCounted n).ent (key (0x2A00 + d) j) = ((s.evalNext n).evaluate n).1.ent (key (0x2A00 + d) j) := by
  refine (State.evalCounted_counted.other _ fun c hc _ => ?_).trans (State.setFld_ent_other _ _ _ _ _ ?_) <;>
  · unfold key
    omega

/-- A seed's words stay, but for the counts of one that fires. -/
theorem State.evalCounted_ent_unfired {j : Nat} (hj : j < 256) (h : ¬ s.seedFires n d) :
    (s.evalCounted n).ent (key (0x2A00 + d) j) = s.ent (key (0x2A00 + d) j) := by
  refine (State.evalCounted_ent_seed hj).trans (State.evalNext_evaluated.other _ (seedKey_ne d j hj) fun e _ hf => ?_)
  refine not_seedCount_of_ne (fun he => h ?_) hj
  exact he ▸ State.evalNext_sameSeed.fires.mp hf

theorem State.evalCounted_ent_accepted (hd : d < 256) (h : s.seedAccepts n d) :
    (s.evalCounted n).ent (key (0x2A00 + d) 12) = 0 :=
  (State.evalCounted_ent_seed (by decide)).trans (State.evalNext_evaluated.reset d hd (State.evalNext_sameSeed.accepts.mpr h))

/-- Before the classes are counted, their words are as before the evaluation. -/
theorem State.evalBumped_ent_class {c : Nat} (hc : c < 8) :
    ((((s.evalNext n).evaluate n).1.freeScores n).bump (key 0x2800 5) cnt48).ent (key (0x2810 + c) 1) =
      s.ent (key (0x2810 + c) 1) := by
  refine (State.setFld_ent_other _ _ _ _ _ ?_).trans (State.evalNext_evaluated.other _ ?_ fun e _ _ => ?_)
  · unfold key
    omega
  · unfold key
    omega
  · unfold seedCount key
    omega

variable {t : Nat × Int × Nat} {c : Nat}

theorem State.decidedRec_accept : bit (s.decidedRec n t).accept c = true ↔
    ∃ d, d < 256 ∧ s.seedAccepts n d ∧ bit (s.seedClasses d) c = true := by
  refine (State.evalNext_evaluated.accept c).trans ?_
  simp only [State.evalNext_sameSeed.accepts, State.evalNext_sameSeed.classes]

theorem State.decidedRec_raw : bit (s.decidedRec n t).raw c = true ↔
    ∃ d, d < 256 ∧ s.seedFires n d ∧ bit (s.seedClasses d) c = true := by
  refine (State.evalNext_evaluated.raw c).trans ?_
  simp only [State.evalNext_sameSeed.fires, State.evalNext_sameSeed.classes]

theorem State.evalCounted_class_accepted (hc : c < 8) (h : bit (s.decidedRec n t).accept c = true) :
    (s.evalCounted n).fld (key (0x2810 + c) 1) cnt48 = s.oneMore (key (0x2810 + c) 1) cnt48 := by
  refine (State.evalCounted_counted.count c hc h).trans ?_
  rw [State.oneMore, State.fld, State.evalBumped_ent_class hc]
  rfl

theorem State.evalCounted_class_refused (hc : c < 8) (h : bit (s.decidedRec n t).accept c = false) :
    (s.evalCounted n).ent (key (0x2810 + c) 1) = s.ent (key (0x2810 + c) 1) := by
  refine (State.evalCounted_counted.other _ fun e _ he => ?_).trans (State.evalBumped_ent_class hc)
  refine classKey_ne 1 fun hce => Bool.false_ne_true (h.symm.trans ?_)
  exact hce ▸ he

theorem State.evalCounted_clk : (s.evalCounted n).clk = s.clk := by
  have := congrArg State.clk (State.evalCounted_onlyDict (s := s) (n := n))
  exact this

/-- R298: the delay puts the accept edge of frame index `n` at t_ref + L. -/
theorem State.decidedRec_edge :
    ((s.decidedRec n t).out : Int) + (s.decidedRec n t).d + 6 + 4 = t.2.1 + s.fld (key 0x2800 1) dec_latency_l := by
  simp only [State.decidedRec, State.evalCounted_clk]
  omega

end Seeds

end Sys2Proof.Machine
end

section
/-! CLAIM. The statement about marks and the ridge's evaluation. -/

open Sys2Proof Sys2Proof.Machine

/-- Settles O31: a mark that comes alone is sorted by the rows of R290 in their order (`State.sortMark_rows`), two for one score
clash (`execMarkArrival_clash`), and the evaluation passes the seeds one after another, each of which reads and counts in its own
words (`State.evaluate_done`). -/
theorem marksAreSortedAndTheRidgeEvaluates : Obligations.MarksAreSortedAndTheRidgeEvaluates := by
  unfold Obligations.MarksAreSortedAndTheRidgeEvaluates
  refine ⟨fun s p m hok hm => ?_, fun s n hb hclk hn => ?_⟩
  · intro v i n e0 key_ done
    refine ⟨fun x hx => execMarkArrival_clash hok hm hx, fun halone => ?_⟩
    have hdone : done = .next (v.sortMark m) := execMarkArrival_alone hok hm halone
    refine ⟨fun h => hdone.trans (congrArg _ (State.sortMark_discarded h)), fun hb hr hi => ?_⟩
    have hrows := hdone.trans (congrArg _ (State.sortMark_rows (s := v) hb hr (n := n) (Int.toNat_of_nonneg hi).symm))
    have hlive : s.clk < s.job.s0 + n * s.F + s.E + 7 ∨ s.frameVoid n = false →
        ¬ (v.job.s0 + n * v.F + v.E + 7 ≤ v.clk ∧ v.frameVoid n = true) := fun h hv =>
      h.elim (Nat.not_lt.mpr hv.1) fun hno => Bool.false_ne_true (hno.symm.trans hv.2)
    refine ⟨fun hvoid hlate => hrows.trans (congrArg _ (if_pos ⟨hlate, hvoid⟩)),
      fun hvoid hlate => hrows.trans (congrArg _ ((if_neg (hlive (.inr hvoid))).trans (if_pos hlate))), fun h hclk hfar => ?_,
      fun h hclk hnear => ?_⟩
    · exact hrows.trans (congrArg _ ((if_neg (hlive h)).trans ((if_neg (Nat.not_le.mpr hclk)).trans (if_pos hfar))))
    · replace hrows := hrows.trans (congrArg _ ((if_neg (hlive h)).trans ((if_neg (Nat.not_le.mpr hclk)).trans
        (if_neg (Nat.not_le.mpr hnear)))))
      refine ⟨fun y hy => hrows.trans (congrArg _ (if_pos (Option.isSome_of_eq_some hy))), fun hnone =>
        hrows.trans (congrArg _ (if_neg ?_))⟩
      exact fun hsome => Option.isSome_iff_ne_none.mp hsome hnone
  · intro frame l tag
    obtain ⟨hvoid, htag⟩ := execRidgeEvaluate_eq hb hclk hn
    refine ⟨fun h => ⟨_, hvoid (State.evalTag_eq_none h), State.decideVoid_onlyEntry, rfl, rfl⟩, fun hlive hr t ht => ?_⟩
    have hdone : exec .ridgeEvaluate s = .next ((s.evalCounted n).submit (s.decidedRec n t)) :=
      htag t (State.evalTag_eq_some hlive hr ht)
    have hdec : (s.evalCounted n).dec = ((s.evalNext n).freeScores n).dec := State.evalCounted_onlyDict.dec
    have hdecided : (s.evalCounted n).dec.decided = s.dec.decided := (congrArg Dec.decided hdec).trans rfl
    refine ⟨_, s.decidedRec n t, hdone, State.decided_same _, congrArg Dec.nextEval hdec,
      congrArg (· ++ [s.decidedRec n t]) hdecided, rfl, rfl, rfl, congrArg (· + 12) State.evalCounted_clk,
      State.decidedRec_edge, fun c _ => State.decidedRec_accept, fun c _ => State.decidedRec_raw, fun d _ => ?_,
      fun d hd => State.evalCounted_ent_accepted hd, fun d _ => State.evalCounted_ent_unfired (by decide),
      fun c hc => ⟨State.evalCounted_class_accepted hc, State.evalCounted_class_refused hc⟩⟩
    exact or_iff_not_imp_right.mpr (State.evalCounted_ent_unfired (by decide))

end

section
/-! SUPPORT. The eaves ports (R265, R266): what a port sends in its slot, and what becomes of a word that comes in. -/

namespace Sys2Proof.Machine

section EavesPorts

variable {s : State} {k q : Nat} {w : Token} {ws : List Token}

/-- R265: the head word of the queue that the port's entry names sets out. -/
theorem execEavesSlot_sends (hok : eavesOk s.grade k = true) (hg : s.gridRuns = true) (hq : s.eavesEntry k % 16 ≠ 0)
    (hw : mget [] s.net.outq (16 * k + s.eavesEntry k % 16) = w :: ws)
    (hf : ∀ f ∈ s.net.flights, ¬ (f.reg = (s.eavesTarget k).1 ∧ f.due = s.clk + 8)) :
    execEavesSlot k s = .next ({ s with net := { s.net with
      outq := mset [] s.net.outq (16 * k + s.eavesEntry k % 16) ws } }.launch
        ⟨(s.eavesTarget k).1, s.clk + 8, w, some (s.eavesTarget k).2, 124 + eavesDie k, false⟩) := by
  have hfree : s.net.flights.any (fun f => f.reg == (s.eavesTarget k).1 && f.due == s.clk + 8) = false :=
    List.any_eq_false.mpr fun f hm => by simpa using hf f hm
  unfold execEavesSlot
  simp only [hok, if_true, hw, hg, hq, hfree, ne_eq, not_false_eq_true, Bool.not_false, and_self]

/-- `s` once the word in port `k`'s register is taken. -/
def State.eavesTaken (s : State) (k : Nat) : State :=
  { s with net := { s.net with regs := mset none s.net.regs (eavesKey k) none } }

/-- `s` with the word `w` taken from port `k`'s register into its inbound queue `q`. -/
def State.eavesJoined (s : State) (k q : Nat) (w : Token) : State :=
  { s with net := { s.net with
    regs := mset none s.net.regs (eavesKey k) none
    inq := mset [] s.net.inq (16 * k + q) (mget [] s.net.inq (16 * k + q) ++ [w]) } }

section Inbound

variable (hok : eavesOk s.grade k = true) (hw : s.reg (eavesKey k) = some w)

include hok hw

/-- R266: a descriptor waits for the intake of its die, with the clk in which it came. -/
theorem execEavesInboundWord_descriptor (h1 : w.side % 4 = 1) :
    execEavesInboundWord k s = .next (s.eavesJoined k 0 { w with tag := some s.clk }) := by
  unfold execEavesInboundWord
  simp only [hok, if_true, hw, h1]
  rfl

/-- R266: a plain word joins the queue that the port's entry names, in queue 15 with its count in the schedule. -/
theorem execEavesInboundWord_plain (h1 : w.side % 4 ≠ 1) (h2 : w.side % 4 ≠ 2) (hq : s.eavesEntry k / 16 % 16 = q) (h0 : q ≠ 0)
    (hroom : (mget [] s.net.inq (16 * k + q)).length < 32) :
    execEavesInboundWord k s =
      .next (s.eavesJoined k q (if q = 15 then { w with tag := some ((s.clk - s.job.s0) % 2 ^ 24) } else w)) := by
  subst hq
  unfold execEavesInboundWord
  simp only [hok, if_true, hw, h1, if_false]
  refine (if_neg (not_or.mpr ⟨h2, h0⟩)).trans ((if_neg (Nat.not_le.mpr hroom)).trans ?_)
  exact congrArg (fun y => Host.Outcome.next (s.eavesJoined k (s.eavesEntry k / 16 % 16)
    (if s.eavesEntry k / 16 % 16 = 15 then { w with tag := some ((s.clk - s.job.s0) % 2 ^ 24) } else y))) (if_neg h0)

/-- R266: a word that no queue takes is a collision of the port. -/
theorem execEavesInboundWord_collision (h : w.side % 4 = 2 ∨ (w.side % 4 ≠ 1 ∧ s.eavesEntry k / 16 % 16 = 0)) :
    execEavesInboundWord k s =
      .next (((s.eavesTaken k).setFlag (key (0x26A0 + eavesDie k) 1) tstat_collision_seen true).tideFault 1 (eavesKey k) 0xFFF 0) := by
  have h1 : w.side % 4 ≠ 1 := by
    rcases h with h | h
    · omega
    · exact h.1
  unfold execEavesInboundWord
  simp only [hok, if_true, hw, h1, if_false]
  exact if_pos (h.imp_right And.right)

/-- R266: a word that finds its queue full is an overflow. -/
theorem execEavesInboundWord_overflow (h1 : w.side % 4 ≠ 1) (h2 : w.side % 4 ≠ 2) (h0 : s.eavesEntry k / 16 % 16 ≠ 0)
    (hfull : 32 ≤ (mget [] s.net.inq (16 * k + s.eavesEntry k / 16 % 16)).length) :
    execEavesInboundWord k s = .next ((s.eavesTaken k).fault { family := 5, cause := 7, loc := loc 9 k }) := by
  unfold execEavesInboundWord
  simp only [hok, if_true, hw, h1, if_false]
  exact (if_neg (not_or.mpr ⟨h2, h0⟩)).trans (if_pos hfull)

end Inbound

theorem eavesOk_lt {g : Grade} (h : eavesOk g k = true) : k < 40 := by
  cases g <;> simp [eavesOk] at h <;> omega

/-- A port's location (R538). -/
theorem loc_eaves (hk : k < 40) : loc 9 k = 2 ^ 12 * 9 + k := congrArg (2 ^ 12 * 9 + ·) (Nat.mod_eq_of_lt (by omega))

/-- R266: a fault at an eaves port's register is located at the port. -/
theorem State.tideFault_eaves (s : State) (cause island detail : Nat) :
    s.tideFault cause (eavesKey k) island detail =
      s.fault { family := 1, cause := cause, loc := loc 9 k, island := island, detail := detail } := by
  have hport : eavesKey k / 16 - 104 = k := by unfold eavesKey regKey; omega
  unfold State.tideFault
  rw [if_neg (by unfold eavesKey regKey; omega), hport]

end EavesPorts

end Sys2Proof.Machine

end

section
/-! CLAIM. The statement about the eaves ports. -/

open Sys2Proof Sys2Proof.Machine

/-- Settles O19: in its slot a port sends the head word of the queue its entry names (`execEavesSlot_sends`); a word that comes in
is a descriptor, joins its queue, collides or overflows by its kind and the entry. -/
theorem eavesPortsMoveWords : Obligations.EavesPortsMoveWords := by
  unfold Obligations.EavesPortsMoveWords
  intro s k w ws hok e t taken joined
  have hloc := loc_eaves (eavesOk_lt hok)
  refine ⟨fun hg hq hw hf => execEavesSlot_sends hok hg hq hw hf, fun hw => ?_⟩
  refine ⟨execEavesInboundWord_descriptor hok hw, fun q h1 h2 hq h0 h15 hroom => ?_, fun h1 h2 hq hroom => ?_, fun h => ?_,
    fun h1 h2 h0 hfull => ?_⟩
  · have h := execEavesInboundWord_plain hok hw h1 h2 hq.symm h0 hroom
    rw [if_neg h15] at h
    exact h
  · exact execEavesInboundWord_plain hok hw h1 h2 hq (by decide) hroom
  · have h := execEavesInboundWord_collision hok hw h
    rw [State.tideFault_eaves, hloc] at h
    exact h
  · have h := execEavesInboundWord_overflow hok hw h1 h2 h0 hfull
    rw [hloc] at h
    exact h

end

section
/-! SUPPORT. A descriptor at intake (R268, R271): its place in the queues of its tender, and what the intake answers. -/

namespace Sys2Proof.Machine

section Intake

variable {s : State} {t die source rank c d : Nat} {r y : DescRec} {l : List DescRec} {x : Tender}

/-- R268: a later clk, or a later place of the same clk. -/
theorem DescRec.after_iff : y.after r = true ↔ r.clk < y.clk ∨ (y.clk = r.clk ∧ r.rank < y.rank) := by
  simp [DescRec.after]

theorem DescRec.after_eq_false_iff : y.after r = false ↔ y.clk < r.clk ∨ (y.clk = r.clk ∧ y.rank ≤ r.rank) := by
  rw [← Bool.not_eq_true, DescRec.after_iff]
  omega

/-! ### The place in a queue -/

theorem insertDesc_last (h : ∀ z ∈ l, z.after r = false) : insertDesc r l = l ++ [r] := by
  induction l with
  | nil => rfl
  | cons z l ih =>
    obtain ⟨hz, hl⟩ := List.forall_mem_cons.mp h
    rw [insertDesc, hz, ih hl]
    rfl

theorem insertDesc_before (h : ∀ z ∈ l, z.after r = false) (hy : y.after r = true) : insertDesc r (l ++ [y]) = l ++ [r, y] := by
  induction l with
  | nil => exact if_pos hy
  | cons z l ih =>
    obtain ⟨hz, hl⟩ := List.forall_mem_cons.mp h
    rw [List.cons_append, insertDesc, hz, ih hl]
    rfl

/-- Descriptor `y` one place later in the intake sequence. -/
def DescRec.later (y : DescRec) : DescRec := { y with seq := (y.seq + 1) % 2 ^ 32 }

/-- Every descriptor of the queue entered before `r`. -/
def Tender.allBefore (x : Tender) (r : DescRec) : Prop := ∀ z ∈ x.queue, z.after r = false

/-- The last descriptor of the queue, `y`, waits and comes after `r`; the others, `l`, entered before `r`. -/
structure Tender.LastAfter (x : Tender) (r y : DescRec) (l : List DescRec) : Prop where
  queue : x.queue = l ++ [y]
  waits : (x.i = 0 ∧ x.w = 0) ∨ l ≠ []
  before : ∀ z ∈ l, z.after r = false
  after : y.after r = true

/-- Descriptors that entered before `r` keep their numbers. -/
theorem map_pushed_before (h : ∀ z ∈ l, z.after r = false) :
    l.map (fun y => if y.after r then { y with seq := (y.seq + 1) % 2 ^ 32 } else y) = l := by
  refine (List.map_congr_left fun z hz => ?_).trans (List.map_id' l)
  rw [h z hz]
  rfl

theorem Tender.behind_allBefore (h : x.allBefore r) : x.behind r = 0 := by
  rw [Tender.behind, List.filter_eq_nil_iff.mpr fun z hz => by simp [h z (List.mem_of_mem_drop hz)]]
  rfl

theorem Tender.pushBack_allBefore (h : x.allBefore r) : (x.pushBack r).queue = x.queue := by
  show x.queue.take x.begun ++ (x.queue.drop x.begun).map _ = x.queue
  rw [map_pushed_before fun z hz => h z (List.mem_of_mem_drop hz), List.take_append_drop]

/-- The number of a descriptor is no part of its order. -/
theorem Tender.allBefore.pushBack (h : x.allBefore r) (q : Nat) : (x.pushBack r).allBefore { r with seq := q } := by
  rw [Tender.allBefore, Tender.pushBack_allBefore h]
  exact h

theorem Tender.place_allBefore (h : x.allBefore r) : (x.place r).queue = x.queue ++ [r] := by
  show x.queue.take x.begun ++ insertDesc r (x.queue.drop x.begun) = x.queue ++ [r]
  rw [insertDesc_last fun z hz => h z (List.mem_of_mem_drop hz), ← List.append_assoc, List.take_append_drop]

theorem Tender.LastAfter.begun_le (h : x.LastAfter r y l) : x.begun ≤ l.length := by
  unfold Tender.begun
  split
  · exact Nat.zero_le _
  · next hn => exact List.length_pos_of_ne_nil (h.waits.resolve_left hn)

theorem Tender.LastAfter.drop (h : x.LastAfter r y l) : x.queue.drop x.begun = l.drop x.begun ++ [y] := by
  rw [h.queue, List.drop_append_of_le_length h.begun_le]

theorem Tender.LastAfter.take (h : x.LastAfter r y l) : x.queue.take x.begun = l.take x.begun := by
  rw [h.queue, List.take_append_of_le_length h.begun_le]

theorem Tender.LastAfter.behind (h : x.LastAfter r y l) : x.behind r = 1 := by
  have hnone : (l.drop x.begun).filter (fun z => z.after r) = [] :=
    List.filter_eq_nil_iff.mpr fun z hz => by simp [h.before z (List.mem_of_mem_drop hz)]
  have hone : [y].filter (fun z => z.after r) = [y] := by simp [h.after]
  rw [Tender.behind, h.drop, List.filter_append, hnone, hone]
  rfl

theorem Tender.LastAfter.pushBack (h : x.LastAfter r y l) : (x.pushBack r).LastAfter r y.later l where
  queue := by
    show x.queue.take x.begun ++ (x.queue.drop x.begun).map _ = l ++ [y.later]
    rw [h.drop, h.take, List.map_append, map_pushed_before fun z hz => h.before z (List.mem_of_mem_drop hz), ← List.append_assoc,
      List.take_append_drop, List.map_singleton, h.after]
    rfl
  waits := h.waits
  before := h.before
  after := h.after

theorem Tender.LastAfter.number (h : x.LastAfter r y l) (q : Nat) : x.LastAfter { r with seq := q } y l :=
  ⟨h.queue, h.waits, h.before, h.after⟩

theorem Tender.LastAfter.place (h : x.LastAfter r y l) : (x.place r).queue = l ++ [r, y] := by
  show x.queue.take x.begun ++ insertDesc r (x.queue.drop x.begun) = l ++ [r, y]
  rw [h.drop, h.take, insertDesc_before (fun z hz => h.before z (List.mem_of_mem_drop hz)) h.after, ← List.append_assoc,
    List.take_append_drop]

/-! ### A descriptor joins its tender -/

theorem State.tender_setTender (s : State) (k j : Nat) (x : Tender) :
    (s.setTender k x).tender j = if j = k then x else s.tender j := mget_mset _ _ _ _ _

/-- The number that a descriptor takes in the intake sequence of tender `t` (R268). -/
def State.entrySeq (s : State) (t : Nat) (r : DescRec) : Nat :=
  ((s.tender t).seq + 2 ^ 32 - (s.tender t).behind r - (s.tender (t + 16)).behind r) % 2 ^ 32

/-- Queue `k` of tender `t` once the descriptors that come after `r` have moved up. -/
def State.pushed (s : State) (t : Nat) (r : DescRec) (k : Nat) : Tender :=
  if k = t then { (s.tender t).pushBack r with seq := ((s.tender t).seq + 1) % 2 ^ 32 } else (s.tender k).pushBack r

theorem State.pushed_queue (s : State) (t : Nat) (r : DescRec) (k : Nat) :
    (s.pushed t r k).queue = ((s.tender k).pushBack r).queue ∧ (s.pushed t r k).i = (s.tender k).i ∧
      (s.pushed t r k).w = (s.tender k).w := by
  unfold State.pushed
  split
  · next h => subst h; exact ⟨rfl, rfl, rfl⟩
  · exact ⟨rfl, rfl, rfl⟩

/-- `s` once the descriptors of tender `t` that come after `r` have moved up. -/
def State.movedUp (s : State) (t : Nat) (r : DescRec) : State :=
  (s.setTender t { (s.tender t).pushBack r with seq := ((s.tender t).seq + 1) % 2 ^ 32 }).setTender (t + 16)
    ((s.tender (t + 16)).pushBack r)

theorem State.movedUp_tender {k : Nat} (hk : k = t ∨ k = t + 16) (s : State) (r : DescRec) :
    (s.movedUp t r).tender k = s.pushed t r k := by
  unfold State.movedUp
  rcases hk with rfl | rfl
  · rw [State.tender_setTender, if_neg (by omega), State.tender_setTender, if_pos rfl, State.pushed, if_pos rfl]
  · rw [State.tender_setTender, if_pos rfl, State.pushed, if_neg (by omega)]

/-- `s` once `r`, which has its number, is in the queue of its source. -/
def State.enterNumbered (s : State) (t : Nat) (r : DescRec) : State :=
  (s.movedUp t r).setTender (laneOf t r.source) (((s.movedUp t r).tender (laneOf t r.source)).place r)

theorem State.enterDesc_eq (s : State) (t : Nat) (r : DescRec) :
    s.enterDesc t r = s.enterNumbered t { r with seq := s.entrySeq t r } := rfl

/-- Where a descriptor is placed does not depend on the number it takes. -/
theorem State.enterNumbered_eq (s : State) (t : Nat) (r : DescRec) (q : Nat) : s.enterNumbered t { r with seq := q } =
    (s.movedUp t r).setTender (laneOf t r.source)
      (((s.movedUp t r).tender (laneOf t r.source)).place { r with seq := q }) := rfl

/-- R26, R268: the descriptor is placed in the queue of its source, and the other queue has moved up. -/
theorem State.enterDesc_tender {k : Nat} (hk : k = t ∨ k = t + 16) (s : State) (r : DescRec) :
    (s.enterDesc t r).tender k =
      if k = laneOf t r.source then (s.pushed t r k).place { r with seq := s.entrySeq t r } else s.pushed t r k := by
  have hlane : laneOf t r.source = t ∨ laneOf t r.source = t + 16 := by unfold laneOf; split <;> simp
  rw [State.enterDesc_eq, State.enterNumbered_eq, State.tender_setTender, State.movedUp_tender hlane, State.movedUp_tender hk]
  split
  · next h => rw [h]
  · rfl

/-- A descriptor in its queue keeps the number and the place where the tender stands. -/
theorem State.enterDesc_stands {k : Nat} (hk : k = t ∨ k = t + 16) (s : State) (r : DescRec) :
    ((s.enterDesc t r).tender k).i = (s.tender k).i ∧ ((s.enterDesc t r).tender k).w = (s.tender k).w := by
  obtain ⟨-, hi, hw⟩ := s.pushed_queue t r k
  rw [State.enterDesc_tender hk]
  split
  · exact ⟨hi, hw⟩
  · exact ⟨hi, hw⟩

theorem State.enterDesc_seq (s : State) (t : Nat) (r : DescRec) :
    ((s.enterDesc t r).tender t).seq = ((s.tender t).seq + 1) % 2 ^ 32 := by
  have hseq : (s.pushed t r t).seq = ((s.tender t).seq + 1) % 2 ^ 32 := by rw [State.pushed, if_pos rfl]
  rw [State.enterDesc_tender (.inl rfl)]
  split
  · exact hseq
  · exact hseq

section Queues

variable {own other : Nat} (hown : own = laneOf t r.source) (hother : other = laneOf t (if r.source = 2 then 0 else 2))

include hown hother

theorem lanes_cases : (own = t ∧ other = t + 16) ∨ (own = t + 16 ∧ other = t) := by
  subst hown hother
  unfold laneOf
  by_cases h : r.source = 2
  · exact .inr ⟨if_pos h, by rw [if_pos h]; exact if_neg (by decide)⟩
  · exact .inl ⟨if_neg h, by rw [if_neg h]; exact if_pos rfl⟩

theorem State.entrySeq_eq (s : State) :
    s.entrySeq t r = ((s.tender t).seq + 2 ^ 32 - ((s.tender own).behind r + (s.tender other).behind r)) % 2 ^ 32 := by
  unfold State.entrySeq
  rw [Nat.sub_sub]
  rcases lanes_cases hown hother with ⟨rfl, rfl⟩ | ⟨rfl, rfl⟩
  · rfl
  · rw [Nat.add_comm (Tender.behind _ _)]

/-- The queue that the descriptor joins. -/
theorem State.enterDesc_own (s : State) : ((s.enterDesc t r).tender own).queue =
    (((s.tender own).pushBack r).place { r with seq := s.entrySeq t r }).queue := by
  obtain ⟨hq, hi, hw⟩ := s.pushed_queue t r own
  rw [State.enterDesc_tender ((lanes_cases hown hother).imp And.left And.left), if_pos hown]
  simp only [Tender.place, Tender.begun, hq, hi, hw]
  rfl

/-- The other queue. -/
theorem State.enterDesc_other (s : State) : ((s.enterDesc t r).tender other).queue = ((s.tender other).pushBack r).queue := by
  have hne : other ≠ laneOf t r.source := by rcases lanes_cases hown hother with h | h <;> omega
  rw [State.enterDesc_tender ((lanes_cases hown hother).elim (fun h => .inr h.2) fun h => .inl h.2), if_neg hne]
  exact (s.pushed_queue t r other).1

/-- R268: behind everything that has entered. -/
theorem State.enterDesc_last (ho : (s.tender own).allBefore r) (hx : (s.tender other).allBefore r) :
    ((s.enterDesc t r).tender own).queue = (s.tender own).queue ++ [{ r with seq := (s.tender t).seq % 2 ^ 32 }] ∧
      ((s.enterDesc t r).tender other).queue = (s.tender other).queue := by
  have hseq : s.entrySeq t r = (s.tender t).seq % 2 ^ 32 := by
    rw [State.entrySeq_eq hown hother, Tender.behind_allBefore ho, Tender.behind_allBefore hx, Nat.sub_zero, Nat.add_mod_right]
  rw [State.enterDesc_own hown hother, State.enterDesc_other hown hother, hseq, Tender.place_allBefore (ho.pushBack _),
    Tender.pushBack_allBefore ho, Tender.pushBack_allBefore hx]
  exact ⟨rfl, rfl⟩

/-- R268: before the one descriptor of its own queue that comes after it. -/
theorem State.enterDesc_beforeOwn (ho : (s.tender own).LastAfter r y l) (hx : (s.tender other).allBefore r) :
    ((s.enterDesc t r).tender own).queue = l ++ [{ r with seq := ((s.tender t).seq + 2 ^ 32 - 1) % 2 ^ 32 }, y.later] ∧
      ((s.enterDesc t r).tender other).queue = (s.tender other).queue := by
  have hseq : s.entrySeq t r = ((s.tender t).seq + 2 ^ 32 - 1) % 2 ^ 32 := by
    rw [State.entrySeq_eq hown hother, ho.behind, Tender.behind_allBefore hx]
  rw [State.enterDesc_own hown hother, State.enterDesc_other hown hother, hseq, (ho.pushBack.number _).place,
    Tender.pushBack_allBefore hx]
  exact ⟨rfl, rfl⟩

/-- R268: before the one descriptor of the other queue that comes after it. -/
theorem State.enterDesc_beforeOther (ho : (s.tender own).allBefore r) (hx : (s.tender other).LastAfter r y l) :
    ((s.enterDesc t r).tender own).queue =
        (s.tender own).queue ++ [{ r with seq := ((s.tender t).seq + 2 ^ 32 - 1) % 2 ^ 32 }] ∧
      ((s.enterDesc t r).tender other).queue = l ++ [y.later] := by
  have hseq : s.entrySeq t r = ((s.tender t).seq + 2 ^ 32 - 1) % 2 ^ 32 := by
    rw [State.entrySeq_eq hown hother, hx.behind, Tender.behind_allBefore ho]
  rw [State.enterDesc_own hown hother, State.enterDesc_other hown hother, hseq, Tender.place_allBefore (ho.pushBack _),
    Tender.pushBack_allBefore ho]
  exact ⟨rfl, hx.pushBack.queue⟩

end Queues

/-! ### What the intake answers -/

section Answers

variable (hfence : s.tenderFenced (d % 16) = false)

include hfence

/-- R268: a descriptor that passes every check joins its tender and counts in outstanding. -/
theorem State.intake_joins (hfree : s.fld (kTend (d % 16)) tend_outstanding < 2048)
    (hroom : source = 0 ∨ s.tenderFull (d % 16) = false) (hok : s.descFault die source d = none) :
    s.intake die source rank c d = (s.enterDesc (d % 16) ⟨0, d, source, c, rank, none, none⟩).setFld (kTend (d % 16))
      tend_outstanding (s.fld (kTend (d % 16)) tend_outstanding + 1) := by
  have hwait : ¬ (source ≠ 0 ∧ s.tenderFull (d % 16) = true) := fun h => hroom.elim h.1 (fun hr => by simp [hr] at h)
  have hnone : (if source = 0 ∧ 2048 ≤ s.fld (kTend (d % 16)) tend_outstanding then some 1 else s.descFault die source d) = none :=
    (if_neg (fun h => by omega)).trans hok
  have hmin : min (s.fld (kTend (d % 16)) tend_outstanding + 1) (2 ^ tend_outstanding.w - 1) =
      s.fld (kTend (d % 16)) tend_outstanding + 1 := Nat.min_eq_left (by show _ ≤ 4095; omega)
  rw [← hmin]
  unfold State.intake
  simp only [hfence, Bool.false_eq_true, if_false, hnone]
  exact if_neg hwait

/-- R271: with 2,048 outstanding, or descriptors of the eaves before it that fill the tender, it waits. -/
theorem State.intake_waits (hs : source ≠ 0) (hfull : s.tenderFull (d % 16) = true) : s.intake die source rank c d = s := by
  unfold State.intake
  simp only [hfence, Bool.false_eq_true, if_false]
  exact if_pos ⟨hs, hfull⟩

/-- R271: one of the capture logic or the harbourmaster that fails a check counts in refusals. -/
theorem State.intake_refuses (hs : source ≠ 0) (hroom : s.tenderFull (d % 16) = false) (hbad : s.descFault die source d ≠ none) :
    s.intake die source rank c d = s.bump (kTend (d % 16)) tend_refusals := by
  obtain ⟨e, he⟩ := Option.ne_none_iff_exists'.mp hbad
  have hsome : (if source = 0 ∧ 2048 ≤ s.fld (kTend (d % 16)) tend_outstanding then some 1 else s.descFault die source d) = some e :=
    (if_neg (fun h => hs h.1)).trans he
  unfold State.intake
  simp only [hfence, Bool.false_eq_true, if_false, hroom, and_false, hsome]
  exact if_neg hs

/-- R275: one of the eaves that fails a check, or finds 2,048 outstanding, faults the job. -/
theorem State.intake_faults {e : Nat}
    (he : (if 2048 ≤ s.fld (kTend (d % 16)) tend_outstanding then some 1 else s.descFault die 0 d) = some e) :
    s.intake die 0 rank c d = s.tenderFault (d % 16) e (s.tender (d % 16)).seq := by
  unfold State.intake
  simp only [hfence, Bool.false_eq_true, if_false, ne_eq, not_true, false_and, true_and, he, if_true]

end Answers

/-- `s` with the head of port `p`'s waiting descriptors taken. -/
def State.descTaken (s : State) (p : Nat) : State :=
  { s with net := { s.net with inq := mset [] s.net.inq (16 * p) ((mget [] s.net.inq (16 * p)).drop 1) } }

theorem execDescriptorIntake_engine (hdie : die < 2) (hs : source < 3) (h0 : source ≠ 0) :
    execDescriptorIntake die source d s = .next (s.intake die source (39 + source) s.clk d) := by
  unfold execDescriptorIntake
  rw [if_pos ⟨hdie, hs⟩, if_neg h0]

/-- R268: the lowest port with the descriptor waiting gives it. -/
theorem execDescriptorIntake_eaves {p : Nat} (hdie : die < 2) (hp : s.waitingDesc die d = some p) :
    execDescriptorIntake die 0 d s = .next ((s.descTaken p).intake die 0 p
      (((mget [] s.net.inq (16 * p)).head?.bind (fun w => w.tag)).getD s.clk) d) := by
  unfold execDescriptorIntake
  rw [if_pos ⟨hdie, by decide⟩, if_pos rfl, hp]
  rfl

end Intake

end Sys2Proof.Machine

end

section
/-! CLAIM. The statement about the intake. -/

open Sys2Proof Sys2Proof.Machine

/-- Settles O20: the place of a descriptor follows from which of those in its tender's two queues came after it
(`State.enterDesc_last`, `State.enterDesc_beforeOwn`, `State.enterDesc_beforeOther`), and the intake joins, waits, refuses or faults
by its checks. -/
theorem descriptorsEnterIntake : Obligations.DescriptorsEnterIntake := by
  unfold Obligations.DescriptorsEnterIntake
  intro s die source d hdie hsource hfence t k x new n
  have hfull : s.tenderFull t = decide (2048 ≤ n + s.eavesWaiting t) := rfl
  refine ⟨fun r => ?_, fun h0 hroom hok => ?_, fun h0 hroom hbad => ?_, fun h0 hroom => ?_, ?_⟩
  · intro u own other first then_ waits
    have hown : own = laneOf t r.source := rfl
    have hother : other = laneOf t (if r.source = 2 then 0 else 2) := by
      by_cases h : r.source = 2 <;> simp [other, laneOf, h]
    have hfirst : ∀ {l : List DescRec}, (∀ z ∈ l, first z) → ∀ z ∈ l, z.after r = false :=
      fun h z hz => DescRec.after_eq_false_iff.mpr (h z hz)
    refine ⟨s.enterDesc_seq t r, fun k hk => State.enterDesc_stands hk s r,
      fun ho hx => State.enterDesc_last hown hother (hfirst ho) (hfirst hx), fun l y hl hy => ⟨fun hq hw hx => ?_, fun hq hw ho => ?_⟩⟩
    · exact State.enterDesc_beforeOwn hown hother ⟨hq, hw, hfirst hl, DescRec.after_iff.mpr hy⟩ (hfirst hx)
    · exact State.enterDesc_beforeOther hown hother (hfirst ho) ⟨hq, hw, hfirst hl, DescRec.after_iff.mpr hy⟩
  · refine (execDescriptorIntake_engine hdie hsource h0).trans (congrArg _ ?_)
    exact State.intake_joins hfence (Nat.lt_of_le_of_lt (Nat.le_add_right n _) hroom)
      (.inr (hfull.trans (decide_eq_false (Nat.not_le.mpr hroom)))) hok
  · refine ⟨_, (execDescriptorIntake_engine hdie hsource h0).trans (congrArg _ (State.intake_refuses hfence h0
      (hfull.trans (decide_eq_false (Nat.not_le.mpr hroom))) hbad)), State.setFld_onlyEntry _ _ _ _, State.bump_fld_same _ _ _⟩
  · exact (execDescriptorIntake_engine hdie hsource h0).trans
      (congrArg _ (State.intake_waits hfence h0 (hfull.trans (decide_eq_true hroom))))
  · rintro rfl p hp v
    have hexec := execDescriptorIntake_eaves hdie hp
    refine ⟨fun hn hok c hc => ?_, fun hn => ?_, fun c hn hbad => ?_⟩
    · obtain ⟨w, hw, htag⟩ := Option.map_eq_some_iff.mp hc
      rw [hw, Option.bind_some, htag, Option.getD_some] at hexec
      exact hexec.trans (congrArg _ (State.intake_joins (s := v) hfence hn (.inl rfl) hok))
    · exact hexec.trans (congrArg _ (State.intake_faults (s := v) hfence (if_pos hn)))
    · exact hexec.trans (congrArg _ (State.intake_faults (s := v) hfence ((if_neg (Nat.not_le.mpr hn)).trans hbad)))

end

section
/-! SUPPORT. The end of a copy (R272, R274) and a tender's word at its tile (R273): what a tile by itself makes of what they plan. -/

namespace Sys2Proof.Machine

section CopyEnds

variable {s : State} {t : Nat} {r : DescRec} {rs : List DescRec}

/-- The state once the first copy of tender `t` has left it, committed. -/
def State.copyCommitted (s : State) (t : Nat) : State :=
  let u := (s.setTender t (s.tender t).rest).bump (kTend t) tend_completed
  u.setFld (kTend t) tend_outstanding (u.fld (kTend t) tend_outstanding - 1)

/-- `s` with a completion behind those of die `die`'s tree. -/
def State.queueCompletion (s : State) (die : Nat) (e : Nat × Nat × Nat) : State :=
  { s with tend := { s.tend with compl := mset [] s.tend.compl die (mget [] s.tend.compl die ++ [e]) } }

/-- The tile and the mark that a descriptor's completion names (R274). -/
def descMark (d : Nat) : Nat × Nat × Nat := (bits d 224 4, bits d 228 4, bits d 218 5)

/-- The state at the end of the copy of the descriptor `d` (R272, R274). -/
def State.copyEnds (s : State) (t d : Nat) : State :=
  if descDst d ≠ 3 ∧ bit d 223 = true then (s.copyCommitted t).queueCompletion (t / 8) (descMark d) else s.copyCommitted t

/-- R272, R274: a copy whose words have moved ends, and its completion, if it asks for one, joins the tree of its die. -/
theorem execTenderCopyDone_done (ht : t < 16) (hq : (s.tender t).queue = r :: rs) (hi : descCount r.word < (s.tender t).i)
    (hf : r.frag = none) : execTenderCopyDone t s = .next (s.copyEnds t r.word) := by
  have hmoved : s.copyMoved t = true := by
    unfold State.copyMoved
    rw [hq]
    simp [hi, hf]
  unfold execTenderCopyDone
  simp only [ht, if_true, hmoved, hq]
  refine (if_pos ⟨hi, by rw [hf]; rfl⟩).trans ?_
  exact (apply_ite Host.Outcome.next _ _ _).symm

theorem State.copyCommitted_tender (hq : (s.tender t).queue = r :: rs) :
    (s.copyCommitted t).tender t = { s.tender t with queue := rs, i := 0, w := 0 } := by
  refine (State.tender_setTender_same (s := s) (t := t) _).trans ?_
  simp [Tender.rest, hq]

/-- R287: the copy leaves outstanding and counts in completed; no other entry changes. -/
theorem State.copyCommitted_counts (s : State) (t : Nat) :
    (s.copyCommitted t).fld (kTend t) tend_outstanding = (s.fld (kTend t) tend_outstanding - 1) % 2 ^ tend_outstanding.w ∧
      (s.copyCommitted t).fld (kTend t) tend_completed = s.oneMore (kTend t) tend_completed ∧
      ∀ j, j ≠ kTend t → (s.copyCommitted t).ent j = s.ent j := by
  refine ⟨?_, ?_, fun j hj => ?_⟩
  · unfold State.copyCommitted State.bump State.bumpBy
    rw [State.fld_setFld_same, State.fld_setFld_other _ _ _ _ _ (by decide)]
    rfl
  · unfold State.copyCommitted
    rw [State.fld_setFld_other _ _ _ _ _ (by decide), State.bump_fld_same]
    rfl
  · exact (State.setFld_ent_other _ _ _ _ _ hj).trans (State.setFld_ent_other _ _ _ _ _ hj)

/-- The descriptor `d` asks for a completion (R274). -/
theorem descAsks_iff (d : Nat) : (d / 2 ^ 7 % 8 ≠ 3 ∧ d / 2 ^ 223 % 2 = 1) ↔ (descDst d ≠ 3 ∧ bit d 223 = true) := by
  rw [bit, beq_iff_eq]
  exact Iff.rfl

theorem descMark_eq (d : Nat) : descMark d = (d / 2 ^ 224 % 16, d / 2 ^ 228 % 16, d / 2 ^ 218 % 32) := rfl

theorem State.copyCommitted_only (s : State) (t : Nat) : { s.copyCommitted t with dict := s.dict, tend := s.tend } = s := rfl

theorem State.queueCompletion_only (s : State) (die : Nat) (e : Nat × Nat × Nat) (l : SMap Nat) (x : Tend) :
    { s.queueCompletion die e with dict := l, tend := x } = { s with dict := l, tend := x } := rfl

/-- A completion in the tree is all that the end of a copy adds to its commitment. -/
theorem State.copyEnds_frame (s : State) (t d : Nat) :
    (s.copyEnds t d).tender t = (s.copyCommitted t).tender t ∧ (∀ k, (s.copyEnds t d).ent k = (s.copyCommitted t).ent k) ∧
      { s.copyEnds t d with dict := s.dict, tend := s.tend } = s := by
  unfold State.copyEnds
  split
  · exact ⟨rfl, fun _ => rfl, (State.queueCompletion_only _ _ _ _ _).trans (s.copyCommitted_only t)⟩
  · exact ⟨rfl, fun _ => rfl, s.copyCommitted_only t⟩

theorem State.copyEnds_compl (s : State) (t d : Nat) : mget [] (s.copyEnds t d).tend.compl (t / 8) =
    if descDst d ≠ 3 ∧ bit d 223 = true then mget [] s.tend.compl (t / 8) ++ [descMark d] else mget [] s.tend.compl (t / 8) := by
  unfold State.copyEnds
  split
  · exact mget_mset_same _ _ _ _
  · rfl

/-- `s` with the first completion of die `die`'s tree delivered, `l` left in it. -/
def State.completionTaken (s : State) (die : Nat) (l : List (Nat × Nat × Nat)) : State :=
  { s with tend := { s.tend with
    compl := mset [] s.tend.compl die l
    complAt := mset 0 s.tend.complAt die (s.clk + 1) } }

section Delivery

variable {die row col cm : Nat} {l : List (Nat × Nat × Nat)} (hd : die < 2) (hc : mget [] s.tend.compl die = (row, col, cm) :: l)

include hd hc

/-- R274: a tree delivers one completion in a clk. -/
theorem execCompletionDelivery_waits (h : s.clk < mget 0 s.tend.complAt die) : execCompletionDelivery die s = .next s := by
  unfold execCompletionDelivery
  rw [if_pos hd, hc]
  exact if_pos h

/-- R274: the first completion of the tree sets its mark at its tile. -/
theorem execCompletionDelivery_delivers (h : mget 0 s.tend.complAt die ≤ s.clk) (hr : row < 8) (hv : col < vcols s.grade) :
    execCompletionDelivery die s = .next ((s.completionTaken die l).plan (s.ptile row col)
      [s.pendAt 0x7FFF 5 0 (.cmark cm true)]) := by
  unfold execCompletionDelivery
  rw [if_pos hd, hc]
  exact (if_neg (Nat.not_lt.mpr h)).trans (if_pos ⟨hr, hv⟩)

end Delivery

end CopyEnds

section TileWrites

variable {s : State} {p : Nat} {l : List Pend}

theorem State.With.refl (s : State) (p : Nat) : s.With p s.clk (s.tile p) s := ⟨rfl, rfl, rfl, fun _ _ => rfl⟩

/-- Writes due in a clk, no two of which meet, take effect, the marks set among them last (R206, R252). -/
theorem State.tickTile_writes (hl : (s.tile p).due s.clk = l) (hne : l ≠ []) (hr : ∀ d ∈ l, d.act.isRead = false)
    (hcl : clashes (l.filter (fun d => !d.act.setsMark) ++ l.filter (fun d => d.act.setsMark)) = [])
    (hn : (s.tile p).noWrite ≠ some s.clk) :
    (s.tickTile p).1 = (l.filter (fun d => !d.act.setsMark) ++ l.filter (fun d => d.act.setsMark)).foldl
      (fun s d => s.applyAct p d.act) (s.setTile p ((s.tile p).took s.clk)) := by
  have hreads : l.filter (fun d => d.act.isRead) = [] := List.filter_eq_nil_iff.mpr fun d m => by simp [hr d m]
  have hwrites : l.filter (fun d => !d.act.isRead) = l := List.filter_eq_self.mpr fun d m => by simp [hr d m]
  have hl' : (s.tile p).pend.filter (fun d => d.due == s.clk) = l := hl
  have hempty : l.isEmpty = false := by simpa using hne
  unfold State.tickTile
  simp only [hl', hempty, hreads, hwrites, List.flatMap_nil, List.filter_nil, List.append_nil, Bool.false_eq_true, if_false, hcl]
  have hgo : (lowestClash []).isEmpty = true ∧ (s.tile p).noWrite ≠ some s.clk := ⟨rfl, hn⟩
  split
  case isFalse hno => exact absurd hgo hno
  rfl

/-- R252: a mark that is set in this clk at a quiet tile. -/
theorem State.quiet.run_mark (hq : s.quiet p) (cm : Nat) : s.With p s.clk
    { s.tile p with pend := [], cm := mset false (s.tile p).cm cm true }
    ((s.plan p [s.pendAt 0x7FFF 5 0 (.cmark cm true)]).run p 0) := by
  have hw := (State.With.refl s p).plan [s.pendAt 0x7FFF 5 0 (.cmark cm true)]
  have hdue : (((s.plan p [s.pendAt 0x7FFF 5 0 (.cmark cm true)]).tile p)).due
      (s.plan p [s.pendAt 0x7FFF 5 0 (.cmark cm true)]).clk = [s.pendAt 0x7FFF 5 0 (.cmark cm true)] := by
    rw [hw.tile, hw.clk]
    simp [Tile.due, hq.1, State.pendAt]
  have htook : { s.tile p with pend := (s.tile p).pend ++ [s.pendAt 0x7FFF 5 0 (.cmark cm true)] }.took s.clk =
      { s.tile p with pend := [] } := by
    simp [Tile.took, hq.1, State.pendAt]
  have hn : ((s.plan p [s.pendAt 0x7FFF 5 0 (.cmark cm true)]).tile p).noWrite ≠
      some (s.plan p [s.pendAt 0x7FFF 5 0 (.cmark cm true)]).clk := by
    rw [hw.tile, hw.clk]
    exact fun h => Nat.lt_irrefl _ (hq.2 _ h)
  have hrun := State.tickTile_writes hdue (List.cons_ne_nil _ _) (by simp [State.pendAt, Act.isRead]) rfl hn
  rw [hw.tile, hw.clk, htook] at hrun
  have hset := hw.setTile { s.tile p with pend := [] }
  have hact : ((s.plan p [s.pendAt 0x7FFF 5 0 (.cmark cm true)]).run p 0) =
      ((s.plan p [s.pendAt 0x7FFF 5 0 (.cmark cm true)]).setTile p { s.tile p with pend := [] }).applyAct p (.cmark cm true) := hrun
  rw [hact]
  show s.With p s.clk _ (State.setTile _ p { (State.tile _ p) with cm := mset false (State.tile _ p).cm cm true })
  rw [hset.tile]
  exact hset.setTile _

/-- A write of tile SRAM leaves every tile and every entry. -/
theorem State.applyAct_sram_frame (s : State) (p a : Nat) (bs : List Nat) :
    (s.applyAct p (.sram a bs)).tiles = s.tiles ∧ (s.applyAct p (.sram a bs)).dict = s.dict := by
  show ((s.write (sramBase p + a) bs).freshWords p a bs.length).tiles = _ ∧
    ((s.write (sramBase p + a) bs).freshWords p a bs.length).dict = _
  unfold State.freshWords
  split
  · exact ⟨rfl, rfl⟩
  · exact ⟨rfl, rfl⟩

/-- What a tender's word plans at its tile: its bytes, and its mark if it sets one (R273). -/
def State.wordActs (s : State) (a : Nat) (bs : List Nat) (mark : Bool) (cm : Nat) : List Pend :=
  s.pendAt 0x7FFF 5 1 (.sram a bs) :: if mark then [s.pendAt 0x7FFF 5 1 (.cmark cm true)] else []

theorem State.tile_congr {u v : State} (h : u.tiles = v.tiles) (p : Nat) : u.tile p = v.tile p := by
  unfold State.tile
  rw [h]

/-- The clk in which a tender's word is written at its tile, and in which its mark is set. -/
theorem State.With.tick_word {c : Nat} {y : Tile} {w : State} (h : s.With p c y w) {x : Pend} (a : Nat) (bs : List Nat) (mark : Bool)
    (cm : Nat) (hx : x.due = c) (hy : y.pend = { x with act := .sram a bs } :: if mark then [{ x with act := .cmark cm true }] else [])
    (hn : y.noWrite ≠ some c) :
    (w.tickTile p).1.mem = writeBytes s.mem (sramBase p + a) bs ∧ (w.tickTile p).1.dict = s.dict ∧
      (w.tickTile p).1.tile p = { y with pend := [], cm := if mark then mset false y.cm cm true else y.cm } := by
  have hdues : ∀ d ∈ y.pend, d.due = c := by
    rw [hy]
    cases mark <;> simp [hx]
  have hdue : (w.tile p).due w.clk = y.pend := by
    rw [h.tile, h.clk]
    exact List.filter_eq_self.mpr fun d m => by simp [hdues d m]
  have htook : (w.tile p).took w.clk = { y with pend := [] } := by
    rw [h.tile, h.clk]
    have hnone : y.pend.filter (fun d => d.due != c) = [] := List.filter_eq_nil_iff.mpr fun d m => by simp [hdues d m]
    exact congrArg (fun l => { y with pend := l }) hnone
  have hset := h.setTile { y with pend := [] }
  have htick := State.tickTile_writes hdue (by rw [hy]; exact List.cons_ne_nil _ _)
    (by rw [hy]; cases mark <;> simp [Act.isRead]) (by rw [hy]; cases mark <;> rfl) (by rw [h.tile, h.clk]; exact hn)
  rw [htook] at htick
  obtain ⟨htiles, hdict⟩ := State.applyAct_sram_frame (w.setTile p { y with pend := [] }) p a bs
  have hmem := State.applyAct_sram_mem (w.setTile p { y with pend := [] }) p a bs
  have hent : (w.setTile p { y with pend := [] }).dict = s.dict := by
    have := congrArg State.dict hset.same
    exact this
  have htile : ((w.setTile p { y with pend := [] }).applyAct p (.sram a bs)).tile p = { y with pend := [] } :=
    (State.tile_congr htiles p).trans hset.tile
  rw [show (w.setTile p { y with pend := [] }).mem = s.mem from hset.mem] at hmem
  cases mark with
  | false =>
    have hact : (w.tickTile p).1 = (w.setTile p { y with pend := [] }).applyAct p (.sram a bs) := by rw [htick, hy]; rfl
    rw [hact]
    exact ⟨hmem, hdict.trans hent, htile⟩
  | true =>
    have hact : (w.tickTile p).1 = ((w.setTile p { y with pend := [] }).applyAct p (.sram a bs)).applyAct p (.cmark cm true) := by
      rw [htick, hy]; rfl
    rw [hact]
    refine ⟨hmem, hdict.trans hent, (State.setTile_tile_same _ _ _).trans ?_⟩
    rw [htile]
    rfl

/-- R273: a quiet tile writes the word in the next clk, and sets its mark in that clk. -/
theorem State.quiet.run_word (hq : s.quiet p) (a : Nat) (bs : List Nat) (mark : Bool) (cm : Nat) :
    let u := (s.plan p (s.wordActs a bs mark cm)).run p 1
    u.mem = writeBytes s.mem (sramBase p + a) bs ∧ u.dict = s.dict ∧
      u.tile p = { s.tile p with pend := [], cm := if mark then mset false (s.tile p).cm cm true else (s.tile p).cm } := by
  have hplan := (State.With.refl s p).plan (s.wordActs a bs mark cm)
  rw [hq.1, List.nil_append] at hplan
  have hidle := hplan.idle (List.filter_eq_nil_iff.mpr fun d m => by
    have : d.due = s.clk + 1 := by revert m; cases mark <;> simp [State.wordActs, State.pendAt] <;> rintro (rfl | rfl) <;> rfl
    simp [this])
  have h := hidle.next
  intro u
  have hu : u = _ := State.run_last _ _ _
  rw [hu]
  exact h.tick_word (x := s.pendAt 0x7FFF 5 1 (.sram a bs)) a bs mark cm rfl rfl fun e => absurd (hq.2 _ e) (by omega)

end TileWrites

/-- The region `r` is one a tender's word with side bits `side` may be written to, by its tag and its row (R273). -/
def regionTakes (side r : Nat) : Bool :=
  reg_size.of r != 0 && reg_tag.of r == bits side 9 8
    && decide (reg_base.of r ≤ bits side 17 19) && decide (bits side 17 19 < reg_base.of r + reg_size.of r)

theorem regionTakes_iff {side r : Nat} : regionTakes side r = true ↔
    reg_size.of r ≠ 0 ∧ reg_tag.of r = bits side 9 8 ∧ reg_base.of r ≤ bits side 17 19 ∧
      bits side 17 19 < reg_base.of r + reg_size.of r := by
  simp [regionTakes, and_assoc]

section RegionCheck

variable {s : State} {p side i : Nat}

/-- R273: the first region that takes the word decides. -/
theorem State.dataCheck_first (hi : i < 64) (h : regionTakes side (s.region p i) = true)
    (hf : ∀ k, k < i → ¬ regionTakes side (s.region p k) = true) : s.dataCheck p side =
      if reg_tw.of (s.region p i) = 0 then some 5
      else if reg_lock_en.of (s.region p i) = 1 ∧ lockedIn (s.region p i) (s.slotAt (s.clk + 1)) then some 6 else none := by
  have hfind : ((List.range 64).map (s.region p)).find? (regionTakes side) = some (s.region p i) := by
    rw [List.find?_map, Option.map_eq_some_iff]
    refine ⟨i, List.find?_range_eq_some.mpr ⟨h, List.mem_range.mpr hi, fun j hj => ?_⟩, rfl⟩
    have : regionTakes side (s.region p j) = false := by simpa using hf j hj
    simp [this]
  unfold State.dataCheck
  change (match ((List.range 64).map (s.region p)).find? (regionTakes side) with | none => _ | some r => _) = _
  rw [hfind]

theorem State.dataCheck_none (h : ∀ i, i < 64 → ¬ regionTakes side (s.region p i) = true) : s.dataCheck p side = some 5 := by
  have hfind : ((List.range 64).map (s.region p)).find? (regionTakes side) = none := by
    rw [List.find?_map, Option.map_eq_none_iff]
    exact List.find?_range_eq_none.mpr fun j hj => by simpa using h j hj
  unfold State.dataCheck
  change (match ((List.range 64).map (s.region p)).find? (regionTakes side) with | none => _ | some r => _) = _
  rw [hfind]

end RegionCheck

/-- R258: the lock window wraps when its last slot is below its first. -/
theorem lockedIn_iff {r j : Nat} : lockedIn r j = true ↔
    if reg_lock_first.of r ≤ reg_lock_last.of r then reg_lock_first.of r ≤ j ∧ j ≤ reg_lock_last.of r
    else reg_lock_first.of r ≤ j ∨ j ≤ reg_lock_last.of r := by
  unfold lockedIn
  dsimp only
  split <;> simp

section DataWord

variable {s : State} {p c : Nat} {w : Token}

/-- `s` with register `r` of the tileway empty. -/
def State.emptied (s : State) (r : Nat) : State := { s with net := { s.net with regs := mset none s.net.regs r none } }

/-- The state that has noted the cause `c` of a fault at the tender port of tile `p`, of a word from tender `t`. -/
def State.wordRefused (s : State) (p t c : Nat) : State :=
  (s.setFlag (key (0x2700 + p) 1) tmem_tender_fault_seen true).setFld (kTend t) tend_last_fault c

theorem State.setFld_setFld_only (s : State) (k j : Nat) (f g : Fld) (x y : Nat) :
    { (s.setFld k f x).setFld j g y with dict := s.dict } = s := rfl

theorem State.wordRefused_only (s : State) (p t c : Nat) : { s.wordRefused p t c with dict := s.dict } = s :=
  s.setFld_setFld_only _ _ _ _ _ _

theorem State.wordRefused_seen (hp : p < 104) {t : Nat} : (s.wordRefused p t c).fld (key (0x2700 + p) 1) tmem_tender_fault_seen = 1 := by
  have hk : key (0x2700 + p) 1 ≠ kTend t := by unfold kTend key; omega
  unfold State.wordRefused
  rw [State.fld_setFld_ne _ _ _ _ _ _ hk]
  exact State.fld_setFld_same _ _ _ _

variable (hp : tileOk s.grade p = true) (hw : s.reg (regKey p 8) = some w)

include hp hw

/-- R492: the wrapper of a tile under reset takes no word. -/
theorem execTenderDataWord_fenced (hf : s.tileFenced p = true) :
    execTenderDataWord p s = .next (s.emptied (regKey p 8)) := by
  unfold execTenderDataWord
  rw [if_pos hp, hw]
  exact if_pos hf

variable (hf : s.tileFenced p = false)

include hf

theorem execTenderDataWord_faults {t row : Nat} (ht : bits w.side 36 4 = t) (hrow : bits w.side 17 19 = row)
    (h : s.dataCheck p w.side = some c) :
    execTenderDataWord p s = .next (((s.emptied (regKey p 8)).wordRefused p t c).tileFault 5 c p 0x7FFF
      (t + 2 ^ 32 * (w.tag.getD 0 % 2 ^ 32) + 2 ^ 64 * row)) := by
  subst ht hrow
  unfold execTenderDataWord
  rw [if_pos hp, hw]
  refine (if_neg fun h => Bool.noConfusion (hf.symm.trans h)).trans ?_
  change (match s.dataCheck p w.side with | some c => _ | none => _) = _
  rw [h]
  rfl

/-- R273: a word that fails the check faults at its tile, with the cause noted. -/
theorem execTenderDataWord_fails {t row : Nat} (ht : bits w.side 36 4 = t) (hrow : bits w.side 17 19 = row)
    (h : s.dataCheck p w.side = some c) :
    ∃ v : State, { v with dict := s.dict } = s.emptied (regKey p 8) ∧ v.fld (key (0x2700 + p) 1) tmem_tender_fault_seen = 1 ∧
      execTenderDataWord p s = .next (v.tileFault 5 c p 0x7FFF (t + 2 ^ 32 * (w.tag.getD 0 % 2 ^ 32) + 2 ^ 64 * row)) := by
  have hlt : p < 104 := of_decide_eq_true (Bool.and_eq_true_iff.mp hp).1
  exact ⟨(s.emptied (regKey p 8)).wordRefused p t c, State.wordRefused_only _ _ _ _, State.wordRefused_seen hlt,
    execTenderDataWord_faults hp hw hf ht hrow h⟩

theorem execTenderDataWord_writes (h : s.dataCheck p w.side = none) :
    execTenderDataWord p s = .next ((s.emptied (regKey p 8)).plan p
      ((s.emptied (regKey p 8)).wordActs (64 * bits w.side 17 19) (leBytes 64 w.word) (bit w.side 2 && bit w.side 3)
        (bits w.side 4 5))) := by
  unfold execTenderDataWord
  rw [if_pos hp, hw]
  refine (if_neg fun h => Bool.noConfusion (hf.symm.trans h)).trans ?_
  change (match s.dataCheck p w.side with | some c => _ | none => _) = _
  rw [h]
  rfl

end DataWord

end Sys2Proof.Machine

end

section
/-! CLAIM. Copies complete in order; tender words reach the tile (R272 to R274). -/
open Sys2Proof Sys2Proof.Machine

/-- Settles O22: the end of a copy and its delivery are commands of their own, and what a tile plans of a tender's word it writes
in the next clk. -/
theorem copiesCompleteAndReachTheTile : Obligations.CopiesCompleteAndReachTheTile := by
  unfold Obligations.CopiesCompleteAndReachTheTile
  refine ⟨?_, fun s p w hp hw hf => execTenderDataWord_fenced hp hw hf, ?_⟩
  · intro s t r rs ht hq hi hf k e old
    refine ⟨?_, fun die row col cm l hd hc hr hv hquiet => ⟨execCompletionDelivery_waits hd hc, fun hclk => ?_⟩⟩
    · obtain ⟨hout, hcompleted, hent⟩ := s.copyCommitted_counts t
      obtain ⟨htender, hsame, honly⟩ := s.copyEnds_frame t r.word
      refine ⟨_, execTenderCopyDone_done ht hq hi hf, ?_, ?_, ?_, ?_, honly, ?_⟩
      · exact htender.trans (State.copyCommitted_tender hq)
      · exact (congrArg tend_outstanding.of (hsame _)).trans hout
      · exact (congrArg tend_completed.of (hsame _)).trans hcompleted
      · exact fun j hj => (hsame j).trans (hent j hj)
      · rw [State.copyEnds_compl]
        simp only [← descAsks_iff, descMark_eq]
        rfl
    · have hrun := State.quiet.run_mark (s := s.completionTaken die l) hquiet cm
      refine ⟨(s.completionTaken die l).plan _ _, execCompletionDelivery_delivers hd hc hclk hr hv, rfl, ?_⟩
      intro p y
      have hy : y = _ := hrun.tile
      have hdict := congrArg State.dict hrun.same
      rw [hy]
      exact ⟨mget_mset_same false (s.tile p).cm cm true, fun c hne => mget_mset_other false (s.tile p).cm cm c true hne, rfl, rfl, rfl,
        hrun.mem, hdict⟩
  · intro s p w hp hw hf row tag cm j holds inWin fails
    have hholds : ∀ {r}, holds r ↔ regionTakes w.side r = true := regionTakes_iff.symm
    have hwin : ∀ {r}, inWin r ↔ lockedIn r (s.slotAt (s.clk + 1)) = true := lockedIn_iff.symm
    have hfails : ∀ {c}, s.dataCheck p w.side = some c → fails c := fun h => execTenderDataWord_fails hp hw hf rfl rfl h
    refine ⟨fun i hi h hfirst htw hquiet hopen => ?_, fun i hi h hfirst htw hen hin => hfails ?_,
      fun i hi h hfirst htw => hfails ?_, fun h => hfails (State.dataCheck_none fun i hi => mt hholds.mpr (h i hi))⟩
    · have hchk : s.dataCheck p w.side = none := by
        rw [State.dataCheck_first hi (hholds.mp h) fun k hk => mt hholds.mpr (hfirst k hk), if_neg htw, if_neg]
        rintro ⟨hen, hin⟩
        exact hopen.elim (· hen) (· (hwin.mpr hin))
      obtain ⟨hmem, hdict, htile⟩ := State.quiet.run_word (s := s.emptied (regKey p 8)) hquiet (64 * bits w.side 17 19)
        (leBytes 64 w.word) (bit w.side 2 && bit w.side 3) (bits w.side 4 5)
      refine ⟨_, execTenderDataWord_writes hp hw hf hchk, ?_, fun c => ?_, (congrArg Tile.s htile).trans rfl,
        (congrArg Tile.a htile).trans rfl, hdict⟩
      · have hstores := stores_writeBytes s.mem (sramBase p + 64 * row)
          ((List.range 64).map fun b => BitVec.ofNat 8 (w.word / 2 ^ (8 * b)))
        rw [← leBytes_eq_map] at hstores
        exact hmem ▸ hstores
      · refine (congrArg (fun y => mget false (Tile.cm y) c) htile).trans ?_
        have hmark : (w.side / 4 % 2 = 1 ∧ w.side / 8 % 2 = 1) ↔ (bit w.side 2 && bit w.side 3) = true := by
          rw [Bool.and_eq_true, bit, bit, beq_iff_eq, beq_iff_eq]
          exact Iff.rfl
        by_cases hm : (bit w.side 2 && bit w.side 3) = true
        · rw [if_pos hm, mget_mset]
          simp only [hmark, hm, and_true]
          rfl
        · rw [if_neg hm]
          exact (if_neg fun h => hm (hmark.mp h.2)).symm
    · rw [State.dataCheck_first hi (hholds.mp h) fun k hk => mt hholds.mpr (hfirst k hk), if_neg, if_pos ⟨hen, hwin.mp hin⟩]
      exact htw
    · rw [State.dataCheck_first hi (hholds.mp h) fun k hk => mt hholds.mpr (hfirst k hk), if_pos htw]

end

section
/-! SUPPORT. A copy that reads a course slot with a known uncorrectable word: the unit is in service, and the copy fails all the
same (R275, R535). -/

namespace Sys2Proof.Machine

open Sys2Proof.Tests

/-- A request whose one fragment, of quay 0, tender 0 is copying. -/
def badReq : Req :=
  { seq := 0, origin := 1, frame := 0, accept := 0, raw := 0, pre := 0, post := 0, mask := 1, link := false, window := false,
    doubt := false, stage := 1, issued := 1, busy := [(0, 0)], offset := some 0 }

/-- HBM stack 0 and DDR4 channel 0 are in service, the copy of `badReq` stands at the head of tender 0, and the first word of
the course slot it reads is known to be uncorrectable. -/
def badSlot : State :=
  { put State.reset [(key 0x27A0 1, munit_in_service, 1), (key 0x27B0 1, munit_in_service, 1)] with
    tend := { t := [(0, { queue := [{ seq := 0, word := 0, source := 1, frag := some (0, 0) }] })], badMem := [hbmBase 0 / 64] }
    cap := { reqs := [badReq] } }

/-- No unit of the copy is out of service, and a word of its course slot is known to be uncorrectable. -/
theorem badSlot_copy : badSlot.copyDown badReq 0 = false ∧ badSlot.copyBad badReq 0 = true := by decide +kernel

theorem State.leaveTender_cap (s : State) (t : Nat) (ok : Bool) : (s.leaveTender t ok).cap = s.cap := by cases ok <;> rfl

theorem State.noteBadCopy_cap (s : State) (r : Req) (k : Nat) : (s.noteBadCopy r k).cap = s.cap := by
  unfold State.noteBadCopy
  dsimp only
  split
  · rfl
  · rfl

theorem State.freshMem_cap (s : State) (a n : Nat) : (s.freshMem a n).cap = s.cap := by
  unfold State.freshMem
  split
  · rfl
  · rfl

theorem State.ddrWrite_cap (s : State) (a : Nat) (bs : List Nat) : (s.ddrWrite a bs).cap = s.cap := by
  unfold State.ddrWrite
  split
  · exact State.freshMem_cap _ _ _
  · exact State.freshMem_cap _ _ _

theorem State.putFrag_cap (s : State) (r : Req) (k : Nat) (bs : List Nat) : (s.putFrag r k bs).cap = s.cap := by
  unfold State.putFrag
  split
  · exact State.freshMem_cap _ _ _
  · split
    · exact State.ddrWrite_cap _ _ _
    · rfl

/-- A copy that failed and may be retried: it leaves its tender, and its reread says that it failed. -/
theorem State.endCopy_fails {s : State} {r : Req} {k : Nat} (t : Nat) (ha : s.cap.aborted = []) (ho : r.origin ≠ 2)
    (hr : bit r.retry k = false) : s.endCopy r k t false = (s.leaveTender t false).putReq
      { r with busy := r.busy.filter (fun e => e.1 != k), reread := r.reread ++ [(k, false, (s.leaveTender t false).clk)] } := by
  unfold State.endCopy
  dsimp only
  rw [if_neg Bool.false_ne_true, State.leaveTender_cap, ha, if_neg (by simp), if_neg (by simp [ho, hr])]

/-- What of `badReq` stays when its copy has ended so. -/
def badReqAfter (ok : Bool) (clk : Nat) : Req := { badReq with busy := [], reread := [(0, ok, clk)] }

theorem putReq_badReqAfter {u : State} (hu : u.cap = badSlot.cap) (ok : Bool) (clk : Nat) :
    (u.putReq (badReqAfter ok clk)).cap.reqs = [badReqAfter ok clk] := by
  unfold State.putReq
  rw [hu]
  rfl

/-- The model: the copy has failed, and so says its reread. -/
theorem badSlot_copyDone : exec (.fragmentCopyDone 0 0 true) badSlot =
    .next (((badSlot.noteBadCopy badReq 0).leaveTender 0 false).putReq (badReqAfter false badSlot.clk)) := by
  obtain ⟨hdown, hbad⟩ := badSlot_copy
  have hfine : (true && !badSlot.copyDown badReq 0 && !badSlot.copyBad badReq 0) = false := by rw [hdown, hbad]; rfl
  show Host.Outcome.next ((if (true && !badSlot.copyDown badReq 0 && !badSlot.copyBad badReq 0) = true then badSlot
    else badSlot.noteBadCopy badReq 0).endCopy badReq 0 0 (true && !badSlot.copyDown badReq 0 && !badSlot.copyBad badReq 0)) = _
  rw [hfine, if_neg Bool.false_ne_true, State.endCopy_fails 0 (congrArg Cap.aborted (State.noteBadCopy_cap _ _ _)) (by decide) rfl]
  rfl

end Sys2Proof.Machine

end
section
/-! CLAIM. Requests start, fragments are copied and reread (R267, R268, R275, R327, R328, R337, R344, R347). -/
open Sys2Proof Sys2Proof.Machine

/-- Refutes O36: a copy is stated to commit wherever no stack or channel it uses is out of service, and one that reads a word known
to be uncorrectable fails (`badSlot`; R275, R535). -/
theorem not_fragmentsAreCopiedAndReread : ¬ Obligations.FragmentsAreCopiedAndReread := by
  intro h
  obtain ⟨-, -, hcopy, -⟩ := h badSlot badReq 0
  obtain ⟨hcommits, -, -⟩ := hcopy 0 true rfl rfl
  obtain ⟨hdown, -⟩ := badSlot_copy
  have hdone := hcommits (by simp [badSlot]) (by decide) (.inl (by rw [hdown]; rfl))
  rw [hdown] at hdone
  have hreqs := congrArg (fun u => u.cap.reqs) (Host.Outcome.next.inj (badSlot_copyDone.symm.trans hdone))
  have hmodel := putReq_badReqAfter (u := (badSlot.noteBadCopy badReq 0).leaveTender 0 false)
    ((State.leaveTender_cap _ _ _).trans (State.noteBadCopy_cap _ _ _)) false badSlot.clk
  refine absurd (hmodel.symm.trans (hreqs.trans (putReq_badReqAfter ?_ true badSlot.clk))) (by decide)
  rw [if_pos (by rfl), State.putFrag_cap, State.leaveTender_cap]
  rfl

end

section
/-! SUPPORT. Window cards (R273, R339): what the descriptors of the cards change, and the one of a card's own. -/

namespace Sys2Proof.Machine

section Cards

variable {s t u : State}

/-- `u` is `s` but for its tenders, its tenders' entries and the cards that wait. -/
structure State.CardsOnly (s u : State) : Prop where
  net : u.net = s.net
  mem : u.mem = s.mem
  reqs : u.cap.reqs = s.cap.reqs
  slots : u.cap.slots = s.cap.slots
  next : u.cap.nextSlot = s.cap.nextSlot

theorem State.CardsOnly.refl (s : State) : s.CardsOnly s := ⟨rfl, rfl, rfl, rfl, rfl⟩

theorem State.CardsOnly.trans (h : s.CardsOnly t) (h' : t.CardsOnly u) : s.CardsOnly u :=
  ⟨h'.net.trans h.net, h'.mem.trans h.mem, h'.reqs.trans h.reqs, h'.slots.trans h.slots, h'.next.trans h.next⟩

/-- The descriptor word of a window card at tender `t` (R339). -/
def cardWord (t row tag cm : Nat) : Nat := t + 2 ^ 7 * 3 + 2 ^ 62 * row + 2 ^ 192 * tag + 2 ^ 218 * cm + 2 ^ 223

/-- `s` with the first card gone. -/
def State.cardGone (s : State) : State := { s with cap := { s.cap with cards := s.cap.cards.drop 1 } }

/-- What becomes of the first card that waits, `v` (R268, R271, R339). -/
def State.issueCard (s : State) (v : Nat) : State :=
  let t := (s.nextTender 0).getD 0
  if s.tenderFull t then s
  else if s.tenderFenced t then s.refuseCopy t
  else
    let p := s.ptile (s.fld kWslot wslot_card_row_tile % 16) (s.fld kWslot wslot_card_row_tile / 16)
    let row := s.fld kWslot wslot_card_row
    let d := t + 2 ^ 7 * 3 + 2 ^ 62 * row + 2 ^ 192 * s.cardTag p row + 2 ^ 218 * s.fld kWslot wslot_card_cm + 2 ^ 223
    let s := { s with cap := { s.cap with cards := s.cap.cards.drop 1 } }
    if !s.descSpaceOk (t / 8) d then s.refuseCopy t
    else (s.enterDesc t { seq := 0, word := d, source := 1, clk := s.clk, rank := 40, card := some v }).bump (kTend t) tend_outstanding

theorem State.issueCards_eq (s : State) : s.issueCards = s.cap.cards.foldl State.issueCard s := rfl

theorem State.bump_cardsOnly (s : State) (k : Nat) (f : Fld) : s.CardsOnly (s.bump k f) := ⟨rfl, rfl, rfl, rfl, rfl⟩

theorem State.refuseCopy_cardsOnly (s : State) (t : Nat) : s.CardsOnly (s.refuseCopy t) := by
  have hrot : s.CardsOnly { s with cap := { s.cap with rotTender := mset 7 s.cap.rotTender (t / 8) (t % 8) } } :=
    ⟨rfl, rfl, rfl, rfl, rfl⟩
  exact hrot.trans (State.bump_cardsOnly _ _ _)

theorem State.enterDesc_cardsOnly (s : State) (t : Nat) (r : DescRec) : s.CardsOnly (s.enterDesc t r) := ⟨rfl, rfl, rfl, rfl, rfl⟩

theorem State.issueCard_cardsOnly (s : State) (v : Nat) : s.CardsOnly (s.issueCard v) := by
  have hgone : s.CardsOnly { s with cap := { s.cap with cards := s.cap.cards.drop 1 } } := ⟨rfl, rfl, rfl, rfl, rfl⟩
  unfold State.issueCard
  extract_lets t p row d c z
  split
  · exact .refl s
  · split
    · exact s.refuseCopy_cardsOnly t
    · split
      · exact hgone.trans (z.refuseCopy_cardsOnly t)
      · exact (hgone.trans (z.enterDesc_cardsOnly t _)).trans (State.bump_cardsOnly _ _ _)

theorem State.issueCards_cardsOnly (s : State) : s.CardsOnly s.issueCards := by
  rw [State.issueCards_eq]
  generalize s.cap.cards = l
  induction l generalizing s with
  | nil => exact .refl s
  | cons v l ih =>
    rw [List.foldl_cons]
    exact (s.issueCard_cardsOnly v).trans (ih (s.issueCard v))

section Word

variable {t row tag cm : Nat} (ht : t < 8) (hrow : row < 2 ^ 19)

include ht hrow

/-- R339: card_cm is the completion mark of a card's word, at row card_row of tile SRAM. -/
theorem cardWord_names (htag : tag < 2 ^ 8) (hcm : cm < 2 ^ 5) :
    cardWord t row tag cm / 2 ^ 218 % 32 = cm ∧ cardWord t row tag cm / 2 ^ 223 % 2 = 1 ∧
    cardWord t row tag cm / 2 ^ 62 % 2 ^ 19 = row := by
  unfold cardWord
  refine ⟨?_, ?_, ?_⟩ <;> omega

/-- A card is one word, of no memory, for tile SRAM. -/
theorem cardWord_moves : descSrc (cardWord t row tag cm) = 0 ∧ descDst (cardWord t row tag cm) = 3 ∧
    descDstAddr (cardWord t row tag cm) = 64 * row ∧ descLen (cardWord t row tag cm) = 64 ∧ descCount (cardWord t row tag cm) = 0 := by
  unfold descSrc descDst descDstAddr descLen descElem descCount bits cardWord
  refine ⟨?_, ?_, ?_, ?_, ?_⟩ <;> omega

/-- R270: tile SRAM ends with row 393,215. -/
theorem cardWord_space (s : State) (die : Nat) : s.descSpaceOk die (cardWord t row tag cm) = decide (row < 393216) := by
  obtain ⟨hsrc, hdst, haddr, hlen, hcount⟩ := cardWord_moves (tag := tag) (cm := cm) ht hrow
  unfold State.descSpaceOk
  simp only [hsrc, hdst, haddr, hlen, hcount, spanOk, elemAt, Nat.zero_add, List.range_one, List.all_cons, List.all_nil, Nat.cast_zero,
    zero_mul, add_zero, beq_self_eq_true, Bool.true_or, Bool.and_true, Bool.true_and]
  rw [← Bool.decide_and, decide_eq_decide]
  omega

end Word

theorem State.nextTender_lt (s : State) : (s.nextTender 0).getD 0 < 8 := by
  cases h : s.nextTender 0 with
  | none => exact Nat.zero_lt_succ 7
  | some t =>
    obtain ⟨i, -, rfl⟩ := List.mem_map.mp (List.mem_of_find?_eq_some h)
    rw [Option.getD_some]
    omega

theorem State.cardTag_lt (s : State) (p row : Nat) : s.cardTag p row < 2 ^ 8 := by
  unfold State.cardTag
  split
  · exact Nat.mod_lt _ (Nat.two_pow_pos _)
  · exact Nat.two_pow_pos _

/-! ### The first card that waits -/

section First

variable {v : Nat} (hfull : s.tenderFull ((s.nextTender 0).getD 0) = false) (hfence : s.tenderFenced ((s.nextTender 0).getD 0) = false)

/-- R268: a card waits for a free entry. -/
theorem State.issueCard_waits (h : s.tenderFull ((s.nextTender 0).getD 0) = true) : s.issueCard v = s := by
  unfold State.issueCard
  exact if_pos h

include hfull hfence

/-- A tender in service with a free entry judges the card by its row. -/
theorem State.issueCard_judges : ∃ d : DescRec, s.issueCard v =
      (if s.fld kWslot wslot_card_row < 393216 then (s.cardGone.enterDesc ((s.nextTender 0).getD 0) d).bump
          (kTend ((s.nextTender 0).getD 0)) tend_outstanding
        else s.cardGone.refuseCopy ((s.nextTender 0).getD 0)) ∧
    d.card = some v ∧ d.source = 1 ∧ d.clk = s.clk ∧ d.word / 2 ^ 218 % 32 = s.fld kWslot wslot_card_cm ∧
    d.word / 2 ^ 223 % 2 = 1 ∧ d.word / 2 ^ 62 % 2 ^ 19 = s.fld kWslot wslot_card_row := by
  unfold State.issueCard
  extract_lets t p row d c z
  have ht : t < 8 := s.nextTender_lt
  have hrow : row < 2 ^ 19 := Nat.mod_lt _ (Nat.two_pow_pos _)
  have hspace : z.descSpaceOk (t / 8) d = decide (row < 393216) := cardWord_space ht hrow z (t / 8)
  obtain ⟨hcm, hmark, hr⟩ := cardWord_names ht hrow (s.cardTag_lt p row)
    (show s.fld kWslot wslot_card_cm < 2 ^ 5 from Nat.mod_lt _ (Nat.two_pow_pos _))
  unfold cardWord at hcm hmark hr
  refine ⟨{ seq := 0, word := d, source := 1, clk := s.clk, rank := 40, card := some v }, ?_, rfl, rfl, rfl, hcm, hmark, hr⟩
  refine (if_neg (by simp [t, hfull])).trans ((if_neg (by simp [t, hfence])).trans ?_)
  by_cases h : row < 393216
  · rw [decide_eq_true h] at hspace
    rw [if_pos h]
    exact if_neg (by rw [hspace]; decide)
  · rw [decide_eq_false h] at hspace
    rw [if_neg h]
    exact if_pos (by rw [hspace]; rfl)

end First

/-- `s` with window slot `z` bound to the request of record_seq `q`, if any, and card `v` waiting. -/
def State.slotBound (s : State) (z : Nat) (q : Option Nat) (v : Nat) : State :=
  { s with cap := { s.cap with nextSlot := z + 1, slots := mset none s.cap.slots z q, cards := s.cap.cards ++ [v] } }

/-- What a card reads lies outside the capture logic's own state. -/
theorem State.windowCard_cap (s : State) (c : Cap) (z : Nat) (r : Option Req) :
    State.windowCard { s with cap := c } z r = s.windowCard z r := by
  have hmap : ∀ d i, State.hbmMap { s with cap := c } d i = s.hbmMap d i := fun _ _ => rfl
  have hfld : ∀ k f, State.fld { s with cap := c } k f = s.fld k f := fun _ _ => rfl
  unfold State.windowCard
  cases r with
  | none => rfl
  | some r => simp only [hmap, hfld]

/-- R338: slot `z` binds the oldest window, `r`, which is whole or not. -/
structure State.SlotBinds (s : State) (z : Nat) (r : Req) : Prop where
  bound : s.job.bound = true
  active : s.active = true
  length : 0 < s.fld kWslot wslot_slot_length
  clk : s.clk + s.fld kWslot wslot_window_lead = s.job.s0 + s.fld kWslot wslot_window_offset + z * s.fld kWslot wslot_slot_length
  fresh : s.cap.nextSlot ≤ z
  oldest : s.cap.reqs.find? (fun r => r.window && decide (r.stage < 3)) = some r

section Binds

variable {z : Nat} {r : Req} (h : s.SlotBinds z r)

include h

theorem State.SlotBinds.slot :
    (s.clk + s.fld kWslot wslot_window_lead - (s.job.s0 + s.fld kWslot wslot_window_offset)) / s.fld kWslot wslot_slot_length = z ∧
    (s.clk + s.fld kWslot wslot_window_lead - (s.job.s0 + s.fld kWslot wslot_window_offset)) % s.fld kWslot wslot_slot_length = 0 ∧
    s.job.s0 + s.fld kWslot wslot_window_offset ≤ s.clk + s.fld kWslot wslot_window_lead := by
  rw [h.clk, Nat.add_sub_cancel_left]
  exact ⟨Nat.mul_div_cancel _ h.length, Nat.mul_mod_left _ _, Nat.le_add_right _ _⟩

theorem execWindowSlotBind_whole (h2 : r.stage = 2) : execWindowSlotBind s =
    .next ((s.slotBound z (some r.seq) (s.windowCard z (some r))).issueCards.putReq { r with stage := 3, slot := z }) := by
  obtain ⟨hz, hmod, hfrom⟩ := h.slot
  unfold execWindowSlotBind
  dsimp only
  rw [hz, if_pos ⟨h.bound, h.active, h.length, hfrom, hmod, h.fresh⟩, State.windowCard_cap, h.oldest]
  dsimp only
  rw [if_pos h2]
  rfl

theorem execWindowSlotBind_open (h2 : r.stage ≠ 2) : execWindowSlotBind s =
    .next (s.slotBound z none (s.windowCard z none)).issueCards := by
  obtain ⟨hz, hmod, hfrom⟩ := h.slot
  unfold execWindowSlotBind
  dsimp only
  rw [hz, if_pos ⟨h.bound, h.active, h.length, hfrom, hmod, h.fresh⟩, State.windowCard_cap, h.oldest]
  dsimp only
  rw [if_neg h2]
  rfl

end Binds

/-- A slot that is bound with a card: the queue stays, and the card is issued if none was waiting. -/
theorem State.slotBound_issues (s : State) (z : Nat) (q : Option Nat) (v : Nat) :
    let u := (s.slotBound z q v).issueCards
    (mget none u.cap.slots z = q ∧ u.cap.nextSlot = z + 1 ∧ u.cap.reqs = s.cap.reqs ∧ u.net = s.net ∧ u.mem = s.mem) ∧
      (s.cap.cards = [] → u = (s.slotBound z q v).issueCard v) := by
  have h := (s.slotBound z q v).issueCards_cardsOnly
  refine ⟨⟨?_, h.next, h.reqs, h.net, h.mem⟩, fun hc => ?_⟩
  · rw [h.slots]
    exact mget_mset_same _ _ _ _
  · rw [State.issueCards_eq, show (s.slotBound z q v).cap.cards = [v] by simp [State.slotBound, hc], List.foldl_cons, List.foldl_nil]

/-- What slot binding leaves to the card: the tenders and their entries. -/
theorem State.slotBound_frame (s : State) (z : Nat) (q : Option Nat) (v : Nat) :
    let w := s.slotBound z q v
    w.nextTender 0 = s.nextTender 0 ∧ (∀ t, w.tenderFull t = s.tenderFull t ∧ w.tenderFenced t = s.tenderFenced t) ∧
      (∀ k f, w.fld k f = s.fld k f) ∧ ∀ t, w.tender t = s.tender t := ⟨rfl, fun _ => ⟨rfl, rfl⟩, fun _ _ => rfl, fun _ => rfl⟩

theorem State.refuseCopy_cardGone (s : State) (t : Nat) : (s.cardGone.refuseCopy t).cap.cards = s.cap.cards.drop 1 ∧
    (s.cardGone.refuseCopy t).tender t = s.tender t ∧
    (s.cardGone.refuseCopy t).fld (kTend t) tend_refusals = s.oneMore (kTend t) tend_refusals :=
  ⟨rfl, rfl, State.bump_fld_same _ _ _⟩

theorem State.enterDesc_cap (s : State) (c : Cap) (t : Nat) (d : DescRec) (k : Nat) (f : Fld) :
    ((State.enterDesc { s with cap := c } t d).bump k f).tender t = (s.enterDesc t d).tender t ∧
    ((State.enterDesc { s with cap := c } t d).bump k f).cap = c := ⟨rfl, rfl⟩

/-- R339: the card of a slot, where no other waits. -/
theorem State.slotBound_card (s : State) (z : Nat) (q : Option Nat) (v : Nat) (hc : s.cap.cards = []) :
    let u := (s.slotBound z q v).issueCards
    let t := (s.nextTender 0).getD 0
    (s.tenderFull t = true → u.cap.cards = [v]) ∧
    (s.tenderFull t = false → s.tenderFenced t = false → 393216 ≤ s.fld kWslot wslot_card_row → u.cap.cards = [] ∧
      u.tender t = s.tender t ∧ u.fld (kTend t) tend_refusals = s.oneMore (kTend t) tend_refusals) ∧
    (s.tenderFull t = false → s.tenderFenced t = false → s.fld kWslot wslot_card_row < 393216 → u.cap.cards = [] ∧
      ∃ d : DescRec, u.tender t = (s.enterDesc t d).tender t ∧ d.card = some v ∧ d.source = 1 ∧ d.clk = s.clk ∧
        d.word / 2 ^ 218 % 32 = s.fld kWslot wslot_card_cm ∧ d.word / 2 ^ 223 % 2 = 1 ∧
        d.word / 2 ^ 62 % 2 ^ 19 = s.fld kWslot wslot_card_row) := by
  have hcards : (s.slotBound z q v).cap.cards = [v] := by simp [State.slotBound, hc]
  have hissue := (s.slotBound_issues z q v).2 hc
  obtain ⟨hnext, hst, hfld, htend⟩ := s.slotBound_frame z q v
  intro u t
  have hu : u = _ := hissue
  rw [hu]
  refine ⟨fun hfull => ?_, fun hfull hfence hrow => ?_, fun hfull hfence hrow => ?_⟩
  · rw [State.issueCard_waits (s := s.slotBound z q v) hfull, hcards]
  · obtain ⟨d, hd, -⟩ := State.issueCard_judges (s := s.slotBound z q v) (v := v) hfull hfence
    rw [hfld, hnext, if_neg (Nat.not_lt.mpr hrow)] at hd
    rw [hd]
    obtain ⟨hcard, htender, href⟩ := (s.slotBound z q v).refuseCopy_cardGone t
    exact ⟨by rw [hcard, hcards]; rfl, htender, href⟩
  · obtain ⟨d, hd, hnames⟩ := State.issueCard_judges (s := s.slotBound z q v) (v := v) hfull hfence
    rw [hfld, hnext, if_pos hrow] at hd
    rw [hd]
    obtain ⟨htender, hcap⟩ := s.enterDesc_cap (s.slotBound z q v).cardGone.cap t d (kTend t) tend_outstanding
    refine ⟨?_, d, htender, hnames⟩
    have : (s.slotBound z q v).cardGone.cap.cards = [] := by
      show (s.slotBound z q v).cap.cards.drop 1 = []
      rw [hcards]
      rfl
    exact (congrArg Cap.cards hcap).trans this

end Cards

section Verdicts

variable {s : State} {p z q : Nat} {m : MarkRec} {r : Req}

/-- `s` with the mark `m` taken. -/
def State.markTaken (s : State) (m : MarkRec) : State := { s with dec := { s.dec with marks := s.dec.marks.filter (fun x => x != m) } }

/-- `s` with the first verdict of slot `z` come. -/
def State.judged (s : State) (z : Nat) : State := { s with cap := { s.cap with verdicts := z :: s.cap.verdicts } }

section Mark

variable (hp : tileOk s.grade p = true) (hm : s.dec.marks.find? (fun m => m.arrive == s.clk && m.window && m.tile == p) = some m)
  (hq : mget none s.cap.slots m.frame = some q)

include hp hm hq

/-- R341: a verdict of a slot by those before it and its verdict clk. -/
theorem execVerdictMark_slot : execVerdictMark p s =
    if s.cap.verdicts.contains m.frame then .next ((s.markTaken m).capCount 10)
    else if s.verdictClk m.frame < s.clk then .next ((s.markTaken m).capCount 9)
    else match s.findReq q with
      | none => .next ((s.markTaken m).judged m.frame)
      | some r => if r.stage ≠ 3 then .next ((s.markTaken m).judged m.frame)
        else if 0 < m.value then .next (((s.markTaken m).judged m.frame).keepWindow { r with result := 1, score := m.value })
        else .next (((s.markTaken m).judged m.frame).putReq { r with stage := 5, score := m.value }) := by
  unfold execVerdictMark
  rw [if_pos hp, hm]
  dsimp only
  rw [hq]
  rfl

theorem execVerdictMark_extra (h : m.frame ∈ s.cap.verdicts) : execVerdictMark p s = .next ((s.markTaken m).capCount 10) := by
  rw [execVerdictMark_slot hp hm hq, if_pos (List.contains_iff_mem.mpr h)]

theorem execVerdictMark_late (h : m.frame ∉ s.cap.verdicts) (hclk : s.verdictClk m.frame < s.clk) :
    execVerdictMark p s = .next ((s.markTaken m).capCount 9) := by
  rw [execVerdictMark_slot hp hm hq, if_neg (mt List.contains_iff_mem.mp h), if_pos hclk]

/-- R341, R342: the first verdict in time keeps a window or drops it. -/
theorem execVerdictMark_judges (hf : s.findReq q = some r) (h : m.frame ∉ s.cap.verdicts) (hclk : s.clk ≤ s.verdictClk m.frame)
    (h3 : r.stage = 3) : execVerdictMark p s =
      if 0 < m.value then .next (((s.markTaken m).judged m.frame).keepWindow { r with result := 1, score := m.value })
      else .next (((s.markTaken m).judged m.frame).putReq { r with stage := 5, score := m.value }) := by
  rw [execVerdictMark_slot hp hm hq, if_neg (mt List.contains_iff_mem.mp h), if_neg (Nat.not_lt.mpr hclk), hf]
  exact if_neg (not_not_intro h3)

end Mark

/-- R341, R342: the end of the verdict clk of a slot with its request in it. -/
theorem execVerdictDeadline_slot (hq : mget none s.cap.slots z = some q) (hf : s.findReq q = some r) (hslot : r.slot = z)
    (hclk : s.verdictClk z ≤ s.clk) (hno : s.verdictComes z = false) : execVerdictDeadline z s =
      if r.stage = 5 then .next ((s.capCount 6).dropReq q)
      else if r.stage = 3 then .next (s.keepWindow { r with result := 2 }) else .next s := by
  unfold execVerdictDeadline
  rw [hq]
  refine (if_pos ⟨hclk, by rw [hno]; rfl⟩).trans ?_
  rw [hf]
  exact if_neg (not_not_intro hslot)

/-- R341: a verdict that comes in this clk goes before the deadline. -/
theorem execVerdictDeadline_comes (hq : mget none s.cap.slots z = some q) (h : s.verdictComes z = true) :
    execVerdictDeadline z s = .next s := by
  unfold execVerdictDeadline
  rw [hq]
  exact if_neg fun hh => by simp [h] at hh

/-! ### The copies of a kept window (R342, R347) -/

theorem execWindowCopyDone_started (hf : s.findReq r.seq = some r) (h4 : r.stage = 4) (hs : s.windowStarted r = true) :
    execWindowCopyDone r.seq s = .next (((s.moveWindow r).leaveWindow r).finishReq { r with bits := s.windowBits r }
      (if popCount r.count (s.windowBits r) = r.count then 1 else 2)) := by
  unfold execWindowCopyDone
  rw [hf]
  exact if_pos ⟨h4, hs⟩

theorem execWindowCopyDone_waits (hf : s.findReq r.seq = some r) (hs : s.windowStarted r = false) :
    execWindowCopyDone r.seq s = .next s := by
  unfold execWindowCopyDone
  rw [hf]
  exact if_neg fun h => Bool.noConfusion (hs.symm.trans h.2)

theorem execWindowCopyDone_aborted (hf : s.findReq r.seq = none)
    (hab : s.cap.aborted.find? (fun x => x.seq == r.seq && x.stage == 4) = some r) :
    execWindowCopyDone r.seq s = .next ((s.leaveWindow r).endAborted r) := by
  unfold execWindowCopyDone
  rw [hf]
  dsimp only
  rw [hab]

end Verdicts

end Sys2Proof.Machine

end
section
/-! CLAIM. Window slots bind, verdicts judge (R273, R338, R339, R341, R342). -/
open Sys2Proof Sys2Proof.Machine

/-- Settles O38: the slot, its card and its verdict are commands of their own, each by its cases. -/
theorem windowSlotsBindAndJudge : Obligations.WindowSlotsBindAndJudge := by
  unfold Obligations.WindowSlotsBindAndJudge
  intro s z len from_ card
  refine ⟨fun r hb ha hl ht hn hr => ?_, fun p m q r hp hm hz hq hf => ?_, fun q r hq hf hslot hclk hno => ?_,
    fun r hf h4 => ⟨fun hs => ?_, fun hs => ?_⟩, fun r hf hab => ?_, fun q hq hcomes => ?_⟩
  · have hbinds : s.SlotBinds z r := ⟨hb, ha, hl, ht, hn, hr⟩
    refine ⟨fun h2 => ⟨_, execWindowSlotBind_whole hbinds h2, ?_⟩, fun h2 => ⟨_, execWindowSlotBind_open hbinds h2, ?_⟩⟩
    · obtain ⟨⟨hslot, hnext, hreqs, hnet, hmem⟩, -⟩ := s.slotBound_issues z (some r.seq) (s.windowCard z (some r))
      have hcard := s.slotBound_card z (some r.seq) (s.windowCard z (some r))
      exact ⟨hslot, hnext, congrArg (List.map _) hreqs, hnet, hmem, fun hc => (hcard hc).1, fun hc => (hcard hc).2.1,
        fun hc => (hcard hc).2.2⟩
    · obtain ⟨⟨hslot, hnext, hreqs, hnet, hmem⟩, -⟩ := s.slotBound_issues z none (s.windowCard z none)
      have hcard := s.slotBound_card z none (s.windowCard z none)
      exact ⟨hslot, hnext, hreqs, hnet, hmem, fun hc => (hcard hc).1, fun hc => (hcard hc).2.1, fun hc => (hcard hc).2.2⟩
  · subst hz
    have hjudges := execVerdictMark_judges hp hm hq hf
    exact ⟨fun hnot hclk h3 => ⟨fun hv => (hjudges hnot hclk h3).trans (if_pos hv),
        fun hv => (hjudges hnot hclk h3).trans (if_neg (not_lt.mpr hv))⟩,
      execVerdictMark_extra hp hm hq, execVerdictMark_late hp hm hq⟩
  · have hdeadline := execVerdictDeadline_slot hq hf hslot hclk hno
    exact ⟨fun h5 => hdeadline.trans (if_pos h5),
      fun h3 => hdeadline.trans ((if_neg (by rw [h3]; decide)).trans (if_pos h3))⟩
  · exact execWindowCopyDone_started hf h4 hs
  · exact execWindowCopyDone_waits hf hs
  · exact execWindowCopyDone_aborted hf hab
  · exact execVerdictDeadline_comes hq hcomes

end

section
/-! SUPPORT. What a fault, a record and a message leave alone (R466, R533, R534, R560): the memories, the tenders' and the patrols'
own state, and every entry but those of the job, its reports and the messages. -/

namespace Sys2Proof.Machine

/-- `t` has the fields of `s` in `P`, its memories, and what its tenders and patrols hold. -/
structure State.Spares (P : Nat → Fld → Prop) (s t : State) : Prop where
  fld : ∀ k f, P k f → t.fld k f = s.fld k f
  tend : t.tend = s.tend
  mem : t.mem = s.mem
  clk : t.clk = s.clk
  grade : t.grade = s.grade

/-- No field of entry `k` is in `P`. -/
def Outside (P : Nat → Fld → Prop) (k : Nat) : Prop := ∀ f, ¬ P k f

namespace State.Spares

variable {P : Nat → Fld → Prop} {s₀ s t : State}

theorem refl (s : State) : Spares P s s := ⟨fun _ _ _ => rfl, rfl, rfl, rfl, rfl⟩

theorem trans {u : State} (h : Spares P s t) (h' : Spares P t u) : Spares P s u :=
  ⟨fun k f hp => (h'.fld k f hp).trans (h.fld k f hp), h'.tend.trans h.tend, h'.mem.trans h.mem, h'.clk.trans h.clk,
    h'.grade.trans h.grade⟩

theorem mono {Q : Nat → Fld → Prop} (h : Spares P s t) (hq : ∀ k f, Q k f → P k f) : Spares Q s t :=
  ⟨fun k f hf => h.fld k f (hq k f hf), h.tend, h.mem, h.clk, h.grade⟩

theorem ite {c : Prop} [Decidable c] (hs : Spares P s₀ s) (ht : Spares P s₀ t) : Spares P s₀ (if c then s else t) := by
  split
  · exact hs
  · exact ht

theorem foldl {α : Type} {f : State → α → State} {l : List α} (h : Spares P s₀ s)
    (hf : ∀ s, ∀ a ∈ l, Spares P s₀ s → Spares P s₀ (f s a)) : Spares P s₀ (l.foldl f s) := by
  induction l generalizing s with
  | nil => exact h
  | cons a l ih =>
    obtain ⟨ha, hl⟩ : (∀ s, Spares P s₀ s → Spares P s₀ (f s a)) ∧ ∀ s, ∀ b ∈ l, Spares P s₀ s → Spares P s₀ (f s b) :=
      ⟨fun s => hf s a (.head l), fun s b hb => hf s b (.tail a hb)⟩
    exact ih (ha s h) hl

/-- An effect on what is neither an entry, a memory nor a tender. -/
theorem upd {pending free tiles net land dec cap job berth time ctl rst recd sec tele flt out} (h : Spares P s₀ s) :
    Spares P s₀ ⟨pending, s.clk, free, s.grade, s.stepping, s.dict, s.mem, tiles, net, s.tend, land, dec, cap, job, berth, time, ctl,
      rst, recd, sec, tele, flt, out⟩ where
  fld k f hp := (congrArg f.of (State.ent_congr rfl rfl rfl k)).trans (h.fld k f hp)
  tend := h.tend
  mem := h.mem
  clk := h.clk
  grade := h.grade

theorem setEnt {k v : Nat} (h : Spares P s₀ s) (hk : Outside P k) : Spares P s₀ (s.setEnt k v) where
  fld j f hp := (congrArg f.of (s.setEnt_ent_other k v j fun e => hk f (e ▸ hp))).trans (h.fld j f hp)
  tend := h.tend
  mem := h.mem
  clk := h.clk
  grade := h.grade

theorem setFld {k : Nat} {f : Fld} {v : Nat} (h : Spares P s₀ s) (hk : Outside P k) : Spares P s₀ (s.setFld k f v) := h.setEnt hk

theorem setFlag {k : Nat} {f : Fld} {b : Bool} (h : Spares P s₀ s) (hk : Outside P k) : Spares P s₀ (s.setFlag k f b) := h.setEnt hk

theorem bumpBy {k : Nat} {f : Fld} {n : Nat} (h : Spares P s₀ s) (hk : Outside P k) : Spares P s₀ (s.bumpBy k f n) := h.setEnt hk

/-- A write of a field beside those of its entry that are in `P`. -/
theorem setFld_beside {k : Nat} {f : Fld} {v : Nat} (h : Spares P s₀ s)
    (hk : ∀ g, P k g → g.lo + g.w ≤ f.lo ∨ f.lo + f.w ≤ g.lo) : Spares P s₀ (s.setFld k f v) where
  fld j g hp := by
    rw [← h.fld j g hp]
    by_cases hj : j = k
    · subst hj
      exact State.fld_setFld_other _ _ _ _ _ (hk g hp)
    · exact State.fld_setFld_ne _ _ _ _ _ _ hj
  tend := h.tend
  mem := h.mem
  clk := h.clk
  grade := h.grade

theorem emit {o : Output} (h : Spares P s₀ s) : Spares P s₀ (s.emit o) := h.upd

theorem raise {v : Nat} (h : Spares P s₀ s) : Spares P s₀ (s.raise v) := ite h.upd.emit h

theorem fresh {w : Nat} (h : Spares P s₀ s) : Spares P s₀ (s.fresh w).2 := h.upd

/-! ### Records and messages -/

end State.Spares

/-- `P` lies beside what a record and an EMCY message change. -/
structure Quiet (P : Nat → Fld → Prop) : Prop where
  log : Outside P kEmcyP
  drops : Outside P (key 0x2F20 2)
  lost : Outside P (key 0x2F30 2)
  seen : Outside P kFst
  backlog : ∀ g, P kBgs g → g.lo + g.w ≤ bgs_recorder_backlog.lo ∨ bgs_recorder_backlog.lo + bgs_recorder_backlog.w ≤ g.lo

/-- `P` lies beside what a fault of the job changes. -/
structure Loud (P : Nat → Fld → Prop) : Prop extends Quiet P where
  job : Outside P kJob
  save : Outside P kSvs
  doubt : Outside P kFlsh
  restart : Outside P kRsts
  reports : ∀ i, i < 16 → Outside P (key 0x3000 (0x10 + i))

namespace State.Spares

variable {P : Nat → Fld → Prop} {s₀ s t : State}

theorem record {ty k p : Nat} (h : Spares P s₀ s) (hP : Quiet P) : Spares P s₀ (s.record ty k p) :=
  ite (h.upd.setFld_beside hP.backlog) h.upd

theorem emcyLogWrite {b : Nat} (h : Spares P s₀ s) (hP : Quiet P) : Spares P s₀ (s.emcyLogWrite b) :=
  ite (h.upd.setEnt hP.log).raise (h.setFld hP.drops)

theorem emcyCan {b : Nat} (h : Spares P s₀ s) (hP : Quiet P) : Spares P s₀ (s.emcyCan b) := ite h.upd (h.upd.setFld hP.lost)

theorem emcy {cls d : Nat} (h : Spares P s₀ s) (hP : Quiet P) : Spares P s₀ (s.emcy cls d) :=
  ite (h.emcyLogWrite hP) ((h.emcyLogWrite hP).emcyCan hP)

theorem tellFault {rep : Nat} (h : Spares P s₀ s) (hP : Quiet P) : Spares P s₀ (s.tellFault rep) := (h.emcy hP).record hP

theorem memRecord {l addr : Nat} (h : Spares P s₀ s) (hP : Quiet P) : Spares P s₀ (s.memRecord l addr) := (h.fresh (w := 8)).record hP

/-! ### Doubt and the job's end -/

theorem refreshHold (h : Spares P s₀ s) (hf : Outside P kFlsh) : Spares P s₀ s.refreshHold := by
  dsimp only [State.refreshHold]
  split
  · split
    · exact h.setFld hf
    · exact (h.setFld hf).upd
  · exact ite (h.setFld hf).upd (ite ((h.setFld hf).upd.setFlag hf).emit ((h.setFld hf).upd.setFlag hf))

theorem forceOn (h : Spares P s₀ s) (hf : Outside P kFlsh) : Spares P s₀ s.forceOn :=
  ite h (ite ((((h.upd.foldl fun _ _ _ k => k.emit).setFlag hf).setFlag hf).emit)
    (((h.upd.foldl fun _ _ _ k => k.emit).setFlag hf).setFlag hf))

theorem setDoubt {k : Nat} {on : Bool} (h : Spares P s₀ s) (hf : Outside P kFlsh) : Spares P s₀ (s.setDoubt k on) :=
  ite (((h.setFld hf).upd.forceOn hf).refreshHold hf)
    (ite (ite ((h.setFld hf).upd.refreshHold hf) ((h.setFld hf).refreshHold hf)) (h.refreshHold hf))

theorem failSave {cause : Nat} (h : Spares P s₀ s) (hs : Outside P kSvs) : Spares P s₀ (s.failSave cause) :=
  ite ((h.setFld hs).setFld hs).upd.raise h

theorem blankReports (h : Spares P s₀ s) (hr : ∀ i, i < 16 → Outside P (key 0x3000 (0x10 + i))) : Spares P s₀ s.blankReports :=
  h.foldl fun _ i hi k => k.setEnt (hr i (List.mem_range.mp hi))

theorem writeLog (h : Spares P s₀ s) (hr : ∀ i, i < 16 → Outside P (key 0x3000 (0x10 + i))) (hf : Outside P kFst) :
    Spares P s₀ s.writeLog := by
  have hlog := (h.blankReports hr).foldl (l := (s.flt.recs.take 16).zipIdx)
    (f := fun t e => t.setEnt (key 0x3000 (0x10 + e.2)) (t.report e.1 e.2 s.flt.recs.length true)) fun u e he k =>
      k.setEnt (hr e.2 (by
        have := List.snd_lt_of_mem_zipIdx he
        simp at this
        omega))
  exact ((hlog.setFld hf).setFld hf).setFlag hf

/-- What a fault still does once the job state is FAULTED. -/
theorem afterJob {c : Nat} {f : FaultRec} (h : Spares P s₀ s) (hf : Outside P kFlsh) (hfst : Outside P kFst) (hr : Outside P kRsts)
    (hrep : ∀ i, i < 16 → Outside P (key 0x3000 (0x10 + i))) : Spares P s₀
      ((({ s.setDoubt 1 true with flt := { clk := c, active := true, recs := [f] } }.bump kFst fst_job_faults).setFld kRsts
        rsts_restart_state 1).writeLog) :=
  (((h.setDoubt hf).upd.bumpBy hfst).setFld hr).writeLog hrep hfst

theorem setJob {st : Nat} (h : Spares P s₀ s) (hst : st ≠ EMPTY) (hj : Outside P kJob) (hf : Outside P kFlsh) :
    Spares P s₀ (s.setJob st) := by
  unfold State.setJob
  simp only [if_neg hst]
  exact ((h.setFld hj).raise.ite (h.setFld hj)).setDoubt hf

end State.Spares

/-- The job state stays where a change leaves Job Status. -/
theorem State.Spares.jobState {P : Nat → Fld → Prop} {s t : State} (h : State.Spares P s t) (hP : P kJob jst_job_state) :
    t.jobState = s.jobState := h.fld _ _ hP

/-- The entry of Job Status alone. -/
def jobOnly (k : Nat) (_ : Fld) : Prop := k = kJob

theorem State.setJob_jobState (s : State) : (s.setJob FAULTED).jobState = FAULTED := by
  have hset : (s.setFld kJob jst_job_state FAULTED).jobState = FAULTED := State.fld_setFld_same _ _ _ _
  unfold State.setJob
  simp only [if_neg (show FAULTED ≠ EMPTY by decide)]
  refine ((State.Spares.ite (State.Spares.refl _).raise (.refl _)).setDoubt (P := jobOnly) ?_).jobState rfl |>.trans hset
  exact fun _ => by unfold jobOnly; decide

/-- What a fault of the job does before the job state changes (R533). -/
def State.jobStops (s : State) : State :=
  (((State.registerAbort { s with job := { s.job with
    wasStarted := s.flag kJob jst_started, wasPaused := s.jobState == PAUSED, faultClk := s.clk } } 0 true false).failSave 5).setFlag kJob
      jst_pause_pending false)

/-- What a fault of the job does once the job state is FAULTED (R533, R552). -/
def State.logFault (s : State) (f : FaultRec) : State :=
  (({ s.setDoubt 1 true with flt := { clk := (s.setDoubt 1 true).clk, active := true, recs := [f] } }.bump kFst fst_job_faults).setFld
    kRsts rsts_restart_state 1).writeLog

theorem State.faultJob_eq (s : State) (f : FaultRec) : s.faultJob f = (s.jobStops.setJob FAULTED).logFault f := rfl

theorem State.faultJob_jobState (s : State) (f : FaultRec) : (s.faultJob f).jobState = FAULTED := by
  have hjob : ∀ k, k ≠ kJob → Outside jobOnly k := fun k hk _ h => hk h
  have h := (State.Spares.refl (P := jobOnly) (s.jobStops.setJob FAULTED)).afterJob
    (c := ((s.jobStops.setJob FAULTED).setDoubt 1 true).clk) (f := f)
    (hjob _ (by decide)) (hjob _ (by decide)) (hjob _ (by decide)) fun i hi => hjob _ (by unfold kJob key; omega)
  rw [State.faultJob_eq]
  exact (h.jobState rfl).trans (State.setJob_jobState _)

namespace State.Spares

variable {P : Nat → Fld → Prop} {s₀ s t : State}

theorem faultJob {f : FaultRec} (h : Spares P s₀ s) (hP : Loud P) : Spares P s₀ (s.faultJob f) := by
  have hstops : Spares P s₀ s.jobStops := (h.upd.upd.failSave hP.save).setFlag hP.job
  rw [State.faultJob_eq]
  exact (hstops.setJob (by decide) hP.job hP.doubt).afterJob hP.doubt hP.seen hP.restart hP.reports

/-- R534: a fault leaves what lies beside the job, its reports and the messages. -/
theorem fault {f : FaultRec} (h : Spares P s₀ s) (hP : Loud P) : Spares P s₀ (s.fault f) := by
  unfold State.fault
  split
  · exact h.faultJob hP
  · split
    · split
      · exact h.upd.writeLog hP.reports hP.seen
      · exact h.bumpBy hP.seen
    · exact (h.tellFault hP.toQuiet).setFlag hP.seen

theorem memFault {cause l addr vrow vcol : Nat} (h : Spares P s₀ s) (hP : Loud P) : Spares P s₀ (s.memFault cause l addr vrow vcol) :=
  (h.fresh (w := 8)).fault hP

end State.Spares

section Faults

variable {s : State} {f : FaultRec} {cause l addr vrow vcol : Nat}

/-- R533: a fault of an armed job. -/
theorem State.fault_active (h : s.active = true) : (s.fault f).jobState = FAULTED := by
  rw [State.fault, if_pos h]
  exact s.faultJob_jobState f

theorem State.memFault_active (h : s.active = true) : (s.memFault cause l addr vrow vcol).jobState = FAULTED := State.fault_active h

/-- R534: with no job that could use it a fault condition is reported, and the job state stays. -/
theorem State.fault_told {P : Nat → Fld → Prop} (h : s.faultable = false) (hP : Quiet P) :
    s.Spares P (s.fault f) ∧ (s.fault f).flag kFst fst_fault_seen = true := by
  obtain ⟨hact, hst⟩ := Bool.or_eq_false_iff.mp h
  rw [State.fault, if_neg (by simp [hact]), if_neg (by simpa using hst)]
  exact ⟨((State.Spares.refl s).tellFault hP).setFlag hP.seen, State.flag_setFlag_same _ _ _ _ rfl⟩

theorem State.memFault_told {P : Nat → Fld → Prop} (h : s.faultable = false) (hP : Quiet P) :
    s.Spares P (s.memFault cause l addr vrow vcol) ∧ (s.memFault cause l addr vrow vcol).flag kFst fst_fault_seen = true := by
  have hs : s.Spares P s.syndrome.2 := (State.Spares.refl s).fresh
  have hn : s.syndrome.2.faultable = false := h
  unfold State.memFault
  exact ⟨hs.trans (State.fault_told hn hP).1, (State.fault_told hn hP).2⟩

end Faults

/-! ### The places a fault leaves alone -/

/-- The entries of tiles and memory units, Safety Status, and Background Status beside the recorder's backlog. -/
def beside (k : Nat) (f : Fld) : Prop := k < key 0x2800 0 ∨ k = kSst ∨
  k = kBgs ∧ (f.lo + f.w ≤ bgs_recorder_backlog.lo ∨ bgs_recorder_backlog.lo + bgs_recorder_backlog.w ≤ f.lo)

/-- These and the job state. -/
def besideOrJob (k : Nat) (f : Fld) : Prop := beside k f ∨ k = kJob

theorem outside_beside {k : Nat} (hk : key 0x2800 0 ≤ k) (hs : k ≠ kSst) (hb : k ≠ kBgs) : Outside beside k := by
  rintro f (h | h | ⟨h, -⟩)
  · exact absurd h (Nat.not_lt.mpr hk)
  · exact hs h
  · exact hb h

theorem outside_besideOrJob {k : Nat} (hk : key 0x2800 0 ≤ k) (hs : k ≠ kSst) (hb : k ≠ kBgs) (hj : k ≠ kJob) : Outside besideOrJob k
  | _, .inl h => outside_beside hk hs hb _ h
  | _, .inr h => hj h

theorem beside_kBgs {f : Fld} (h : beside kBgs f) :
    f.lo + f.w ≤ bgs_recorder_backlog.lo ∨ bgs_recorder_backlog.lo + bgs_recorder_backlog.w ≤ f.lo := by
  rcases h with h | h | ⟨-, h⟩
  · exact absurd h (by decide)
  · exact absurd h (by decide)
  · exact h

theorem quiet_besideOrJob : Quiet besideOrJob where
  log := outside_besideOrJob (by decide) (by decide) (by decide) (by decide)
  drops := outside_besideOrJob (by decide) (by decide) (by decide) (by decide)
  lost := outside_besideOrJob (by decide) (by decide) (by decide) (by decide)
  seen := outside_besideOrJob (by decide) (by decide) (by decide) (by decide)
  backlog _ h := beside_kBgs (h.resolve_right (by decide))

theorem loud_beside : Loud beside where
  log := outside_beside (by decide) (by decide) (by decide)
  drops := outside_beside (by decide) (by decide) (by decide)
  lost := outside_beside (by decide) (by decide) (by decide)
  seen := outside_beside (by decide) (by decide) (by decide)
  backlog _ := beside_kBgs
  job := outside_beside (by decide) (by decide) (by decide)
  save := outside_beside (by decide) (by decide) (by decide)
  doubt := outside_beside (by decide) (by decide) (by decide)
  restart := outside_beside (by decide) (by decide) (by decide)
  reports i hi := outside_beside (by unfold key; omega) (by unfold kSst key; omega) (by unfold kBgs key; omega)

/-- R534: what becomes of an uncorrectable word of a memory that the job uses, or of one it does not use. -/
structure State.FaultFound (used : Prop) (s t : State) : Prop where
  spares : s.Spares beside t
  faulted : s.active = true → used → t.jobState = FAULTED
  told : s.faultable = false → t.flag kFst fst_fault_seen = true ∧ t.jobState = s.jobState

theorem State.memFault_found (used : Prop) (s : State) (cause l addr vrow vcol : Nat) :
    s.FaultFound used (s.memFault cause l addr vrow vcol) where
  spares := (State.Spares.refl s).memFault loud_beside
  faulted h _ := State.memFault_active h
  told h := ⟨(State.memFault_told h quiet_besideOrJob).2, (State.memFault_told h quiet_besideOrJob).1.jobState (.inr rfl)⟩

theorem State.tileUncorrectable_found (s : State) (p cause addr : Nat) :
    s.FaultFound (s.placed p = true) (s.tileUncorrectable p cause addr) := by
  unfold State.tileUncorrectable
  split
  case isTrue h =>
    obtain ⟨hf, hp⟩ := h
    refine ⟨(State.Spares.refl s).memRecord loud_beside.toQuiet, fun _ hused => ?_, fun h => ?_⟩
    · simp [hused] at hp
    · exact Bool.noConfusion (h.symm.trans hf)
  case isFalse => exact s.memFault_found _ _ _ _ _ _

/-! ### The patrol of a tile's SRAM -/

section SramPatrol

variable {s : State} {p row c n : Nat} {bad : Bool}

theorem State.bumpBy_fld_same (s : State) (k : Nat) (f : Fld) (n : Nat) :
    (s.bumpBy k f n).fld k f = min (s.fld k f + n) (2 ^ f.w - 1) := by
  have hw : 0 < 2 ^ f.w := Nat.two_pow_pos _
  unfold State.bumpBy
  rw [State.fld_setFld_same, Nat.mod_eq_of_lt (by omega)]

/-- Tile Memory Status of tile `p`. -/
def kTmem (p : Nat) : Nat := key (0x2700 + p) 1

/-- `u` is `s` but for the patrol's own state of tile `p` and for the entry of its memory, where the counts of corrected words and of
passes stay. -/
structure State.RowNoted (p : Nat) (s u : State) : Prop where
  rest : { u with dict := s.dict, tend := s.tend } = s
  ent : ∀ k, k ≠ kTmem p → u.ent k = s.ent k
  corrected : u.fld (kTmem p) tmem_sram_corrected = s.fld (kTmem p) tmem_sram_corrected
  passes : u.fld (kTmem p) tmem_scrub_passes = s.fld (kTmem p) tmem_scrub_passes
  tend : { u.tend with repairs := s.tend.repairs } = s.tend

/-- A written field is an entry of the dictionary and nothing else. -/
theorem State.setFld_rest (s : State) (k : Nat) (f : Fld) (v : Nat) (d : SMap Nat) (x : Tend) :
    { s.setFld k f v with dict := d, tend := x } = { s with dict := d, tend := x } ∧ (s.setFld k f v).tend = s.tend := ⟨rfl, rfl⟩

theorem State.planRepair_noted (s : State) (p row : Nat) : s.RowNoted p (s.planRepair p row) := by
  unfold State.planRepair
  dsimp only
  split
  · exact ⟨rfl, fun _ _ => rfl, rfl, rfl, rfl⟩
  · refine ⟨(State.setFld_rest _ _ _ _ _ _).1, fun k hk => State.setFld_ent_other _ _ _ _ _ hk,
      State.fld_setFld_other _ _ _ _ _ (by decide), State.fld_setFld_other _ _ _ _ _ (by decide), ?_⟩
    exact congrArg (fun x : Tend => { x with repairs := s.tend.repairs }) (State.setFld_rest _ _ _ _ s.dict s.tend).2

theorem State.planRepair_repairs (s : State) (p row : Nat) : row ∈ mget [] (s.planRepair p row).tend.repairs p := by
  unfold State.planRepair
  dsimp only
  split
  · next h => simpa using h
  · show row ∈ mget [] (mset [] s.tend.repairs p _) p
    rw [mget_mset_same]
    exact List.mem_append_right _ (.head _)

/-- R262: two passes in a row that correct a word of a row mark it. -/
def State.rowMarked (s : State) (p row : Nat) (bad : Bool) : State :=
  if bad ∧ (mget [] s.tend.lastRows p).contains row then s.planRepair p row else s

theorem State.rowMarked_noted (s : State) (p row : Nat) (bad : Bool) : s.RowNoted p (s.rowMarked p row bad) := by
  unfold State.rowMarked
  split
  · exact s.planRepair_noted p row
  · exact ⟨rfl, fun _ _ => rfl, rfl, rfl, rfl⟩

theorem State.rowMarked_repairs (hb : bad = true) (h : row ∈ mget [] s.tend.lastRows p) :
    row ∈ mget [] (s.rowMarked p row bad).tend.repairs p := by
  unfold State.rowMarked
  rw [if_pos ⟨hb, List.contains_iff_mem.mpr h⟩]
  exact s.planRepair_repairs p row

/-- The patrol of tile `p` goes on behind row `row` (R261). -/
structure State.RowPassed (p row : Nat) (s u : State) : Prop where
  rest : { u with dict := s.dict, tend := s.tend } = s
  ent : ∀ k, k ≠ kTmem p → u.ent k = s.ent k
  corrected : u.fld (kTmem p) tmem_sram_corrected = s.fld (kTmem p) tmem_sram_corrected
  passes : u.fld (kTmem p) tmem_scrub_passes =
    if row + 1 = 393216 then s.oneMore (kTmem p) tmem_scrub_passes else s.fld (kTmem p) tmem_scrub_passes
  next : mget 0 u.tend.patrolRow p = if row + 1 = 393216 then 0 else row + 1
  patrolled : u.tend.patrolled = s.tend.patrolled

/-- The patrol of tile `p` behind row `row`, where `bad` says that it corrected a word there. -/
def State.goesOn (s : State) (p row : Nat) (bad : Bool) : State :=
  let this := if bad then mget [] s.tend.thisRows p ++ [row] else mget [] s.tend.thisRows p
  if row + 1 = sramRows then
    { s with tend := { s.tend with
      patrolRow := mset 0 s.tend.patrolRow p 0
      lastRows := mset [] s.tend.lastRows p this
      thisRows := mset [] s.tend.thisRows p [] } }.bump (key (0x2700 + p) 1) tmem_scrub_passes
  else { s with tend := { s.tend with
    patrolRow := mset 0 s.tend.patrolRow p (row + 1)
    thisRows := mset [] s.tend.thisRows p this } }

theorem State.passRow_eq (s : State) (p row : Nat) (bad : Bool) : s.passRow p row bad = (s.rowMarked p row bad).goesOn p row bad := rfl

theorem State.goesOn_passed (s : State) (p row : Nat) (bad : Bool) : s.RowPassed p row (s.goesOn p row bad) := by
  unfold State.goesOn
  extract_lets this
  by_cases h : row + 1 = 393216
  · rw [if_pos (show row + 1 = sramRows from h)]
    refine ⟨(State.setFld_rest _ _ _ _ _ _).1, fun k hk => State.setFld_ent_other _ _ _ _ _ hk,
      State.fld_setFld_other _ _ _ _ _ (by decide), ?_, ?_, rfl⟩
    · rw [if_pos h]
      exact State.bump_fld_same _ _ _
    · rw [if_pos h]
      exact mget_mset_same 0 s.tend.patrolRow p 0
  · rw [if_neg (show ¬ row + 1 = sramRows from h)]
    refine ⟨rfl, fun _ _ => rfl, rfl, ?_, ?_, rfl⟩
    · rw [if_neg h]
      rfl
    · rw [if_neg h]
      exact mget_mset_same 0 s.tend.patrolRow p (row + 1)

theorem State.goesOn_repairs (s : State) (p row : Nat) (bad : Bool) : (s.goesOn p row bad).tend.repairs = s.tend.repairs := by
  unfold State.goesOn
  dsimp only
  split
  · rfl
  · rfl

theorem State.passRow_passed (s : State) (p row : Nat) (bad : Bool) : s.RowPassed p row (s.passRow p row bad) := by
  have hm := s.rowMarked_noted p row bad
  have hg := (s.rowMarked p row bad).goesOn_passed p row bad
  rw [State.passRow_eq]
  refine ⟨?_, fun k hk => (hg.ent k hk).trans (hm.ent k hk), hg.corrected.trans hm.corrected, ?_, hg.next, ?_⟩
  · have := congrArg (fun z : State => { z with dict := s.dict, tend := s.tend }) hg.rest
    exact this.trans hm.rest
  · rw [hg.passes, State.oneMore, hm.passes]
    rfl
  · have := congrArg Tend.patrolled hm.tend
    exact hg.patrolled.trans this

theorem State.passRow_repairs (hb : bad = true) (h : row ∈ mget [] s.tend.lastRows p) :
    row ∈ mget [] (s.passRow p row bad).tend.repairs p := by
  rw [State.passRow_eq, State.goesOn_repairs]
  exact s.rowMarked_repairs hb h

/-- A patrol that has read in this clk reads no more in it (R261, R550). -/
theorem State.patrolClk_eq_false {k : Nat} (h : mget 0 s.tend.patrolled k = s.clk + 1) : s.patrolClk k = false := by
  unfold State.patrolClk
  rw [h, decide_eq_false (by omega), Bool.and_false]

/-- The patrol of tile `p` has read row `row`, corrected `c` of its words and gone on. -/
def State.rowRead (s : State) (p row c : Nat) : State :=
  ((s.patrols p).bumpBy (kTmem p) tmem_sram_corrected c).passRow p row (decide (0 < c))

/-- What the patrol makes of the row it has read, uncorrectable words aside. -/
structure State.RowRead (p row c : Nat) (s u : State) : Prop where
  rest : { u with dict := s.dict, tend := s.tend } = s
  ent : ∀ k, k ≠ kTmem p → u.ent k = s.ent k
  corrected : u.fld (kTmem p) tmem_sram_corrected = min (s.fld (kTmem p) tmem_sram_corrected + c) (2 ^ tmem_sram_corrected.w - 1)
  passes : u.fld (kTmem p) tmem_scrub_passes =
    if row + 1 = 393216 then s.oneMore (kTmem p) tmem_scrub_passes else s.fld (kTmem p) tmem_scrub_passes
  next : mget 0 u.tend.patrolRow p = if row + 1 = 393216 then 0 else row + 1
  patrolled : mget 0 u.tend.patrolled p = s.clk + 1
  repairs : 0 < c → row ∈ mget [] s.tend.lastRows p → row ∈ mget [] u.tend.repairs p

theorem State.RowRead.same {u : State} (h : s.RowRead p row c u) : u.mem = s.mem ∧ u.clk = s.clk ∧ u.recd = s.recd := by
  have hmem := congrArg State.mem h.rest
  have hclk := congrArg State.clk h.rest
  have hrecd := congrArg State.recd h.rest
  exact ⟨hmem, hclk, hrecd⟩

theorem State.rowRead_read (s : State) (p row c : Nat) : s.RowRead p row c (s.rowRead p row c) := by
  have hp := ((s.patrols p).bumpBy (kTmem p) tmem_sram_corrected c).passRow_passed p row (decide (0 < c))
  have hpass : ((s.patrols p).bumpBy (kTmem p) tmem_sram_corrected c).fld (kTmem p) tmem_scrub_passes =
      s.fld (kTmem p) tmem_scrub_passes := State.fld_setFld_other _ _ _ _ _ (by decide)
  refine ⟨?_, fun k hk => (hp.ent k hk).trans (State.setFld_ent_other _ _ _ _ _ hk),
    hp.corrected.trans (State.bumpBy_fld_same (s.patrols p) _ _ _), ?_, hp.next, ?_, fun hc h => ?_⟩
  · have := congrArg (fun z : State => { z with dict := s.dict, tend := s.tend }) hp.rest
    exact this.trans (State.setFld_rest _ _ _ _ _ _).1
  · refine hp.passes.trans ?_
    rw [State.oneMore, hpass]
    rfl
  · exact (congrArg (fun m => mget 0 m p) hp.patrolled).trans (mget_mset_same 0 s.tend.patrolled p (s.clk + 1))
  · exact State.passRow_repairs (decide_eq_true hc) h

theorem execSramPatrol_reads (hp : tileOk s.grade p = true) (hrow : row < 393216) (hclk : s.patrolClk p = true)
    (hr : row = mget 0 s.tend.patrolRow p) : execSramPatrol p row c n s =
      .next (if 0 < n then ((s.rowRead p row c).rowUncorrectable p row).tileUncorrectable p 1 (64 * row) else s.rowRead p row c) := by
  unfold execSramPatrol
  rw [if_pos ⟨hp, hrow⟩, if_pos ⟨hclk, hr⟩]
  rfl

theorem execSramPatrol_waits (h : s.patrolClk p = false ∨ row ≠ mget 0 s.tend.patrolRow p) :
    execSramPatrol p row c n s = .next s := by
  unfold execSramPatrol
  split
  · refine if_neg fun ⟨hclk, hr⟩ => ?_
    rcases h with h | h
    · exact Bool.noConfusion (h.symm.trans hclk)
    · exact h hr
  · rfl

theorem State.rowUncorrectable_badWords (s : State) (p row i : Nat) (hi : i < 8) :
    8 * row + i ∈ mget [] (s.rowUncorrectable p row).tend.badWords p := by
  unfold State.rowUncorrectable
  dsimp only
  rw [mget_mset_same]
  exact List.mem_append_left _ (List.mem_map_of_mem (List.mem_range.mpr hi))

/-- The key of a tile's memory is neither that of Job Status nor that of a tile's place. -/
theorem kTmem_ne (hp : p < 104) : kJob ≠ kTmem p ∧ key (0x2300 + p) 3 ≠ kTmem p := by
  unfold kTmem kJob key
  omega

theorem State.RowRead.placed {u : State} (h : s.RowRead p row c u) (hp : p < 104) : u.jobState = s.jobState ∧ u.placed p = s.placed p := by
  obtain ⟨hj, hv⟩ := kTmem_ne hp
  have hrow : u.vrow p = s.vrow p := congrArg ast_virtual_row.of (h.ent _ hv)
  refine ⟨congrArg jst_job_state.of (h.ent _ hj), ?_⟩
  unfold State.placed
  rw [hrow]

/-- Two states with one job state agree on whether a job is armed. -/
theorem State.active_congr {u : State} (h : u.jobState = s.jobState) : u.active = s.active ∧ u.faultable = s.faultable := by
  unfold State.faultable State.active
  rw [h]
  exact ⟨rfl, rfl⟩

/-- R261, R262, R534: the row that a patrol has read, with the uncorrectable words it found. -/
theorem execSramPatrol_patrols (hp : tileOk s.grade p = true) (hrow : row < 393216) (hclk : s.patrolClk p = true)
    (hr : row = mget 0 s.tend.patrolRow p) : ∃ v u, s.RowRead p row c v ∧ execSramPatrol p row c n s = .next u ∧
      (n = 0 → u = v) ∧ u.mem = v.mem ∧ u.clk = v.clk ∧ u.tend.patrolRow = v.tend.patrolRow ∧ u.tend.patrolled = v.tend.patrolled ∧
      u.tend.repairs = v.tend.repairs ∧ (∀ f, u.fld (kTmem p) f = v.fld (kTmem p) f) ∧
      (0 < n → (∀ i, i < 8 → 8 * row + i ∈ mget [] u.tend.badWords p) ∧ (s.active = true → s.placed p = true → u.jobState = FAULTED) ∧
        (s.faultable = false → u.flag kFst fst_fault_seen = true ∧ u.jobState = s.jobState)) := by
  have hlt : p < 104 := of_decide_eq_true (Bool.and_eq_true_iff.mp hp).1
  have hread := s.rowRead_read p row c
  obtain ⟨hjob, hplaced⟩ := hread.placed hlt
  refine ⟨_, _, hread, execSramPatrol_reads hp hrow hclk hr, ?_⟩
  by_cases hn : 0 < n
  · rw [if_pos hn]
    have hfound := ((s.rowRead p row c).rowUncorrectable p row).tileUncorrectable_found p 1 (64 * row)
    obtain ⟨hactive, hfaultable⟩ := State.active_congr hjob
    refine ⟨fun h => absurd h hn.ne', hfound.spares.mem, hfound.spares.clk, (congrArg Tend.patrolRow hfound.spares.tend).trans rfl,
      (congrArg Tend.patrolled hfound.spares.tend).trans rfl, (congrArg Tend.repairs hfound.spares.tend).trans rfl,
      fun f => hfound.spares.fld _ f (.inl (by unfold kTmem key; omega)), fun _ => ⟨fun i hi => ?_, fun ha hpl => ?_, fun hno => ?_⟩⟩
    · rw [hfound.spares.tend]
      exact State.rowUncorrectable_badWords _ _ _ _ hi
    · exact hfound.faulted (hactive.trans ha) (hplaced.trans hpl)
    · obtain ⟨hseen, hsame⟩ := hfound.told (hfaultable.trans hno)
      exact ⟨hseen, hsame.trans hjob⟩
  · rw [if_neg hn]
    exact ⟨fun _ => rfl, rfl, rfl, rfl, rfl, rfl, fun _ => rfl, fun h => absurd h hn⟩

end SramPatrol

/-! ### The patrol of a table -/

section TablePatrol

variable {s : State} {p k size idx kind : Nat} {fixed bad : Bool}

/-- Table patrol `k` has read its entry and gone on (R534, R550). -/
def State.entryRead (s : State) (k size : Nat) (fixed bad : Bool) : State :=
  let u := (s.patrols k).passEntry k size bad
  if fixed then u.bump kBgs bgs_table_corrected else u

/-- What the patrol makes of the entry it has read, a fault aside. -/
structure State.EntryRead (k size : Nat) (fixed bad : Bool) (s u : State) : Prop where
  rest : { u with dict := s.dict, tend := s.tend } = s
  ent : ∀ j, j ≠ kBgs → u.ent j = s.ent j
  corrected : u.fld kBgs bgs_table_corrected =
    if fixed = true then s.oneMore kBgs bgs_table_corrected else s.fld kBgs bgs_table_corrected
  passes : u.fld kBgs bgs_table_passes =
    if s.tabPos k + 1 = size then s.oneMore kBgs bgs_table_passes else s.fld kBgs bgs_table_passes
  next : u.tabPos k = if s.tabPos k + 1 = size then 0 else s.tabPos k + 1
  patrolled : mget 0 u.tend.patrolled k = s.clk + 1
  bad : bad = true → (k, s.tabPos k) ∈ u.tend.badTabs

theorem State.EntryRead.same {u : State} (h : s.EntryRead k size fixed bad u) : u.mem = s.mem ∧ u.clk = s.clk := by
  have hmem := congrArg State.mem h.rest
  have hclk := congrArg State.clk h.rest
  exact ⟨hmem, hclk⟩

theorem State.passEntry_read (s : State) (k size : Nat) (bad : Bool) :
    s.EntryRead k size false bad ((s.patrols k).passEntry k size bad) := by
  have hbad : bad = true → (k, s.tabPos k) ∈
      (if bad then s.tend.badTabs.filter (fun e => e != (k, s.tabPos k)) ++ [(k, s.tabPos k)] else s.tend.badTabs) := by
    intro h
    rw [if_pos h]
    exact List.mem_append_right _ (.head _)
  have hpat : mget 0 (s.patrols k).tend.patrolled k = s.clk + 1 := mget_mset_same 0 s.tend.patrolled k (s.clk + 1)
  have hpos : mget 0 (mset 0 s.tend.tabPos k (if s.tabPos k + 1 = size then 0 else s.tabPos k + 1)) k =
    if s.tabPos k + 1 = size then 0 else s.tabPos k + 1 := mget_mset_same _ _ _ _
  unfold State.passEntry
  dsimp only
  change State.EntryRead k size false bad s (if s.tabPos k + 1 = size then _ else _)
  split
  case isTrue h =>
    refine ⟨(State.setFld_rest _ _ _ _ _ _).1, fun j hj => State.setFld_ent_other _ _ _ _ _ hj,
      State.fld_setFld_other _ _ _ _ _ (by decide), ?_, hpos, hpat, hbad⟩
    rw [if_pos h]
    exact State.bump_fld_same _ _ _
  case isFalse h =>
    refine ⟨rfl, fun _ _ => rfl, rfl, ?_, hpos, hpat, hbad⟩
    rw [if_neg h]
    rfl

theorem State.entryRead_read (s : State) (k size : Nat) (fixed bad : Bool) :
    s.EntryRead k size fixed bad (s.entryRead k size fixed bad) := by
  have h := s.passEntry_read k size bad
  unfold State.entryRead
  cases fixed with
  | false => exact h
  | true =>
    refine ⟨?_, fun j hj => (State.setFld_ent_other _ _ _ _ _ hj).trans (h.ent j hj), (State.bump_fld_same _ _ _).trans ?_,
      (State.fld_setFld_other _ _ _ _ _ (by decide)).trans h.passes, h.next, h.patrolled, h.bad⟩
    · exact (State.setFld_rest _ _ _ _ _ _).1.trans h.rest
    · rw [State.oneMore, h.corrected]
      rfl

/-- What follows of an uncorrectable entry of a tile's table, or of an eaves port's (R535, R536). -/
def State.entryFault (s : State) (kind p idx : Nat) : State :=
  if kind < 2 then s.tileUncorrectable p 2 idx else s.memFault 2 (loc 9 p) idx 0xFF 0xFF

theorem State.entryFault_found (s : State) (p idx : Nat) (hk : kind < 3) :
    s.FaultFound (kind = 2 ∨ s.placed p = true) (s.entryFault kind p idx) := by
  unfold State.entryFault
  split
  case isTrue h =>
    obtain ⟨hspares, hfaulted, htold⟩ := s.tileUncorrectable_found p 2 idx
    exact ⟨hspares, fun ha hu => hfaulted ha (hu.resolve_left (by omega)), htold⟩
  case isFalse => exact s.memFault_found _ _ _ _ _ _

theorem execTablePatrol_entry (hk : kind < 3) (hi : idx < if kind = 0 then 16384 else 65536)
    (hok : (if kind = 2 then eavesOk s.grade p else tileOk s.grade p) = true) :
    execTablePatrol kind p idx fixed bad s =
      if s.patrolClk (tabKey kind p) ∧ idx = s.tabPos (tabKey kind p) then
        .next (if !bad then s.entryRead (tabKey kind p) (if kind = 0 then 16384 else 65536) fixed bad
          else (s.entryRead (tabKey kind p) (if kind = 0 then 16384 else 65536) fixed bad).entryFault kind p idx)
      else .next s := by
  unfold execTablePatrol
  exact if_pos ⟨hk, hi, hok⟩

theorem State.EntryRead.placed {u : State} (h : s.EntryRead k size fixed bad u) (q : Nat) :
    u.jobState = s.jobState ∧ u.placed q = s.placed q := by
  have hv : key (0x2300 + q) 3 ≠ kBgs := by unfold kBgs key; omega
  have hrow : u.vrow q = s.vrow q := congrArg ast_virtual_row.of (h.ent _ hv)
  refine ⟨congrArg jst_job_state.of (h.ent _ (by decide)), ?_⟩
  unfold State.placed
  rw [hrow]

/-- R534, R536, R550: the entry that a patrol has read, with what follows when it is uncorrectable. -/
theorem execTablePatrol_patrols (hk : kind < 3) (hi : idx < if kind = 0 then 16384 else 65536)
    (hok : (if kind = 2 then eavesOk s.grade p else tileOk s.grade p) = true) (hclk : s.patrolClk (tabKey kind p) = true)
    (hidx : idx = s.tabPos (tabKey kind p)) :
    ∃ v u, s.EntryRead (tabKey kind p) (if kind = 0 then 16384 else 65536) fixed bad v ∧
      execTablePatrol kind p idx fixed bad s = .next u ∧ v.Spares beside u ∧ (bad = false → u = v) ∧
      (bad = true → (s.active = true → kind = 2 ∨ s.placed p = true → u.jobState = FAULTED) ∧
        (s.faultable = false → u.flag kFst fst_fault_seen = true ∧ u.jobState = s.jobState)) := by
  have hread := s.entryRead_read (tabKey kind p) (if kind = 0 then 16384 else 65536) fixed bad
  have hexec := (execTablePatrol_entry (fixed := fixed) (bad := bad) hk hi hok).trans (if_pos ⟨hclk, hidx⟩)
  cases bad with
  | false =>
    rw [if_pos (by rfl)] at hexec
    exact ⟨_, _, hread, hexec, .refl _, fun _ => rfl, fun h => Bool.noConfusion h⟩
  | true =>
    rw [if_neg (by decide)] at hexec
    obtain ⟨hspares, hfaulted, htold⟩ :=
      (s.entryRead (tabKey kind p) (if kind = 0 then 16384 else 65536) fixed true).entryFault_found p idx hk
    obtain ⟨hjob, hplaced⟩ := hread.placed p
    obtain ⟨hactive, hfaultable⟩ := State.active_congr hjob
    refine ⟨_, _, hread, hexec, hspares, fun h => Bool.noConfusion h, fun _ => ⟨fun ha hu => ?_, fun hno => ?_⟩⟩
    · exact hfaulted (hactive.trans ha) (hu.imp_right hplaced.trans)
    · obtain ⟨hseen, hsame⟩ := htold (hfaultable.trans hno)
      exact ⟨hseen, hsame.trans hjob⟩

theorem execTablePatrol_waits (hk : kind < 3) (hi : idx < if kind = 0 then 16384 else 65536)
    (hok : (if kind = 2 then eavesOk s.grade p else tileOk s.grade p) = true)
    (h : s.patrolClk (tabKey kind p) = false ∨ idx ≠ s.tabPos (tabKey kind p)) :
    execTablePatrol kind p idx fixed bad s = .next s := by
  refine (execTablePatrol_entry hk hi hok).trans (if_neg fun ⟨hclk, hidx⟩ => ?_)
  rcases h with h | h
  · exact Bool.noConfusion (h.symm.trans hclk)
  · exact h hidx

end TablePatrol

/-! ### The patrol of a memory -/

section MemoryPatrol

variable {s : State} {p kind addr c : Nat}

/-- A word of stack or channel `p` has been read, and `c` errors corrected; errors of a stack are noted for its repair (R281). -/
def State.unitRead (s : State) (kind p addr c : Nat) (bad : Bool) : State :=
  let u := s.bumpBy (kUnit kind p) munit_corrected c
  if kind = 0 ∧ (0 < c ∨ bad) then { u with tend := { u.tend with stackErrs := u.tend.stackErrs ++ [(p, addr)] } } else u

/-- Word `w` of HBM or DDR4 is noted as uncorrectable (R535). -/
def State.noteBad (s : State) (w : Nat) : State :=
  { s with tend := { s.tend with badMem := w :: s.tend.badMem.filter (fun x => x != w) } }

/-- The word at `addr` of stack or channel `p` is uncorrectable. -/
def State.unitBad (s : State) (kind p addr : Nat) : State :=
  (s.setFlag (kUnit kind p) munit_uncorrected_seen true).noteBad (((if kind = 0 then hbmBase (p / 5) else ddrBase) + addr) / 64)

/-- What follows of an uncorrectable word: outside the ring region of HBM a fault, otherwise a record (R535). -/
def State.unitFault (s : State) (kind p addr : Nat) : State :=
  let l := loc (if kind = 0 then 5 else 6) p
  if kind = 0 ∧ !s.inRing (p / 5) addr then s.memFault 3 l addr 0xFF 0xFF else s.memRecord l addr

theorem execMemoryPatrol_eq (bad : Bool) (hu : unitOk kind p = true) : execMemoryPatrol kind p addr c bad s =
    if !s.unitHolds kind p addr then .next s
    else .next (if !bad then s.unitRead kind p addr c bad
      else ((s.unitRead kind p addr c bad).unitBad kind p addr).unitFault kind p addr) := by
  unfold execMemoryPatrol
  exact if_pos hu

/-- A key of a memory unit's status. -/
theorem kUnit_lt (hu : unitOk kind p = true) : kUnit kind p < key 0x2800 0 ∧ key 0x27A0 0 ≤ kUnit kind p := by
  unfold unitOk at hu
  unfold kUnit key
  by_cases h : kind = 0
  · rw [if_pos h] at hu ⊢
    have := of_decide_eq_true hu
    omega
  · rw [if_neg h] at hu ⊢
    have := of_decide_eq_true (Bool.and_eq_true_iff.mp hu).2
    omega

theorem unit_lt (hu : unitOk kind p = true) : p < 12 := by
  unfold unitOk at hu
  by_cases h : kind = 0
  · rw [if_pos h] at hu
    have := of_decide_eq_true hu
    omega
  · rw [if_neg h] at hu
    exact of_decide_eq_true (Bool.and_eq_true_iff.mp hu).2

/-- `u` is `s` but for the entry of stack or channel `p` and what the tenders hold. -/
structure State.OfUnit (kind p : Nat) (s u : State) : Prop where
  ent : ∀ k, k ≠ kUnit kind p → u.ent k = s.ent k
  mem : u.mem = s.mem

theorem State.OfUnit.trans {u v : State} (h : s.OfUnit kind p u) (h' : u.OfUnit kind p v) : s.OfUnit kind p v :=
  ⟨fun k hk => (h'.ent k hk).trans (h.ent k hk), h'.mem.trans h.mem⟩

theorem State.OfUnit.job {u : State} (h : s.OfUnit kind p u) (hu : unitOk kind p = true) :
    u.jobState = s.jobState ∧ u.active = s.active ∧ u.faultable = s.faultable := by
  have hj : u.jobState = s.jobState :=
    congrArg jst_job_state.of (h.ent kJob fun e => absurd (e ▸ (kUnit_lt hu).1) (by decide))
  exact ⟨hj, State.active_congr hj⟩

/-- The HBM map stands below the entries of the memory units. -/
theorem State.OfUnit.inRing {u : State} (h : s.OfUnit kind p u) (hu : unitOk kind p = true) {d : Nat} (hd : d < 4) (a : Nat) :
    u.inRing d a = s.inRing d a := by
  have hmap : ∀ i, i < 3 → u.hbmMap d i = s.hbmMap d i := fun i hi => h.ent _ fun e => by
    have := (kUnit_lt hu).2
    rw [← e] at this
    unfold key at this
    omega
  unfold State.inRing
  rw [hmap 1 (by decide), hmap 2 (by decide)]

theorem State.unitRead_ofUnit (s : State) (kind p addr c : Nat) (bad : Bool) : s.OfUnit kind p (s.unitRead kind p addr c bad) := by
  unfold State.unitRead
  dsimp only
  split
  · exact ⟨fun k hk => State.setFld_ent_other _ _ _ _ _ hk, rfl⟩
  · exact ⟨fun k hk => State.setFld_ent_other _ _ _ _ _ hk, rfl⟩

theorem State.unitRead_corrected (s : State) (kind p addr c : Nat) (bad : Bool) :
    (s.unitRead kind p addr c bad).fld (kUnit kind p) munit_corrected =
      min (s.fld (kUnit kind p) munit_corrected + c) (2 ^ munit_corrected.w - 1) := by
  unfold State.unitRead
  dsimp only
  split
  · exact State.bumpBy_fld_same _ _ _ _
  · exact State.bumpBy_fld_same _ _ _ _

theorem State.noteBad_frame (s : State) (w : Nat) :
    (∀ k, (s.noteBad w).ent k = s.ent k) ∧ (s.noteBad w).mem = s.mem ∧ w ∈ (s.noteBad w).tend.badMem := ⟨fun _ => rfl, rfl, .head _⟩

theorem State.setFlag_ofUnit (s : State) (f : Fld) (b : Bool) : s.OfUnit kind p (s.setFlag (kUnit kind p) f b) :=
  ⟨fun _ hk => State.setFld_ent_other _ _ _ _ _ hk, rfl⟩

theorem State.unitBad_ofUnit (s : State) (kind p addr : Nat) : s.OfUnit kind p (s.unitBad kind p addr) := by
  obtain ⟨hent, hmem, -⟩ := (s.setFlag (kUnit kind p) munit_uncorrected_seen true).noteBad_frame
    (((if kind = 0 then hbmBase (p / 5) else ddrBase) + addr) / 64)
  exact (s.setFlag_ofUnit _ _).trans ⟨fun k _ => hent k, hmem⟩

theorem State.unitBad_seen (s : State) (kind p addr : Nat) :
    (s.unitBad kind p addr).flag (kUnit kind p) munit_uncorrected_seen = true ∧
    (s.unitBad kind p addr).fld (kUnit kind p) munit_corrected = s.fld (kUnit kind p) munit_corrected ∧
    ((if kind = 0 then hbmBase (p / 5) else ddrBase) + addr) / 64 ∈ (s.unitBad kind p addr).tend.badMem := by
  obtain ⟨hent, -, hbad⟩ := (s.setFlag (kUnit kind p) munit_uncorrected_seen true).noteBad_frame
    (((if kind = 0 then hbmBase (p / 5) else ddrBase) + addr) / 64)
  refine ⟨?_, ?_, hbad⟩
  · unfold State.unitBad State.flag State.fld
    rw [hent]
    exact State.flag_setFlag_same s _ _ _ rfl
  · unfold State.unitBad State.fld
    rw [hent]
    exact State.fld_setFld_other s _ _ _ _ (by decide)

/-- R535: a word of HBM outside the ring region is a fault of a job that may use it; what is recorded alone leaves the job. -/
structure State.UnitFault (kind p addr : Nat) (s u : State) : Prop where
  spares : s.Spares beside u
  faulted : kind = 0 → s.active = true → s.inRing (p / 5) addr = false → u.jobState = FAULTED
  told : kind = 0 → s.faultable = false → s.inRing (p / 5) addr = false → u.flag kFst fst_fault_seen = true
  kept : kind = 1 ∨ s.inRing (p / 5) addr = true ∨ s.faultable = false → u.jobState = s.jobState

theorem State.unitFault_fault (s : State) (kind p addr : Nat) : s.UnitFault kind p addr (s.unitFault kind p addr) := by
  unfold State.unitFault
  dsimp only
  split
  case isTrue h =>
    obtain ⟨h0, hr⟩ := h
    obtain ⟨hspares, hfaulted, htold⟩ := s.memFault_found True 3 (loc (if kind = 0 then 5 else 6) p) addr 0xFF 0xFF
    refine ⟨hspares, fun _ ha _ => hfaulted ha trivial, fun _ hno _ => (htold hno).1, fun h => ?_⟩
    rcases h with h | h | h
    · omega
    · simp [h] at hr
    · exact (htold h).2
  case isFalse h =>
    have hrec := (State.Spares.refl s).memRecord (l := loc (if kind = 0 then 5 else 6) p) (addr := addr) quiet_besideOrJob
    refine ⟨hrec.mono fun _ _ => .inl, fun h0 _ hr => ?_, fun h0 _ hr => ?_, fun _ => hrec.jobState (.inr rfl)⟩
    · exact absurd ⟨h0, by simp [hr]⟩ h
    · exact absurd ⟨h0, by simp [hr]⟩ h

/-- R281, R288, R534, R535: the word that a patrol has read, with what follows when it is uncorrectable. -/
theorem execMemoryPatrol_patrols (bad : Bool) (hu : unitOk kind p = true) (hh : s.unitHolds kind p addr = true) :
    ∃ v u, s.OfUnit kind p v ∧ execMemoryPatrol kind p addr c bad s = .next u ∧
      v.fld (kUnit kind p) munit_corrected = min (s.fld (kUnit kind p) munit_corrected + c) (2 ^ munit_corrected.w - 1) ∧
      (bad = false → u = v) ∧
      (bad = true → v.flag (kUnit kind p) munit_uncorrected_seen = true ∧
        ((if kind = 0 then hbmBase (p / 5) else ddrBase) + addr) / 64 ∈ v.tend.badMem ∧ v.UnitFault kind p addr u) := by
  have hexec := (execMemoryPatrol_eq (s := s) (addr := addr) (c := c) bad hu).trans (if_neg (by simp [hh]))
  have hread := s.unitRead_ofUnit kind p addr c bad
  cases bad with
  | false =>
    rw [if_pos (by rfl)] at hexec
    exact ⟨_, _, hread, hexec, State.unitRead_corrected _ _ _ _ _ _, fun _ => rfl, fun h => Bool.noConfusion h⟩
  | true =>
    rw [if_neg (by decide)] at hexec
    obtain ⟨hseen, hsame, hbad⟩ := (s.unitRead kind p addr c true).unitBad_seen kind p addr
    exact ⟨_, _, hread.trans (State.unitBad_ofUnit _ _ _ _), hexec, hsame.trans (State.unitRead_corrected _ _ _ _ _ _),
      fun h => Bool.noConfusion h, fun _ => ⟨hseen, hbad, State.unitFault_fault _ _ _ _⟩⟩

end MemoryPatrol

/-! ### A unit out of service -/

section OutOfService

variable {s u : State} {p kind : Nat}

/-- Whether the job uses a hub die is read from the entries of its quays, their replay and the job areas. -/
theorem State.usesDie_congr {d : Nat} (hg : u.grade = s.grade) (hq : ∀ k, k < key 0x27A0 0 → u.ent k = s.ent k)
    (hd : u.ent (key (0x2C10 + d) 2) = s.ent (key (0x2C10 + d) 2)) : u.usesDie d = s.usesDie d := by
  have hland : ∀ q, q < 20 → u.landOn q = s.landOn q := fun q hlt =>
    congrArg (fun x => quay_land_enable.of x == 1) (hq _ (by unfold key; omega))
  have hcount : ∀ q, q < 20 → u.replayCount q = s.replayCount q := fun q hlt => hq _ (by unfold key; omega)
  have hreplay : u.replaying = s.replaying := congrArg (fun x => lndg_replay_enable.of x == 1) (hq _ (by unfold key; omega))
  have hquays : u.jobQuays = s.jobQuays := by
    unfold State.jobQuays
    refine List.filter_congr fun q hmem => ?_
    rw [hg, hreplay, hland q (List.mem_range.mp hmem), hcount q (List.mem_range.mp hmem)]
  unfold State.usesDie
  rw [hquays, hd, hg]
  refine congrArg (· || _) (Bool.eq_iff_iff.mpr ?_)
  rw [List.any_eq_true, List.any_eq_true]
  refine exists_congr fun q => and_congr_right fun hmem => ?_
  rw [hland q (List.mem_range.mp hmem)]

/-- `s` with stack or channel `p` out of the masks of Safety Status (R288, R536). -/
def State.unitLost (s : State) (kind p : Nat) : State :=
  let v := s.setFlag (kUnit kind p) munit_in_service false
  let f := if kind = 0 then sst_hbm_in_service else sst_ddr_in_service
  v.setFld kSst f (v.fld kSst f - 2 ^ p)

theorem execUnitOutOfService_lost (hu : unitOk kind p = true) (hs : s.flag (kUnit kind p) munit_in_service = true) :
    execUnitOutOfService kind p s = .next (if kind = 1 ∨ (s.unitLost kind p).usesDie (p / 5) then
      (s.unitLost kind p).fault { family := 9, cause := 5 + kind, loc := loc (5 + kind) p } else s.unitLost kind p) := by
  unfold execUnitOutOfService
  rw [if_pos hu]
  exact if_pos hs

theorem execUnitOutOfService_gone (hs : s.flag (kUnit kind p) munit_in_service = false) : execUnitOutOfService kind p s = .next s := by
  unfold execUnitOutOfService
  split
  · exact if_neg fun h => Bool.noConfusion (hs.symm.trans h)
  · rfl

/-- The unit has left the masks; no other entry changes. -/
structure State.UnitLost (kind p : Nat) (s u : State) : Prop where
  ent : ∀ k, k ≠ kUnit kind p → k ≠ kSst → u.ent k = s.ent k
  mem : u.mem = s.mem
  grade : u.grade = s.grade
  flag : u.flag (kUnit kind p) munit_in_service = false
  mask : let f := if kind = 0 then sst_hbm_in_service else sst_ddr_in_service
    u.fld kSst f = s.fld kSst f - 2 ^ p

theorem State.unitLost_lost (s : State) (hu : unitOk kind p = true) : s.UnitLost kind p (s.unitLost kind p) := by
  have hne : kUnit kind p ≠ kSst := fun e => absurd (e ▸ (kUnit_lt hu).1) (by decide)
  refine ⟨fun k hk hs => (State.setFld_ent_other _ _ _ _ _ hs).trans (State.setFld_ent_other _ _ _ _ _ hk), rfl, rfl, ?_, ?_⟩
  · have hflag := State.flag_setFlag_same s (kUnit kind p) munit_in_service false rfl
    unfold State.unitLost State.flag
    dsimp only
    rw [State.fld_setFld_ne _ _ _ _ _ _ hne]
    exact hflag
  · intro f
    have hfld : (s.setFlag (kUnit kind p) munit_in_service false).fld kSst f = s.fld kSst f :=
      State.fld_setFld_ne _ _ _ _ _ _ hne.symm
    unfold State.unitLost
    dsimp only
    rw [State.fld_setFld_same, hfld]
    exact Nat.mod_eq_of_lt (Nat.lt_of_le_of_lt (Nat.sub_le _ _) (Nat.mod_lt _ (Nat.two_pow_pos _)))

theorem State.UnitLost.job (h : s.UnitLost kind p u) (hu : unitOk kind p = true) :
    u.active = s.active ∧ u.usesDie (p / 5) = s.usesDie (p / 5) := by
  obtain ⟨hlt, hle⟩ := kUnit_lt hu
  have hjob : u.jobState = s.jobState :=
    congrArg jst_job_state.of (h.ent kJob (fun e => absurd (e ▸ hlt) (by decide)) (by decide))
  refine ⟨(State.active_congr hjob).1, State.usesDie_congr h.grade (fun k hk => h.ent k (fun e => ?_) (fun e => ?_))
    (h.ent _ (fun e => ?_) ?_)⟩
  · rw [e] at hk
    exact absurd hk (Nat.not_lt.mpr hle)
  · rw [e] at hk
    exact absurd hk (by decide)
  · rw [← e] at hlt
    unfold key at hlt
    omega
  · unfold kSst key
    omega

/-- R288, R536: what a fault of the job that needs the unit leaves of the masks. -/
theorem execUnitOutOfService_loses (hu : unitOk kind p = true) (hs : s.flag (kUnit kind p) munit_in_service = true) :
    ∃ v u, s.UnitLost kind p v ∧ execUnitOutOfService kind p s = .next u ∧ v.Spares beside u ∧
      (s.active = true → kind = 1 ∨ s.usesDie (p / 5) = true → u.jobState = FAULTED) := by
  have hlost := s.unitLost_lost hu
  obtain ⟨hactive, huses⟩ := hlost.job hu
  have hexec := execUnitOutOfService_lost hu hs
  rw [huses] at hexec
  by_cases h : kind = 1 ∨ s.usesDie (p / 5) = true
  · rw [if_pos h] at hexec
    exact ⟨_, _, hlost, hexec, (State.Spares.refl _).fault loud_beside, fun ha _ => State.fault_active (hactive.trans ha)⟩
  · rw [if_neg h] at hexec
    exact ⟨_, _, hlost, hexec, .refl _, fun _ hn => absurd hn h⟩

end OutOfService

end Sys2Proof.Machine

end
section
/-! CLAIM. Patrols and units out of service (R261, R262, R281, R288, R534 to R536, R550). -/
open Sys2Proof Sys2Proof.Machine

/-- Settles O56: each patrol by what it reads and what follows of an uncorrectable word, whose fault leaves the patrols' own state and
counts (`loud_beside`). -/
theorem patrolsCorrectAndReport : Obligations.PatrolsCorrectAndReport := by
  unfold Obligations.PatrolsCorrectAndReport
  intro s p row c n kt
  refine ⟨fun hp hrow hclk hr => ?_, fun hp hrow h => execSramPatrol_waits h, ?_,
    fun kind addr bad hu => ⟨fun hh => ?_, fun hh => ?_⟩, fun kind hu => ⟨fun hs => ?_, execUnitOutOfService_gone⟩⟩
  · obtain ⟨v, u, hv, hexec, hzero, hmem, hclk', hrows, hpat, hrep, hfld, hbad⟩ := execSramPatrol_patrols (c := c) (n := n) hp hrow hclk hr
    obtain ⟨hvmem, hvclk, hvrecd⟩ := hv.same
    have hlt : p < 104 := of_decide_eq_true (Bool.and_eq_true_iff.mp hp).1
    refine ⟨u, hexec, ?_, (hfld _).trans hv.corrected, (hfld _).trans hv.passes, fun hc hl => ?_, fun hn => (hbad hn).2.1,
      fun hn => (hbad hn).2.2, fun hn => (hbad hn).1, State.patrolClk_eq_false ?_, fun hn => ?_, hmem.trans hvmem⟩
    · rw [hrows]
      exact hv.next
    · rw [hrep]
      exact hv.repairs hc hl
    · rw [hpat, hclk', hvclk]
      exact hv.patrolled
    · rw [hzero hn]
      exact ⟨(hv.placed hlt).1, hvrecd⟩
  · intro kind idx fixed bad size hk hi hok k
    refine ⟨execTablePatrol_waits hk hi hok, fun hclk hidx => ?_⟩
    obtain ⟨v, u, hv, hexec, hspares, hgood, hbad⟩ := execTablePatrol_patrols (fixed := fixed) (bad := bad) hk hi hok hclk hidx
    obtain ⟨hvmem, hvclk⟩ := hv.same
    have hpos : s.tabPos (tabKey kind p) = idx := hidx.symm
    refine ⟨u, hexec, State.patrolClk_eq_false ?_, ?_, fun hb => ?_, ?_, ?_, fun hb => (hbad hb).1, fun hb => (hbad hb).2,
      fun hb j hj => ?_,
      hspares.mem.trans hvmem⟩
    · rw [hspares.tend, hspares.clk, hvclk]
      exact hv.patrolled
    · have hnext := hv.next
      rw [hpos] at hnext
      exact (congrArg (fun x : Tend => mget 0 x.tabPos k) hspares.tend).trans hnext
    · have hmem := hv.bad hb
      rw [hpos] at hmem
      rw [hspares.tend]
      exact hmem
    · exact (hspares.fld _ _ (.inr (.inr ⟨rfl, by decide⟩))).trans hv.corrected
    · have hpasses := hv.passes
      rw [hpos] at hpasses
      exact (hspares.fld _ _ (.inr (.inr ⟨rfl, by decide⟩))).trans hpasses
    · rw [hgood hb]
      exact hv.ent j hj
  · exact (execMemoryPatrol_eq bad hu).trans (if_pos (by rw [hh]; rfl))
  · obtain ⟨v, u, hv, hexec, hcorr, hgood, hbad⟩ := execMemoryPatrol_patrols (c := c) bad hu hh
    obtain ⟨hjob, hactive, hfaultable⟩ := hv.job hu
    have hlt := unit_lt hu
    have hring := hv.inRing hu (show p / 5 < 4 by omega) addr
    have hplace : ∀ f, beside (kUnit kind p) f := fun f => .inl (kUnit_lt hu).1
    cases bad with
    | false =>
      rw [hgood rfl] at hexec
      exact ⟨v, hexec, hcorr, fun h => Bool.noConfusion h, fun h => Bool.noConfusion h, fun h => Bool.noConfusion h,
        fun h => Bool.noConfusion h, fun _ => hjob, hv.mem⟩
    | true =>
      obtain ⟨hseen, hnoted, hfault⟩ := hbad rfl
      refine ⟨u, hexec, (hfault.spares.fld _ _ (hplace _)).trans hcorr, fun _ => ?_, fun _ h0 ha hr => ?_,
        fun _ h0 hno hr => ?_, fun _ => ?_, fun h => ?_, hfault.spares.mem.trans hv.mem⟩
      · exact (congrArg (· == 1) (hfault.spares.fld _ _ (hplace _))).trans hseen
      · exact hfault.faulted h0 (hactive.trans ha) (hring.trans hr)
      · exact hfault.told h0 (hfaultable.trans hno) (hring.trans hr)
      · rw [hfault.spares.tend]
        exact hnoted
      · refine (hfault.kept ?_).trans hjob
        rcases h with h | h | h | h
        · exact Bool.noConfusion h
        · exact .inl h
        · exact .inr (.inl (hring.trans h))
        · exact .inr (.inr (hfaultable.trans h))
  · obtain ⟨v, u, hv, hexec, hspares, hfaulted⟩ := execUnitOutOfService_loses hu hs
    refine ⟨u, hexec, ?_, (hspares.fld _ _ (.inr (.inl rfl))).trans hv.mask, hfaulted, hspares.mem.trans hv.mem⟩
    exact (congrArg (· == 1) (hspares.fld _ _ (.inl (kUnit_lt hu).1))).trans hv.flag

end

section
/-! SUPPORT. The start-up sequence (R479 to R488, R564): what its steps leave alone, and what the recorder makes of its headers. -/

namespace Sys2Proof.Machine

/-- What a record in the backlog leaves of the recorder. -/
def Recorder.stored (x : Recorder) : Recorder := { x with backlog := [], drops := 0 }

/-- `t` has the fields of `s` in `P`, the DDR4 population and the memories, the telemetry, and the reset's and the recorder's state but
for the dictionary's availability and the records that wait. -/
structure State.Boots (P : Nat → Fld → Prop) (s t : State) : Prop where
  fld : ∀ k f, P k f → t.fld k f = s.fld k f
  mem : t.mem = s.mem
  pop : t.tend.ddrPop = s.tend.ddrPop
  tele : t.tele = s.tele
  rst : { t.rst with available := true } = { s.rst with available := true }
  recd : t.recd.stored = s.recd.stored

namespace State.Boots

variable {P : Nat → Fld → Prop} {s₀ s t : State}

theorem refl (s : State) : Boots P s s := ⟨fun _ _ _ => rfl, rfl, rfl, rfl, rfl, rfl⟩

theorem trans {u : State} (h : Boots P s t) (h' : Boots P t u) : Boots P s u :=
  ⟨fun k f hp => (h'.fld k f hp).trans (h.fld k f hp), h'.mem.trans h.mem, h'.pop.trans h.pop, h'.tele.trans h.tele,
    h'.rst.trans h.rst, h'.recd.trans h.recd⟩

theorem mono {Q : Nat → Fld → Prop} (h : Boots P s t) (hq : ∀ k f, Q k f → P k f) : Boots Q s t :=
  ⟨fun k f hf => h.fld k f (hq k f hf), h.mem, h.pop, h.tele, h.rst, h.recd⟩

theorem ite {c : Prop} [Decidable c] (hs : Boots P s₀ s) (ht : Boots P s₀ t) : Boots P s₀ (if c then s else t) := by
  split
  · exact hs
  · exact ht

theorem foldl {α : Type} {f : State → α → State} {l : List α} (h : Boots P s₀ s)
    (hf : ∀ s a, Boots P s₀ s → Boots P s₀ (f s a)) : Boots P s₀ (l.foldl f s) := by
  induction l generalizing s with
  | nil => exact h
  | cons a l ih => exact ih (hf s a h)

/-- An effect on none of these. -/
theorem upd {pending free clk tiles net tend land dec cap job berth time ctl recd sec flt out} (h : Boots P s₀ s)
    (hp : tend.ddrPop = s.tend.ddrPop := by rfl) (hr : recd.stored = s.recd.stored := by rfl) :
    Boots P s₀ ⟨pending, clk, free, s.grade, s.stepping, s.dict, s.mem, tiles, net, tend, land, dec, cap, job, berth, time, ctl,
      s.rst, recd, sec, s.tele, flt, out⟩ where
  fld k f hk := (congrArg f.of (State.ent_congr rfl rfl rfl k)).trans (h.fld k f hk)
  mem := h.mem
  pop := hp.trans h.pop
  tele := h.tele
  rst := h.rst
  recd := hr.trans h.recd

theorem setEnt {k v : Nat} (h : Boots P s₀ s) (hk : Outside P k) : Boots P s₀ (s.setEnt k v) where
  fld j f hp := (congrArg f.of (s.setEnt_ent_other k v j fun e => hk f (e ▸ hp))).trans (h.fld j f hp)
  mem := h.mem
  pop := h.pop
  tele := h.tele
  rst := h.rst
  recd := h.recd

theorem setFld {k : Nat} {f : Fld} {v : Nat} (h : Boots P s₀ s) (hk : Outside P k) : Boots P s₀ (s.setFld k f v) := h.setEnt hk

/-- A write of a field beside those of its entry that are in `P`. -/
theorem setFld_beside {k : Nat} {f : Fld} {v : Nat} (h : Boots P s₀ s)
    (hk : ∀ g, P k g → g.lo + g.w ≤ f.lo ∨ f.lo + f.w ≤ g.lo) : Boots P s₀ (s.setFld k f v) where
  fld j g hp := by
    rw [← h.fld j g hp]
    by_cases hj : j = k
    · subst hj
      exact State.fld_setFld_other _ _ _ _ _ (hk g hp)
    · exact State.fld_setFld_ne _ _ _ _ _ _ hj
  mem := h.mem
  pop := h.pop
  tele := h.tele
  rst := h.rst
  recd := h.recd

end State.Boots

/-- `P` lies beside what the availability of the dictionary, a record and a repair inside a stack change. -/
structure Started (P : Nat → Fld → Prop) : Prop where
  can : Outside P kCans
  ready : ∀ g, P kSst g → g.lo + g.w ≤ sst_ready_ms.lo ∨ sst_ready_ms.lo + sst_ready_ms.w ≤ g.lo
  backlog : Outside P kBgs
  spare : ∀ i g, P (key (0x27A0 + i) 1) g → g.lo + g.w ≤ munit_spare_used.lo ∨ munit_spare_used.lo + munit_spare_used.w ≤ g.lo
  lanes : ∀ i g, P (key (0x27A0 + i) 1) g →
    g.lo + g.w ≤ munit_lanes_repaired.lo ∨ munit_lanes_repaired.lo + munit_lanes_repaired.w ≤ g.lo

namespace State.Boots

variable {P : Nat → Fld → Prop} {s₀ s t : State}

theorem record {ty k p : Nat} (h : Boots P s₀ s) (hP : Started P) : Boots P s₀ (s.record ty k p) :=
  ite (h.upd.setFld hP.backlog) h.upd

theorem persist {k : Nat} (h : Boots P s₀ s) : Boots P s₀ (s.persist k) := ite h.upd h.upd

/-- R281: what a repair of a stack leaves alone. -/
theorem repairStacks (h : Boots P s₀ s) (hP : Started P) : Boots P s₀ s.repairStacks := by
  refine upd (tend := { State.tend _ with stackErrs := [] }) (foldl h fun u e k => ?_)
  dsimp only
  split
  · exact ((k.setFld_beside (hP.spare e.1)).persist).record hP
  · exact ((k.setFld_beside (hP.lanes e.1)).persist).record hP
  · exact k

/-- R442, R487: what the dictionary's availability leaves alone. -/
theorem makeAvailable (h : Boots P s₀ s) (hP : Started P) : Boots P s₀ s.makeAvailable := by
  unfold State.makeAvailable
  refine ite h ?_
  have hav : Boots P s₀ { s with rst := { s.rst with available := true }, ctl := { s.ctl with canStb := false } } :=
    ⟨h.fld, h.mem, h.pop, h.tele, h.rst, h.recd⟩
  exact (((((hav.setFld_beside hP.ready).setFld hP.can).setFld hP.can).setFld hP.can).upd).record hP

end State.Boots

theorem State.record_rst (s : State) (ty k p : Nat) : (s.record ty k p).rst = s.rst := by
  unfold State.record
  dsimp only
  split
  · rfl
  · rfl

theorem State.makeAvailable_available (s : State) : s.makeAvailable.rst.available = true := by
  unfold State.makeAvailable
  split
  · assumption
  · dsimp only
    rw [State.record_rst]
    rfl

/-- The fields of Safety Status but ready_ms. -/
def onSst (k : Nat) (f : Fld) : Prop := k = kSst ∧ f.lo + f.w ≤ sst_ready_ms.lo

theorem onSst_started : Started onSst where
  can _ h := absurd h.1 (by decide)
  ready _ h := .inl h.2
  backlog _ h := absurd h.1 (by decide)
  spare i _ h := absurd h.1 (by unfold key kSst key; omega)
  lanes i _ h := absurd h.1 (by unfold key kSst key; omega)

theorem State.Boots.flag {P : Nat → Fld → Prop} {s t : State} (h : s.Boots P t) {k : Nat} {f : Fld} (hP : P k f) :
    t.flag k f = s.flag k f := congrArg (· == 1) (h.fld k f hP)

theorem State.Boots.step {P : Nat → Fld → Prop} {s t : State} (h : s.Boots P t) : t.rst.step = s.rst.step ∧
    t.rst.waitHost = s.rst.waitHost ∧ t.rst.ddrZero = s.rst.ddrZero ∧ t.rst.power = s.rst.power := by
  have hstep := congrArg Rst.step h.rst
  have hwait := congrArg Rst.waitHost h.rst
  have hzero := congrArg Rst.ddrZero h.rst
  have hpower := congrArg Rst.power h.rst
  exact ⟨hstep, hwait, hzero, hpower⟩

/-! ### The steps -/

section Steps

variable {s : State} {ok : Bool} {a hbm ddr k : Nat} (hs : s.rst.safeHold = false)

theorem execStartupStepDone_hold (h : s.rst.safeHold = true) : execStartupStepDone ok a hbm ddr s = .next s := by
  unfold execStartupStepDone
  exact if_pos h

include hs

theorem execStartupStepDone_power (h : s.rst.step = 1) :
    execStartupStepDone ok a hbm ddr s = .next { s with rst := { s.rst with step := 2 } } := by
  unfold execStartupStepDone
  rw [if_neg (by simp [hs]), h]
  rfl

/-- The strap word of the code `c` (R479). -/
def strapWord (c : Nat) : Nat := c + 2 ^ 10 * (c / 64) + 2 ^ 14 * (c / 64 % 4) + 2 ^ 16 * (c / 256)

theorem execStartupStepDone_strap (h : s.rst.step = 2) :
    execStartupStepDone ok a hbm ddr s = .next { s.setEnt kStrp (strapWord (a % 1024)) with rst := { s.rst with step := 3 } } := by
  unfold execStartupStepDone
  rw [if_neg (by simp [hs]), h]
  rfl

theorem execStartupStepDone_rom (h : s.rst.step = 4) : execStartupStepDone ok a hbm ddr s = .next s.bootRom := by
  unfold execStartupStepDone
  rw [if_neg (by simp [hs]), h]
  rfl

theorem execStartupStepDone_slot (h : s.rst.step = 5) (hw : s.rst.waitHost = false) :
    execStartupStepDone ok a hbm ddr s = .next (s.bootSlot (s.strapSlot % 2)) := by
  unfold execStartupStepDone
  rw [if_neg (by simp [hs]), h]
  exact congrArg Host.Outcome.next (if_neg (by simp [hw]))

theorem execStartupStepDone_pll (h : s.rst.step = 6) (hf : s.flag kSst sst_pll_failed = false)
    (ht : s.tele.hold = false ∨ s.rst.trim ≠ 2) : execStartupStepDone ok a hbm ddr s = .next (s.pllDone ok) := by
  unfold execStartupStepDone
  rw [if_neg (by simp [hs]), h]
  refine congrArg Host.Outcome.next (if_neg ?_)
  rcases ht with ht | ht
  · simp [hf, ht]
  · simp [hf, ht]

theorem execStartupStepDone_held (h : s.rst.step = 6) (ht : s.tele.hold = true) (h2 : s.rst.trim = 2) :
    execStartupStepDone ok a hbm ddr s = .next s := by
  unfold execStartupStepDone
  rw [if_neg (by simp [hs]), h]
  exact congrArg Host.Outcome.next (if_pos (by simp [ht, h2]))

theorem execStartupStepDone_memory (h : s.rst.step = 7) : execStartupStepDone ok a hbm ddr s =
    .next (s.memoryDone (a % 2 == 1) (a / 2 % 2 ^ 12) (hbm % 2 ^ 10) (ddr % 2 ^ 12)) := by
  unfold execStartupStepDone
  rw [if_neg (by simp [hs]), h]
  rfl

theorem execTrimAttemptDone_trims (h : s.rst.step = 3) (hp : s.rst.pinHeld = false) : execTrimAttemptDone true s =
    .next (State.setFld { s with rst := { s.rst with step := 4, fails := 0, trim := 1 } } kSst sst_trim_failures s.rst.seqFails) := by
  unfold execTrimAttemptDone
  exact if_pos ⟨h, by rw [hp]; rfl, by rw [hs]; rfl⟩

/-- R481: the third failure in a row begins safe hold. -/
theorem execTrimAttemptDone_fails (h : s.rst.step = 3) (hp : s.rst.pinHeld = false) : execTrimAttemptDone false s =
    .next { s with rst := { s.rst with
      fails := s.rst.fails + 1, seqFails := s.rst.seqFails + 1, safeHold := decide (2 ≤ s.rst.fails) } } := by
  have hthird : decide (3 ≤ s.rst.fails + 1) = decide (2 ≤ s.rst.fails) := decide_eq_decide.mpr (by omega)
  unfold execTrimAttemptDone
  rw [if_pos ⟨h, by rw [hp]; rfl, by rw [hs]; rfl⟩, if_neg Bool.false_ne_true]
  dsimp only
  rw [hthird]

omit hs

theorem execTrimAttemptDone_waits (hp : s.rst.pinHeld = true) : execTrimAttemptDone ok s = .next s := by
  unfold execTrimAttemptDone
  exact if_neg fun h => by simp [hp] at h

theorem strapWord_fields {c : Nat} (hc : c < 1024) : strp_strap_code.of (strapWord c) = c ∧ strp_boot_source.of (strapWord c) = c / 64 % 4 ∧
    strp_field_bits.of (strapWord c) = c / 256 := by
  unfold Fld.of strapWord strp_strap_code strp_boot_source strp_field_bits
  simp only [Nat.reducePow]
  have hlow : c + 1024 * (c / 64) < 16384 := by omega
  have hsrc : (c + 1024 * (c / 64) + 16384 * (c / 64 % 4) + 65536 * (c / 256)) / 16384 = c / 64 % 4 + 4 * (c / 256) := by omega
  have hfield : (c + 1024 * (c / 64) + 16384 * (c / 64 % 4) + 65536 * (c / 256)) / 65536 = c / 256 := by omega
  rw [hsrc, hfield]
  refine ⟨?_, ?_, ?_⟩ <;> omega

/-! ### Recovery and firmware (R484, R486) -/

/-- R484, R499: recovery stands in step 6 with the dictionary available. -/
theorem State.recover_serves (s : State) :
    s.recover.rst.step = 6 ∧ s.recover.flag kSst sst_recovery = true ∧ s.recover.rst.available = true := by
  have h := (State.Boots.refl (P := onSst) ((State.setFlag { s with rst := { s.rst with step := 6 } } kSst sst_recovery true).setFld kSst
    sst_boot_used 3)).makeAvailable onSst_started
  have hflag : ((State.setFlag { s with rst := { s.rst with step := 6 } } kSst sst_recovery true).setFld kSst sst_boot_used 3).flag kSst
      sst_recovery = true := (congrArg (· == 1) (State.fld_setFld_other _ _ _ _ _ (by decide))).trans (State.flag_setFlag_same _ _ _ _ rfl)
  exact ⟨h.step.1, (h.flag ⟨rfl, by decide⟩).trans hflag, State.makeAvailable_available _⟩

/-- The firmware image of slot `j` runs (R484). -/
def State.slotRuns (s : State) (j : Nat) : State :=
  { (s.runFirmware (fwSlotBase j)).setFld kSst sst_boot_used j with rst := { s.rst with step := 6 } }

theorem State.slotRuns_facts (s : State) {j : Nat} (hj : j < 4) :
    (s.slotRuns j).rst.step = 6 ∧ (s.slotRuns j).fld kSst sst_boot_used = j ∧ (s.slotRuns j).mem = s.mem := by
  refine ⟨rfl, ?_, (State.setFld_mem (s := s.runFirmware (fwSlotBase j)) kSst sst_boot_used j).trans rfl⟩
  exact (State.fld_setFld_same (s.runFirmware (fwSlotBase j)) kSst sst_boot_used j).trans (Nat.mod_eq_of_lt hj)

/-- R484: the chosen slot, the other once, or recovery. -/
theorem State.bootSlot_eq (s : State) (k : Nat) : s.bootSlot k = if s.slotVerifies k then s.slotRuns k
    else if s.slotVerifies (1 - k) then ((s.slotFailed k).slotRuns (1 - k)).setFlag kSst sst_boot_fallback true
    else ((s.slotFailed k).slotFailed (1 - k)).recover := rfl

theorem State.slotFallsBack (s : State) {j : Nat} (hj : j < 4) :
    ((s.slotRuns j).setFlag kSst sst_boot_fallback true).rst.step = 6 ∧
    ((s.slotRuns j).setFlag kSst sst_boot_fallback true).fld kSst sst_boot_used = j ∧
    ((s.slotRuns j).setFlag kSst sst_boot_fallback true).flag kSst sst_boot_fallback = true := by
  obtain ⟨hstep, hused, -⟩ := s.slotRuns_facts hj
  exact ⟨hstep, (State.fld_setFld_other _ _ _ _ _ (by decide)).trans hused, State.flag_setFlag_same _ _ _ _ rfl⟩

/-- The strap and the state of the sequence stay when the link trains (R446). -/
def onStrap (k : Nat) (_ : Fld) : Prop := k = kStrp

theorem State.trainLink_boots (s : State) : s.Boots onStrap s.trainLink := by
  have hk : Outside onStrap kHls := fun _ h => absurd (show kHls = kStrp from h) (by decide)
  exact (((State.Boots.refl s).upd.upd).setFld hk).setFld hk

theorem State.bootRom_eq (s : State) : ∃ v, s.Boots onStrap v ∧
    (s.strapSlot < 2 → s.bootRom = { v with rst := { v.rst with step := 5 } }) ∧
    (s.strapSlot = 2 → s.bootRom = { v with rst := { v.rst with step := 5, waitHost := true } }) ∧
    (s.strapSlot = 3 → s.bootRom = v.recover) := by
  have hv : s.Boots onStrap (if s.rst.perst then s else s.trainLink) := .ite (.refl s) s.trainLink_boots
  refine ⟨_, hv, fun h => ?_, fun h => ?_, fun h => ?_⟩
  all_goals
    have hslot := hv.fld kStrp strp_boot_source rfl
    unfold State.bootRom
    dsimp only
    change State.strapSlot _ = s.strapSlot at hslot
    rw [hslot]
  · obtain h0 | h1 : s.strapSlot = 0 ∨ s.strapSlot = 1 := by omega
    · rw [h0]
      rfl
    · rw [h1]
      rfl
  · rw [h]
    rfl
  · rw [h]
    rfl

/-! ### The PLLs (R481, R483, R528) -/

/-- `s` with the PLLs locked and the trim distributed. -/
def State.locked (s : State) : State :=
  { s.setFlag kSst sst_pll_failed false with
    rst := { s.rst with trim := 2 }, time := { s.time with unlocked := [] } }

theorem State.locked_flags (s : State) : s.locked.flag kSst sst_pll_failed = false ∧
    s.locked.flag kSst sst_recovery = s.flag kSst sst_recovery := by
  exact ⟨State.flag_setFlag_same s _ _ _ rfl, congrArg (· == 1) (State.fld_setFld_other s _ _ _ _ (by decide))⟩

theorem State.pllDone_locks (h : s.tele.hold = false) : ∃ u, s.pllDone true = u ∧ u.flag kSst sst_pll_failed = false ∧
    u.rst.step = (if s.flag kSst sst_recovery then 8 else 7) ∧ u.time.unlocked = [] := by
  obtain ⟨hpll, hrec⟩ := s.locked_flags
  have heq : s.pllDone true = { s.locked with
      rst := { s.locked.rst with step := if s.locked.flag kSst sst_recovery then 8 else 7 } } := by
    unfold State.pllDone
    rw [if_pos rfl]
    exact if_neg (by simp [h])
  exact ⟨_, heq, hpll, by rw [hrec], rfl⟩

theorem State.pllDone_holds (h : s.tele.hold = true) (h6 : s.rst.step = 6) :
    (s.pllDone true).rst.step = 6 ∧ (s.pllDone true).rst.available = true ∧ (s.pllDone true).tele.hold = true := by
  have heq : s.pllDone true = s.locked.makeAvailable := by
    unfold State.pllDone
    rw [if_pos rfl]
    exact if_pos h
  have hb := (State.Boots.refl (P := onSst) s.locked).makeAvailable onSst_started
  rw [heq]
  exact ⟨hb.step.1.trans h6, State.makeAvailable_available _, (congrArg Tele.hold hb.tele).trans h⟩

theorem State.pllDone_fails (s : State) : (s.pllDone false).flag kSst sst_pll_failed = true ∧
    (s.pllDone false).rst.available = true ∧ (s.pllDone false).rst.step = s.rst.step := by
  have hb := (State.Boots.refl (P := onSst) (s.setFlag kSst sst_pll_failed true)).makeAvailable onSst_started
  have heq : s.pllDone false = (s.setFlag kSst sst_pll_failed true).makeAvailable := rfl
  rw [heq]
  exact ⟨(hb.flag ⟨rfl, by decide⟩).trans (State.flag_setFlag_same _ _ _ _ rfl), State.makeAvailable_available _, hb.step.1⟩

theorem execPllRetry_retries (h : s.rst.step = 6) (hf : s.flag kSst sst_pll_failed = true) :
    execPllRetry ok s = .next (s.pllDone ok) := by
  unfold execPllRetry
  exact if_pos ⟨h, hf⟩

end Steps

/-! ### Host-only boot (R484, R573) -/

section HostBoot

variable {s : State} {n : Nat}

theorem State.bootCheck_boots (h : n ≤ fwSlotBytes) (hv : s.fwVerifies bootBase n = true) :
    (s.bootCheck n).rst.step = 6 ∧ (s.bootCheck n).rst.waitHost = false ∧ (s.bootCheck n).fld kSst sst_boot_used = 2 ∧
      (s.bootCheck n).rst.bootBytes = n % 2 ^ 24 ∧ (s.bootCheck n).mem = s.mem := by
  unfold State.bootCheck
  rw [if_pos ⟨h, hv⟩]
  refine ⟨rfl, rfl, ?_, rfl, (State.setFld_mem (s := s.runFirmware bootBase) kSst sst_boot_used 2).trans rfl⟩
  exact State.fld_setFld_same (s.runFirmware bootBase) kSst sst_boot_used 2

theorem State.bootCheck_rejects (h : fwSlotBytes < n ∨ s.fwVerifies bootBase n = false) :
    s.bootCheck n = { s with rst := { s.rst with bootBytes := n % 2 ^ 24, bootRejected := true } } := by
  unfold State.bootCheck
  refine if_neg fun ⟨hn, hv⟩ => ?_
  rcases h with h | h
  · exact absurd hn (Nat.not_le.mpr h)
  · exact Bool.noConfusion (h.symm.trans hv)

theorem execBootGo_checks (image : List Byte) (h : s.rst.waitHost = true) : execBootGo n image s =
    .next (State.bootCheck { s with
      mem := writeBytes (zeroRange s.mem bootBase fwSlotBytes) bootBase ((image.take fwSlotBytes).map fun b => b.toNat) } n) := by
  unfold execBootGo
  exact if_pos h

end HostBoot

/-! ### DDR4 is zeroed (R488) -/

section Zeroed

variable {α : Type} [DecidableEq α]

/-- No key of a map in canonical form lies below its first. -/
theorem mget_eq_of_mwfFrom {d : α} {lo : Nat} {m : SMap α} (h : mwfFrom d lo m = true) {k : Nat} (hk : k < lo) : mget d m k = d := by
  cases m with
  | nil => rfl
  | cons e m =>
    obtain ⟨i, v⟩ := e
    have hi : lo ≤ i := of_decide_eq_true (Bool.and_eq_true_iff.mp (Bool.and_eq_true_iff.mp h).1).1
    rw [mget, if_neg (by omega), if_pos (by omega)]

/-- A map in canonical form, restricted to the keys of which `q` holds. -/
theorem mget_filter_key {d : α} {lo : Nat} {m : SMap α} (q : Nat → Bool) (h : mwfFrom d lo m = true) (k : Nat) :
    mget d (m.filter fun c => q c.1) k = if q k then mget d m k else d := by
  induction m generalizing lo with
  | nil => simp [mget]
  | cons e m ih =>
    obtain ⟨i, v⟩ := e
    have htail : mwfFrom d (i + 1) m = true := (Bool.and_eq_true_iff.mp h).2
    have hrec := ih htail
    cases hq : q i with
    | true =>
      rw [List.filter_cons_of_pos (by exact hq), mget, mget, hrec]
      by_cases hki : k = i
      · rw [if_pos hki, if_pos hki, hki, hq, if_pos rfl]
      · rw [if_neg hki, if_neg hki]
        by_cases hlt : k < i
        · rw [if_pos hlt, if_pos hlt, ite_self]
        · rw [if_neg hlt, if_neg hlt]
    | false =>
      rw [List.filter_cons_of_neg (by simp [hq]), hrec, mget]
      by_cases hki : k = i
      · rw [hki, hq, if_neg Bool.false_ne_true, if_neg Bool.false_ne_true]
      · rw [if_neg hki]
        by_cases hlt : k < i
        · rw [if_pos hlt, mget_eq_of_mwfFrom htail (by omega)]
        · rw [if_neg hlt]

end Zeroed

/-- A memory in canonical form with a range written as 0. -/
theorem readByte_zeroRange {m : List Host.Cell} (h : Memory.wf m = true) (a n x : Nat) :
    readByte (zeroRange m a n) x = if x < a ∨ a + n ≤ x then readByte m x else 0 := by
  refine (mget_filter_key (fun k => decide (k < a) || decide (a + n ≤ k)) h x).trans ?_
  by_cases hx : x < a ∨ a + n ≤ x
  · rw [if_pos hx, if_pos (by simpa using hx)]
    rfl
  · rw [if_neg hx, if_neg (by simpa using hx)]

theorem execDdrReady_zeroes {s : State} (h8 : s.rst.step = 8) (hp : s.rst.power = true) (hz : s.rst.ddrZero = false)
    (hok : s.flag kSst sst_ddr_population_ok = true) : execDdrReady s =
      .next (State.setFlag { s with mem := zeroRange s.mem ddrBase (2 ^ 52), rst := { s.rst with ddrZero := true } } kSst
        sst_ddr_ready true) := by
  unfold execDdrReady
  exact if_pos ⟨h8, hp, by rw [hz]; rfl, hok⟩

/-! ### The recorder's headers (R564) -/

/-- What a start takes from the recorder's header: the boots so far, whether it was rebuilt, the next record's number and the latest
slot. -/
structure RecHead.Taken (h : RecHead) (y : Recorder) : Prop where
  boots : y.boots = h.boots + 1
  rebuilt : y.rebuilt = h.rebuilt
  next : y.nextSeq = h.nextSeq
  slot : y.lastSlot = h.lastSlot
  openAt : y.openAt.isSome = true

theorem Recorder.setCopy_frame (x : Recorder) (h : Option RecHead) : (x.setCopy h).boots = x.boots ∧ (x.setCopy h).rebuilt = x.rebuilt ∧
    (x.setCopy h).nextSeq = x.nextSeq ∧ (x.setCopy h).lastSlot = x.lastSlot := by
  unfold Recorder.setCopy
  split
  · exact ⟨rfl, rfl, rfl, rfl⟩
  · exact ⟨rfl, rfl, rfl, rfl⟩

theorem State.bootRecorder_takes (s : State) {h : RecHead} (hc : s.recd.chooseHead = s.recd.withHead h) :
    h.Taken s.bootRecorder.recd := by
  have hframe := Recorder.setCopy_frame { s.recd.withHead h with
    crcFails := min ((s.recd.withHead h).crcFails + (s.recd.withHead h).torn.length) (2 ^ 32 - 1)
    boots := (s.recd.withHead h).boots + 1
    headSeq := (s.recd.withHead h).headSeq + 1 }
  obtain ⟨hboots, hrebuilt, hnext, hslot⟩ := hframe _
  unfold State.bootRecorder
  dsimp only
  rw [hc]
  exact ⟨hboots, hrebuilt, hnext, hslot, rfl⟩

/-- The header that is rebuilt from the slots (R564). -/
def rebuiltHead (slots : SMap (Option RecRec)) : RecHead :=
  { rebuilt := true
    lastSlot := (newestSlot slots).map Prod.fst
    nextSeq := match newestSlot slots with
      | some b => b.2 + 1
      | none => 0 }

theorem rebuiltHead_newest {slots : SMap (Option RecRec)} {k r : Nat} (h : newestSlot slots = some (k, r)) :
    (rebuiltHead slots).nextSeq = r + 1 ∧ (rebuiltHead slots).lastSlot = some k := by
  unfold rebuiltHead
  rw [h]
  exact ⟨rfl, rfl⟩

/-- R564: the header a start takes, by the copies that check. -/
theorem Recorder.chooseHead_cases (x : Recorder) :
    (∀ a b, x.head0 = some a → x.head1 = some b → x.chooseHead = x.withHead (if a.headSeq < b.headSeq then b else a)) ∧
    (∀ a, (x.head0 = some a ∧ x.head1 = none) ∨ (x.head0 = none ∧ x.head1 = some a) → x.chooseHead = x.withHead a) ∧
    (x.head0 = none → x.head1 = none → x.chooseHead = x.withHead (rebuiltHead x.slots)) := by
  refine ⟨fun a b ha hb => ?_, fun a h => ?_, fun ha hb => ?_⟩
  · unfold Recorder.chooseHead
    rw [ha, hb]
  · unfold Recorder.chooseHead
    obtain ⟨ha, hb⟩ | ⟨ha, hb⟩ := h
    · rw [ha, hb]
    · rw [ha, hb]
  · unfold Recorder.chooseHead
    rw [ha, hb]
    rfl

/-! ### Memory training (R282, R483, R485) -/

section Training

variable {s : State} {kind k n m mask hbm ddr : Nat} {pop : Bool} {l : List Nat}

/-- No place. -/
def nowhere (_ : Nat) (_ : Fld) : Prop := False

theorem State.loadStore_boots (s : State) : s.Boots nowhere s.loadStore := by
  have hn : ∀ k, Outside nowhere k := fun _ _ h => h
  unfold State.loadStore State.readStore
  exact .ite (.foldl (.refl s) fun _ _ h => .ite h (h.setEnt (hn _)))
    (.foldl (State.Boots.upd (.refl s)) fun _ _ h => (h.setFld (hn _)).setFld (hn _))

theorem kUnit_inj {u v : Nat} : kUnit kind u = kUnit kind v ↔ u = v := by
  unfold kUnit key
  split <;> omega

/-- The units of `l` are in service as the bits of `m` say. -/
theorem foldl_inService (s : State) : (l.foldl (fun s u => s.setFlag (kUnit kind u) munit_in_service (bit m u)) s).flag (kUnit kind k)
    munit_in_service = if k ∈ l then bit m k else s.flag (kUnit kind k) munit_in_service := by
  induction l generalizing s with
  | nil => rfl
  | cons u l ih =>
    rw [List.foldl_cons, ih]
    by_cases hk : k = u
    · subst hk
      rw [State.flag_setFlag_same _ _ _ _ rfl, ite_self, if_pos (.head l)]
    · have hother : (s.setFlag (kUnit kind u) munit_in_service (bit m u)).flag (kUnit kind k) munit_in_service =
          s.flag (kUnit kind k) munit_in_service :=
        congrArg (· == 1) (State.fld_setFld_ne _ _ _ _ _ _ fun e => hk (kUnit_inj.mp e))
      rw [hother]
      simp [hk]

theorem foldl_inService_other (s : State) {j : Nat} (hj : ∀ u ∈ l, j ≠ kUnit kind u) :
    (l.foldl (fun s u => s.setFlag (kUnit kind u) munit_in_service (bit m u)) s).ent j = s.ent j := by
  induction l generalizing s with
  | nil => rfl
  | cons u l ih =>
    rw [List.foldl_cons, ih _ fun v hv => hj v (.tail u hv)]
    exact State.setFld_ent_other _ _ _ _ _ (hj u (.head l))

/-- The store is read, and the units that trained are in service (R437, R483). -/
def State.trainedUnits (s : State) (pop : Bool) (mask hbm ddr : Nat) : State :=
  let s := { s.loadStore with tend := { s.loadStore.tend with ddrPop := if pop then mask else 0 } }
  let s := (List.range 10).foldl (fun s u => s.setFlag (kUnit 0 u) munit_in_service (bit hbm u)) s
  (List.range 12).foldl (fun s u => s.setFlag (kUnit 1 u) munit_in_service (bit ddr u)) s

/-- Safety Status says what trained (R282, R485, R488). -/
def State.trainedMasks (s : State) (pop : Bool) (hbm ddr : Nat) : State :=
  let s := ((s.setFld kSst sst_hbm_in_service hbm).setFld kSst sst_ddr_in_service ddr).setFlag kSst sst_ddr_population_ok pop
  s.setFlag kSst sst_ddr_ready (pop && (s.rst.ddrZero || !s.rst.power))

theorem State.memoryDone_eq (s : State) (alike : Bool) (mask hbm ddr : Nat) : s.memoryDone alike mask hbm ddr =
    let pop := ddrSupported alike mask
    let ddr := if pop then ddr &&& mask else 0
    let r := ((s.trainedUnits pop mask hbm ddr).trainedMasks pop hbm ddr).bootRecorder
    let x := (if s.storeValid then r else (r.setFlag kSst sst_store_empty true).record 3 0 0).repairStacks
    { x.makeAvailable with rst := { x.makeAvailable.rst with step := 8 } } := rfl

theorem State.trainedUnits_boots (s : State) (pop : Bool) (mask hbm ddr : Nat) :
    State.Boots nowhere { s with tend := { s.tend with ddrPop := if pop then mask else 0 } } (s.trainedUnits pop mask hbm ddr) := by
  have hn : ∀ k, Outside nowhere k := fun _ _ h => h
  have hload := s.loadStore_boots
  have hpop : State.Boots nowhere { s with tend := { s.tend with ddrPop := if pop then mask else 0 } }
      { s.loadStore with tend := { s.loadStore.tend with ddrPop := if pop then mask else 0 } } :=
    ⟨fun _ _ h => h.elim, hload.mem, rfl, hload.tele, hload.rst, hload.recd⟩
  exact .foldl (.foldl hpop fun _ _ h => h.setFld (hn _)) fun _ _ h => h.setFld (hn _)

theorem State.trainedUnits_inService (s : State) (pop : Bool) (mask hbm ddr : Nat) :
    (∀ k, k < 10 → (s.trainedUnits pop mask hbm ddr).flag (kUnit 0 k) munit_in_service = bit hbm k) ∧
      ∀ k, k < 12 → (s.trainedUnits pop mask hbm ddr).flag (kUnit 1 k) munit_in_service = bit ddr k := by
  refine ⟨fun k hk => ?_, fun k hk => ?_⟩
  · have hother : ∀ u ∈ List.range 12, kUnit 0 k ≠ kUnit 1 u := fun u _ => by
      show key (0x27A0 + k) 1 ≠ key (0x27B0 + u) 1
      unfold key
      omega
    unfold State.trainedUnits State.flag State.fld
    dsimp only
    rw [foldl_inService_other _ hother]
    exact (foldl_inService _).trans (if_pos (List.mem_range.mpr hk))
  · exact (foldl_inService _).trans (if_pos (List.mem_range.mpr hk))

/-- The entries below those of the outputs and of Safety Status. -/
def ofUnits (k : Nat) (_ : Fld) : Prop := k < key 0x2800 0

theorem outside_ofUnits : Outside ofUnits kSst := fun _ h => absurd (show kSst < key 0x2800 0 from h) (by decide)

theorem State.trainedMasks_boots (s : State) (pop : Bool) (hbm ddr : Nat) : s.Boots ofUnits (s.trainedMasks pop hbm ddr) :=
  ((((State.Boots.refl s).setFld outside_ofUnits).setFld outside_ofUnits).setFld outside_ofUnits).setFld outside_ofUnits

theorem State.trainedMasks_fields (s : State) (pop : Bool) (hh : hbm < 2 ^ 10) (hd : ddr < 2 ^ 12) :
    (s.trainedMasks pop hbm ddr).fld kSst sst_hbm_in_service = hbm ∧ (s.trainedMasks pop hbm ddr).fld kSst sst_ddr_in_service = ddr ∧
      (s.trainedMasks pop hbm ddr).flag kSst sst_ddr_population_ok = pop ∧
      (s.trainedMasks pop hbm ddr).flag kSst sst_ddr_ready = (pop && (s.rst.ddrZero || !s.rst.power)) := by
  unfold State.trainedMasks
  refine ⟨?_, ?_, ?_, State.flag_setFlag_same _ _ _ _ rfl⟩
  · refine (State.fld_setFld_other _ _ _ _ _ (by decide)).trans ((State.fld_setFld_other _ _ _ _ _ (by decide)).trans
      ((State.fld_setFld_other _ _ _ _ _ (by decide)).trans ?_))
    exact (State.fld_setFld_same _ _ _ _).trans (Nat.mod_eq_of_lt hh)
  · refine (State.fld_setFld_other _ _ _ _ _ (by decide)).trans ((State.fld_setFld_other _ _ _ _ _ (by decide)).trans ?_)
    exact (State.fld_setFld_same _ _ _ _).trans (Nat.mod_eq_of_lt hd)
  · exact (congrArg (· == 1) (State.fld_setFld_other _ _ _ _ _ (by decide))).trans (State.flag_setFlag_same _ _ _ _ rfl)

/-- What the end of training makes of Safety Status and of the units stays. -/
def ofTraining (k : Nat) (f : Fld) : Prop :=
  k = kSst ∧ 8 ≤ f.lo ∧ f.lo + f.w ≤ sst_ready_ms.lo ∨ k < key 0x2800 0 ∧ f = munit_in_service

theorem ofTraining_started : Started ofTraining where
  can _ h := h.elim (fun h => absurd h.1 (by decide)) fun h => absurd h.1 (by decide)
  ready _ h := h.elim (fun h => .inl h.2.2) fun h => absurd h.1 (by decide)
  backlog _ h := h.elim (fun h => absurd h.1 (by decide)) fun h => absurd h.1 (by decide)
  spare i _ h := h.elim (fun h => absurd h.1 (by unfold key kSst key; omega)) fun h => h.2 ▸ by decide
  lanes i _ h := h.elim (fun h => absurd h.1 (by unfold key kSst key; omega)) fun h => h.2 ▸ by decide

theorem State.bootRecorder_fields (s : State) : (∀ k f, s.bootRecorder.fld k f = s.fld k f) ∧ s.bootRecorder.tend = s.tend :=
  ⟨fun _ _ => rfl, rfl⟩

/-- R485, R487: after the recorder, an empty store is noted, the stacks are repaired, and the dictionary becomes available. -/
theorem State.memoryDone_boots (s : State) (alike : Bool) (mask hbm ddr : Nat) :
    let pop := ddrSupported alike mask
    let ddr' := if pop then ddr &&& mask else 0
    let r := ((s.trainedUnits pop mask hbm ddr').trainedMasks pop hbm ddr').bootRecorder
    ∃ y, r.Boots ofTraining y ∧ y.rst.available = true ∧ s.memoryDone alike mask hbm ddr = { y with rst := { y.rst with step := 8 } } ∧
      (s.storeValid = false → y.flag kSst sst_store_empty = true) := by
  intro pop ddr' r
  have hx : r.Boots ofTraining (if s.storeValid then r else (r.setFlag kSst sst_store_empty true).record 3 0 0) := by
    refine .ite (.refl r) ((State.Boots.setFld_beside (.refl r) fun g h => ?_).record ofTraining_started)
    obtain ⟨-, h8, -⟩ | ⟨hk, -⟩ := h
    · exact .inr (by show 7 ≤ g.lo; omega)
    · exact absurd hk (by decide)
  refine ⟨_, (hx.repairStacks ofTraining_started).makeAvailable ofTraining_started, State.makeAvailable_available _,
    State.memoryDone_eq _ _ _ _ _, fun hempty => ?_⟩
  rw [if_neg (by simp [hempty])]
  have hb := (((State.Boots.refl (P := onSst) (r.setFlag kSst sst_store_empty true)).record (ty := 3) (k := 0) (p := 0)
    onSst_started).repairStacks onSst_started).makeAvailable onSst_started
  exact (hb.flag ⟨rfl, by decide⟩).trans (State.flag_setFlag_same _ _ _ _ rfl)

theorem State.Boots.taken {P : Nat → Fld → Prop} {t : State} {h : RecHead} (hb : s.Boots P t) (ht : h.Taken s.recd) : h.Taken t.recd := by
  have hboots := congrArg Recorder.boots hb.recd
  have hrebuilt := congrArg Recorder.rebuilt hb.recd
  have hnext := congrArg Recorder.nextSeq hb.recd
  have hslot := congrArg Recorder.lastSlot hb.recd
  have hopen := congrArg Recorder.openAt hb.recd
  exact ⟨hboots.trans ht.boots, hrebuilt.trans ht.rebuilt, hnext.trans ht.next, hslot.trans ht.slot,
    (congrArg Option.isSome hopen).trans ht.openAt⟩

/-- R564: the header that the start takes from the recorder `x`, as the recorder `y` shows it. -/
def HeaderTaken (x y : Recorder) : Prop :=
  (∀ a b, x.head0 = some a → x.head1 = some b → (if a.headSeq < b.headSeq then b else a).Taken y) ∧
  (∀ a, (x.head0 = some a ∧ x.head1 = none) ∨ (x.head0 = none ∧ x.head1 = some a) → a.Taken y) ∧
  (x.head0 = none → x.head1 = none → (rebuiltHead x.slots).Taken y)

theorem State.bootRecorder_headerTaken (s : State) : HeaderTaken s.recd s.bootRecorder.recd := by
  obtain ⟨hboth, hone, hnone⟩ := s.recd.chooseHead_cases
  exact ⟨fun a b ha hb => s.bootRecorder_takes (hboth a b ha hb), fun a h => s.bootRecorder_takes (hone a h),
    fun ha hb => s.bootRecorder_takes (hnone ha hb)⟩

/-- Some header is always taken. -/
theorem HeaderTaken.some_taken {x y : Recorder} (h : HeaderTaken x y) : ∃ a : RecHead, a.Taken y := by
  obtain ⟨hboth, hone, hnone⟩ := h
  cases h0 : x.head0 with
  | none =>
    cases h1 : x.head1 with
    | none => exact ⟨_, hnone h0 h1⟩
    | some b => exact ⟨_, hone b (.inr ⟨h0, h1⟩)⟩
  | some a =>
    cases h1 : x.head1 with
    | none => exact ⟨_, hone a (.inl ⟨h0, h1⟩)⟩
    | some b => exact ⟨_, hboth a b h0 h1⟩

theorem HeaderTaken.of_stored {x x' y : Recorder} (h : HeaderTaken x y) (hx : x'.stored = x.stored) : HeaderTaken x' y := by
  have h0 := congrArg Recorder.head0 hx
  have h1 := congrArg Recorder.head1 hx
  have hs := congrArg Recorder.slots hx
  change x'.head0 = x.head0 at h0
  change x'.head1 = x.head1 at h1
  change x'.slots = x.slots at hs
  unfold HeaderTaken
  rw [h0, h1, hs]
  exact h

theorem HeaderTaken.boots {P : Nat → Fld → Prop} {x : Recorder} {u : State} (h : HeaderTaken x s.recd) (hb : s.Boots P u) :
    HeaderTaken x u.recd :=
  ⟨fun a b ha hb' => hb.taken (h.1 a b ha hb'), fun a ha => hb.taken (h.2.1 a ha), fun ha hb' => hb.taken (h.2.2 ha hb')⟩

/-- What memory training leaves, of a supported population or not (R282, R483, R485, R487, R488, R564). -/
structure State.Trained (s : State) (pop : Bool) (mask hbm ddr : Nat) (u : State) : Prop where
  step : u.rst.step = 8
  available : u.rst.available = true
  hbmMask : u.fld kSst sst_hbm_in_service = hbm
  ddrMask : u.fld kSst sst_ddr_in_service = ddr
  popOk : u.flag kSst sst_ddr_population_ok = pop
  ready : u.flag kSst sst_ddr_ready = (pop && (s.rst.ddrZero || !s.rst.power))
  ddrPop : u.tend.ddrPop = if pop then mask else 0
  hbmUnits : ∀ k, k < 10 → u.flag (kUnit 0 k) munit_in_service = bit hbm k
  ddrUnits : ∀ k, k < 12 → u.flag (kUnit 1 k) munit_in_service = bit ddr k
  empty : s.storeValid = false → u.flag kSst sst_store_empty = true
  header : HeaderTaken s.recd u.recd

theorem State.memoryDone_trained (s : State) (alike : Bool) {mask hbm ddr : Nat} (hh : hbm < 2 ^ 10) (hd : ddr < 2 ^ 12) :
    s.Trained (ddrSupported alike mask) mask hbm (if ddrSupported alike mask then ddr &&& mask else 0)
      (s.memoryDone alike mask hbm ddr) := by
  obtain ⟨y, hy, hav, heq, hempty⟩ := s.memoryDone_boots alike mask hbm ddr
  generalize ddrSupported alike mask = pop at *
  have hd' : (if pop then ddr &&& mask else 0) < 2 ^ 12 := by
    split
    · exact Nat.lt_of_le_of_lt Nat.and_le_left hd
    · exact Nat.two_pow_pos _
  generalize (if pop = true then ddr &&& mask else 0) = ddr' at *
  have hunits := s.trainedUnits_boots pop mask hbm ddr'
  obtain ⟨hstacks, hchannels⟩ := s.trainedUnits_inService pop mask hbm ddr'
  have hmasks := (s.trainedUnits pop mask hbm ddr').trainedMasks_boots pop hbm ddr'
  obtain ⟨fhbm, fddr, fpop, fready⟩ := (s.trainedUnits pop mask hbm ddr').trainedMasks_fields pop hh hd'
  obtain ⟨hfld, htend⟩ := ((s.trainedUnits pop mask hbm ddr').trainedMasks pop hbm ddr').bootRecorder_fields
  have hhead := (((s.trainedUnits pop mask hbm ddr').trainedMasks pop hbm ddr').bootRecorder_headerTaken.boots hy).of_stored
    (x' := s.recd) (hmasks.recd.trans hunits.recd).symm
  have hsst : ∀ f, 8 ≤ f.lo → f.lo + f.w ≤ sst_ready_ms.lo → y.fld kSst f =
      ((s.trainedUnits pop mask hbm ddr').trainedMasks pop hbm ddr').fld kSst f := fun f h8 hw =>
    (hy.fld kSst f (.inl ⟨rfl, h8, hw⟩)).trans (hfld _ _)
  have hunit : ∀ k, k < key 0x2800 0 → y.flag k munit_in_service =
      (s.trainedUnits pop mask hbm ddr').flag k munit_in_service := fun k hk =>
    (hy.flag (.inr ⟨hk, rfl⟩)).trans ((congrArg (· == 1) (hfld _ _)).trans (hmasks.flag hk))
  obtain ⟨-, -, hzero, hpower⟩ := hunits.step
  rw [heq]
  refine ⟨rfl, hav, (hsst _ (by decide) (by decide)).trans fhbm, (hsst _ (by decide) (by decide)).trans fddr,
    (congrArg (· == 1) (hsst _ (by decide) (by decide))).trans fpop, ?_, ?_, fun k hk => ?_, fun k hk => ?_, hempty, hhead⟩
  · refine (congrArg (· == 1) (hsst _ (by decide) (by decide))).trans (fready.trans ?_)
    rw [hzero, hpower]
  · exact (hy.pop.trans ((congrArg Tend.ddrPop htend).trans hmasks.pop)).trans hunits.pop
  · exact (hunit _ (kUnit_lt (kind := 0) (decide_eq_true hk)).1).trans (hstacks k hk)
  · exact (hunit _ (kUnit_lt (kind := 1) (decide_eq_true hk)).1).trans (hchannels k hk)

theorem ddrSupported_iff (a : Nat) : ddrSupported (a % 2 == 1) (a / 2 % 2 ^ 12) = true ↔
    a % 2 = 1 ∧ (a / 2 % 2 ^ 12 = 0xFFF ∨ a / 2 % 2 ^ 12 = 0x555) := by
  simp only [ddrSupported, Bool.and_eq_true, Bool.or_eq_true, beq_iff_eq]

theorem bit_mod_two_pow {v n i : Nat} (h : i < n) : bit (v % 2 ^ n) i = bit v i := by
  rw [bit_eq_testBit, bit_eq_testBit, Nat.testBit_mod_two_pow, decide_eq_true h, Bool.true_and]

end Training

end Sys2Proof.Machine

end
section
/-! CLAIM. The start-up sequence (R282, R479, R481 to R485, R487, R488, R528, R564, R573). -/
open Sys2Proof Sys2Proof.Machine

/-- Settles O54: each step by its own equation; what the later of its effects leave alone is `State.Boots`. -/
theorem startUpRunsItsSteps : Obligations.StartUpRunsItsSteps := by
  unfold Obligations.StartUpRunsItsSteps
  intro s ok a hbm ddr go served alike used locked
  refine ⟨fun h => if_pos h, fun h => if_neg h, execStartupStepDone_hold, fun hs => ⟨execStartupStepDone_power hs, fun h => ?_,
    fun h hp => ⟨?_, execTrimAttemptDone_fails hs h hp⟩, fun h hp => execTrimAttemptDone_waits hp, fun h => ?_, fun h hw => ?_,
    fun h hf => ?_, fun h => ?_⟩, fun h hf => ?_, fun n image => ?_, fun hwf h8 hp hz hok => ?_⟩
  · obtain ⟨hcode, hsrc, hbits⟩ := strapWord_fields (Nat.mod_lt a (show 0 < 1024 by decide))
    have hent : (s.setEnt kStrp (strapWord (a % 1024))).ent kStrp = strapWord (a % 1024) := State.setEnt_ent_same s _ _
    exact ⟨_, execStartupStepDone_strap hs h, rfl, (congrArg strp_strap_code.of hent).trans hcode,
      (congrArg strp_boot_source.of hent).trans hsrc, (congrArg strp_field_bits.of hent).trans hbits,
      fun j hj => State.setEnt_ent_other s _ _ _ hj⟩
  · exact ⟨_, execTrimAttemptDone_trims hs h hp, rfl, rfl, rfl, State.fld_setFld_same _ _ _ _⟩
  · obtain ⟨v, hv, hlow, htwo, hthree⟩ := s.bootRom_eq
    refine ⟨_, execStartupStepDone_rom hs h, fun hslot => ?_, fun hslot => ?_, fun hslot => ?_⟩
    · rw [hlow hslot]
      exact ⟨rfl, hv.step.2.1⟩
    · rw [htwo hslot]
      exact ⟨rfl, rfl⟩
    · rw [hthree hslot]
      exact v.recover_serves
  · have hexec := execStartupStepDone_slot (ok := ok) (a := a) (hbm := hbm) (ddr := ddr) hs h hw
    rw [State.bootSlot_eq] at hexec
    refine ⟨fun hk => ?_, fun hk hother => ?_, fun hk hother => ?_⟩
    · rw [if_pos hk] at hexec
      exact ⟨_, hexec, s.slotRuns_facts (by omega)⟩
    · rw [if_neg (by simp [hk]), if_pos hother] at hexec
      exact ⟨_, hexec, State.slotFallsBack _ (by omega)⟩
    · rw [if_neg (by simp [hk]), if_neg (by simp [hother])] at hexec
      exact ⟨_, hexec, State.recover_serves _⟩
  · refine ⟨fun hok hhold => ?_, fun hok hhold ht => ?_, execStartupStepDone_held hs h, fun hok ht => ?_⟩
    · subst hok
      obtain ⟨u, rfl, hu⟩ := s.pllDone_locks hhold
      exact ⟨_, execStartupStepDone_pll hs h hf (.inl hhold), hu⟩
    · subst hok
      exact ⟨_, execStartupStepDone_pll hs h hf (.inr ht), (State.pllDone_holds hhold h).1, (State.pllDone_holds hhold h).2⟩
    · subst hok
      obtain ⟨hfail, hav, hstep⟩ := s.pllDone_fails
      exact ⟨_, execStartupStepDone_pll hs h hf ht, hfail, hav, hstep.trans h⟩
  · have ht := s.memoryDone_trained (a % 2 == 1) (mask := a / 2 % 2 ^ 12) (Nat.mod_lt hbm (Nat.two_pow_pos 10))
      (Nat.mod_lt ddr (Nat.two_pow_pos 12))
    have halike : ddrSupported (a % 2 == 1) (a / 2 % 2 ^ 12) = true ↔ alike := ddrSupported_iff a
    have hused : (if ddrSupported (a % 2 == 1) (a / 2 % 2 ^ 12) = true then ddr % 2 ^ 12 &&& (a / 2 % 2 ^ 12) else 0) = used :=
      if_congr halike rfl rfl
    rw [hused] at ht
    obtain ⟨hboth, hone, hnone⟩ := ht.header
    obtain ⟨h0, htaken⟩ := ht.header.some_taken
    refine ⟨_, execStartupStepDone_memory hs h, ht.step, ht.available, ht.hbmMask, ?_, ?_, ht.ddrMask,
      ht.ddrPop.trans (if_congr halike rfl rfl), fun k hk => ?_, fun k hk => ?_, ht.empty, fun a b ha hb => ?_, fun a ha => ?_,
      fun ha hb => ⟨?_, ?_, fun k r hk => ?_⟩, htaken.openAt⟩
    · rw [ht.popOk]
      exact halike
    · rw [ht.ready, Bool.and_eq_true, Bool.or_eq_true, Bool.not_eq_true', halike, and_comm]
    · rw [ht.hbmUnits k hk, bit_mod_two_pow hk]
    · rw [ht.ddrUnits k hk]
    · obtain ⟨hboots, hrebuilt, -, -, -⟩ := hboth a b ha hb
      exact ⟨hboots.trans (congrArg (· + 1) (apply_ite _ _ _ _)), hrebuilt.trans (apply_ite _ _ _ _)⟩
    · exact ⟨(hone a ha).boots, (hone a ha).next⟩
    · exact (hnone ha hb).rebuilt
    · exact (hnone ha hb).boots
    · obtain ⟨hnext, hslot⟩ := rebuiltHead_newest hk
      exact ⟨(hnone ha hb).next.trans hnext, (hnone ha hb).slot.trans hslot⟩
  · refine ⟨fun hhold => ?_, _, execPllRetry_retries h hf, (s.pllDone_fails).1⟩
    obtain ⟨u, rfl, hu⟩ := s.pllDone_locks hhold
    exact ⟨_, execPllRetry_retries h hf, hu⟩
  · intro m v
    refine ⟨fun hw hn hv => ⟨_, execBootGo_checks image hw, State.bootCheck_boots hn hv⟩, fun hw hbad => ?_⟩
    exact (execBootGo_checks image hw).trans (congrArg _ (State.bootCheck_rejects hbad))
  · refine ⟨_, execDdrReady_zeroes h8 hp hz hok, rfl, State.flag_setFlag_same _ _ _ _ rfl, fun x hlo hhi => ?_, fun x hx => ?_,
      fun j hj => State.setFld_ent_other _ _ _ _ _ hj⟩
    · exact (readByte_zeroRange hwf ddrBase (2 ^ 52) x).trans (if_neg (by omega))
    · exact (readByte_zeroRange hwf ddrBase (2 ^ 52) x).trans (if_pos hx)

end
